-- ==== Sys2Proof/Word.lean ====
section
/-! DEFINITION. The word types of the device and their plainest arithmetic. -/

namespace Sys2Proof

abbrev Byte := BitVec 8
abbrev W32 := BitVec 32
abbrev W64 := BitVec 64
abbrev W128 := BitVec 128
abbrev W256 := BitVec 256
abbrev W512 := BitVec 512

/-- A 64-byte line: byte i is bits [8i+7:8i] (R8). -/
abbrev Line := BitVec 512

/-- A register number 0 to 31. -/
abbrev Reg := Fin 32

end Sys2Proof
end

