-- ==== Sys2Proof/Syntax.lean ====
section
/-! DEFINITION. The commands the device takes: one constructor for each row of the opcode table
(95_what_each_step_holds.md: the part's steps, each whole and indivisible). An instruction of a core is
a command that names the core, `c`; every other command names the unit and what its surroundings bring
to it (a frame, a completion, the wrong symbols of a read). Rule numbers are those of spec/. -/

namespace Sys2Proof

/-- A leaky bucket named by LEAKY_BUCKET_LEAK (R147, R217, R243, R340). -/
inductive BucketId where
  | l2 (core way : Nat)      -- an L2 way
  | slc (block way : Nat)    -- an SLC way
  | die (r link : Nat)       -- a die link: 4 x edge + link within the edge
  | mem (ch : Nat)           -- the link bucket of a memory channel
  | port (r f : Nat)         -- a root port
  deriving DecidableEq, Repr

/-- What was wrong with an on-die flit (R216). -/
inductive FlitErr where
  | single | dataDouble | headerOne | headerBoth
  deriving DecidableEq, Repr

/-- State that was lost (R229). -/
inductive StateErr where
  | coreState (c : Nat)            -- register files, rename or scheduler state of a core
  | l2Tag (c : Nat)                -- both copies of an L2 tag
  | dirSet (b set : Nat)           -- both copies of a directory set or SLC tag set
  | action (b : Nat) (i : Nat) (domOk : Bool) -- an action-table entry; domOk: a copy of its domain can be read
  | blockControl (b : Nat)         -- slice control, Noon agent control, or both cores at once
  | channel (ch : Nat)             -- a channel beyond its code
  | port (r f : Nat)
  | function (r : Nat)
  | iotu (r : Nat)
  | morning (r : Nat)
  | stopRouting (b : Nat)          -- routing state of a block stop or an edge stop
  | treeCopies (n : Nat)           -- n disagreeing copies of a Noon tree signal
  | mram (word : Nat) (fixed : Bool)
  deriving DecidableEq, Repr

/-- What a source writes into a record (R226): the fields it chooses itself. -/
structure RecIn where
  src : Nat
  lvl : Nat
  clvl : Nat
  cls : Nat
  typ : Nat
  td : Option Nat
  addr : Option Nat
  synd : List Nat
  prog : Nat
  deriving DecidableEq, Repr

/-- How a completion ended (R336, R338). -/
inductive CplKind where
  | ok | ur | ca | crs | poisoned
  deriving DecidableEq, Repr

/-- A message of the link (R333, R338). -/
inductive MsgKind where
  | intx | vendor | other | errCor | errNonfatal | errFatal
  deriving DecidableEq, Repr

/-- A request of a downstream device (R338, R331). -/
inductive DsKind where
  | write | read | poisonedWrite
  | fetchAdd (w64 : Bool) | swap (w64 : Bool) | cas (w64 : Bool) | cas128
  deriving DecidableEq, Repr

/-- A frame on the CAN FD bus (R399). -/
structure CanFrame where
  ident : Nat
  extended : Bool
  remote : Bool
  fd : Bool
  brs : Bool
  data : List Byte
  deriving DecidableEq, Repr

/-- The commands. -/
inductive Instr where
  /-- ADD (R63): Writes ra + rb, wrapping modulo 2^64, to rd. -/
  | add (c : Nat) (rd ra rb : Reg)
  /-- SUB (R63): Writes ra − rb to rd. -/
  | sub (c : Nat) (rd ra rb : Reg)
  /-- AND (R63): Writes ra AND rb to rd. -/
  | andR (c : Nat) (rd ra rb : Reg)
  /-- OR (R63): Writes ra OR rb to rd. -/
  | orR (c : Nat) (rd ra rb : Reg)
  /-- XOR (R63): Writes ra XOR rb to rd. -/
  | xorR (c : Nat) (rd ra rb : Reg)
  /-- ANDN (R63): Writes ra AND NOT rb to rd. -/
  | andn (c : Nat) (rd ra rb : Reg)
  /-- SLL (R63): Writes ra shifted left by rb[5:0] to rd. -/
  | sll (c : Nat) (rd ra rb : Reg)
  /-- SRL (R63): Writes ra shifted right logically by rb[5:0] to rd. -/
  | srl (c : Nat) (rd ra rb : Reg)
  /-- SRA (R63): Writes ra shifted right arithmetically by rb[5:0] to rd. -/
  | sra (c : Nat) (rd ra rb : Reg)
  /-- ROR (R63): Writes ra rotated right by rb[5:0] to rd. -/
  | ror (c : Nat) (rd ra rb : Reg)
  /-- SLT (R63): Writes 1 to rd if ra < rb signed, else 0. -/
  | slt (c : Nat) (rd ra rb : Reg)
  /-- SLTU (R63): Writes 1 to rd if ra < rb unsigned, else 0. -/
  | sltu (c : Nat) (rd ra rb : Reg)
  /-- MIN (R63): Writes the signed minimum of ra and rb to rd. -/
  | minS (c : Nat) (rd ra rb : Reg)
  /-- MAX (R63): Writes the signed maximum of ra and rb to rd. -/
  | maxS (c : Nat) (rd ra rb : Reg)
  /-- MINU (R63): Writes the unsigned minimum of ra and rb to rd. -/
  | minu (c : Nat) (rd ra rb : Reg)
  /-- MAXU (R63): Writes the unsigned maximum of ra and rb to rd. -/
  | maxu (c : Nat) (rd ra rb : Reg)
  /-- SEL (R63): Writes ra to rd if the old rd is non-zero, else rb. -/
  | sel (c : Nat) (rd ra rb : Reg)
  /-- CLZ (R63): Writes the count of leading zeros of ra to rd. -/
  | clz (c : Nat) (rd ra : Reg)
  /-- CTZ (R63): Writes the count of trailing zeros of ra to rd. -/
  | ctz (c : Nat) (rd ra : Reg)
  /-- POP (R63): Writes the number of ones in ra to rd. -/
  | pop (c : Nat) (rd ra : Reg)
  /-- BSWAP (R63): Writes ra with its byte order reversed to rd. -/
  | bswap (c : Nat) (rd ra : Reg)
  /-- ADDI (R64): Writes ra plus the sign-extended immediate to rd. -/
  | addi (c : Nat) (rd ra : Reg) (imm : BitVec 16)
  /-- ANDI (R64): Writes ra AND the zero-extended immediate to rd. -/
  | andi (c : Nat) (rd ra : Reg) (imm : BitVec 16)
  /-- ORI (R64): Writes ra OR the zero-extended immediate to rd. -/
  | ori (c : Nat) (rd ra : Reg) (imm : BitVec 16)
  /-- XORI (R64): Writes ra XOR the zero-extended immediate to rd. -/
  | xori (c : Nat) (rd ra : Reg) (imm : BitVec 16)
  /-- SLTI (R64): Writes 1 to rd if ra < IMM signed, else 0. -/
  | slti (c : Nat) (rd ra : Reg) (imm : BitVec 16)
  /-- SLTIU (R64): Writes 1 to rd if ra < IMM unsigned, else 0. -/
  | sltiu (c : Nat) (rd ra : Reg) (imm : BitVec 16)
  /-- SHI (R64): Shifts or rotates ra by IMM[5:0] in the mode that IMM[7:6] selects. -/
  | shi (c : Nat) (rd ra : Reg) (imm : BitVec 16)
  /-- MOVZ (R64): Writes the zero-extended immediate, shifted left by 16 × h, to rd. -/
  | movz (c : Nat) (rd h : Reg) (imm : BitVec 16)
  /-- MOVK (R64): Replaces halfword h of rd with the immediate and keeps the other bits. -/
  | movk (c : Nat) (rd h : Reg) (imm : BitVec 16)
  /-- MUL (R65): Writes the low 64 bits of ra × rb to rd. -/
  | mul (c : Nat) (rd ra rb : Reg)
  /-- MULH (R65): Writes the high 64 bits of the signed 128-bit product to rd. -/
  | mulh (c : Nat) (rd ra rb : Reg)
  /-- MULHU (R65): Writes the high 64 bits of the unsigned 128-bit product to rd. -/
  | mulhu (c : Nat) (rd ra rb : Reg)
  /-- DIV (R65): Long operation: signed division truncated toward zero, with fixed results for a zero divisor and overflow. -/
  | divS (c : Nat) (rd ra rb : Reg)
  /-- DIVU (R65): Long operation: unsigned division; a zero divisor gives all ones. -/
  | divu (c : Nat) (rd ra rb : Reg)
  /-- REM (R65): Long operation: signed remainder, with fixed results for a zero divisor and overflow. -/
  | remS (c : Nat) (rd ra rb : Reg)
  /-- REMU (R65): Long operation: unsigned remainder; a zero divisor gives ra. -/
  | remu (c : Nat) (rd ra rb : Reg)
  /-- FADD (R66): Floating-point addition under FPCSR, which can raise FP_TRAP. -/
  | fadd (c : Nat) (sp : Bool) (rd ra rb : Reg)
  /-- FSUB (R66): Floating-point subtraction under FPCSR. -/
  | fsub (c : Nat) (sp : Bool) (rd ra rb : Reg)
  /-- FMUL (R66): Floating-point multiplication under FPCSR. -/
  | fmul (c : Nat) (sp : Bool) (rd ra rb : Reg)
  /-- FDIV (R66): Long operation: floating-point division. -/
  | fdiv (c : Nat) (sp : Bool) (rd ra rb : Reg)
  /-- FSQRT (R66): Long operation: floating-point square root. -/
  | fsqrt (c : Nat) (sp : Bool) (rd ra : Reg)
  /-- FMA (R66): Fused multiply-add into the old rd, with one rounding. -/
  | fma (c : Nat) (sp : Bool) (rd ra rb : Reg)
  /-- FMIN (R66): Writes minimumNumber of ra and rb to rd. -/
  | fmin (c : Nat) (sp : Bool) (rd ra rb : Reg)
  /-- FMAX (R66): Writes maximumNumber of ra and rb to rd. -/
  | fmax (c : Nat) (sp : Bool) (rd ra rb : Reg)
  /-- FCEQ (R66): Quiet floating-point equality compare. -/
  | fceq (c : Nat) (sp : Bool) (rd ra rb : Reg)
  /-- FCLT (R66): Signalling less-than compare. -/
  | fclt (c : Nat) (sp : Bool) (rd ra rb : Reg)
  /-- FCLE (R66): Signalling less-or-equal compare. -/
  | fcle (c : Nat) (sp : Bool) (rd ra rb : Reg)
  /-- FCVTI (R66): Converts a float to a signed 64-bit integer, saturating. -/
  | fcvti (c : Nat) (sp : Bool) (rd ra : Reg)
  /-- FCVTF (R66): Converts a signed integer to a float under RM. -/
  | fcvtf (c : Nat) (sp : Bool) (rd ra : Reg)
  /-- FCVTP (R66): Converts between binary64 and binary32. -/
  | fcvtp (c : Nat) (sp : Bool) (rd ra : Reg)
  /-- FCLASS (R66): Writes the 10-bit class mask of ra to rd. -/
  | fclass (c : Nat) (sp : Bool) (rd ra : Reg)
  /-- LDB (R68): Loads a sign-extended byte. -/
  | ldb (c : Nat) (rd ra : Reg) (imm : BitVec 16)
  /-- LDBU (R68): Loads a zero-extended byte. -/
  | ldbu (c : Nat) (rd ra : Reg) (imm : BitVec 16)
  /-- LDH (R68): Loads a sign-extended halfword. -/
  | ldh (c : Nat) (rd ra : Reg) (imm : BitVec 16)
  /-- LDHU (R68): Loads a zero-extended halfword. -/
  | ldhu (c : Nat) (rd ra : Reg) (imm : BitVec 16)
  /-- LDW (R68): Loads a sign-extended word. -/
  | ldw (c : Nat) (rd ra : Reg) (imm : BitVec 16)
  /-- LDWU (R68): Loads a zero-extended word. -/
  | ldwu (c : Nat) (rd ra : Reg) (imm : BitVec 16)
  /-- LDD (R68): Loads a doubleword. -/
  | ldd (c : Nat) (rd ra : Reg) (imm : BitVec 16)
  /-- LDP (R68): Loads a register pair from two consecutive doublewords. -/
  | ldp (c : Nat) (rd ra : Reg) (imm : BitVec 16)
  /-- LDA (R68): Load-acquire of an aligned doubleword. -/
  | lda (c : Nat) (rd ra : Reg) (imm : BitVec 16)
  /-- STB (R68): Stores the low byte of rd. -/
  | stb (c : Nat) (rd ra : Reg) (imm : BitVec 16)
  /-- STH (R68): Stores the low halfword of rd. -/
  | sth (c : Nat) (rd ra : Reg) (imm : BitVec 16)
  /-- STW (R68): Stores the low word of rd. -/
  | stw (c : Nat) (rd ra : Reg) (imm : BitVec 16)
  /-- STD (R68): Stores the doubleword rd. -/
  | std (c : Nat) (rd ra : Reg) (imm : BitVec 16)
  /-- STP (R68): Stores a register pair. -/
  | stp (c : Nat) (rd ra : Reg) (imm : BitVec 16)
  /-- STL (R68): Store-release of an aligned doubleword. -/
  | stl (c : Nat) (rd ra : Reg) (imm : BitVec 16)
  /-- VLD (R68): Loads 256 bits into a vector register. -/
  | vld (c : Nat) (rd ra : Reg) (imm : BitVec 16)
  /-- VST (R68): Stores 256 bits from a vector register. -/
  | vst (c : Nat) (rd ra : Reg) (imm : BitVec 16)
  /-- LDX (R69): Load-exclusive that sets the reservation on the line. -/
  | ldx (c : Nat) (aq rl dw : Bool) (rd ra : Reg)
  /-- STX (R69): Store-exclusive that stores only if the reservation covers the line, and clears it. -/
  | stx (c : Nat) (aq rl dw : Bool) (rd ra rb : Reg)
  /-- SWP (R69): Atomic swap. -/
  | swp (c : Nat) (aq rl dw : Bool) (rd ra rb : Reg)
  /-- CAS (R69): Atomic compare-and-swap. -/
  | cas (c : Nat) (aq rl dw : Bool) (rd ra rb : Reg)
  /-- AMADD (R69): Atomic add that returns the old value. -/
  | amadd (c : Nat) (aq rl dw : Bool) (rd ra rb : Reg)
  /-- AMAND (R69): Atomic AND that returns the old value. -/
  | amand (c : Nat) (aq rl dw : Bool) (rd ra rb : Reg)
  /-- AMOR (R69): Atomic OR that returns the old value. -/
  | amor (c : Nat) (aq rl dw : Bool) (rd ra rb : Reg)
  /-- AMXOR (R69): Atomic XOR that returns the old value. -/
  | amxor (c : Nat) (aq rl dw : Bool) (rd ra rb : Reg)
  /-- AMMAX (R69): Atomic signed maximum. -/
  | ammax (c : Nat) (aq rl dw : Bool) (rd ra rb : Reg)
  /-- AMMIN (R69): Atomic signed minimum. -/
  | ammin (c : Nat) (aq rl dw : Bool) (rd ra rb : Reg)
  /-- MCPY (R76): Copies rb bytes, step by step, with overlap handled. -/
  | mcpy (c : Nat) (rd ra rb : Reg)
  /-- MSET (R74): Fills rb bytes with the byte ra[7:0], step by step. -/
  | mset (c : Nat) (rd ra rb : Reg)
  /-- MCMP (R77): Compares two byte ranges and stops at the first difference. -/
  | mcmp (c : Nat) (rd ra rb : Reg)
  /-- VADD (R78): Per-element vector addition. -/
  | vadd (c : Nat) (sz : Fin 4) (vd va vb : Reg)
  /-- VSUB (R78): Per-element vector subtraction. -/
  | vsub (c : Nat) (sz : Fin 4) (vd va vb : Reg)
  /-- VAND (R78): Bitwise vector AND. -/
  | vand (c : Nat) (vd va vb : Reg)
  /-- VOR (R78): Bitwise vector OR. -/
  | vor (c : Nat) (vd va vb : Reg)
  /-- VXOR (R78): Bitwise vector XOR. -/
  | vxor (c : Nat) (vd va vb : Reg)
  /-- VSLL (R78): Per-element shift left. -/
  | vsll (c : Nat) (sz : Fin 4) (vd va vb : Reg)
  /-- VSRL (R78): Per-element logical shift right. -/
  | vsrl (c : Nat) (sz : Fin 4) (vd va vb : Reg)
  /-- VSRA (R78): Per-element arithmetic shift right. -/
  | vsra (c : Nat) (sz : Fin 4) (vd va vb : Reg)
  /-- VMIN (R78): Per-element signed minimum. -/
  | vmin (c : Nat) (sz : Fin 4) (vd va vb : Reg)
  /-- VMAX (R78): Per-element signed maximum. -/
  | vmax (c : Nat) (sz : Fin 4) (vd va vb : Reg)
  /-- VMUL (R78): Low half of each element's product. -/
  | vmul (c : Nat) (sz : Fin 4) (vd va vb : Reg)
  /-- VCEQ (R78): Per-element equality mask. -/
  | vceq (c : Nat) (sz : Fin 4) (vd va vb : Reg)
  /-- VCGT (R78): Per-element signed greater-than mask. -/
  | vcgt (c : Nat) (sz : Fin 4) (vd va vb : Reg)
  /-- VPERM (R78): Byte permutation of va, indexed by vb. -/
  | vperm (c : Nat) (vd va vb : Reg)
  /-- VSPLAT (R78): Broadcasts the low bits of a G register to every element. -/
  | vsplat (c : Nat) (sz : Fin 4) (vd ga : Reg)
  /-- VEXT (R78): Extracts one element into a G register. -/
  | vext (c : Nat) (sz : Fin 4) (gd va idx : Reg)
  /-- VFADD (R79): Per-element floating-point addition. -/
  | vfadd (c : Nat) (sp : Bool) (vd va vb : Reg)
  /-- VFSUB (R79): Per-element floating-point subtraction. -/
  | vfsub (c : Nat) (sp : Bool) (vd va vb : Reg)
  /-- VFMUL (R79): Per-element floating-point multiplication. -/
  | vfmul (c : Nat) (sp : Bool) (vd va vb : Reg)
  /-- VFMA (R79): Per-element fused multiply-add. -/
  | vfma (c : Nat) (sp : Bool) (vd va vb : Reg)
  /-- VFDIV (R79): Long operation: per-element floating-point division. -/
  | vfdiv (c : Nat) (sp : Bool) (vd va vb : Reg)
  /-- VFMIN (R79): Per-element minimumNumber. -/
  | vfmin (c : Nat) (sp : Bool) (vd va vb : Reg)
  /-- VFMAX (R79): Per-element maximumNumber. -/
  | vfmax (c : Nat) (sp : Bool) (vd va vb : Reg)
  /-- AESE (R80): One AES encryption round on each 128-bit lane. -/
  | aese (c : Nat) (vd va vb : Reg)
  /-- AESEL (R80): Last AES encryption round, without MixColumns. -/
  | aesel (c : Nat) (vd va vb : Reg)
  /-- AESD (R80): One AES decryption round. -/
  | aesd (c : Nat) (vd va vb : Reg)
  /-- AESDL (R80): Last AES decryption round. -/
  | aesdl (c : Nat) (vd va vb : Reg)
  /-- GMUL (R80): GF(2^128) multiplication in GCM bit order. -/
  | gmul (c : Nat) (vd va vb : Reg)
  /-- SHA512S (R80): Computes the next four SHA-512 message-schedule words. -/
  | sha512s (c : Nat) (vd va vb : Reg)
  /-- SHA512R (R80): Performs two SHA-512 rounds. -/
  | sha512r (c : Nat) (vd va vb : Reg)
  /-- SHA3F (R81): Applies Keccak-f[1600] in place to a 200-byte state in memory. -/
  | sha3f (c : Nat) (ga : Reg)
  /-- AQLD (R162): Loads a 128-bit quantity into one lane. -/
  | aqld (c : Nat) (l : Bool) (vd ga : Reg)
  /-- AQST (R162): Stores one lane as a 128-bit quantity. -/
  | aqst (c : Nat) (l : Bool) (vd ga : Reg)
  /-- ACLR (R162): Clears an accumulator at a given scale. -/
  | aclr (c : Nat) (x : Fin 8) (ga : Reg)
  /-- AADD (R162): Adds an aligned lane quantity into an accumulator. -/
  | aadd (c : Nat) (l : Bool) (x : Fin 8) (va : Reg)
  /-- ASUB (R162): Subtracts an aligned lane quantity from an accumulator. -/
  | asub (c : Nat) (l : Bool) (x : Fin 8) (va : Reg)
  /-- AMAC (R162): Long operation: adds an exact full-width product into an accumulator. -/
  | amac (c : Nat) (l : Bool) (x : Fin 8) (va vb : Reg)
  /-- AMACS (R162): Adds an exact product of short operands into an accumulator. -/
  | amacs (c : Nat) (l : Bool) (x : Fin 8) (va vb : Reg)
  /-- ASCL (R162): Raises an accumulator's scale, multiplying its value by a power of 10. -/
  | ascl (c : Nat) (x : Fin 8) (ga : Reg)
  /-- ARND (R163): Long operation: reads the accumulator out, rounded to scale SD. -/
  | arnd (c : Nat) (l : Bool) (mode : Fin 8) (vd : Reg) (x : Fin 8)
  /-- AMRG (R168): Posts a merge action of an accumulator into a merge-point record. -/
  | amrg (c : Nat) (x : Fin 8) (ga : Reg)
  /-- ASAV (R158): Saves an accumulator as a 64-byte image. -/
  | asav (c : Nat) (x : Fin 8) (ga : Reg)
  /-- ARST (R158): Checks a 64-byte image and restores an accumulator from it. -/
  | arst (c : Nat) (x : Fin 8) (ga : Reg)
  /-- AFLG (R157): Writes an accumulator's flag word to a G register. -/
  | aflg (c : Nat) (gd : Reg) (x : Fin 8)
  /-- AFCLR (R157): Clears an accumulator's sticky flags. -/
  | afclr (c : Nat) (x : Fin 8)
  /-- BR (R83): Unconditional PC-relative branch. -/
  | br (c : Nat) (off : BitVec 26)
  /-- BAL (R83): Branch and link to G31. -/
  | bal (c : Nat) (off : BitVec 26)
  /-- BCC (R83): Conditional PC-relative branch on a comparison of ra and rb. -/
  | bcc (c : Nat) (cond : Fin 8) (ra rb : Reg) (off : BitVec 13)
  /-- JALR (R83): Register jump that writes the return address to rd. -/
  | jalr (c : Nat) (rd ra : Reg) (imm : BitVec 16)
  /-- JR (R83): Register jump. -/
  | jr (c : Nat) (ra : Reg) (imm : BitVec 16)
  /-- LOOP (R84): Starts a hardware loop by setting LS, LE and LC. -/
  | loop (c : Nat) (ra : Reg) (imm : BitVec 16)
  /-- UNDEFINED_ENCODING (R58): An unlisted encoding, forbidden field or zero word raises ILLEGAL. -/
  | undefinedEncoding (c : Nat) (w : BitVec 32)
  /-- CSRR (R89): Reads a control register. -/
  | csrr (c : Nat) (rd : Reg) (csr : BitVec 12)
  /-- CSRW (R89): Writes ra to every bit of a control register under its access codes. -/
  | csrw (c : Nat) (ra : Reg) (csr : BitVec 12)
  /-- CSRS (R89): Writes 1 to the CSR bits that are 1 in ra and returns the old value. -/
  | csrs (c : Nat) (rd ra : Reg) (csr : BitVec 12)
  /-- CSRC (R89): Writes 0 to the CSR bits that are 1 in ra and returns the old value. -/
  | csrc (c : Nat) (rd ra : Reg) (csr : BitVec 12)
  /-- ERET (R47): Returns from an event through the frame, or chains to a takeable pending event. -/
  | eret (c : Nat)
  /-- CALLS (R37): Raises CALL_S. -/
  | calls (c : Nat)
  /-- CALLH (R37): Raises CALL_H. -/
  | callh (c : Nat)
  /-- CALLM (R37): Raises CALL_M. -/
  | callm (c : Nat)
  /-- BRK (R90): Raises BREAK. -/
  | brk (c : Nat)
  /-- WFE (R92): Stops issue until a pending bit is set or a mailbox message arrives, and may enter RET. -/
  | wfe (c : Nat)
  /-- FENCE (R54): Orders the classes of access that its mask names. -/
  | fence (c : Nat) (m : BitVec 4)
  /-- SYNC (R54): Serializes and drains the store queue. -/
  | sync (c : Nat)
  /-- LBAR (R54): Waits for all long operations to complete or deliver IMPRECISE. -/
  | lbar (c : Nat)
  /-- IFENCE (R54): Makes visible stores visible to later fetches and discards fetched instructions. -/
  | ifence (c : Nat)
  /-- BPBAR (R109): Holds younger issue until every older branch has resolved. -/
  | bpbar (c : Nat)
  /-- BPFLUSH (R109): Clears the core's predictor state. -/
  | bpflush (c : Nat)
  /-- DCCLEAN (R91): Writes a dirty copy of the line back to its home and keeps it clean. -/
  | dcclean (c : Nat) (ra : Reg)
  /-- DCFLUSH (R91): Cleans and then invalidates the line in this core's caches. -/
  | dcflush (c : Nat) (ra : Reg)
  /-- DCINV (R91): Invalidates the line without write-back, or flushes it under GUEST. -/
  | dcinv (c : Nat) (ra : Reg)
  /-- DCZERO (R91): Writes 64 zero bytes without reading the line. -/
  | dczero (c : Nat) (ra : Reg)
  /-- ICINV (R91): Invalidates the line in the L1I and the line buffer. -/
  | icinv (c : Nat) (ra : Reg)
  /-- PFL (R91): Shared prefetch hint into the side buffer. -/
  | pfl (c : Nat) (ra : Reg)
  /-- PFS (R91): Exclusive prefetch hint into the side buffer. -/
  | pfs (c : Nat) (ra : Reg)
  /-- PFNT (R91): Streaming prefetch hint into the side buffer. -/
  | pfnt (c : Nat) (ra : Reg)
  /-- TLBIVA (R293): Invalidates local entries of the current regime for one page. -/
  | tlbiva (c : Nat) (ra : Reg)
  /-- TLBIALL (R293): Invalidates all local entries of the current regime and domain. -/
  | tlbiall (c : Nat)
  /-- TLBIGVA (R293): Invalidates local guest entries for one guest page. -/
  | tlbigva (c : Nat) (ra : Reg)
  /-- TLBIDOM (R293): Invalidates every local entry of a domain. -/
  | tlbidom (c : Nat) (ra : Reg)
  /-- NPOST (R181): Checks and posts a Noon action from a 64-byte entry. -/
  | npost (c : Nat) (ra : Reg)
  /-- NRECV (R93): Stores and removes the oldest mailbox message of the current domain. -/
  | nrecv (c : Nat) (rd ra : Reg)
  /-- NWAIT (R92): Waits until NOON_TICK reaches ra; closes ticks for a bound core. -/
  | nwait (c : Nat) (ra : Reg)
  /-- RAND (R90): Returns 64 random bits and a flag, or zeros if none are ready within 200 cc. -/
  | rand (c : Nat) (rd ra : Reg)
  /-- EVENT_ENTRY (R45): Takes an asynchronous or deferred event at an instruction boundary, writing the frame and entering the handler. -/
  | eventEntry (c : Nat)
  /-- LONG_OPERATION_COMPLETE (R105): A long operation delivers its result, or fails and sets STATUS.IMPEND. -/
  | longOperationComplete (c : Nat)
  /-- STORE_WRITE_AFTER_RETIREMENT (R101): A retired store leaves the store queue into the L1D and L2, or into the publish buffer. -/
  | storeWriteAfterRetirement (c : Nat)
  /-- MEMORY_ORDER_REPLAY (R102): A load that read bytes of an older store that resolved later is discarded and refetched. -/
  | memoryOrderReplay (c : Nat)
  /-- STREAM_PREFETCH (R134): A confirmed tracker fetches lines ahead of demand into the side buffer. -/
  | streamPrefetch (c : Nat)
  /-- SIDE_BUFFER_ENTRY_EXPIRE (R133): A side-buffer entry unused for 2,048 cc is dropped with an eviction notice. -/
  | sideBufferEntryExpire (c la : Nat)
  /-- WINDOW_LOCK_COMPLETE (R117): Loading of a metered window completes and LOCKED becomes 1. -/
  | windowLockComplete (c : Nat) (data : Bool)
  /-- CACHE_WALK_COMPLETE (R151): A cleaning or write-back walk completes, CLEANING clears and any disable takes effect. -/
  | cacheWalkComplete (c : Nat)
  /-- RDS (R138): A shared read request at the home slice. -/
  | rds (c la td ks : Nat) (tord stream : Bool)
  /-- RDX (R138): An exclusive read request at the home slice. -/
  | rdx (c la td ks : Nat) (tord stream : Bool)
  /-- UPG (R138): An upgrade request from a shared holder. -/
  | upg (c la : Nat)
  /-- RDZ (R138): An ownership request without data for DCZERO. -/
  | rdz (c la td ks : Nat)
  /-- WB (R138): The release of an M line with its data. -/
  | wb (c la : Nat)
  /-- EVN (R138): The release of an E or S line without data. -/
  | evn (c la : Nat)
  /-- CRD (R138): An uncached coherent read from Cobalt, a device or an uncached core. -/
  | crd (la td ks : Nat)
  /-- CWR (R138): An uncached coherent write of a full or partial line. -/
  | cwr (pa td ks : Nat) (bytes : List (BitVec 8))
  /-- GRANT_ACKNOWLEDGEMENT (R136): A core acknowledges an installed grant, and the directory entry stops being busy. -/
  | grantAcknowledgement (c la : Nat)
  /-- FORWARD_SHARED (R141): An owner serves a forward-shared request and keeps the line in S. -/
  | forwardShared (c la : Nat)
  /-- FORWARD_EXCLUSIVE (R141): An owner serves a forward-exclusive request and invalidates its copy. -/
  | forwardExclusive (c la : Nat)
  /-- INVALIDATION (R137): A core invalidates its copy on the home's order and acknowledges. -/
  | invalidation (c la : Nat)
  /-- SLC_WAYMASK_WRITE (R144): A write of a domain's way mask completes when every slice holds it. -/
  | slcWaymaskWrite (d : Nat) (mask : BitVec 12)
  /-- LEAKY_BUCKET_LEAK (R147): Every LEAK ticks a way, link or port bucket loses 1. -/
  | leakyBucketLeak (b : BucketId)
  /-- DIE_LINK_FLIT_RECEIVE (R217): A die-link receiver checks a flit and requests a replay on failure. -/
  | dieLinkFlitReceive (r link : Nat) (ok : Bool)
  /-- LINK_RETRAIN_COMPLETE (R217): A die-link retrain maps failed lanes to spares and resumes, or is chip-fatal. -/
  | linkRetrainComplete (r link : Nat) (failed : Nat) (done : Bool)
  /-- MESH_FLIT_ERROR (R216): An on-die flit is corrected, poisoned or repaired, or both header copies are bad. -/
  | meshFlitError (b input : Nat) (e : FlitErr) (td : Nat)
  /-- READY_EVALUATION (R434): At mc 212 + 30k an agent evaluates its conditions, sends its ready report and holds certain retirements. -/
  | readyEvaluation (a : Nat)
  /-- ROOT_SAMPLING (R175): At mc 224 + 30k the root samples the reports and orders the boundary or stretches by one quantum. -/
  | rootSampling
  /-- TICK_BOUNDARY (R175): Every copy of NOON_TICK advances and the changes due at the new tick are applied. -/
  | tickBoundary
  /-- TO_STORE_STAGE (R202): A home slice stages a published TO store and acknowledges it. -/
  | toStoreStage (b : Nat)
  /-- PUBLISH_ACKNOWLEDGEMENT (R201): A block frees a publish-buffer entry on its home's acknowledgement. -/
  | publishAcknowledgement (b : Nat)
  /-- ACTION_REGISTER (R186): A forwarded action reaches its applying agent, which keeps it or returns the highest. -/
  | actionRegister (b : Nat)
  /-- ACTION_RESEND_ROUND (R186): Returned actions due at the boundary are requested again and applied in order. -/
  | actionResendRound (a : Nat)
  /-- TICK_TIMER_POST (R195): When NOON_TICK reaches NTCMP, the core's timer source is posted once. -/
  | tickTimerPost (c : Nat)
  /-- HOLD_LIMIT_SLIP (R194): A boundary held past HOLD ticks unbinds the holding cores and instances of the domain. -/
  | holdLimitSlip (td : Nat)
  /-- PPS_EDGE (R198): A rising edge of NOON_PPS_IN captures WALL and steps, slews or trims it. -/
  | ppsEdge (refs : Nat)
  /-- PPS_LOST (R198): Two seconds without an accepted edge set PPS_LOST and post source 3,200. -/
  | ppsLost
  /-- ROUTER_POST (R52): A post to a router entry sets a core's pending bit, is held, or is dropped. -/
  | routerPost (src : Nat)
  /-- MSI_MESSAGE (R51): A write to the message window is delivered through the message route table, or dropped. -/
  | msiMessage (td rid off : Nat) (bytes : List (BitVec 8))
  /-- HELD_POST_DELIVERY (R53): A held post is delivered once its target core can receive it. -/
  | heldPostDelivery (msg : Bool) (i : Nat)
  /-- ROUTE_WRITE (R53): A rewrite of a router entry drops a held post that can no longer be delivered. -/
  | routeWrite (msg : Bool) (i : Nat) (v : BitVec 64)
  /-- LOG_RECORD_WRITE (R231): A record is written to its log ring or dropped, and the notification sources are posted. -/
  | logRecordWrite (log : Nat) (r : RecIn)
  /-- LOG_HTAIL_WRITE (R231): HST advances its read pointer within its unread span. -/
  | logHtailWrite (log p : Nat)
  /-- STATE_ERROR_DETECTED (R229): An uncorrectable loss of state is contained at the lowest level that can contain it. -/
  | stateErrorDetected (e : StateErr)
  /-- CHIP_FATAL_STOP (R235): A chip-fatal error freezes the tick, stops every unit, parks DRAM and PCI Express, and records. -/
  | chipFatalStop (src typ : Nat)
  /-- PLL_LOSS_OF_LOCK (R235): Loss of lock of the root PLL is chip-fatal. -/
  | pllLossOfLock
  /-- PLL_LOCK (R174): The root PLL locks, every divider is released and NOON_TICK starts at 0. -/
  | pllLock
  /-- MEM_READ (R246): A channel reads a line, decodes it, counts corrections and poisons it if uncorrectable. -/
  | memRead (ch la td ks : Nat) (errs : List (Nat × Nat))
  /-- DRAM_REREAD (R264): A line that fails to decode is read once more before it is declared uncorrectable. -/
  | dramReread (ch : Nat) (errs : List (Nat × Nat))
  /-- MEM_WRITE (R246): A channel accepts a full-line write into its write queue and acknowledges it. -/
  | memWrite (ch la td ks : Nat) (data : BitVec 512) (poison : Bool)
  /-- PARTIAL_WRITE (R248): A partial write merges into or allocates a merge-buffer entry. -/
  | partialWrite (ch pa td ks : Nat) (bytes : List (BitVec 8))
  /-- MERGE_ENTRY_CLOSE (R248): A merge-buffer entry closes by window, mask, read or eviction and is written. -/
  | mergeEntryClose (ch la : Nat) (errs : List (Nat × Nat))
  /-- ROW_IDLE_CLOSE (R246): An open row closes after 64 mc without a hit. -/
  | rowIdleClose (ch bank : Nat)
  /-- REFRESH (R244): A same-bank refresh falls due. -/
  | refreshBank (ch bank : Nat)
  /-- CALIBRATION_WINDOW_OPEN (R244): A channel opens its 8 tk calibration window at its tick. -/
  | calibrationWindowOpen (ch : Nat)
  /-- CALIBRATION_WINDOW_CLOSE (R244): The calibration window ends and held requests resume. -/
  | calibrationWindowClose (ch : Nat)
  /-- WRITE_CRC_ERROR (R243): A reported write CRC or parity error repeats the commands and adds to the link bucket. -/
  | writeCrcError (ch la : Nat)
  /-- RETRAIN (R256): A retrain stops intake, enters self-refresh and retrains the PHY. -/
  | retrainChan (ch : Nat)
  /-- RETRAIN_COMPLETE (R256): A channel retrain completes or fails, then falls back or fences. -/
  | retrainComplete (ch : Nat) (ok : Bool)
  /-- CHANNEL_IDLE_RET (R257): A channel idle for the configured ticks enters RET. -/
  | channelIdleRet (ch : Nat)
  /-- CHANNEL_WAKE (R257): A request to a channel in RET wakes it. -/
  | channelWake (ch : Nat)
  /-- TRAINING (R242): The Morning controller reads SPD and trains a channel at start. -/
  | trainChan (ch speed : Nat)
  /-- FILL_COMPLETE (R253): Midnight finishes writing every line of the channels and FILLED becomes 1. -/
  | fillComplete
  /-- SCRUB_PASS_START (R274): A patrol-scrub pass starts at a boundary. -/
  | scrubPassStart (ch : Nat)
  /-- SCRUB_READ (R276): A scrub read checks a line, rewrites a correction or poisons it. -/
  | scrubRead (ch : Nat) (errs : List (Nat × Nat))
  /-- DEVICE_BANK_BUCKET_LEAK (R268): Device and bank buckets lose 1 at every multiple of their LEAK. -/
  | deviceBankBucketLeak (ch : Nat)
  /-- MARK_CONFIRM (R270): The Morning controller confirms a device-mark proposal. -/
  | markConfirm (ch : Nat)
  /-- ROW_REPAIR_LIVE (R279): An immediately applied row repair buffers the row, performs sPPR and writes back. -/
  | rowRepairLive (ch : Nat) (ok : Bool) (bad : List Nat)
  /-- KEY_LOAD (R252): KEY_CMD with OP 1 loads KEY_DATA into a key slot. -/
  | keyLoad
  /-- KEY_GENERATE (R252): KEY_CMD with OP 2 loads a generated key pair. -/
  | keyGenerate
  /-- KEY_NULL (R252): KEY_CMD with OP 3 loads the null key. -/
  | keyNull
  /-- KEY_COMMAND_COMPLETE (R252): A key command completes when every channel holds the new key. -/
  | keyCommandComplete
  /-- TLB_SHOOTDOWN (R295): TLB_SD_CMD.GO starts a shootdown on every core and optionally the IOTUs. -/
  | tlbShootdown
  /-- SHOOTDOWN_COMPLETE (R295): The shootdown completes and BUSY becomes 0. -/
  | shootdownComplete
  /-- ATS_INVALIDATE_COMPLETION (R299): A function's Invalidate Completion arrives. -/
  | atsInvalidateCompletion (r rid : Nat)
  /-- ATS_INVALIDATION_TIMEOUT (R299): One second without completion sets ATSTO and blocks the function's translated requests. -/
  | atsInvalidationTimeout (r rid : Nat)
  /-- DMA_REQUEST (R298): An IOTU translates an untranslated device request and routes it, or faults. -/
  | dmaRequest (r rid : Nat) (pasid : Option Nat) (addr : Nat) (wr : Option (List (BitVec 8))) (len : Nat)
  /-- TRANSLATED_REQUEST (R299): A translated request from an ATS-enabled context is checked and performed. -/
  | translatedRequest (r rid : Nat) (pasid : Option Nat) (addr : Nat) (wr : Option (List (BitVec 8))) (len : Nat)
  /-- ATS_TRANSLATION_REQUEST (R299): An ATS translation request is answered with the combined permissions. -/
  | atsTranslationRequest (r rid : Nat) (pasid : Option Nat) (addr : Nat)
  /-- PAGE_REQUEST (R300): A page request is placed in the event queue or failed. -/
  | pageRequest (r rid : Nat) (pasid : Option Nat) (addr group : Nat) (wr last : Bool)
  /-- PAGE_REQUEST_GROUP_RESPONSE (R301): A write of IOT_PRGR sends one Page Request Group Response. -/
  | pageRequestGroupResponse (r : Nat) (v : BitVec 64)
  /-- IOT_EQB_WRITE (R301): A write of the event-queue base resets HEAD and TAIL. -/
  | iotEqbWrite (r : Nat) (v : BitVec 64)
  /-- DB_TAIL_WRITE (R314): A doorbell tail write is judged and queues descriptors. -/
  | dbTailWrite (r i td tail : Nat)
  /-- RESUME (R318): DB_CTL.RESUME restarts a stopped or erroneous instance. -/
  | resumeDesc (r i td : Nat)
  /-- SKIP (R318): DB_CTL.SKIP completes the stopped descriptor with SKIPPED. -/
  | skipDesc (r i td : Nat)
  /-- ENABLE (R318): Checks the context and ring and makes a free instance active. -/
  | enableInst (r i : Nat)
  /-- QUIESCE (R318): Halts an instance at its next chunk or descriptor boundary. -/
  | quiesceInst (r i : Nat) (desc : Bool)
  /-- QUIESCE_COMPLETE (R303): The chunk in progress completes and the instance becomes QUIESCED. -/
  | quiesceComplete (r i : Nat)
  /-- RUN (R318): Returns a quiesced instance to its previous state. -/
  | runInst (r i : Nat)
  /-- RESET (R318): Clears a free or quiesced instance's queue and progress. -/
  | resetInst (r i : Nat)
  /-- SAVE (R320): Writes a quiesced instance's 512-byte save area. -/
  | saveInst (r i : Nat)
  /-- RESTORE (R320): Reads and checks a save area into a free instance. -/
  | restoreInst (r i : Nat)
  /-- INST_CMD_UNDEFINED (R318): An INST_CMD write of OP 7 to 15 performs nothing and sets RES to UNDEF. -/
  | instCmdUndefined (r i op : Nat)
  /-- CHUNK_DISPATCH (R307): The pipe-input arbiter dispatches an instance's next chunk to a pipe. -/
  | chunkDispatch (r : Nat)
  /-- DESCRIPTOR_START (R312): An instance reads and checks a descriptor. -/
  | descriptorStart (r i : Nat)
  /-- CHUNK_COMPLETE (R302): A chunk has read its source and written its destination, or stopped on a fault. -/
  | chunkComplete (r i : Nat)
  /-- DESCRIPTOR_COMPLETION (R313): After every write is acknowledged, CMPL and PROG are written and the vector may be posted. -/
  | descriptorCompletion (r i : Nat)
  /-- APERTURE_WRITE (R321): A peer write through an inbound window is delivered to a ring slot or refused. -/
  | apertureWrite (r w td rid off : Nat) (rd : Bool) (bytes : List (BitVec 8)) (hdr : List Nat)
  /-- IBW_COMMIT (R323): IBW_COMMIT.GO requests application of the shadow window registers. -/
  | ibwCommit (r : Nat) (mask : BitVec 16)
  /-- IBW_COMMIT_POINT (R323): The shadow values become live between two accepted transactions. -/
  | ibwCommitPoint (r : Nat)
  /-- FUNCTION_CONTAINMENT (R346): An internal error, IOTU fence or FORCE freezes the Cobalt function. -/
  | functionContainment (r cause unit pipe : Nat)
  /-- CONTAINMENT_RELEASE (R347): A RELEASE write sets PEND for a contained function. -/
  | containmentRelease (r : Nat)
  /-- CONTAINMENT_RELEASE_EFFECT (R347): Release takes effect once PEND and QUIET are both 1. -/
  | containmentReleaseEffect (r : Nat)
  /-- POWERSTATE_WRITE (R344): A PowerState write moves the function between D0 and D3hot, or is ignored. -/
  | powerstateWrite (r v : Nat)
  /-- PME_STATUS_CLEAR (R345): A write of 1 clears PME_Status. -/
  | pmeStatusClear (r : Nat)
  /-- COMMAND_REGISTER_WRITE (R342): Setting Bus Master Enable releases held accesses and pending messages. -/
  | commandRegisterWrite (r v : Nat)
  /-- MSIX_ENTRY_UNMASK (R343): Unmasking an MSI-X entry sends its pending message. -/
  | msixEntryUnmask (r e : Nat)
  /-- LINK_TRAINING (R329): A root port trains its link up to its cap and the partner's rate. -/
  | linkTraining (r f width rate cap : Nat) (failed : Nat)
  /-- COMPLETION_RECEIVED (R337): A completion from the link completes its request, or is discarded. -/
  | completionReceived (r f tag : Nat) (k : CplKind) (data : List (BitVec 8)) (hdr : List Nat)
  /-- COMPLETION_TIMEOUT (R335): An outstanding request reaches its completion timeout at a boundary. -/
  | completionTimeout (r f tag : Nat)
  /-- TAG_QUARANTINE_END (R337): A timed-out tag becomes free after twice the timeout. -/
  | tagQuarantineEnd (r f tag : Nat)
  /-- CRS_RETRY (R334): A configuration read answered with CRS is reissued every 1 ms. -/
  | crsRetry (r f tag : Nat)
  /-- PCIE_MESSAGE_RECEIVED (R333): INTx, vendor-defined and unsupported messages are discarded and counted. -/
  | pcieMessageReceived (r f : Nat) (k : MsgKind) (hdr : List Nat)
  /-- ERROR_MESSAGE_RECEIVED (R338): An ERR_COR, ERR_NONFATAL or ERR_FATAL message updates AER or triggers DPC. -/
  | errorMessageReceived (r f : Nat) (k : MsgKind) (hdr : List Nat)
  /-- PME_MESSAGE_RECEIVED (R340): A received PME message posts its source. -/
  | pmeMessageReceived (r f rid : Nat)
  /-- DOWNSTREAM_REQUEST (R338): A memory, AtomicOp or poisoned request from a partner is performed or answered. -/
  | downstreamRequest (r f rid : Nat) (pasid : Option Nat) (k : DsKind) (addr : Nat) (bytes : List (BitVec 8)) (len : Nat) (hdr : List Nat)
  /-- LINK_ERROR_CORRECTED (R340): A correctable link error is counted in the port bucket. -/
  | linkErrorCorrected (r f bit : Nat)
  /-- DPC_TRIGGER (R339): DPC disables the port and completes its outstanding requests. -/
  | dpcTrigger (r f cause : Nat) (hdr : List Nat)
  /-- DPC_TRIGGER_STATUS_CLEAR (R339): Clearing DPC Trigger Status ends containment and retrains the link. -/
  | dpcTriggerStatusClear (r f : Nat)
  /-- RET_ENTRY_COMPLETE (R354): A core's cache walk completes and it enters RET, or stays ON after a wake. -/
  | retEntryComplete (c : Nat)
  /-- CORE_WAKE (R355): A held post, mail or Slate request wakes a core from RET. -/
  | coreWake (c : Nat)
  /-- POWER_TRANSITION_COMPLETE (R362): A domain finishes its transition after its return delay. -/
  | powerTransitionComplete (i : Nat)
  /-- PADHOLD_REL (R361): A write of 1 releases a domain's latched pads. -/
  | padholdRel (i : Nat)
  /-- STACK_IDLE_RET (R358): A stack whose links stay idle for the configured ticks enters RET. -/
  | stackIdleRet (n : Nat)
  /-- STACK_WAKE (R358): Electrical-idle exit, CLKREQ# or an outbound request wakes a stack. -/
  | stackWake (n cause : Nat)
  /-- DAYBREAK (R359): A Daybreak frame, or bus activity if enabled, wakes the CAN FD responder. -/
  | daybreak (frame : Bool)
  /-- TELEMETRY_SAMPLE (R365): Telemetry is sampled every 10,000 tk, and the warning threshold is checked. -/
  | telemetrySample (power : Nat) (temp : Int) (regs : List (Nat × Int × Nat))
  /-- RESET_N_ASSERT (R429): RESET_N low resets every domain except the always-on domain. -/
  | resetNAssert
  /-- START (R370): A release of RESET_N begins phase 0 of a start. -/
  | startDevice
  /-- PHASE_OVERRUN (R370): A phase that exceeds its maximum time writes a record and continues. -/
  | phaseOverrun
  /-- SLOT_SELECTION (R371): In phase 2 Dawn checks the bundle slots and uses one, or enters recovery. -/
  | slotSelection
  /-- HANDOVER (R373): BOOT_CTL.HANDOVER moves SLC-as-RAM to DRAM. -/
  | handover
  /-- RELEASE (R373): BOOT_CTL.RELEASE begins phase 4. -/
  | releaseBoot
  /-- LOCK (R374): BOOT_CTL.LOCK applies the boot lock. -/
  | lockBoot
  /-- BOOT_LOCK_TIMEOUT (R374): The boot lock takes effect 60 s after phase 5 begins. -/
  | bootLockTimeout
  /-- RELEASE_COMPLETE (R370): Phase 4 places microcode, writes the start record and releases the cores. -/
  | releaseComplete
  /-- IMAGE_SESSION_OPEN (R375): A write of DEST opens an image delivery session. -/
  | imageSessionOpen (dest : Nat)
  /-- IMAGE_HEADER (R369): An image header is delivered and checked against codes 1 to 10. -/
  | imageHeader (hdr : List (BitVec 8))
  /-- IMAGE_BODY (R369): An image body is delivered and checked against its hash. -/
  | imageBody (body : List (BitVec 8))
  /-- FINALIZE (R376): Finalize writes the slot directory, or continue resumes a recovery start. -/
  | finalizeImg
  /-- LIVE_RESTART_COMPLETE (R379): The live restart finishes and writes a Vesper record. -/
  | liveRestartComplete
  /-- MONITOR_PLACEMENT (R380): Dawn checks the component 5 image and writes it to DRAM for the monitor. -/
  | monitorPlacement
  /-- NONCE_SIGN (R382): A nonce write makes Dawn sign the Vesper chain head. -/
  | nonceSign (port : Nat) (nonce : List (BitVec 8))
  /-- SLATE_READ (R394): READ returns an object value or a segment of it. -/
  | slateRead (port seq idx sub : Nat) (data : List (BitVec 8))
  /-- SLATE_WRITE (R394): WRITE sets an object now, segment by segment for STR and BLOB. -/
  | slateWrite (port seq idx sub : Nat) (data : List (BitVec 8))
  /-- SLATE_STAGE (R402): STAGE adds a value to the port's stage set. -/
  | slateStage (port seq idx sub : Nat) (data : List (BitVec 8))
  /-- SLATE_COMMIT (R403): COMMIT checks the stage set and accepts it as a pending commit for a tick. -/
  | slateCommit (port seq : Nat) (data : List (BitVec 8))
  /-- SLATE_DISCARD (R402): DISCARD empties the port's stage set and clears its stale mark. -/
  | slateDiscard (port seq : Nat) (data : List (BitVec 8))
  /-- SNAPSHOT_TIMEOUT (R395): A read snapshot unused for 1 s is released. -/
  | snapshotTimeout (port : Nat)
  /-- WRITE_BUFFER_TIMEOUT (R396): A write buffer without a segment for 1 s is discarded. -/
  | writeBufferTimeout (port : Nat)
  /-- LOG_FLD_POINTER_WRITE (R231): A write-now of FLD's read pointer passes records within its span. -/
  | logFldPointerWrite (log p : Nat)
  /-- PROPOSAL_REJECT (R270): A write-now rejects the held marking proposal. -/
  | proposalReject (ch : Nat)
  /-- SPI_READ_STATUS (R400): Returns the service-port status byte and clears NAK. -/
  | spiReadStatus
  /-- SPI_WRITE_MESSAGE (R400): Writes a message on one data line. -/
  | spiWriteMessage (msg : List (BitVec 8))
  /-- SPI_WRITE_MESSAGE_QUAD (R400): Writes a message on four data lines. -/
  | spiWriteMessageQuad (msg : List (BitVec 8))
  /-- SPI_READ_RESPONSE (R400): Reads the response on one data line. -/
  | spiReadResponse (n : Nat)
  /-- SPI_READ_RESPONSE_QUAD (R400): Reads the response on four data lines. -/
  | spiReadResponseQuad (n : Nat)
  /-- SPI_TRANSACTION_NAK (R400): An unlisted opcode, a broken byte boundary or a write while busy is NAKed. -/
  | spiTransactionNak (opcode : Nat) (bytes : List (BitVec 8))
  /-- FIELD_FRAME (R399): A CAN FD frame on the node's request identifier is taken as a Slate message or answered MALFORMED. -/
  | fieldFrame (f : CanFrame)
  /-- BUS_OFF_RECOVERY (R399): The CAN FD node recovers from bus-off after 128 idle sequences. -/
  | busOffRecovery
  /-- HOST_MAILBOX_GO (R401): SL_HCTL.GO hands the host mailbox message to Dawn. -/
  | hostMailboxGo (td : Nat)
  /-- IDCODE (R414): JTAG instruction that selects the 32-bit IDCODE register. -/
  | idcodeTap
  /-- SLATE (R414): JTAG scan that exchanges DBG Slate messages. -/
  | slateTap (bytes : List (BitVec 8)) (bits : Nat)
  /-- CLEAR (R414): JTAG instruction that performs zeroization without enabling a chain. -/
  | clearTap
  /-- SCAN (R414): JTAG instruction that zeroizes and connects the scan chains. -/
  | scanTap
  /-- BYPASS (R414): JTAG bypass, also taken by unlisted instruction values. -/
  | bypassTap (ir : BitVec 8)
  /-- LBIST_DEMAND_START (R413): A write-now starts on-demand LBIST on a spare, failed or under-test unit. -/
  | lbistDemandStart (r u : Nat)
  /-- LBIST_ABORT (R435): A write-now aborts the running LBIST run of a unit. -/
  | lbistAbort (r u : Nat)
  /-- LBIST_PATTERN_TIMEOUT (R411): No pattern completing within 1 ms ends the run as incomplete. -/
  | lbistPatternTimeout (r u : Nat)
  /-- LBIST_RUN_END (R411): An LBIST run ends and is evaluated as PASS, FAIL or INCOMPLETE. -/
  | lbistRunEnd (r u pat : Nat) (sig : BitVec 64) (cause : Nat)
  /-- BLOCK_REPLACEMENT_COMPLETE (R419): The spare takes logical ID b, the map is written and the old position is tested. -/
  | blockReplacementComplete (r : Nat)
  /-- BLOCK_TEST_END (R420): A block test ends and the position becomes a spare or failed. -/
  | blockTestEnd (r p : Nat) (ok : Bool) (repairs : List (BitVec 64))
  /-- THERMAL_TRIP (R430): A die temperature of 115 °C asserts THERMTRIP_N and performs the chip-fatal stop. -/
  | thermalTrip (die : Int)
  /-- PWRGOOD_LOSS (R430): PWRGOOD falling while RESET_N is high performs the chip-fatal stop. -/
  | pwrgoodLoss
  /-- REGISTER_WRITE (R10): A write to a register without a row of its own sets its fields under their access codes. -/
  | registerWrite (td pa : Nat) (bytes : List (BitVec 8))
  /-- POWER_ON (R427): VDD_AON and VDDIO_AON come within range, the always-on logic is powered and WALL reads 0. -/
  | powerOn
  /-- POWER_REMOVED (R430): Removal of VDD_AON loses all volatile state and releases THERMTRIP_N. -/
  | powerRemoved
  /-- RAIL_RANGE_CHANGE (R428): A monitored rail group enters or leaves its operating range, changing object 0x2320 and letting phase 0 end once every bit is 1. -/
  | railRangeChange (bit : Nat) (inRange : Bool)
  /-- BUS_ERROR (R399): A CAN FD bus error updates the error counters, sends error frames and can put the node into bus-off. -/
  | busError (tx : Bool) (inc : Nat)
  /-- CAN_FD_CLOCK_SWITCH (R364): After PLL lock, the CAN FD controller switches from REFCLK to its 80 MHz division once the bus is idle. -/
  | canFdClockSwitch
  /-- MORNING_RESTART_COMPLETE (R229): The reload of a failed Morning controller completes and the paused region services resume. -/
  | morningRestartComplete (r : Nat)
  /-- COMMAND_SLOT (R223): In each command slot, the channel scheduler issues the chosen queued request to the DRAM, including writes from the write queue. -/
  | commandSlot (ch : Nat)
  deriving DecidableEq, Repr

end Sys2Proof
end

