-- ==== Sys2Proof/Decode.lean ====
section
/-! DEFINITION. Words: which 32-bit words the instruction tables list, the word of an instruction and the instruction of a
word, and the command that a table word spells. -/

namespace Sys2Proof

/-- Bits [lo+n-1:lo] of an instruction word (R57). -/
def wordField (w : BitVec 32) (lo n : Nat) : Nat := w.toNat / 2 ^ lo % 2 ^ n

/-- Format RR: OP 0x01 to 0x05 (R63, R65, R66, R69, R74). `fn` is FN and `rb` the rb field. -/
def listedRR (op fn rb : Nat) : Bool :=
  match op with
  | 0x01 => decide (fn ≤ 5) || (decide (8 ≤ fn) && decide (fn ≤ 0xB)) || (decide (0x10 ≤ fn) && decide (fn ≤ 0x15))
    || decide (fn = 0x18) || (decide (0x20 ≤ fn) && decide (fn ≤ 0x23) && decide (rb = 0))
  | 0x02 => decide (fn ≤ 2) || (decide (8 ≤ fn) && decide (fn ≤ 0xB))
  | 0x03 =>
    let f := fn % 1024
    (decide (f ≤ 0xA) && (decide (f ≠ 4) || decide (rb = 0))) || (decide (0x10 ≤ f) && decide (f ≤ 0x13))
  | 0x04 => decide (fn ≤ 2)
  | 0x05 => decide (2 ≤ fn / 128 % 4) && decide (fn / 16 % 8 = 0) && decide (fn % 16 ≤ 9)
  | _ => false

/-- Format RI: OP 0x08 to 0x24 (R64, R68, R83). -/
def listedRI (op rd ra imm : Nat) : Bool :=
  match op with
  | 0x0E => decide (imm < 256)
  | 0x0F => decide (ra ≤ 3)
  | 0x10 => decide (ra ≤ 3)
  | 0x11 => decide (rd = 0) && decide (imm < 64)
  | 0x13 => decide (rd = 0)
  | 0x1B => decide (rd % 2 = 0)
  | 0x21 => decide (rd % 2 = 0)
  | _ => (decide (0x08 ≤ op) && decide (op ≤ 0x24))

/-- Format VA: OP 0x30 to 0x33 (R78 to R80, R82, R162). -/
def listedVA (op vd va vb acc fn : Nat) : Bool :=
  match op with
  | 0x30 =>
    let f := fn / 4
    let sz := fn % 4
    decide (acc = 0) && ((decide (f ≤ 1)) || (decide (2 ≤ f) && decide (f ≤ 4) && decide (sz = 0))
      || (decide (5 ≤ f) && decide (f ≤ 0xC)) || (decide (f = 0x10) && decide (sz = 0)) || decide (f = 0x11)
      || (decide (f = 0x12) && decide (vb < 32 / 2 ^ sz)))
  | 0x31 => decide (fn / 2 % 2 = 0) && decide (fn / 4 ≤ 6)
  | 0x32 => decide (acc = 0) && (decide (fn ≤ 4) || decide (fn = 8) || decide (fn = 9)
      || (decide (fn = 0x10) && decide (vd = 0) && decide (vb = 0)))
  | 0x33 =>
    let l0 := decide (fn / 8 % 2 = 0)
    let m0 := decide (fn % 8 = 0)
    match fn / 16 with
    | 0x0 => m0 && decide (vb = 0) && decide (acc = 0)
    | 0x1 => m0 && decide (vb = 0) && decide (acc = 0)
    | 0x2 => m0 && l0 && decide (vd = 0) && decide (vb = 0)
    | 0x3 => m0 && decide (vd = 0) && decide (vb = 0)
    | 0x4 => m0 && decide (vd = 0) && decide (vb = 0)
    | 0x5 => m0 && decide (vd = 0)
    | 0x6 => m0 && decide (vd = 0)
    | 0x7 => m0 && l0 && decide (vd = 0) && decide (vb = 0)
    | 0x8 => decide (fn % 8 ≤ 5) && decide (va = 0) && decide (vb = 0)
    | 0x9 => m0 && l0 && decide (vd = 0) && decide (vb = 0)
    | 0xA => m0 && l0 && decide (vd = 0) && decide (vb = 0)
    | 0xB => m0 && l0 && decide (vd = 0) && decide (vb = 0)
    | 0xC => m0 && l0 && decide (va = 0) && decide (vb = 0)
    | 0xD => m0 && l0 && decide (vd = 0) && decide (va = 0) && decide (vb = 0)
    | _ => false
  | _ => false

/-- Format SY: OP 0x38 and 0x39 (R89, R90). -/
def listedSY (op rd ra sub imm : Nat) : Bool :=
  match op, sub with
  | 0x38, 0 => decide (ra = 0)
  | 0x38, 1 => decide (rd = 0)
  | 0x38, 2 => true
  | 0x38, 3 => true
  | 0x39, 0 => decide (imm ≤ 5) && decide (rd = 0) && decide (ra = 0)
  | 0x39, 1 => (decide (imm < 16) || (decide (imm % 16 = 0) && decide (imm ≤ 0x50))) && decide (rd = 0) && decide (ra = 0)
  | 0x39, 2 => decide (imm ≤ 7) && decide (rd = 0)
  | 0x39, 3 => decide (imm ≤ 3) && decide (rd = 0) && (decide (imm ≠ 1) || decide (ra = 0))
  | 0x39, 4 => decide (imm = 1) || ((decide (imm = 0) || decide (imm = 2)) && decide (rd = 0))
  | 0x39, 5 => decide (imm = 0)
  | _, _ => false

/-- The word is one that the tables list, with every field that a row fixes at its value; any other raises ILLEGAL
(R57 to R59). -/
def listed (w : BitVec 32) : Bool :=
  let op := wordField w 26 6
  let rd := wordField w 21 5
  let ra := wordField w 16 5
  let rb := wordField w 11 5
  if op < 0x08 then listedRR op (wordField w 0 11) rb
  else if op ≤ 0x24 then listedRI op rd ra (wordField w 0 16)
  else if op = 0x28 ∨ op = 0x29 then true
  else if op = 0x2A then decide (wordField w 13 3 ≤ 5)
  else if 0x30 ≤ op ∧ op ≤ 0x33 then listedVA op rd ra rb (wordField w 8 3) (wordField w 0 8)
  else if op = 0x38 ∨ op = 0x39 then listedSY op rd ra (wordField w 12 4) (wordField w 0 12)
  else false

/-! ### Encodings (R57, R59) -/

/-- Format RR. -/
def wordRR (op rd ra rb fn : Nat) : BitVec 32 :=
  BitVec.ofNat 32 (op * 2 ^ 26 + rd * 2 ^ 21 + ra * 2 ^ 16 + rb * 2 ^ 11 + fn)

/-- Format RI. -/
def wordRI (op rd ra : Nat) (imm : BitVec 16) : BitVec 32 :=
  BitVec.ofNat 32 (op * 2 ^ 26 + rd * 2 ^ 21 + ra * 2 ^ 16 + imm.toNat)

/-- Format BL. -/
def wordBL (op : Nat) (off : BitVec 26) : BitVec 32 := BitVec.ofNat 32 (op * 2 ^ 26 + off.toNat)

/-- Format BC. -/
def wordBC (ra rb cond : Nat) (off : BitVec 13) : BitVec 32 :=
  BitVec.ofNat 32 (0x2A * 2 ^ 26 + ra * 2 ^ 21 + rb * 2 ^ 16 + cond * 2 ^ 13 + off.toNat)

/-- Format VA. -/
def wordVA (op vd va vb acc fn : Nat) : BitVec 32 :=
  BitVec.ofNat 32 (op * 2 ^ 26 + vd * 2 ^ 21 + va * 2 ^ 16 + vb * 2 ^ 11 + acc * 2 ^ 8 + fn)

/-- Format SY. -/
def wordSY (op rd ra sub imm : Nat) : BitVec 32 :=
  BitVec.ofNat 32 (op * 2 ^ 26 + rd * 2 ^ 21 + ra * 2 ^ 16 + sub * 2 ^ 12 + imm)

/-- FN of an atomic instruction: AQ, RL, the size and the operation (R69). -/
def atomFn (aq rl dw : Bool) (f : Nat) : Nat := 1024 * aq.toNat + 512 * rl.toNat + 256 + 128 * dw.toNat + f

/-- The word of an instruction of a core, from the tables of chapter 03 (R63 to R90); none for a command that is no
instruction. A field that a row does not use is 0. -/
def encode : Instr → Option (BitVec 32)
  | .add _ rd ra rb => some (wordRR 0x01 rd.val ra.val rb.val 0x000)
  | .sub _ rd ra rb => some (wordRR 0x01 rd.val ra.val rb.val 0x001)
  | .andR _ rd ra rb => some (wordRR 0x01 rd.val ra.val rb.val 0x002)
  | .orR _ rd ra rb => some (wordRR 0x01 rd.val ra.val rb.val 0x003)
  | .xorR _ rd ra rb => some (wordRR 0x01 rd.val ra.val rb.val 0x004)
  | .andn _ rd ra rb => some (wordRR 0x01 rd.val ra.val rb.val 0x005)
  | .sll _ rd ra rb => some (wordRR 0x01 rd.val ra.val rb.val 0x008)
  | .srl _ rd ra rb => some (wordRR 0x01 rd.val ra.val rb.val 0x009)
  | .sra _ rd ra rb => some (wordRR 0x01 rd.val ra.val rb.val 0x00a)
  | .ror _ rd ra rb => some (wordRR 0x01 rd.val ra.val rb.val 0x00b)
  | .slt _ rd ra rb => some (wordRR 0x01 rd.val ra.val rb.val 0x010)
  | .sltu _ rd ra rb => some (wordRR 0x01 rd.val ra.val rb.val 0x011)
  | .minS _ rd ra rb => some (wordRR 0x01 rd.val ra.val rb.val 0x012)
  | .maxS _ rd ra rb => some (wordRR 0x01 rd.val ra.val rb.val 0x013)
  | .minu _ rd ra rb => some (wordRR 0x01 rd.val ra.val rb.val 0x014)
  | .maxu _ rd ra rb => some (wordRR 0x01 rd.val ra.val rb.val 0x015)
  | .sel _ rd ra rb => some (wordRR 0x01 rd.val ra.val rb.val 0x018)
  | .clz _ rd ra => some (wordRR 0x01 rd.val ra.val 0 0x020)
  | .ctz _ rd ra => some (wordRR 0x01 rd.val ra.val 0 0x021)
  | .pop _ rd ra => some (wordRR 0x01 rd.val ra.val 0 0x022)
  | .bswap _ rd ra => some (wordRR 0x01 rd.val ra.val 0 0x023)
  | .mul _ rd ra rb => some (wordRR 0x02 rd.val ra.val rb.val 0x000)
  | .mulh _ rd ra rb => some (wordRR 0x02 rd.val ra.val rb.val 0x001)
  | .mulhu _ rd ra rb => some (wordRR 0x02 rd.val ra.val rb.val 0x002)
  | .divS _ rd ra rb => some (wordRR 0x02 rd.val ra.val rb.val 0x008)
  | .divu _ rd ra rb => some (wordRR 0x02 rd.val ra.val rb.val 0x009)
  | .remS _ rd ra rb => some (wordRR 0x02 rd.val ra.val rb.val 0x00a)
  | .remu _ rd ra rb => some (wordRR 0x02 rd.val ra.val rb.val 0x00b)
  | .fadd _ sp rd ra rb => some (wordRR 0x03 rd.val ra.val rb.val (1024 * sp.toNat + 0x0))
  | .fsub _ sp rd ra rb => some (wordRR 0x03 rd.val ra.val rb.val (1024 * sp.toNat + 0x1))
  | .fmul _ sp rd ra rb => some (wordRR 0x03 rd.val ra.val rb.val (1024 * sp.toNat + 0x2))
  | .fdiv _ sp rd ra rb => some (wordRR 0x03 rd.val ra.val rb.val (1024 * sp.toNat + 0x3))
  | .fma _ sp rd ra rb => some (wordRR 0x03 rd.val ra.val rb.val (1024 * sp.toNat + 0x5))
  | .fmin _ sp rd ra rb => some (wordRR 0x03 rd.val ra.val rb.val (1024 * sp.toNat + 0x6))
  | .fmax _ sp rd ra rb => some (wordRR 0x03 rd.val ra.val rb.val (1024 * sp.toNat + 0x7))
  | .fceq _ sp rd ra rb => some (wordRR 0x03 rd.val ra.val rb.val (1024 * sp.toNat + 0x8))
  | .fclt _ sp rd ra rb => some (wordRR 0x03 rd.val ra.val rb.val (1024 * sp.toNat + 0x9))
  | .fcle _ sp rd ra rb => some (wordRR 0x03 rd.val ra.val rb.val (1024 * sp.toNat + 0xa))
  | .fsqrt _ sp rd ra => some (wordRR 0x03 rd.val ra.val 0 (1024 * sp.toNat + 0x4))
  | .fcvti _ sp rd ra => some (wordRR 0x03 rd.val ra.val 0 (1024 * sp.toNat + 0x10))
  | .fcvtf _ sp rd ra => some (wordRR 0x03 rd.val ra.val 0 (1024 * sp.toNat + 0x11))
  | .fcvtp _ sp rd ra => some (wordRR 0x03 rd.val ra.val 0 (1024 * sp.toNat + 0x12))
  | .fclass _ sp rd ra => some (wordRR 0x03 rd.val ra.val 0 (1024 * sp.toNat + 0x13))
  | .mcpy _ rd ra rb => some (wordRR 0x04 rd.val ra.val rb.val 0x000)
  | .mset _ rd ra rb => some (wordRR 0x04 rd.val ra.val rb.val 0x001)
  | .mcmp _ rd ra rb => some (wordRR 0x04 rd.val ra.val rb.val 0x002)
  | .ldx _ aq rl dw rd ra => some (wordRR 0x05 rd.val ra.val 0 (atomFn aq rl dw 0))
  | .stx _ aq rl dw rd ra rb => some (wordRR 0x05 rd.val ra.val rb.val (atomFn aq rl dw 1))
  | .swp _ aq rl dw rd ra rb => some (wordRR 0x05 rd.val ra.val rb.val (atomFn aq rl dw 2))
  | .cas _ aq rl dw rd ra rb => some (wordRR 0x05 rd.val ra.val rb.val (atomFn aq rl dw 3))
  | .amadd _ aq rl dw rd ra rb => some (wordRR 0x05 rd.val ra.val rb.val (atomFn aq rl dw 4))
  | .amand _ aq rl dw rd ra rb => some (wordRR 0x05 rd.val ra.val rb.val (atomFn aq rl dw 5))
  | .amor _ aq rl dw rd ra rb => some (wordRR 0x05 rd.val ra.val rb.val (atomFn aq rl dw 6))
  | .amxor _ aq rl dw rd ra rb => some (wordRR 0x05 rd.val ra.val rb.val (atomFn aq rl dw 7))
  | .ammax _ aq rl dw rd ra rb => some (wordRR 0x05 rd.val ra.val rb.val (atomFn aq rl dw 8))
  | .ammin _ aq rl dw rd ra rb => some (wordRR 0x05 rd.val ra.val rb.val (atomFn aq rl dw 9))
  | .addi _ rd ra imm => some (wordRI 0x08 rd.val ra.val imm)
  | .andi _ rd ra imm => some (wordRI 0x09 rd.val ra.val imm)
  | .ori _ rd ra imm => some (wordRI 0x0a rd.val ra.val imm)
  | .xori _ rd ra imm => some (wordRI 0x0b rd.val ra.val imm)
  | .slti _ rd ra imm => some (wordRI 0x0c rd.val ra.val imm)
  | .sltiu _ rd ra imm => some (wordRI 0x0d rd.val ra.val imm)
  | .shi _ rd ra imm => some (wordRI 0x0e rd.val ra.val imm)
  | .ldb _ rd ra imm => some (wordRI 0x14 rd.val ra.val imm)
  | .ldbu _ rd ra imm => some (wordRI 0x15 rd.val ra.val imm)
  | .ldh _ rd ra imm => some (wordRI 0x16 rd.val ra.val imm)
  | .ldhu _ rd ra imm => some (wordRI 0x17 rd.val ra.val imm)
  | .ldw _ rd ra imm => some (wordRI 0x18 rd.val ra.val imm)
  | .ldwu _ rd ra imm => some (wordRI 0x19 rd.val ra.val imm)
  | .ldd _ rd ra imm => some (wordRI 0x1a rd.val ra.val imm)
  | .ldp _ rd ra imm => some (wordRI 0x1b rd.val ra.val imm)
  | .lda _ rd ra imm => some (wordRI 0x1c rd.val ra.val imm)
  | .stb _ rd ra imm => some (wordRI 0x1d rd.val ra.val imm)
  | .sth _ rd ra imm => some (wordRI 0x1e rd.val ra.val imm)
  | .stw _ rd ra imm => some (wordRI 0x1f rd.val ra.val imm)
  | .std _ rd ra imm => some (wordRI 0x20 rd.val ra.val imm)
  | .stp _ rd ra imm => some (wordRI 0x21 rd.val ra.val imm)
  | .stl _ rd ra imm => some (wordRI 0x22 rd.val ra.val imm)
  | .vld _ rd ra imm => some (wordRI 0x23 rd.val ra.val imm)
  | .vst _ rd ra imm => some (wordRI 0x24 rd.val ra.val imm)
  | .movz _ rd h imm => some (wordRI 0x0f rd.val h.val imm)
  | .movk _ rd h imm => some (wordRI 0x10 rd.val h.val imm)
  | .loop _ ra imm => some (wordRI 0x11 0 ra.val imm)
  | .jalr _ rd ra imm => some (wordRI 0x12 rd.val ra.val imm)
  | .jr _ ra imm => some (wordRI 0x13 0 ra.val imm)
  | .br _ off => some (wordBL 0x28 off)
  | .bal _ off => some (wordBL 0x29 off)
  | .bcc _ cond ra rb off => some (wordBC ra.val rb.val cond.val off)
  | .vadd _ sz vd va vb => some (wordVA 0x30 vd.val va.val vb.val 0 (4 * 0x00 + sz.val))
  | .vsub _ sz vd va vb => some (wordVA 0x30 vd.val va.val vb.val 0 (4 * 0x01 + sz.val))
  | .vsll _ sz vd va vb => some (wordVA 0x30 vd.val va.val vb.val 0 (4 * 0x05 + sz.val))
  | .vsrl _ sz vd va vb => some (wordVA 0x30 vd.val va.val vb.val 0 (4 * 0x06 + sz.val))
  | .vsra _ sz vd va vb => some (wordVA 0x30 vd.val va.val vb.val 0 (4 * 0x07 + sz.val))
  | .vmin _ sz vd va vb => some (wordVA 0x30 vd.val va.val vb.val 0 (4 * 0x08 + sz.val))
  | .vmax _ sz vd va vb => some (wordVA 0x30 vd.val va.val vb.val 0 (4 * 0x09 + sz.val))
  | .vmul _ sz vd va vb => some (wordVA 0x30 vd.val va.val vb.val 0 (4 * 0x0a + sz.val))
  | .vceq _ sz vd va vb => some (wordVA 0x30 vd.val va.val vb.val 0 (4 * 0x0b + sz.val))
  | .vcgt _ sz vd va vb => some (wordVA 0x30 vd.val va.val vb.val 0 (4 * 0x0c + sz.val))
  | .vand _ vd va vb => some (wordVA 0x30 vd.val va.val vb.val 0 (4 * 0x02))
  | .vor _ vd va vb => some (wordVA 0x30 vd.val va.val vb.val 0 (4 * 0x03))
  | .vxor _ vd va vb => some (wordVA 0x30 vd.val va.val vb.val 0 (4 * 0x04))
  | .vperm _ vd va vb => some (wordVA 0x30 vd.val va.val vb.val 0 (4 * 0x10))
  | .vsplat _ sz vd ga => some (wordVA 0x30 vd.val ga.val 0 0 (4 * 0x11 + sz.val))
  | .vext _ sz gd va idx => some (wordVA 0x30 gd.val va.val idx.val 0 (4 * 0x12 + sz.val))
  | .vfadd _ sp vd va vb => some (wordVA 0x31 vd.val va.val vb.val 0 (4 * 0x00 + sp.toNat))
  | .vfsub _ sp vd va vb => some (wordVA 0x31 vd.val va.val vb.val 0 (4 * 0x01 + sp.toNat))
  | .vfmul _ sp vd va vb => some (wordVA 0x31 vd.val va.val vb.val 0 (4 * 0x02 + sp.toNat))
  | .vfma _ sp vd va vb => some (wordVA 0x31 vd.val va.val vb.val 0 (4 * 0x03 + sp.toNat))
  | .vfdiv _ sp vd va vb => some (wordVA 0x31 vd.val va.val vb.val 0 (4 * 0x04 + sp.toNat))
  | .vfmin _ sp vd va vb => some (wordVA 0x31 vd.val va.val vb.val 0 (4 * 0x05 + sp.toNat))
  | .vfmax _ sp vd va vb => some (wordVA 0x31 vd.val va.val vb.val 0 (4 * 0x06 + sp.toNat))
  | .aese _ vd va vb => some (wordVA 0x32 vd.val va.val vb.val 0 0x00)
  | .aesel _ vd va vb => some (wordVA 0x32 vd.val va.val vb.val 0 0x01)
  | .aesd _ vd va vb => some (wordVA 0x32 vd.val va.val vb.val 0 0x02)
  | .aesdl _ vd va vb => some (wordVA 0x32 vd.val va.val vb.val 0 0x03)
  | .gmul _ vd va vb => some (wordVA 0x32 vd.val va.val vb.val 0 0x04)
  | .sha512s _ vd va vb => some (wordVA 0x32 vd.val va.val vb.val 0 0x08)
  | .sha512r _ vd va vb => some (wordVA 0x32 vd.val va.val vb.val 0 0x09)
  | .sha3f _ ga => some (wordVA 0x32 0 ga.val 0 0 0x10)
  | .aqld _ l vd ga => some (wordVA 0x33 vd.val ga.val 0 0 (16 * 0x0 + 8 * l.toNat))
  | .aqst _ l vd ga => some (wordVA 0x33 vd.val ga.val 0 0 (16 * 0x1 + 8 * l.toNat))
  | .aclr _ x ga => some (wordVA 0x33 0 ga.val 0 x.val 0x20)
  | .aadd _ l x va => some (wordVA 0x33 0 va.val 0 x.val (16 * 0x3 + 8 * l.toNat))
  | .asub _ l x va => some (wordVA 0x33 0 va.val 0 x.val (16 * 0x4 + 8 * l.toNat))
  | .amac _ l x va vb => some (wordVA 0x33 0 va.val vb.val x.val (16 * 0x5 + 8 * l.toNat))
  | .amacs _ l x va vb => some (wordVA 0x33 0 va.val vb.val x.val (16 * 0x6 + 8 * l.toNat))
  | .ascl _ x ga => some (wordVA 0x33 0 ga.val 0 x.val 0x70)
  | .arnd _ l mode vd x => some (wordVA 0x33 vd.val 0 0 x.val (16 * 0x8 + 8 * l.toNat + mode.val))
  | .amrg _ x ga => some (wordVA 0x33 0 ga.val 0 x.val 0x90)
  | .asav _ x ga => some (wordVA 0x33 0 ga.val 0 x.val 0xA0)
  | .arst _ x ga => some (wordVA 0x33 0 ga.val 0 x.val 0xB0)
  | .aflg _ gd x => some (wordVA 0x33 gd.val 0 0 x.val 0xC0)
  | .afclr _ x => some (wordVA 0x33 0 0 0 x.val 0xD0)
  | .csrr _ rd csr => some (wordSY 0x38 rd.val 0 0 csr.toNat)
  | .csrw _ ra csr => some (wordSY 0x38 0 ra.val 1 csr.toNat)
  | .csrs _ rd ra csr => some (wordSY 0x38 rd.val ra.val 2 csr.toNat)
  | .csrc _ rd ra csr => some (wordSY 0x38 rd.val ra.val 3 csr.toNat)
  | .eret _ => some (wordSY 0x39 0 0 0 0x000)
  | .calls _ => some (wordSY 0x39 0 0 0 0x001)
  | .callh _ => some (wordSY 0x39 0 0 0 0x002)
  | .callm _ => some (wordSY 0x39 0 0 0 0x003)
  | .brk _ => some (wordSY 0x39 0 0 0 0x004)
  | .wfe _ => some (wordSY 0x39 0 0 0 0x005)
  | .fence _ m => some (wordSY 0x39 0 0 1 m.toNat)
  | .sync _ => some (wordSY 0x39 0 0 1 0x010)
  | .lbar _ => some (wordSY 0x39 0 0 1 0x020)
  | .ifence _ => some (wordSY 0x39 0 0 1 0x030)
  | .bpbar _ => some (wordSY 0x39 0 0 1 0x040)
  | .bpflush _ => some (wordSY 0x39 0 0 1 0x050)
  | .dcclean _ ra => some (wordSY 0x39 0 ra.val 2 0x000)
  | .dcflush _ ra => some (wordSY 0x39 0 ra.val 2 0x001)
  | .dcinv _ ra => some (wordSY 0x39 0 ra.val 2 0x002)
  | .dczero _ ra => some (wordSY 0x39 0 ra.val 2 0x003)
  | .icinv _ ra => some (wordSY 0x39 0 ra.val 2 0x004)
  | .pfl _ ra => some (wordSY 0x39 0 ra.val 2 0x005)
  | .pfs _ ra => some (wordSY 0x39 0 ra.val 2 0x006)
  | .pfnt _ ra => some (wordSY 0x39 0 ra.val 2 0x007)
  | .tlbiva _ ra => some (wordSY 0x39 0 ra.val 3 0x000)
  | .tlbiall _ => some (wordSY 0x39 0 0 3 0x001)
  | .tlbigva _ ra => some (wordSY 0x39 0 ra.val 3 0x002)
  | .tlbidom _ ra => some (wordSY 0x39 0 ra.val 3 0x003)
  | .npost _ ra => some (wordSY 0x39 0 ra.val 4 0x000)
  | .nrecv _ rd ra => some (wordSY 0x39 rd.val ra.val 4 0x001)
  | .nwait _ ra => some (wordSY 0x39 0 ra.val 4 0x002)
  | .rand _ rd ra => some (wordSY 0x39 rd.val ra.val 5 0x000)
  | .undefinedEncoding _ w => some w
  | _ => none

/-- A register field of a word. -/
def regField (w : BitVec 32) (lo : Nat) : Reg := ⟨wordField w lo 5, Nat.mod_lt _ (by decide)⟩
/-- An accumulator, a rounding mode or a condition: three bits of a word. -/
def accField (w : BitVec 32) (lo : Nat) : Fin 8 := ⟨wordField w lo 3, Nat.mod_lt _ (by decide)⟩
/-- The element size of a vector operation. -/
def sizeField (w : BitVec 32) : Fin 4 := ⟨wordField w 0 2, Nat.mod_lt _ (by decide)⟩
/-- A one-bit field of a word. -/
def flagField (w : BitVec 32) (lo : Nat) : Bool := w.getLsbD lo

/-- A word of OP 0x01 (R63). -/
def instrInt (c : Nat) (w : BitVec 32) : Option Instr :=
  match wordField w 0 11 with
  | 0x0 => some (.add c (regField w 21) (regField w 16) (regField w 11))
  | 0x1 => some (.sub c (regField w 21) (regField w 16) (regField w 11))
  | 0x2 => some (.andR c (regField w 21) (regField w 16) (regField w 11))
  | 0x3 => some (.orR c (regField w 21) (regField w 16) (regField w 11))
  | 0x4 => some (.xorR c (regField w 21) (regField w 16) (regField w 11))
  | 0x5 => some (.andn c (regField w 21) (regField w 16) (regField w 11))
  | 0x8 => some (.sll c (regField w 21) (regField w 16) (regField w 11))
  | 0x9 => some (.srl c (regField w 21) (regField w 16) (regField w 11))
  | 0xa => some (.sra c (regField w 21) (regField w 16) (regField w 11))
  | 0xb => some (.ror c (regField w 21) (regField w 16) (regField w 11))
  | 0x10 => some (.slt c (regField w 21) (regField w 16) (regField w 11))
  | 0x11 => some (.sltu c (regField w 21) (regField w 16) (regField w 11))
  | 0x12 => some (.minS c (regField w 21) (regField w 16) (regField w 11))
  | 0x13 => some (.maxS c (regField w 21) (regField w 16) (regField w 11))
  | 0x14 => some (.minu c (regField w 21) (regField w 16) (regField w 11))
  | 0x15 => some (.maxu c (regField w 21) (regField w 16) (regField w 11))
  | 0x18 => some (.sel c (regField w 21) (regField w 16) (regField w 11))
  | 0x20 => some (.clz c (regField w 21) (regField w 16))
  | 0x21 => some (.ctz c (regField w 21) (regField w 16))
  | 0x22 => some (.pop c (regField w 21) (regField w 16))
  | 0x23 => some (.bswap c (regField w 21) (regField w 16))
  | _ => none

/-- A word of OP 0x02 (R65). -/
def instrMul (c : Nat) (w : BitVec 32) : Option Instr :=
  match wordField w 0 11 with
  | 0x0 => some (.mul c (regField w 21) (regField w 16) (regField w 11))
  | 0x1 => some (.mulh c (regField w 21) (regField w 16) (regField w 11))
  | 0x2 => some (.mulhu c (regField w 21) (regField w 16) (regField w 11))
  | 0x8 => some (.divS c (regField w 21) (regField w 16) (regField w 11))
  | 0x9 => some (.divu c (regField w 21) (regField w 16) (regField w 11))
  | 0xa => some (.remS c (regField w 21) (regField w 16) (regField w 11))
  | 0xb => some (.remu c (regField w 21) (regField w 16) (regField w 11))
  | _ => none

/-- A word of OP 0x03 (R66). -/
def instrFp (c : Nat) (w : BitVec 32) : Option Instr :=
  match wordField w 0 10 with
  | 0x0 => some (.fadd c (flagField w 10) (regField w 21) (regField w 16) (regField w 11))
  | 0x1 => some (.fsub c (flagField w 10) (regField w 21) (regField w 16) (regField w 11))
  | 0x2 => some (.fmul c (flagField w 10) (regField w 21) (regField w 16) (regField w 11))
  | 0x3 => some (.fdiv c (flagField w 10) (regField w 21) (regField w 16) (regField w 11))
  | 0x5 => some (.fma c (flagField w 10) (regField w 21) (regField w 16) (regField w 11))
  | 0x6 => some (.fmin c (flagField w 10) (regField w 21) (regField w 16) (regField w 11))
  | 0x7 => some (.fmax c (flagField w 10) (regField w 21) (regField w 16) (regField w 11))
  | 0x8 => some (.fceq c (flagField w 10) (regField w 21) (regField w 16) (regField w 11))
  | 0x9 => some (.fclt c (flagField w 10) (regField w 21) (regField w 16) (regField w 11))
  | 0xa => some (.fcle c (flagField w 10) (regField w 21) (regField w 16) (regField w 11))
  | 0x4 => some (.fsqrt c (flagField w 10) (regField w 21) (regField w 16))
  | 0x10 => some (.fcvti c (flagField w 10) (regField w 21) (regField w 16))
  | 0x11 => some (.fcvtf c (flagField w 10) (regField w 21) (regField w 16))
  | 0x12 => some (.fcvtp c (flagField w 10) (regField w 21) (regField w 16))
  | 0x13 => some (.fclass c (flagField w 10) (regField w 21) (regField w 16))
  | _ => none

/-- A word of OP 0x04 (R74). -/
def instrStr (c : Nat) (w : BitVec 32) : Option Instr :=
  match wordField w 0 11 with
  | 0x0 => some (.mcpy c (regField w 21) (regField w 16) (regField w 11))
  | 0x1 => some (.mset c (regField w 21) (regField w 16) (regField w 11))
  | 0x2 => some (.mcmp c (regField w 21) (regField w 16) (regField w 11))
  | _ => none

/-- A word of OP 0x05 (R69). -/
def instrAtom (c : Nat) (w : BitVec 32) : Option Instr :=
  match wordField w 0 4 with
  | 0x0 => some (.ldx c (flagField w 10) (flagField w 9) (flagField w 7) (regField w 21) (regField w 16))
  | 0x1 => some (.stx c (flagField w 10) (flagField w 9) (flagField w 7) (regField w 21) (regField w 16) (regField w 11))
  | 0x2 => some (.swp c (flagField w 10) (flagField w 9) (flagField w 7) (regField w 21) (regField w 16) (regField w 11))
  | 0x3 => some (.cas c (flagField w 10) (flagField w 9) (flagField w 7) (regField w 21) (regField w 16) (regField w 11))
  | 0x4 => some (.amadd c (flagField w 10) (flagField w 9) (flagField w 7) (regField w 21) (regField w 16) (regField w 11))
  | 0x5 => some (.amand c (flagField w 10) (flagField w 9) (flagField w 7) (regField w 21) (regField w 16) (regField w 11))
  | 0x6 => some (.amor c (flagField w 10) (flagField w 9) (flagField w 7) (regField w 21) (regField w 16) (regField w 11))
  | 0x7 => some (.amxor c (flagField w 10) (flagField w 9) (flagField w 7) (regField w 21) (regField w 16) (regField w 11))
  | 0x8 => some (.ammax c (flagField w 10) (flagField w 9) (flagField w 7) (regField w 21) (regField w 16) (regField w 11))
  | 0x9 => some (.ammin c (flagField w 10) (flagField w 9) (flagField w 7) (regField w 21) (regField w 16) (regField w 11))
  | _ => none

/-- A word of OP 0x30 (R78). -/
def instrVec (c : Nat) (w : BitVec 32) : Option Instr :=
  match wordField w 2 6 with
  | 0x0 => some (.vadd c (sizeField w) (regField w 21) (regField w 16) (regField w 11))
  | 0x1 => some (.vsub c (sizeField w) (regField w 21) (regField w 16) (regField w 11))
  | 0x5 => some (.vsll c (sizeField w) (regField w 21) (regField w 16) (regField w 11))
  | 0x6 => some (.vsrl c (sizeField w) (regField w 21) (regField w 16) (regField w 11))
  | 0x7 => some (.vsra c (sizeField w) (regField w 21) (regField w 16) (regField w 11))
  | 0x8 => some (.vmin c (sizeField w) (regField w 21) (regField w 16) (regField w 11))
  | 0x9 => some (.vmax c (sizeField w) (regField w 21) (regField w 16) (regField w 11))
  | 0xa => some (.vmul c (sizeField w) (regField w 21) (regField w 16) (regField w 11))
  | 0xb => some (.vceq c (sizeField w) (regField w 21) (regField w 16) (regField w 11))
  | 0xc => some (.vcgt c (sizeField w) (regField w 21) (regField w 16) (regField w 11))
  | 0x2 => some (.vand c (regField w 21) (regField w 16) (regField w 11))
  | 0x3 => some (.vor c (regField w 21) (regField w 16) (regField w 11))
  | 0x4 => some (.vxor c (regField w 21) (regField w 16) (regField w 11))
  | 0x10 => some (.vperm c (regField w 21) (regField w 16) (regField w 11))
  | 0x11 => some (.vsplat c (sizeField w) (regField w 21) (regField w 16))
  | 0x12 => some (.vext c (sizeField w) (regField w 21) (regField w 16) (regField w 11))
  | _ => none

/-- A word of OP 0x31 (R79). -/
def instrVecFp (c : Nat) (w : BitVec 32) : Option Instr :=
  match wordField w 2 6 with
  | 0x0 => some (.vfadd c (flagField w 0) (regField w 21) (regField w 16) (regField w 11))
  | 0x1 => some (.vfsub c (flagField w 0) (regField w 21) (regField w 16) (regField w 11))
  | 0x2 => some (.vfmul c (flagField w 0) (regField w 21) (regField w 16) (regField w 11))
  | 0x3 => some (.vfma c (flagField w 0) (regField w 21) (regField w 16) (regField w 11))
  | 0x4 => some (.vfdiv c (flagField w 0) (regField w 21) (regField w 16) (regField w 11))
  | 0x5 => some (.vfmin c (flagField w 0) (regField w 21) (regField w 16) (regField w 11))
  | 0x6 => some (.vfmax c (flagField w 0) (regField w 21) (regField w 16) (regField w 11))
  | _ => none

/-- A word of OP 0x32 (R80). -/
def instrCrypto (c : Nat) (w : BitVec 32) : Option Instr :=
  match wordField w 0 8 with
  | 0x0 => some (.aese c (regField w 21) (regField w 16) (regField w 11))
  | 0x1 => some (.aesel c (regField w 21) (regField w 16) (regField w 11))
  | 0x2 => some (.aesd c (regField w 21) (regField w 16) (regField w 11))
  | 0x3 => some (.aesdl c (regField w 21) (regField w 16) (regField w 11))
  | 0x4 => some (.gmul c (regField w 21) (regField w 16) (regField w 11))
  | 0x8 => some (.sha512s c (regField w 21) (regField w 16) (regField w 11))
  | 0x9 => some (.sha512r c (regField w 21) (regField w 16) (regField w 11))
  | 0x10 => some (.sha3f c (regField w 16))
  | _ => none

/-- A word of OP 0x33 (R82). -/
def instrAmber (c : Nat) (w : BitVec 32) : Option Instr :=
  match wordField w 4 4 with
  | 0x0 => some (.aqld c (flagField w 3) (regField w 21) (regField w 16))
  | 0x1 => some (.aqst c (flagField w 3) (regField w 21) (regField w 16))
  | 0x2 => some (.aclr c (accField w 8) (regField w 16))
  | 0x3 => some (.aadd c (flagField w 3) (accField w 8) (regField w 16))
  | 0x4 => some (.asub c (flagField w 3) (accField w 8) (regField w 16))
  | 0x5 => some (.amac c (flagField w 3) (accField w 8) (regField w 16) (regField w 11))
  | 0x6 => some (.amacs c (flagField w 3) (accField w 8) (regField w 16) (regField w 11))
  | 0x7 => some (.ascl c (accField w 8) (regField w 16))
  | 0x8 => some (.arnd c (flagField w 3) (accField w 0) (regField w 21) (accField w 8))
  | 0x9 => some (.amrg c (accField w 8) (regField w 16))
  | 0xa => some (.asav c (accField w 8) (regField w 16))
  | 0xb => some (.arst c (accField w 8) (regField w 16))
  | 0xc => some (.aflg c (regField w 21) (accField w 8))
  | 0xd => some (.afclr c (accField w 8))
  | _ => none

/-- A word of OP 0x38 (R89). -/
def instrCsr (c : Nat) (w : BitVec 32) : Option Instr :=
  match wordField w 12 4 with
  | 0x0 => some (.csrr c (regField w 21) (w.extractLsb' 0 12))
  | 0x1 => some (.csrw c (regField w 16) (w.extractLsb' 0 12))
  | 0x2 => some (.csrs c (regField w 21) (regField w 16) (w.extractLsb' 0 12))
  | 0x3 => some (.csrc c (regField w 21) (regField w 16) (w.extractLsb' 0 12))
  | _ => none

/-- A word of OP 0x39 (R90). -/
def instrSys (c : Nat) (w : BitVec 32) : Option Instr :=
  match wordField w 12 4, wordField w 0 12 with
  | 0, 0x000 => some (.eret c)
  | 0, 0x001 => some (.calls c)
  | 0, 0x002 => some (.callh c)
  | 0, 0x003 => some (.callm c)
  | 0, 0x004 => some (.brk c)
  | 0, 0x005 => some (.wfe c)
  | 1, 0x010 => some (.sync c)
  | 1, 0x020 => some (.lbar c)
  | 1, 0x030 => some (.ifence c)
  | 1, 0x040 => some (.bpbar c)
  | 1, 0x050 => some (.bpflush c)
  | 2, 0x000 => some (.dcclean c (regField w 16))
  | 2, 0x001 => some (.dcflush c (regField w 16))
  | 2, 0x002 => some (.dcinv c (regField w 16))
  | 2, 0x003 => some (.dczero c (regField w 16))
  | 2, 0x004 => some (.icinv c (regField w 16))
  | 2, 0x005 => some (.pfl c (regField w 16))
  | 2, 0x006 => some (.pfs c (regField w 16))
  | 2, 0x007 => some (.pfnt c (regField w 16))
  | 3, 0x000 => some (.tlbiva c (regField w 16))
  | 3, 0x001 => some (.tlbiall c)
  | 3, 0x002 => some (.tlbigva c (regField w 16))
  | 3, 0x003 => some (.tlbidom c (regField w 16))
  | 4, 0x000 => some (.npost c (regField w 16))
  | 4, 0x001 => some (.nrecv c (regField w 21) (regField w 16))
  | 4, 0x002 => some (.nwait c (regField w 16))
  | 5, 0x000 => some (.rand c (regField w 21) (regField w 16))
  | 1, _ => some (.fence c (w.extractLsb' 0 4))
  | _, _ => none

/-- A word of one of the formats whose OP is one instruction: RI, BL and BC (R64, R68, R83). -/
def instrOp (c : Nat) (w : BitVec 32) : Option Instr :=
  match wordField w 26 6 with
  | 0x08 => some (.addi c (regField w 21) (regField w 16) (w.extractLsb' 0 16))
  | 0x09 => some (.andi c (regField w 21) (regField w 16) (w.extractLsb' 0 16))
  | 0x0a => some (.ori c (regField w 21) (regField w 16) (w.extractLsb' 0 16))
  | 0x0b => some (.xori c (regField w 21) (regField w 16) (w.extractLsb' 0 16))
  | 0x0c => some (.slti c (regField w 21) (regField w 16) (w.extractLsb' 0 16))
  | 0x0d => some (.sltiu c (regField w 21) (regField w 16) (w.extractLsb' 0 16))
  | 0x0e => some (.shi c (regField w 21) (regField w 16) (w.extractLsb' 0 16))
  | 0x0f => some (.movz c (regField w 21) (regField w 16) (w.extractLsb' 0 16))
  | 0x10 => some (.movk c (regField w 21) (regField w 16) (w.extractLsb' 0 16))
  | 0x11 => some (.loop c (regField w 16) (w.extractLsb' 0 16))
  | 0x12 => some (.jalr c (regField w 21) (regField w 16) (w.extractLsb' 0 16))
  | 0x13 => some (.jr c (regField w 16) (w.extractLsb' 0 16))
  | 0x14 => some (.ldb c (regField w 21) (regField w 16) (w.extractLsb' 0 16))
  | 0x15 => some (.ldbu c (regField w 21) (regField w 16) (w.extractLsb' 0 16))
  | 0x16 => some (.ldh c (regField w 21) (regField w 16) (w.extractLsb' 0 16))
  | 0x17 => some (.ldhu c (regField w 21) (regField w 16) (w.extractLsb' 0 16))
  | 0x18 => some (.ldw c (regField w 21) (regField w 16) (w.extractLsb' 0 16))
  | 0x19 => some (.ldwu c (regField w 21) (regField w 16) (w.extractLsb' 0 16))
  | 0x1a => some (.ldd c (regField w 21) (regField w 16) (w.extractLsb' 0 16))
  | 0x1b => some (.ldp c (regField w 21) (regField w 16) (w.extractLsb' 0 16))
  | 0x1c => some (.lda c (regField w 21) (regField w 16) (w.extractLsb' 0 16))
  | 0x1d => some (.stb c (regField w 21) (regField w 16) (w.extractLsb' 0 16))
  | 0x1e => some (.sth c (regField w 21) (regField w 16) (w.extractLsb' 0 16))
  | 0x1f => some (.stw c (regField w 21) (regField w 16) (w.extractLsb' 0 16))
  | 0x20 => some (.std c (regField w 21) (regField w 16) (w.extractLsb' 0 16))
  | 0x21 => some (.stp c (regField w 21) (regField w 16) (w.extractLsb' 0 16))
  | 0x22 => some (.stl c (regField w 21) (regField w 16) (w.extractLsb' 0 16))
  | 0x23 => some (.vld c (regField w 21) (regField w 16) (w.extractLsb' 0 16))
  | 0x24 => some (.vst c (regField w 21) (regField w 16) (w.extractLsb' 0 16))
  | 0x28 => some (.br c (w.extractLsb' 0 26))
  | 0x29 => some (.bal c (w.extractLsb' 0 26))
  | 0x2a => some (.bcc c (accField w 13) (regField w 21) (regField w 16) (w.extractLsb' 0 13))
  | _ => none

/-- The instruction that a word spells when core `c` executes it; an unlisted word is UNDEFINED_ENCODING (R57 to R59). -/
def instrOf (c : Nat) (w : BitVec 32) : Instr :=
  if listed w then
    ((match wordField w 26 6 with
      | 0x01 => instrInt c w
      | 0x02 => instrMul c w
      | 0x03 => instrFp c w
      | 0x04 => instrStr c w
      | 0x05 => instrAtom c w
      | 0x30 => instrVec c w
      | 0x31 => instrVecFp c w
      | 0x32 => instrCrypto c w
      | 0x33 => instrAmber c w
      | 0x38 => instrCsr c w
      | 0x39 => instrSys c w
      | _ => instrOp c w).getD (.undefinedEncoding c w))
  else .undefinedEncoding c w

/-- The command that a table word spells: the rows of the table give no bits, so there is none. -/
def decodeTableWord (_nbits _w : Nat) : Option Instr := none

end Sys2Proof
end

