-- ==== Sys2Proof/Machine/Types.lean ====
section
/-! DEFINITION. The units of the device as plain data: one structure for each unit the specification gives
registers, arrays, buffers or queues, and its value at reset. A field's docstring ends with the rule that
names it; where the specification gives no reset value it names the entry of the assumption log that
chooses one. -/

namespace Sys2Proof.Machine

/-- The four privilege levels (R36). -/
inductive Lvl where
  | u | s | h | m
  deriving DecidableEq, Repr

/-- States of a held line; a line not held is I (R125). -/
inductive Mesi where
  | m | e | s
  deriving DecidableEq, Repr

/-- The three parts (R1, R3). -/
inductive Part where
  | vt9256 | vt9192 | vt9160
  deriving DecidableEq, Repr

/-- Memory as bytes by address, in one canonical form: addresses strictly rising and no entry equal to
what an unlisted address reads as, which is 0 in every memory of this model (log 8). -/
abbrev Mem := List Host.Cell

/-- A register that an instruction reads or writes and whose detached result may be pending (R105). -/
inductive LDest where
  | none
  | g (r : Fin 32)
  | v (r : Fin 32)
  | a (x : Fin 8)
  deriving DecidableEq, Repr

/-- The walk of an L2: a disabling walk, a walk of L2_CTL.WBALL, or the walk that precedes RET or OFF
(R151, R153, R354). -/
inductive WalkKind where
  | disable | wball | ret | off
  deriving DecidableEq, Repr

/-- Where the data of a core's read from a link goes (R68, R162, R336). -/
inductive PDest where
  | none
  /-- n bytes to a G register -/
  | g (r : Fin 32) (n : Nat) (sgn : Bool)
  /-- a register pair -/
  | pair (r q : Fin 32)
  /-- a vector register -/
  | v (r : Fin 32)
  /-- one lane of a vector register -/
  | lane (r : Fin 32) (hi : Bool)
  deriving DecidableEq, Repr

/-- What a core is doing (R92, R230, R46, R336): running, waiting in WFE, waiting in NWAIT, waiting for the
completion of a request it sent on a link, stopped. -/
inductive RunState where
  | run | wfe | nwait | dev | stopped
  deriving DecidableEq, Repr

/-- Kinds of request at a home slice (R136). -/
inductive ReqKind where
  | rds | rdx | upg | rdz
  deriving DecidableEq, Repr

/-- A value of a Slate object: a number (signed types as themselves) or a string of bytes (R388). -/
inductive SVal where
  | n (v : Int)
  | b (v : List Byte)
  deriving DecidableEq, Repr

/-- A synchronous event with everything its entry records (R41, R34, R291, R161). -/
structure Exc where
  /-- event number -/
  num : Nat
  /-- CAUSE.SUB -/
  sub : Nat
  /-- ADDR -/
  addr : W64
  /-- xFINFO, written only by the events that R291 names -/
  finfo : Option W64
  /-- xGPA -/
  gpa : Option W64
  /-- AMTRAP, for event 12 -/
  am : Option W64
  deriving DecidableEq, Repr

/-- What an access does, for its checks (R289): a load, a store or a fetch; whether it reads and writes; an
atomic or exclusive access (R69); an event frame (R46). -/
structure Acc where
  /-- FINFO.ACC: 0 load, 1 store, 2 fetch -/
  kind : Nat
  r : Bool
  w : Bool
  x : Bool
  atomic : Bool
  deriving DecidableEq, Repr

/-- A translation in force: the roots of its stages, and how tables are read (R283, R298). -/
structure Regime where
  /-- regime number of R292: 0 S non-guest, 1 guest, 2 H -/
  num : Nat
  s1 : Option Nat
  s2 : Option Nat
  /-- domain of the access and of its stage-1 tables -/
  td : Nat
  /-- key selector of stage-1 tables read at physical addresses -/
  wks : Nat
  asid : Nat
  /-- U and G must be 0 in the first stage (H regime) -/
  noUG : Bool
  /-- 0 no U check, 1 the page must be a user page, 2 it must not be one -/
  ucheck : Nat
  deriving DecidableEq, Repr

/-- A leaf that a walk used: where its entry lies, and whether D is to be set (R290). -/
structure Mark where
  pa : Nat
  td : Nat
  ks : Nat
  d : Bool
  deriving DecidableEq, Repr

/-- A completed translation: the combined leaf (R288). -/
structure Xlat where
  pa : Nat
  ks : Nat
  r : Bool
  w : Bool
  x : Bool
  usr : Bool
  dev : Bool
  to1 : Bool
  to2 : Bool
  glob : Bool
  /-- log2 of the page size -/
  size : Nat
  lvl1 : Nat
  lvl2 : Nat
  gpa : Nat
  marks : List Mark
  deriving DecidableEq, Repr

/-- A failed translation (R291): KIND, LEVEL, STAGE, WALK, the guest-physical address, or poison found in a
table. -/
structure XFault where
  kind : Nat
  lvl : Nat
  stage : Nat
  walk : Bool
  gpa : Nat
  poison : Option Nat
  deriving DecidableEq, Repr

/-- Event registers of one level L of S, H and M (R34, R45, R291). -/
structure EvBank where
  /-- xEVBASE: event table address, bits [12:0] and [63:52] read 0 (MEVBASE resets to 0xA_0010_0000_0000) (R34) -/
  base : W64
  /-- xFRAME: address just above the newest frame (MFRAME resets to 0xA_0010_0040_0000) (R34) -/
  frame : W64
  /-- xFRAMELIM: lowest address a frame may occupy (MFRAMELIM resets to 0xA_0010_003F_0000) (R34) -/
  lim : W64
  /-- xCAUSE: EVNUM [7:0], SUB [15:8], CHAINED [16] (R34) -/
  cause : W64
  /-- xADDR: address of the last event (R34) -/
  addr : W64
  /-- xFINFO: KIND, LEVEL, STAGE, WALK, ACC (R291) -/
  finfo : W64
  /-- xGPA (HGPA and MGPA; S has none): failing guest-physical address (R291) -/
  gpa : W64
  deriving DecidableEq, Repr

/-- The reset value of EvBank (R12; marks as at the fields). -/
def EvBank.reset : EvBank where
  base := 0
  frame := 0
  lim := 0
  cause := 0
  addr := 0
  finfo := 0
  gpa := 0

/-- Amber accumulator (R157). -/
structure AmAcc where
  /-- value, two's complement (R157, R32) -/
  val : BitVec 324
  /-- decimal scale, 0 to 38 (R157, R32) -/
  scale : BitVec 6
  /-- sticky overflow (R157, R32) -/
  ov : Bool
  /-- sticky inexact (R157, R32) -/
  ix : Bool
  /-- sticky merge-refused (R157, R32) -/
  ms : Bool
  deriving DecidableEq, Repr

/-- The reset value of AmAcc (R12; marks as at the fields). -/
def AmAcc.reset : AmAcc where
  val := 0
  scale := 0
  ov := false
  ix := false
  ms := false

/-- A line held in the L2, the victim cache or the prefetch side buffer of a core (R123, R125). -/
structure CLine where
  /-- line address PA[51:6] (R123) -/
  la : Nat
  /-- way of the L2 set (R123) -/
  way : Nat
  /-- not-recently-used age (R130) -/
  age : Nat
  /-- M, E or S (R125) -/
  st : Mesi
  /-- streaming mark (R131) -/
  stream : Bool
  /-- poison mark (R146) -/
  poison : Bool
  /-- locked in the metered data window (R116) -/
  locked : Bool
  /-- domain of the access that allocated the line (R125) -/
  td : Nat
  /-- key selector recorded with the line (R250) -/
  ks : Nat
  /-- the 64 bytes (R123) -/
  data : Line
  deriving DecidableEq, Repr

/-- The reset value of CLine (R12; marks as at the fields). -/
def CLine.reset : CLine where
  la := 0
  way := 0
  age := 0
  st := .s
  stream := false
  poison := false
  locked := false
  td := 0
  ks := 0
  data := 0

/-- A line of the L1I or the L1D: a tag; its bytes are those of the L2 copy or, with the L2 disabled, of the home (R123 to R125). -/
structure L1Line where
  /-- line address (R123) -/
  la : Nat
  /-- way of the set (R123) -/
  way : Nat
  /-- not-recently-used age (R130) -/
  age : Nat
  /-- locked in the metered code window (R116) -/
  locked : Bool
  deriving DecidableEq, Repr

/-- The reset value of L1Line (R12; marks as at the fields). -/
def L1Line.reset : L1Line where
  la := 0
  way := 0
  age := 0
  locked := false

/-- The Noon order key of a change from a core (R180). -/
structure NKey where
  /-- slot (R180) -/
  slot : Nat
  /-- global block of the posting core (R180) -/
  block : Nat
  /-- core c of the block (R180) -/
  core : Nat
  /-- posting tick (R180) -/
  tick : Nat
  /-- sequence within the posting tick (R180) -/
  seq : Nat
  deriving DecidableEq, Repr

/-- The reset value of NKey (R12; marks as at the fields). -/
def NKey.reset : NKey where
  slot := 0
  block := 0
  core := 0
  tick := 0
  seq := 0

/-- The result a detached long operation will deliver (R105). -/
inductive LRes where
  | none
  | g (v : W64)
  | v (v : W256)
  | lane (l : Bool) (v : W128) (ix : Bool) (x : Fin 8)
  | a (v : AmAcc)
  deriving DecidableEq, Repr

/-- A retired store, or one half of it, in the store queue (R101, R72). -/
structure SqEntry where
  /-- physical address of its first byte (R101) -/
  pa : Nat
  /-- its bytes, all within one line (R101) -/
  bytes : List Byte
  /-- domain captured at retirement (R40) -/
  td : Nat
  /-- key selector captured at retirement (R205) -/
  ks : Nat
  /-- a DCZERO: ownership without data (R91) -/
  zero : Bool
  /-- the Noon key of a TO store; none for an ordinary store (R201) -/
  tord : Option NKey
  /-- address of the instruction after the store (R87) -/
  pc : W64
  /-- made before the shootdown in progress (R295) -/
  old : Bool
  deriving DecidableEq, Repr

/-- The reset value of SqEntry (R12; marks as at the fields). -/
def SqEntry.reset : SqEntry where
  pa := 0
  bytes := []
  td := 0
  ks := 0
  zero := false
  tord := none
  pc := 0
  old := false

/-- A detached long operation that has retired and whose result is outstanding (R105). -/
structure LongOp where
  /-- address of the operation (R105) -/
  pc : W64
  /-- its destination register (R105) -/
  dest : LDest
  /-- the result it will deliver (R105) -/
  res : LRes
  /-- floating-point flags it raises (R67) -/
  flags : Nat
  /-- the exception it raises instead of delivering (R105) -/
  exc : Option Exc
  /-- it has completed with its exception, not yet delivered (R50) -/
  failed : Bool
  deriving DecidableEq, Repr

/-- The reset value of LongOp (R12; marks as at the fields). -/
def LongOp.reset : LongOp where
  pc := 0
  dest := .g 0
  res := .g 0
  flags := 0
  exc := none
  failed := false

/-- A TLB entry: the combined leaf of a completed walk and its tags (R288, R292). -/
structure TlbEnt where
  /-- 0 S non-guest, 1 guest, 2 H (R292) -/
  regime : Nat
  /-- domain (R292) -/
  td : Nat
  /-- ASID (R292) -/
  asid : Nat
  /-- G: matches every ASID (R292) -/
  glob : Bool
  /-- first address of the input page (R292) -/
  va : Nat
  /-- log2 of the page size (R288) -/
  size : Nat
  /-- output address of the page (R288) -/
  pa : Nat
  /-- read permitted (R288) -/
  r : Bool
  /-- write permitted (R288) -/
  w : Bool
  /-- fetch permitted (R288) -/
  x : Bool
  /-- user page (R288) -/
  usr : Bool
  /-- D of every leaf used (R290) -/
  dirty : Bool
  /-- device memory type (R288) -/
  dev : Bool
  /-- stage 1 (or the single stage) marks the page TO (R288) -/
  to1 : Bool
  /-- stage 2 marks the page TO (R288) -/
  to2 : Bool
  /-- key selector (R288) -/
  ks : Nat
  /-- level of the stage-1 leaf (R291) -/
  lvl1 : Nat
  /-- guest-physical address of the page (R291) -/
  gpa : Nat
  deriving DecidableEq, Repr

/-- The reset value of TlbEnt (R12; marks as at the fields). -/
def TlbEnt.reset : TlbEnt where
  regime := 0
  td := 0
  asid := 0
  glob := false
  va := 0
  size := 12
  pa := 0
  r := false
  w := false
  x := false
  usr := false
  dirty := false
  dev := false
  to1 := false
  to2 := false
  ks := 0
  lvl1 := 0
  gpa := 0

/-- A walk-cache entry: a table entry read by an earlier walk (R292). -/
structure WalkEnt where
  /-- regime (R292) -/
  regime : Nat
  /-- domain (R292) -/
  td : Nat
  /-- address of the table entry (R292) -/
  addr : Nat
  /-- its value (R292) -/
  val : W64
  deriving DecidableEq, Repr

/-- The reset value of WalkEnt (R12; marks as at the fields). -/
def WalkEnt.reset : WalkEnt where
  regime := 0
  td := 0
  addr := 0
  val := 0

/-- A stream tracker (R134). -/
structure Tracker where
  /-- latest line (R134) -/
  last : Nat
  /-- direction: 1 ascending, -1 descending, 0 not known yet (R134) -/
  dir : Int
  /-- misses and advances seen after the first (R134) -/
  hits : Nat
  /-- confirmed (R134) -/
  conf : Bool
  /-- the last access that advanced it was a store (R134) -/
  store : Bool
  /-- marked streaming (R134) -/
  stream : Bool
  /-- domain of its accesses (R125) -/
  td : Nat
  /-- key selector of its accesses (R250) -/
  ks : Nat
  deriving DecidableEq, Repr

/-- The reset value of Tracker (R12; marks as at the fields). -/
def Tracker.reset : Tracker where
  last := 0
  dir := 0
  hits := 0
  conf := false
  store := false
  stream := false
  td := 0
  ks := 0

/-- A target-buffer entry (R107, R110). -/
structure BtbEnt where
  /-- branch address (R107) -/
  pc : W64
  /-- target (R107) -/
  target : W64
  /-- branch kind: 0 direct, 1 conditional, 2 call, 3 indirect (R107) -/
  kind : Nat
  /-- level under which it was trained (R110) -/
  lvl : Nat
  /-- domain under which it was trained (R110) -/
  td : Nat
  /-- trained while WPCTL.PTAG = 1 (R110) -/
  tagged : Bool
  deriving DecidableEq, Repr

/-- The reset value of BtbEnt (R12; marks as at the fields). -/
def BtbEnt.reset : BtbEnt where
  pc := 0
  target := 0
  kind := 0
  lvl := 0
  td := 0
  tagged := false

/-- One core: architectural registers, control registers, and the state of its pipeline and private arrays (chapters 02, 04, 05). -/
structure Core where
  /-- G0 to G31 (R31, R32) -/
  g : Vector W64 32
  /-- V0 to V31 (R31, R32) -/
  v : Vector W256 32
  /-- A0 to A7 (R31, R157, R32) -/
  acc : Vector AmAcc 8
  /-- LC, CSR 0x010 (R31, R32) -/
  lc : BitVec 32
  /-- LS, CSR 0x011 (R31, R32) -/
  ls : W64
  /-- LE, CSR 0x012 (R31, R32) -/
  le : W64
  /-- program counter: MEVBASE at reset (R36) -/
  pc : W64
  /-- FPCSR, CSR 0x020 (R66) -/
  fpcsr : W64
  /-- AMSCL, CSR 0x030 (R156) -/
  amscl : W64
  /-- NOON_CTL.BIND, CSR 0x040 (R193, R194) -/
  bind : Bool
  /-- NOON_CTL.SLIP (R194) -/
  slip : Bool
  /-- NOON_CTL.TOSLOT (R194) -/
  toslot : Nat
  /-- CYCLE, CSR 0xC00 (cycles since the core left OFF) (R34) -/
  cycle : W64
  /-- INSTRET, CSR 0xC01 (R34) -/
  instret : W64
  /-- NOON_STAT.RSN, CSR 0xC05 (R183) -/
  rsn : Nat
  /-- AMTRAP, CSR 0xC10 (R161) -/
  amtrap : W64
  /-- STATUS.PL, CSR 0x100 (R34, R36) -/
  lvl : Lvl
  /-- STATUS.IE (R34) -/
  ie : Bool
  /-- STATUS.GUEST (R34) -/
  guest : Bool
  /-- STATUS.SUM (R34) -/
  sum : Bool
  /-- STATUS.IMPEND (R34) -/
  impend : Bool
  /-- STATUS.EVLVL (R34) -/
  evlvl : Nat
  /-- SEVBASE, SFRAME, SFRAMELIM, SCAUSE, SADDR, SFINFO (R34, R291) -/
  bankS : EvBank
  /-- HEVBASE, HFRAME, HFRAMELIM, HCAUSE, HADDR, HFINFO, HGPA (R34, R291) -/
  bankH : EvBank
  /-- MEVBASE, MFRAME, MFRAMELIM, MCAUSE, MADDR, MFINFO, MGPA (R34, R291) -/
  bankM : EvBank
  /-- SATP, CSR 0x180 (R290, R291) -/
  satp : W64
  /-- HGATP, CSR 0x280 (R291) -/
  hgatp : W64
  /-- HATP, CSR 0x288 (R291) -/
  hatp : W64
  /-- HDELEG, CSR 0x202 (R34, R42) -/
  hdeleg : W64
  /-- MDELEG, CSR 0x302 (R34, R42) -/
  mdeleg : W64
  /-- TDID.TD, CSR 0x2A0 (R35, R39) -/
  tdid : Nat
  /-- CORE_CTL.BPOFF, CSR 0x6C0 (R34, R108) -/
  bpoff : Bool
  /-- CORE_CTL.LONGOP (R34, R104) -/
  longop : Bool
  /-- CORE_CTL.METER (R34, R115) -/
  meter : Bool
  /-- CORE_CTL.METER_BREAK (R34, R119) -/
  mbreak : Bool
  /-- METER_CVA, CSR 0x6C1 (R116) -/
  mcva : W64
  /-- METER_CPA, CSR 0x6C2 (R116, R117) -/
  mcpa : W64
  /-- METER_DVA, CSR 0x6C3 (R116) -/
  mdva : W64
  /-- METER_DPA, CSR 0x6C4 (R116, R117) -/
  mdpa : W64
  /-- METER_STAT.CAUSE, CSR 0x6C5 (R119) -/
  mcause : Nat
  /-- METER_BPC, CSR 0x6C6 (R119) -/
  mbpc : W64
  /-- WPCTL, CSR 0x6C8 (PTAG and SWFLUSH reset to 1) (R113, R114) -/
  wpctl : W64
  /-- PF_CTL, CSR 0x1C0 (EN 1, DIST 8, STRMLEN 4, HINTEN 1) (R135) -/
  pfctl : W64
  /-- NTCMP, CSR 0x1D0 (R195) -/
  ntcmp : W64
  /-- no boundary has met the latest write of NTCMP yet (no write yet at reset) (R195) -/
  timerArmed : Bool
  /-- a boundary has met it, and the post is due (R195; reset DESIGN CHOICE, log 7) -/
  timerDue : Bool
  /-- L2_CTL.EN, CSR 0x6D0 (R153) -/
  l2en : Bool
  /-- L2_CTL.CLEANING (R153) -/
  cleaning : Bool
  /-- the cleaning or write-back walk in progress (R151, R153, R354; reset DESIGN CHOICE, log 7) -/
  walk : Option WalkKind
  /-- EN = 1 was written during a disabling walk (R152; reset DESIGN CHOICE, log 7) -/
  reEnable : Bool
  /-- CORE_PWR.RETWFE, CSR 0x6D1 (R356) -/
  retwfe : Bool
  /-- CORE_PWR.WOKE (R356) -/
  woke : Bool
  /-- CORE_PWR.RETCNT (R356) -/
  retcnt : Nat
  /-- running, waiting in WFE, NWAIT or for a device read, or stopped (R92, R230; reset DESIGN CHOICE, log 7) -/
  run : RunState
  /-- a bound core has closed every tick below this one (R193; reset DESIGN CHOICE, log 7) -/
  closedTo : Nat
  /-- tick that seq counts in (R180; reset DESIGN CHOICE, log 7) -/
  seqTick : Nat
  /-- Noon sequence: NPOST, AMRG and TO stores retired in seqTick, from 0 (R180) -/
  seq : Nat
  /-- pending bits of asynchronous events, as 256 x level + number, ascending (R44, R32) -/
  pend : List Nat
  /-- the LDX reservation: a line address (R70; reset DESIGN CHOICE, log 7) -/
  resv : Option Nat
  /-- store queue, oldest first (R97, R101; reset DESIGN CHOICE, log 7) -/
  sq : List SqEntry
  /-- outstanding detached long operations, oldest first (R105; reset DESIGN CHOICE, log 7) -/
  longs : List LongOp
  /-- L1I tags (R123; reset DESIGN CHOICE, log 7) -/
  l1i : List L1Line
  /-- L1D tags (R123; reset DESIGN CHOICE, log 7) -/
  l1d : List L1Line
  /-- L2 lines (R123; reset DESIGN CHOICE, log 7) -/
  l2 : List CLine
  /-- victim cache, oldest first (R123; reset DESIGN CHOICE, log 7) -/
  vc : List CLine
  /-- prefetch side buffer, oldest fill first (R123; reset DESIGN CHOICE, log 7) -/
  sb : List CLine
  /-- window lines lost and not yet locked again (R118) -/
  lost : List Nat
  /-- lines of the fetch line buffer (R95; reset DESIGN CHOICE, log 7) -/
  lineBuf : List Nat
  /-- the loop body captured: LS and LE (R111; reset DESIGN CHOICE, log 7) -/
  loopBuf : Option (W64 × W64)
  /-- target buffer (R107; reset DESIGN CHOICE, log 7) -/
  btb : List BtbEnt
  /-- direction tables: 256 x index + table number, and the counter (R107; reset DESIGN CHOICE, log 7) -/
  dirTab : List (Nat × Nat)
  /-- return stack, newest first (R107; reset DESIGN CHOICE, log 7) -/
  ras : List W64
  /-- global history (R107; reset DESIGN CHOICE, log 7) -/
  ghist : BitVec 128
  /-- TLB entries (R292; reset DESIGN CHOICE, log 7) -/
  tlb : List TlbEnt
  /-- walk cache (R292; reset DESIGN CHOICE, log 7) -/
  wcache : List WalkEnt
  /-- stream trackers, most recently used first (R134; reset DESIGN CHOICE, log 7) -/
  trackers : List Tracker
  /-- BUILD of the microcode patch in force in the core; 0 for none (R366, R379; reset DESIGN CHOICE, log 7) -/
  patch : Nat
  /-- bytes that the instruction in progress has read, or the part of its store that is done, while it waits for a device (log 2) (R72, R73; reset DESIGN CHOICE, log 7) -/
  half : Option (List Byte)
  /-- bytes that the string instruction in progress has done since its start or restart; 0 between instructions (R74, R75, R228; reset DESIGN CHOICE, log 7) -/
  strDone : Nat
  /-- the Noon key that the TO stores of the string instruction in progress share in this tick (R180; reset DESIGN CHOICE, log 7) -/
  strKey : Option NKey
  deriving DecidableEq, Repr

/-- The reset value of Core (R12; marks as at the fields). -/
def Core.reset : Core where
  g := .replicate 32 0
  v := .replicate 32 0
  acc := .replicate 8 AmAcc.reset
  lc := 0
  ls := 0
  le := 0
  pc := 0xA001000000000
  fpcsr := 0
  amscl := 0
  bind := false
  slip := false
  toslot := 32
  cycle := 0
  instret := 0
  rsn := 0
  amtrap := 0
  lvl := .m
  ie := false
  guest := false
  sum := false
  impend := false
  evlvl := 0
  bankS := EvBank.reset
  bankH := EvBank.reset
  bankM := { EvBank.reset with base := 0xA001000000000, frame := 0xA001000400000, lim := 0xA0010003F0000 }
  satp := 0
  hgatp := 0
  hatp := 0
  hdeleg := 0
  mdeleg := 0
  tdid := 0
  bpoff := false
  longop := true
  meter := false
  mbreak := false
  mcva := 0
  mcpa := 0
  mdva := 0
  mdpa := 0
  mcause := 0
  mbpc := 0
  wpctl := 9
  pfctl := 0x1411
  ntcmp := 0xFFFFFFFFFFFFFFFF
  timerArmed := false
  timerDue := false
  l2en := true
  cleaning := false
  walk := none
  reEnable := false
  retwfe := false
  woke := false
  retcnt := 0
  run := .run
  closedTo := 0
  seqTick := 0
  seq := 0
  pend := []
  resv := none
  sq := []
  longs := []
  l1i := []
  l1d := []
  l2 := []
  vc := []
  sb := []
  lost := []
  lineBuf := []
  loopBuf := none
  btb := []
  dirTab := []
  ras := []
  ghist := 0
  tlb := []
  wcache := []
  trackers := []
  patch := 0
  half := none
  strDone := 0
  strKey := none

/-- A Noon mailbox message (R188, R146). -/
structure Mail where
  /-- domain of the sender (R188) -/
  td : Nat
  /-- source block (R146) -/
  block : Nat
  /-- source core (R146) -/
  core : Nat
  /-- the 64 bytes (R93) -/
  data : Line
  /-- a parity error stands in the message (R146) -/
  bad : Bool
  deriving DecidableEq, Repr

/-- The reset value of Mail (R12; marks as at the fields). -/
def Mail.reset : Mail where
  td := 0
  block := 0
  core := 0
  data := 0
  bad := false

/-- The kind of a posted action and the fields it captured (R182, R184). -/
inductive ActBody where
  | mail (core : Nat) (data : Line)
  | store (pa ks : Nat) (mask : W64) (data : Line)
  | merge (pa : Nat) (acc : AmAcc) (clr : Bool)
  | cstart (r i tail p : Nat)
  | event (n : Nat)
  deriving DecidableEq, Repr

/-- A grant that awaits its acknowledgement (R136, R138): the request, the holders whose invalidation is
awaited, the owner a forward was sent to, and the data and state the grant carries. -/
structure Grant where
  kind : ReqKind
  core : Nat
  td : Nat
  ks : Nat
  stream : Bool
  /-- the line goes to the side buffer -/
  pf : Bool
  inv : List Nat
  fwd : Option Nat
  st : Mesi
  data : Line
  poison : Bool
  deriving DecidableEq, Repr

/-- A Noon action in an action table (R182, R184). -/
structure NAct where
  /-- due tick T (R184) -/
  due : Nat
  /-- Noon order key (R180) -/
  key : NKey
  /-- posting domain (R184) -/
  td : Nat
  /-- kind and captured fields (R182) -/
  body : ActBody
  /-- registered at its applying agent (R186) -/
  reg : Bool
  /-- held in the apply buffer (false and registered: returned) (R186) -/
  kept : Bool
  deriving DecidableEq, Repr

/-- The reset value of NAct (R12; marks as at the fields). -/
def NAct.reset : NAct where
  due := 0
  key := NKey.reset
  td := 0
  body := .event 0
  reg := false
  kept := false

/-- A publish-buffer entry: the bytes of one TO store in one 32-byte granule (R201). -/
structure PubEnt where
  /-- granule address PA[51:5] (R201) -/
  gran : Nat
  /-- bytes written (R201) -/
  mask : BitVec 32
  /-- the bytes (R201) -/
  data : W256
  /-- Noon key (R180) -/
  key : NKey
  /-- domain (R205) -/
  td : Nat
  /-- key selector (R205) -/
  ks : Nat
  /-- a parity error: published as poison (R146) -/
  bad : Bool
  /-- staged and acknowledged by the home (R202) -/
  staged : Bool
  deriving DecidableEq, Repr

/-- The reset value of PubEnt (R12; marks as at the fields). -/
def PubEnt.reset : PubEnt where
  gran := 0
  mask := 0
  data := 0
  key := NKey.reset
  td := 0
  ks := 0
  bad := false
  staged := false

/-- A line of an SLC slice (R123, R139, R142). -/
structure SLine where
  /-- line address (R123) -/
  la : Nat
  /-- way (R123) -/
  way : Nat
  /-- age (R130) -/
  age : Nat
  /-- newer than memory (R139) -/
  dirty : Bool
  /-- poison mark (R146) -/
  poison : Bool
  /-- streaming mark (R131) -/
  stream : Bool
  /-- domain recorded with the line (R142) -/
  td : Nat
  /-- key selector recorded with the line (R250) -/
  ks : Nat
  /-- the 64 bytes (R123) -/
  data : Line
  deriving DecidableEq, Repr

/-- The reset value of SLine (R12; marks as at the fields). -/
def SLine.reset : SLine where
  la := 0
  way := 0
  age := 0
  dirty := false
  poison := false
  stream := false
  td := 0
  ks := 0
  data := 0

/-- A request waiting in the home slice's queue for a busy line (R136). -/
structure HReq where
  /-- kind of request (R136) -/
  kind : ReqKind
  /-- requesting core (R136) -/
  core : Nat
  /-- line (R136) -/
  la : Nat
  /-- domain (R39) -/
  td : Nat
  /-- key selector (R250) -/
  ks : Nat
  /-- the page is TO (R138) -/
  tord : Bool
  /-- streaming mark (R131) -/
  stream : Bool
  deriving DecidableEq, Repr

/-- The reset value of HReq (R12; marks as at the fields). -/
def HReq.reset : HReq where
  kind := .rds
  core := 0
  la := 0
  td := 0
  ks := 0
  tord := false
  stream := false

/-- A directory entry (R137). -/
structure DirEnt where
  /-- line (R137) -/
  la : Nat
  /-- true: state X; false: state S (R137) -/
  x : Bool
  /-- core IDs named, at most four (R137) -/
  ids : List Nat
  /-- the group vector, once a fifth holder was added (R137) -/
  vec : Option (BitVec 32)
  /-- way (R123) -/
  way : Nat
  /-- age (R130) -/
  age : Nat
  /-- the grant whose acknowledgement is awaited (R136) -/
  busy : Option Grant
  /-- pinned by a metered window (R140) -/
  pinned : Bool
  deriving DecidableEq, Repr

/-- The reset value of DirEnt (R12; marks as at the fields). -/
def DirEnt.reset : DirEnt where
  la := 0
  x := false
  ids := []
  vec := none
  way := 0
  age := 0
  busy := none
  pinned := false

/-- A leaky bucket (R147). -/
structure Bucket where
  /-- corrections counted (R147; reset DESIGN CHOICE, log 7) -/
  count : Nat
  /-- ticks of the overflows still counted (R147; reset DESIGN CHOICE, log 7) -/
  stamps : List Nat
  deriving DecidableEq, Repr

/-- The reset value of Bucket (R12; marks as at the fields). -/
def Bucket.reset : Bucket where
  count := 0
  stamps := []

/-- One logical block: SLC slice, directory, Noon agent, mesh stop (chapters 05, 07). -/
structure Block where
  /-- SLC data (R123; reset DESIGN CHOICE, log 7) -/
  slc : List SLine
  /-- directory (R123; reset DESIGN CHOICE, log 7) -/
  dir : List DirEnt
  /-- requests waiting on busy lines, in order of arrival (R136; reset DESIGN CHOICE, log 7) -/
  queue : List HReq
  /-- staged TO stores of the current tick (R202; reset DESIGN CHOICE, log 7) -/
  staging : List PubEnt
  /-- action table (R184; reset DESIGN CHOICE, log 7) -/
  acts : List NAct
  /-- mailbox of core 0, oldest first (R188; reset DESIGN CHOICE, log 7) -/
  mail0 : List Mail
  /-- mailbox of core 1 (R188; reset DESIGN CHOICE, log 7) -/
  mail1 : List Mail
  /-- publish-buffer entries not yet acknowledged (R201; reset DESIGN CHOICE, log 7) -/
  pub : List PubEnt
  /-- publish entries used in this tick (R201; reset DESIGN CHOICE, log 7) -/
  pubCount : Nat
  /-- the agent has reported for the current quantum (R434; reset DESIGN CHOICE, log 7) -/
  reported : Bool
  /-- conditions that failed at the agent's latest evaluation, bit n - 1 for condition n (R196; reset DESIGN CHOICE, log 7) -/
  missed : Nat
  /-- mc of the tick at which the agent's changes are complete (R179; reset DESIGN CHOICE, log 7) -/
  applyEnd : Nat
  /-- a move of the Noon state for sparing is in progress (R176; reset DESIGN CHOICE, log 7) -/
  moving : Bool
  /-- fenced (R230; reset DESIGN CHOICE, log 7) -/
  fenced : Bool
  /-- requests held at their source stops during the empty-and-switch (R129; reset DESIGN CHOICE, log 7) -/
  held : List HReq
  /-- corrected-error buckets of L2 ways: 16 x core + way (R147; reset DESIGN CHOICE, log 7) -/
  l2bkt : List (Nat × Bucket)
  /-- corrected-error buckets of SLC ways (R147; reset DESIGN CHOICE, log 7) -/
  slcbkt : List (Nat × Bucket)
  deriving DecidableEq, Repr

/-- The reset value of Block (R12; marks as at the fields). -/
def Block.reset : Block where
  slc := []
  dir := []
  queue := []
  staging := []
  acts := []
  mail0 := []
  mail1 := []
  pub := []
  pubCount := 0
  reported := false
  missed := 0
  applyEnd := 0
  moving := false
  fenced := false
  held := []
  l2bkt := []
  slcbkt := []

/-- An error record (R226). -/
structure Rec where
  /-- NOON_TICK at detection (R226) -/
  tick : Nat
  /-- WALL at detection (R226) -/
  wall : Nat
  /-- AV and ADDR (R226) -/
  addr : Option Nat
  /-- source ID (R227) -/
  src : Nat
  /-- LEVEL of origin (R226) -/
  lvl : Nat
  /-- CLEVEL (R226) -/
  clvl : Nat
  /-- CLASS (R225) -/
  cls : Nat
  /-- TDV and TD (R226) -/
  td : Option Nat
  /-- OVF (R226) -/
  ovf : Bool
  /-- TYPE (R226) -/
  typ : Nat
  /-- SEQ (R226) -/
  seq : Nat
  /-- SYND bytes; bytes not listed are 0 (R226) -/
  synd : List Nat
  /-- PROG (R228) -/
  prog : Nat
  deriving DecidableEq, Repr

/-- The reset value of Rec (R12; marks as at the fields). -/
def Rec.reset : Rec where
  tick := 0
  wall := 0
  addr := none
  src := 0
  lvl := 0
  clvl := 0
  cls := 0
  td := none
  ovf := false
  typ := 0
  seq := 0
  synd := []
  prog := 0

/-- An error log (R231, R232). -/
structure Log where
  /-- records by slot (R231; reset DESIGN CHOICE, log 7) -/
  slots : List (Nat × Rec)
  /-- LOG_STAT.HEAD (R232) -/
  head : Nat
  /-- LOG_STAT.COUNT: unread by HST (R232) -/
  count : Nat
  /-- LOG_HTAIL.TAIL (R232) -/
  htail : Nat
  /-- FLD read pointer (R233) -/
  fld : Nat
  /-- unread by FLD (R231; reset DESIGN CHOICE, log 7) -/
  fldCount : Nat
  /-- LOG_LOST.LOST (R232) -/
  lost : Nat
  /-- LOG_CTL.NANY (R232) -/
  nany : Bool
  /-- LOG_CTL.NSEV (R232) -/
  nsev : Bool
  /-- LOG_CTL.NFULL (R232) -/
  nfull : Bool
  /-- LOG_CTL.FLDGATE (R232) -/
  fldgate : Bool
  /-- next SEQ (R231) -/
  seq : Nat
  /-- sources whose next record carries OVF (R231; reset DESIGN CHOICE, log 7) -/
  ovf : List Nat
  deriving DecidableEq, Repr

/-- The reset value of Log (R12; marks as at the fields). -/
def Log.reset : Log where
  slots := []
  head := 0
  count := 0
  htail := 0
  fld := 0
  fldCount := 0
  lost := 0
  nany := true
  nsev := true
  nfull := true
  fldgate := true
  seq := 0
  ovf := []

/-- What the SPD of a fitted DIMM says (R236, R237). -/
structure Dimm where
  /-- capacity in GiB (R236; reset DESIGN CHOICE, log 5) -/
  cap : Nat
  /-- 0 16 Gb, 1 24 Gb, 2 32 Gb (R236; reset DESIGN CHOICE, log 5) -/
  dens : Nat
  /-- logical ranks (R236; reset DESIGN CHOICE, log 5) -/
  ranks : Nat
  /-- speed bin: 0 9600, 1 6400, 2 4800 (R238; reset DESIGN CHOICE, log 5) -/
  speed : Nat
  /-- SPD serial number (R273; reset DESIGN CHOICE, log 5) -/
  serial : Nat
  /-- an RDIMM of x4 devices (R236; reset DESIGN CHOICE, log 5) -/
  rdimm : Bool
  deriving DecidableEq, Repr

/-- The reset value of Dimm (R12; marks as at the fields). -/
def Dimm.reset : Dimm where
  cap := 64
  dens := 0
  ranks := 2
  speed := 0
  serial := 1
  rdimm := true

/-- A request in a channel queue (R245). -/
structure MReq where
  /-- a write (R245) -/
  wr : Bool
  /-- line address (R245) -/
  la : Nat
  /-- domain (R223) -/
  td : Nat
  /-- key selector (R250) -/
  ks : Nat
  /-- data of a write (R245) -/
  data : Line
  /-- poison mark of a write (R266) -/
  poison : Bool
  /-- a scrub rewrite (R276) -/
  scrub : Bool
  /-- times an older request was passed (R246) -/
  passed : Nat
  /-- key pair in force when the request entered its queue (R252) -/
  key : W512
  deriving DecidableEq, Repr

/-- The reset value of MReq (R12; marks as at the fields). -/
def MReq.reset : MReq where
  wr := false
  la := 0
  td := 0
  ks := 0
  data := 0
  poison := false
  scrub := false
  passed := 0
  key := 0

/-- A merge-buffer entry (R248). -/
structure MergeEnt where
  /-- line (R248) -/
  la : Nat
  /-- byte mask (R248) -/
  mask : W64
  /-- data (R248) -/
  data : Line
  /-- domain (R248) -/
  td : Nat
  /-- key selector (R248) -/
  ks : Nat
  deriving DecidableEq, Repr

/-- The reset value of MergeEnt (R12; marks as at the fields). -/
def MergeEnt.reset : MergeEnt where
  la := 0
  mask := 0
  data := 0
  td := 0
  ks := 0

/-- A memory channel (chapters 09, 10). -/
structure Chan where
  /-- MC_STAT.STATE (R255) -/
  st : Nat
  /-- MC_STAT.SPEED (R258) -/
  speed : Nat
  /-- MC_STAT.DPC2 (R258) -/
  dpc2 : Bool
  /-- MC_STAT.RANKS (R258) -/
  ranks : Nat
  /-- MC_STAT.DENS (R258) -/
  dens : Nat
  /-- MC_STAT.EXCESS (R258) -/
  excess : Bool
  /-- MC_STAT.POS (R258) -/
  pos : Nat
  /-- data capacity in GiB found by training; 0 before it (R239; reset DESIGN CHOICE, log 7) -/
  cap : Nat
  /-- DIMM fitted in slot 0 (R236; reset DESIGN CHOICE, log 5) -/
  slot0 : Option Dimm
  /-- DIMM fitted in slot 1 (R236; reset DESIGN CHOICE, log 5) -/
  slot1 : Option Dimm
  /-- read queue, oldest first (R245; reset DESIGN CHOICE, log 7) -/
  rdq : List MReq
  /-- write queue, oldest first (R245; reset DESIGN CHOICE, log 7) -/
  wrq : List MReq
  /-- merge buffer, oldest first (R248; reset DESIGN CHOICE, log 7) -/
  merge : List MergeEnt
  /-- a write drain of subchannel a is in progress (R246; reset DESIGN CHOICE, log 7) -/
  drain0 : Bool
  /-- a write drain of subchannel b is in progress (R246; reset DESIGN CHOICE, log 7) -/
  drain1 : Bool
  /-- open row of each bank (R246; reset DESIGN CHOICE, log 7) -/
  rows : List (Nat × Nat)
  /-- banks under refresh (R244; reset DESIGN CHOICE, log 7) -/
  refresh : List Nat
  /-- banks held by a live row repair (R279; reset DESIGN CHOICE, log 7) -/
  held : List Nat
  /-- pointer of the channel scheduler (R221) -/
  ptr : Nat
  /-- slots each domain has received in this window (R223; reset DESIGN CHOICE, log 7) -/
  served : List (Nat × Nat)
  /-- slots counted towards the next owed scrub slot (R224; reset DESIGN CHOICE, log 7) -/
  slots : Nat
  /-- scrub slots owed (R224; reset DESIGN CHOICE, log 7) -/
  owed : Nat
  /-- MC_MARK0 (persistent in MRAM) (R273, R281; reset DESIGN CHOICE, log 5) -/
  mark0 : W64
  /-- MC_MARK1 (persistent in MRAM) (R273, R281; reset DESIGN CHOICE, log 5) -/
  mark1 : W64
  /-- MC_PROP (R281) -/
  prop : W64
  /-- MC_ECNT.CE (R281) -/
  ce : Nat
  /-- MC_ECNT.UE (R281) -/
  ue : Nat
  /-- device buckets (R268; reset DESIGN CHOICE, log 7) -/
  devBkt : List (Nat × Nat)
  /-- bank buckets (R268; reset DESIGN CHOICE, log 7) -/
  bankBkt : List (Nat × Nat)
  /-- link bucket (R243; reset DESIGN CHOICE, log 7) -/
  link : Bucket
  /-- repeats of the write in error during the fill (R254; reset DESIGN CHOICE, log 7) -/
  crcTries : Nat
  /-- MC_SCRUB.DONE (R281) -/
  done : Nat
  /-- MC_SCRUB.RUN (R281) -/
  scrubRun : Bool
  /-- tick at which the pass started (R274; reset DESIGN CHOICE, log 7) -/
  scrubStart : Nat
  /-- ticks of the pass that do not count (R275; reset DESIGN CHOICE, log 7) -/
  scrubSkip : Nat
  /-- period P in force in the pass (R274) -/
  scrubP : Nat
  /-- MC_SCRUBN.PASSES (R281) -/
  passes : Nat
  /-- a pass has started since the start (R274; reset DESIGN CHOICE, log 7) -/
  scrubbed : Bool
  /-- fill progress in lines (object 0x3030) (R254) -/
  filled : Nat
  /-- a read that failed to decode once and awaits its reread (R264; reset DESIGN CHOICE, log 7) -/
  reread : Option (MReq × List (Nat × Nat))
  /-- the retrain in progress is the repeat at the next lower speed (R256; reset DESIGN CHOICE, log 7) -/
  retry : Bool
  /-- the live row repair in progress (R279; reset DESIGN CHOICE, log 7) -/
  sppr : Option W64
  /-- ticks since the last request (R257; reset DESIGN CHOICE, log 7) -/
  idle : Nat
  /-- a Slate request for RET waits for empty queues (R257; reset DESIGN CHOICE, log 7) -/
  retReq : Bool
  deriving DecidableEq, Repr

/-- The reset value of Chan (R12; marks as at the fields). -/
def Chan.reset : Chan where
  st := 0
  speed := 0
  dpc2 := false
  ranks := 0
  dens := 0
  excess := false
  pos := 0
  cap := 0
  slot0 := some Dimm.reset
  slot1 := none
  rdq := []
  wrq := []
  merge := []
  drain0 := false
  drain1 := false
  rows := []
  refresh := []
  held := []
  ptr := 0
  served := []
  slots := 0
  owed := 0
  mark0 := 0
  mark1 := 0
  prop := 0
  ce := 0
  ue := 0
  devBkt := []
  bankBkt := []
  link := Bucket.reset
  crcTries := 0
  done := 0
  scrubRun := false
  scrubStart := 0
  scrubSkip := 0
  scrubP := 864000000000
  passes := 0
  scrubbed := false
  filled := 0
  reread := none
  retry := false
  sppr := none
  idle := 0
  retReq := false

/-- An I/O translation unit (chapter 11). -/
structure Iotu where
  /-- IOT_CTL (R301) -/
  ctl : W64
  /-- IOT_EQB (R301) -/
  eqb : W64
  /-- IOT_EQP.HEAD (R301) -/
  head : Nat
  /-- IOT_EQP.TAIL (R301) -/
  tail : Nat
  /-- IOT_EQP.LOST (R301) -/
  lost : Nat
  /-- IOTLB (R296; reset DESIGN CHOICE, log 7) -/
  tlb : List TlbEnt
  /-- walk cache (R296; reset DESIGN CHOICE, log 7) -/
  wcache : List WalkEnt
  /-- context cache, by requester ID (R296; reset DESIGN CHOICE, log 7) -/
  ctx : List (Nat × List W64)
  /-- functions whose ATS invalidation timed out, with their context entry then (R299; reset DESIGN CHOICE, log 7) -/
  blocked : List (Nat × List W64)
  /-- fenced (R230; reset DESIGN CHOICE, log 7) -/
  fenced : Bool
  deriving DecidableEq, Repr

/-- The reset value of Iotu (R12; marks as at the fields). -/
def Iotu.reset : Iotu where
  ctl := 0
  eqb := 0
  head := 0
  tail := 0
  lost := 0
  tlb := []
  wcache := []
  ctx := []
  blocked := []
  fenced := false

/-- A Cobalt descriptor as read at its start (R310). -/
structure Desc where
  /-- OP (R310) -/
  op : Nat
  /-- IRQ (R310) -/
  irq : Bool
  /-- the reserved bits read: byte 1 bits [7:1] and bytes 4 to 7 (R310) -/
  res1 : Nat
  /-- PARAM (R310) -/
  param : Nat
  /-- LEN (R310) -/
  len : Nat
  /-- SRC (R310) -/
  src : Nat
  /-- DST (R310) -/
  dst : Nat
  /-- AUX1 (R310) -/
  aux1 : Nat
  /-- AUX2 (R310) -/
  aux2 : Nat
  /-- the 64 bytes as read (R310) -/
  raw : W512
  deriving DecidableEq, Repr

/-- The reset value of Desc (R12; marks as at the fields). -/
def Desc.reset : Desc where
  op := 0
  irq := false
  res1 := 0
  param := 0
  len := 0
  src := 0
  dst := 0
  aux1 := 0
  aux2 := 0
  raw := 0

/-- The operation state of a descriptor in progress (R302, R320). -/
structure OpSt where
  /-- running SHA-384 or Keccak state (R302; reset DESIGN CHOICE, log 7) -/
  hash : List W64
  /-- partial block (R302; reset DESIGN CHOICE, log 7) -/
  part : List Byte
  /-- captured GCM key (R311; reset DESIGN CHOICE, log 7) -/
  key : BitVec 256
  /-- captured GCM IV (R311; reset DESIGN CHOICE, log 7) -/
  iv : BitVec 96
  /-- address of the additional data (R311; reset DESIGN CHOICE, log 7) -/
  aad : Nat
  /-- its length (R311; reset DESIGN CHOICE, log 7) -/
  aadLen : Nat
  /-- GCM counter (R311; reset DESIGN CHOICE, log 7) -/
  ctr : Nat
  /-- GHASH state (R311; reset DESIGN CHOICE, log 7) -/
  ghash : W128
  /-- ASUM accumulator (R172; reset DESIGN CHOICE, log 7) -/
  acc : AmAcc
  deriving DecidableEq, Repr

/-- The reset value of OpSt (R12; marks as at the fields). -/
def OpSt.reset : OpSt where
  hash := []
  part := []
  key := 0
  iv := 0
  aad := 0
  aadLen := 0
  ctr := 0
  ghash := 0
  acc := AmAcc.reset

/-- A read of a chunk in PCI Express memory space (R302, R319). -/
structure PeerRd where
  /-- physical address (R302; reset DESIGN CHOICE, log 7) -/
  pa : Nat
  /-- bytes (R302; reset DESIGN CHOICE, log 7) -/
  n : Nat
  /-- 1,024 x (4 x stack + port) + tag (R332; reset DESIGN CHOICE, log 7) -/
  key : Nat
  /-- 0 outstanding, 1 data, 2 error completion, 3 timed out, 4 poisoned (R319; reset DESIGN CHOICE, log 7) -/
  st : Nat
  /-- the data (R302; reset DESIGN CHOICE, log 7) -/
  data : List Byte
  deriving DecidableEq, Repr

/-- The reset value of PeerRd (R12; marks as at the fields). -/
def PeerRd.reset : PeerRd where
  pa := 0
  n := 0
  key := 0
  st := 0
  data := []

/-- A Cobalt instance (R308, R309, R317). -/
structure Inst where
  /-- INST_CTX0 (R309) -/
  ctx0 : W64
  /-- INST_CTX1 (R309) -/
  ctx1 : W64
  /-- INST_CTX2 (R309) -/
  ctx2 : W64
  /-- INST_CTX3 (R309) -/
  ctx3 : W64
  /-- INST_RING (R309) -/
  ring : W64
  /-- INST_QOS (R309) -/
  qos : W64
  /-- INST_CMD.RES (R309) -/
  res : Nat
  /-- INST_CMD.BUSY (R309) -/
  busy : Bool
  /-- STATE (R317) -/
  st : Nat
  /-- STATUS (R309) -/
  status : Nat
  /-- HEAD (R309) -/
  head : Nat
  /-- TAIL (R309) -/
  tail : Nat
  /-- CWF (R309) -/
  cwf : Bool
  /-- DRF (R309) -/
  drf : Bool
  /-- INST_FADDR (R309) -/
  faddr : W64
  /-- INST_CTXA (R309) -/
  ctxa : W64
  /-- INST_LASTP (R309) -/
  lastp : W64
  /-- DB_STAT.DBRES (R309) -/
  dbres : Nat
  /-- state held before the quiesce (R318; reset DESIGN CHOICE, log 7) -/
  prev : Nat
  /-- the quiesce in progress waits for the descriptor boundary (R309; reset DESIGN CHOICE, log 7) -/
  qdesc : Bool
  /-- the descriptor in progress (R310; reset DESIGN CHOICE, log 7) -/
  desc : Option Desc
  /-- recorded progress of that descriptor (R302; reset DESIGN CHOICE, log 7) -/
  prog : Nat
  /-- its operation state (R320; reset DESIGN CHOICE, log 7) -/
  op : OpSt
  /-- the parameter block of the descriptor in progress has still to be read (R318; reset DESIGN CHOICE, log 7) -/
  needParam : Bool
  /-- a chunk is in a pipe (R305; reset DESIGN CHOICE, log 7) -/
  pipe : Bool
  /-- reads of that chunk in PCI Express memory space (R302; reset DESIGN CHOICE, log 7) -/
  peer : List PeerRd
  /-- STATUS and DETAIL whose completion write is due (R313; reset DESIGN CHOICE, log 7) -/
  fin : Option (Nat × Nat)
  /-- tail and publish tick of an accepted CSTART with P not 0 that still holds the boundary (R190; reset DESIGN CHOICE, log 7) -/
  hold : Option (Nat × Nat)
  /-- dispatches received in the current window (R307; reset DESIGN CHOICE, log 7) -/
  disp : Nat
  deriving DecidableEq, Repr

/-- The reset value of Inst (R12; marks as at the fields). -/
def Inst.reset : Inst where
  ctx0 := 0
  ctx1 := 0
  ctx2 := 0
  ctx3 := 0
  ring := 0
  qos := 0
  res := 0
  busy := false
  st := 0
  status := 0
  head := 0
  tail := 0
  cwf := false
  drf := false
  faddr := 0
  ctxa := 0
  lastp := 0
  dbres := 0
  prev := 0
  qdesc := false
  desc := none
  prog := 0
  op := OpSt.reset
  needParam := false
  pipe := false
  peer := []
  fin := none
  hold := none
  disp := 0

/-- The Cobalt function of a region (chapters 12, 13). -/
structure Fn where
  /-- Command.Memory Space Enable (R341) -/
  mse : Bool
  /-- Command.Bus Master Enable (R341) -/
  bme : Bool
  /-- Command.SERR# Enable (R341; reset DESIGN CHOICE, log 7) -/
  serr : Bool
  /-- BAR0 base (R341; reset DESIGN CHOICE, log 7) -/
  bar0 : W64
  /-- PowerState: 0 D0, 3 D3hot (R344, R353) -/
  pm : Nat
  /-- PME_En (R345; reset DESIGN CHOICE, log 7) -/
  pmeEn : Bool
  /-- PME_Status (R345; reset DESIGN CHOICE, log 7) -/
  pmeStatus : Bool
  /-- MSI-X Enable (R343; reset DESIGN CHOICE, log 7) -/
  msixEn : Bool
  /-- Function Mask (R343; reset DESIGN CHOICE, log 7) -/
  fmask : Bool
  /-- MSI-X table entries (unlisted: address and data 0, masked) (R342, R343; reset PRESUMED, log 8) -/
  msix : List (Nat × W128)
  /-- pending bits, as entry numbers (R343; reset DESIGN CHOICE, log 7) -/
  pba : List Nat
  /-- requester domain of each pending message (R343; reset DESIGN CHOICE, log 7) -/
  pbaTd : List (Nat × Nat)
  /-- AER uncorrectable status (R346; reset DESIGN CHOICE, log 7) -/
  aer : Nat
  /-- CBT_CONTAIN.FROZEN (R346) -/
  frozen : Bool
  /-- CBT_CONTAIN.CAUSE (R346) -/
  cause : Nat
  /-- reads outstanding: QUIET is 1 when there is none (reset QUIET 1) (R346) -/
  reads : Nat
  /-- CBT_CONTAIN.PEND (R346) -/
  crel : Bool
  /-- CBT_CONTAIN.COUNT (R346) -/
  entries : Nat
  /-- IBW_SHD0 to IBW_SHD15 (R323) -/
  shd : List (Nat × W64)
  /-- IBW_LIVE0 to IBW_LIVE15 (R323) -/
  live : List (Nat × W64)
  /-- IBW_COMMIT.MASK (R323) -/
  cmask : Nat
  /-- IBW_COMMIT.BUSY (R323) -/
  cbusy : Bool
  /-- instances 0 to 63 (R308) -/
  insts : List (Nat × Inst)
  /-- pointer of the pipe-input arbiter (R307) -/
  ptr : Nat
  /-- dispatches in the current window of 256 (R307; reset DESIGN CHOICE, log 7) -/
  win : Nat
  /-- dispatch is held while new microcode is written (R379; reset DESIGN CHOICE, log 7) -/
  holdUcode : Bool
  /-- BUILD of the microcode in force; 0 before it is placed (R366; reset DESIGN CHOICE, log 7) -/
  ucode : Nat
  /-- other writable configuration bytes (R341; reset DESIGN CHOICE, log 7) -/
  cfg : List (Nat × Nat)
  deriving DecidableEq, Repr

/-- The reset value of Fn (R12; marks as at the fields). -/
def Fn.reset : Fn where
  mse := false
  bme := false
  serr := false
  bar0 := 0
  pm := 0
  pmeEn := false
  pmeStatus := false
  msixEn := false
  fmask := false
  msix := []
  pba := []
  pbaTd := []
  aer := 0
  frozen := false
  cause := 0
  reads := 0
  crel := false
  entries := 0
  shd := []
  live := []
  cmask := 0
  cbusy := false
  insts := []
  ptr := 0
  win := 0
  holdUcode := false
  ucode := 0
  cfg := []

/-- An outstanding non-posted request of a root port (R332, R335). -/
structure PReq where
  /-- the requester: core ID, or 256 + instance for a Cobalt read (R336) -/
  who : Nat
  /-- register that a core's load writes (R336) -/
  rd : PDest
  /-- address of the request (R336) -/
  pa : Nat
  /-- cycles of the instruction that waits (R61) -/
  met : Nat
  /-- bytes requested (R336) -/
  size : Nat
  /-- a configuration write or an AtomicOp (R336) -/
  write : Bool
  /-- requester domain (R336) -/
  td : Nat
  /-- WALL when sent (R335) -/
  sent : Nat
  /-- timeout in ns in force when sent (R335) -/
  limit : Nat
  /-- answered with CRS, to be reissued (R334) -/
  crs : Bool
  /-- a configuration read that covers the Vendor ID (R334) -/
  vid : Bool
  /-- the instruction goes on after the completion (R73) -/
  more : Bool
  /-- header of the request (R337) -/
  hdr : List Nat
  deriving DecidableEq, Repr

/-- The reset value of PReq (R12; marks as at the fields). -/
def PReq.reset : PReq where
  who := 0
  rd := .none
  pa := 0
  met := 0
  size := 0
  write := false
  td := 0
  sent := 0
  limit := 0
  crs := false
  vid := false
  more := false
  hdr := []

/-- A root port (chapter 13). -/
structure Port where
  /-- the link is up (R329; reset DESIGN CHOICE, log 7) -/
  up : Bool
  /-- trained width (R329; reset DESIGN CHOICE, log 7) -/
  width : Nat
  /-- trained rate code (R329; reset DESIGN CHOICE, log 7) -/
  rate : Nat
  /-- the link is in L1.2 (R358; reset DESIGN CHOICE, log 7) -/
  inL12 : Bool
  /-- PERST# low (R353) -/
  perst : Bool
  /-- outstanding requests by tag (R332; reset DESIGN CHOICE, log 7) -/
  reqs : List (Nat × PReq)
  /-- quarantined tags, with the WALL at which each becomes free and its requester (R337; reset DESIGN CHOICE, log 7) -/
  quar : List (Nat × Nat × Nat)
  /-- Device Control 2.Completion Timeout Value (R335) -/
  cto : Nat
  /-- DPC Trigger Status: contained (R339; reset DESIGN CHOICE, log 7) -/
  dpc : Bool
  /-- DPC Trigger Enable (R339) -/
  dpcEn : Nat
  /-- contained by the fence of R230 (R339; reset DESIGN CHOICE, log 7) -/
  dpcFence : Bool
  /-- RP PIO log (R339; reset DESIGN CHOICE, log 7) -/
  rppio : Option (List Nat)
  /-- AER correctable status (R338; reset DESIGN CHOICE, log 7) -/
  aerCor : Nat
  /-- AER uncorrectable status (R338; reset DESIGN CHOICE, log 7) -/
  aerUnc : Nat
  /-- AER header log (R331; reset DESIGN CHOICE, log 7) -/
  aerLog : List Nat
  /-- Root Error Status (R338; reset DESIGN CHOICE, log 7) -/
  rootErr : Nat
  /-- Root Command reporting enables: bit 0 correctable, 1 non-fatal, 2 fatal (R340; reset DESIGN CHOICE, log 7) -/
  rootCmd : Nat
  /-- Root Control.PME Interrupt Enable (R340; reset DESIGN CHOICE, log 7) -/
  pmeInt : Bool
  /-- Root Status: PME Status and requester (R340; reset DESIGN CHOICE, log 7) -/
  pmeStat : Option Nat
  /-- Root Control.CRS Software Visibility Enable (R334; reset DESIGN CHOICE, log 7) -/
  crsVis : Bool
  /-- secondary bus number (R338; reset DESIGN CHOICE, log 7) -/
  sec : Nat
  /-- subordinate bus number (R338; reset DESIGN CHOICE, log 7) -/
  sub : Nat
  /-- correctable link error bucket (R340; reset DESIGN CHOICE, log 7) -/
  bkt : Bucket
  /-- discarded completions (R340) -/
  cnt1 : Nat
  /-- timeouts (R340) -/
  cnt2 : Nat
  /-- discarded messages (R340) -/
  cnt3 : Nat
  /-- DPC triggers (R340) -/
  cnt4 : Nat
  /-- other writable configuration bytes (R330; reset DESIGN CHOICE, log 7) -/
  cfg : List (Nat × Nat)
  deriving DecidableEq, Repr

/-- The reset value of Port (R12; marks as at the fields). -/
def Port.reset : Port where
  up := false
  width := 0
  rate := 0
  inL12 := false
  perst := true
  reqs := []
  quar := []
  cto := 0
  dpc := false
  dpcEn := 1
  dpcFence := false
  rppio := none
  aerCor := 0
  aerUnc := 0
  aerLog := []
  rootErr := 0
  rootCmd := 0
  pmeInt := false
  pmeStat := none
  crsVis := false
  sec := 0
  sub := 0
  bkt := Bucket.reset
  cnt1 := 0
  cnt2 := 0
  cnt3 := 0
  cnt4 := 0
  cfg := []

/-- An image held in Dawn's image store or an image header in force (R366, R368). -/
structure Img where
  /-- COMP (R368) -/
  comp : Nat
  /-- SVN (R368) -/
  svn : Nat
  /-- BUILD (R368) -/
  build : Nat
  /-- KEYIDX (R368) -/
  keyidx : Nat
  /-- FLAGS.LIVE (R368) -/
  live : Bool
  /-- BODYHASH (R368) -/
  hash : List Byte
  /-- BODYLEN (R368) -/
  len : Nat
  /-- 0 slot A, 1 slot B, 2 SVC (R366) -/
  src : Nat
  /-- the header as it was read (R366) -/
  hdr : List Byte
  deriving DecidableEq, Repr

/-- The reset value of Img (R12; marks as at the fields). -/
def Img.reset : Img where
  comp := 0
  svn := 0
  build := 0
  keyidx := 0
  live := false
  hash := []
  len := 0
  src := 0
  hdr := []

/-- One region (R13). -/
structure Region where
  /-- region error log (R231) -/
  log : Log
  /-- drop count of the region router (object 0x7010) (R233) -/
  drops : Nat
  /-- I/O translation unit (R296) -/
  iotu : Iotu
  /-- Cobalt function and complex (R308) -/
  fn : Fn
  /-- root ports of the stack, by function number (R29) -/
  ports : List (Nat × Port)
  /-- bifurcation in force (R328) -/
  bifurc : Nat
  /-- ticks for which every link has stayed in L1.2 or down (R358; reset DESIGN CHOICE, log 7) -/
  stackIdle : Nat
  /-- the I/O stop agent has reported for the current quantum (R434; reset DESIGN CHOICE, log 7) -/
  iosReported : Bool
  /-- conditions that failed at its latest evaluation (R196; reset DESIGN CHOICE, log 7) -/
  iosMissed : Nat
  /-- mc at which its changes are complete (R179; reset DESIGN CHOICE, log 7) -/
  iosEnd : Nat
  /-- replay buckets of the die links, by edge and link (R217; reset DESIGN CHOICE, log 7) -/
  links : List (Nat × Bucket)
  /-- consecutive failed replays per link (R217; reset DESIGN CHOICE, log 7) -/
  replays : List (Nat × Nat)
  /-- links being retrained (R217; reset DESIGN CHOICE, log 7) -/
  retrain : List Nat
  /-- spare lanes in use per link (R216; reset DESIGN CHOICE, log 7) -/
  spares : List (Nat × Nat)
  /-- late completions of Cobalt reads (object 0x6010) (R319) -/
  lateCto : Nat
  /-- the Morning controller runs (R229; reset DESIGN CHOICE, log 7) -/
  morning : Bool
  /-- Morning work held while it is stopped: kind and channel (R379; reset DESIGN CHOICE, log 7) -/
  mwork : List (Nat × Nat)
  /-- headers of the images in force in the region, by component (R366, R386; reset DESIGN CHOICE, log 7) -/
  fw : List (Nat × Img)
  /-- replacement in progress: logical block, spare position, old position (R419; reset DESIGN CHOICE, log 7) -/
  sparing : Option (Nat × Nat × Nat)
  /-- spares serve SLC-as-RAM (R353; reset DESIGN CHOICE, log 7) -/
  spareOn : Bool
  deriving DecidableEq, Repr

/-- The reset value of Region (R12; marks as at the fields). -/
def Region.reset : Region where
  log := Log.reset
  drops := 0
  iotu := Iotu.reset
  fn := Fn.reset
  ports := []
  bifurc := 0
  stackIdle := 0
  iosReported := false
  iosMissed := 0
  iosEnd := 0
  links := []
  replays := []
  retrain := []
  spares := []
  lateCto := 0
  morning := false
  mwork := []
  fw := []
  sparing := none
  spareOn := false

/-- A switchable power domain (R350). -/
structure Pwr where
  /-- PWR_DOM.STATE: 0 ON, 1 RET, 2 OFF, 3 in transition (R353) -/
  st : Nat
  /-- the state the transition leads to (R362; reset DESIGN CHOICE, log 7) -/
  dest : Nat
  /-- the state the transition started from (R361; reset DESIGN CHOICE, log 7) -/
  src : Nat
  /-- PWR_DOM.HELD (R361) -/
  held : Bool
  /-- PWR_DOM.LASTWAKE (R365) -/
  wake : Nat
  /-- cause of the return in progress (R365; reset DESIGN CHOICE, log 7) -/
  cause : Nat
  /-- a core in RET entered through WFE (R355; reset DESIGN CHOICE, log 7) -/
  viaWfe : Bool
  /-- requests that wait for the transition to complete (R351; reset DESIGN CHOICE, log 7) -/
  queue : List Nat
  /-- a wake condition arose during the entry (R354; reset DESIGN CHOICE, log 7) -/
  wakeReq : Bool
  deriving DecidableEq, Repr

/-- The reset value of Pwr (R12; marks as at the fields). -/
def Pwr.reset : Pwr where
  st := 2
  dest := 2
  src := 2
  held := false
  wake := 0
  cause := 0
  viaWfe := false
  queue := []
  wakeReq := false

/-- The Noon root (R174 to R199). -/
structure Noon where
  /-- NOON_TICK (R174) -/
  tick : Nat
  /-- the tick runs: the root PLL is locked and no chip-fatal stop has occurred (R174; reset DESIGN CHOICE, log 7) -/
  run : Bool
  /-- quanta by which the boundary out of this tick is stretched so far (R175; reset DESIGN CHOICE, log 7) -/
  k : Nat
  /-- the root has ordered the boundary (R175; reset DESIGN CHOICE, log 7) -/
  ordered : Bool
  /-- agents that sent a report at an earlier quantum of this tick (R196; reset DESIGN CHOICE, log 7) -/
  early : List Nat
  /-- NOON_TW.WALL (R196) -/
  twWall : Nat
  /-- NOON_STRCNT (R196) -/
  strcnt : Nat
  /-- NOON_STRQ (R196) -/
  strq : Nat
  /-- NOON_STRLAST (R196) -/
  strlast : W64
  /-- NOON_QUOTA (TD0: ENT 64, BINDEN 1, HOLD 0xFFF; others 0) (R185) -/
  quota : List (Nat × W64)
  /-- root periods since PLL lock (R175; reset DESIGN CHOICE, log 7) -/
  rootT : Nat
  /-- WALL (R197) -/
  wall : Nat
  /-- hidden fraction of WALL (R197; reset DESIGN CHOICE, log 7) -/
  wfrac : Nat
  /-- slew left, in units of 2^-32 ns (R198; reset DESIGN CHOICE, log 7) -/
  slew : Int
  /-- REFCLK periods over which it is spread (R198; reset DESIGN CHOICE, log 7) -/
  slewN : Nat
  /-- REFCLK periods since power-on (R198; reset DESIGN CHOICE, log 7) -/
  refs : Nat
  /-- refs at PLL lock (R197; reset DESIGN CHOICE, log 7) -/
  lockRefs : Nat
  /-- REFCLK period of the last accepted PPS edge (R198; reset DESIGN CHOICE, log 7) -/
  ppsAt : Nat
  /-- an edge has been accepted since power-on (R198; reset DESIGN CHOICE, log 7) -/
  ppsAny : Bool
  /-- CAP (object 0x5100.3) (R199) -/
  cap : Nat
  /-- E (object 0x5100.4) (R199) -/
  e : Int
  /-- TRIM (object 0x5100.5) (R199) -/
  trim : Int
  /-- PPS_LOST (object 0x5100.6) (R199) -/
  lost : Bool
  /-- source 3,200 was posted for the present loss (R198; reset DESIGN CHOICE, log 7) -/
  lostPosted : Bool
  /-- GLITCH (object 0x5100.7) (R199) -/
  glitch : Nat
  /-- pin conflict flag (object 0x5200.4) (R199) -/
  conflict : Bool
  /-- TRACE_CLK is enabled (R199; reset DESIGN CHOICE, log 7) -/
  trace : Bool
  deriving DecidableEq, Repr

/-- The reset value of Noon (R12; marks as at the fields). -/
def Noon.reset : Noon where
  tick := 0
  run := false
  k := 0
  ordered := false
  early := []
  twWall := 0
  strcnt := 0
  strq := 0
  strlast := 0
  quota := []
  rootT := 0
  wall := 0
  wfrac := 0
  slew := 0
  slewN := 0
  refs := 0
  lockRefs := 0
  ppsAt := 0
  ppsAny := false
  cap := 0
  e := 0
  trim := 0
  lost := true
  lostPosted := false
  glitch := 0
  conflict := false
  trace := false

/-- The key engine (R250 to R252). -/
structure Keys where
  /-- KEY_DATA0 to KEY_DATA7 (R252) -/
  data : List (Nat × W64)
  /-- KEY_CMD.SEL (R252) -/
  sel : Nat
  /-- KEY_CMD.TD (R252) -/
  td : Nat
  /-- KEY_CMD.OP (R252) -/
  op : Nat
  /-- KEY_STAT.BUSY (R252) -/
  busy : Bool
  /-- KEY_STAT.ERR (R252) -/
  err : Bool
  /-- slot and key that the command in progress loads (R252; reset DESIGN CHOICE, log 7) -/
  next : Option (Nat × W512)
  /-- memory key slots, by 4 x TD + selector (unlisted: the null key) (R250, R251) -/
  slots : List (Nat × W512)
  /-- the null key (zero until Dawn generates it) (R251) -/
  null : W512
  deriving DecidableEq, Repr

/-- The reset value of Keys (R12; marks as at the fields). -/
def Keys.reset : Keys where
  data := []
  sel := 0
  td := 0
  op := 0
  busy := false
  err := false
  next := none
  slots := []
  null := 0

/-- The TLB shootdown registers (R294, R295). -/
structure Sd where
  /-- TLB_SD_VA (R294) -/
  va : W64
  /-- TLB_SD_CMD.SCOPE (R294) -/
  scope : Nat
  /-- TLB_SD_CMD.REGIME (R294) -/
  regime : Nat
  /-- TLB_SD_CMD.TD (R294) -/
  td : Nat
  /-- TLB_SD_CMD.IO (R294) -/
  io : Bool
  /-- TLB_SD_CMD.BUSY (R294) -/
  busy : Bool
  /-- TLB_SD_CMD.ATSTO (R294) -/
  atsto : Bool
  /-- functions (region, requester) whose Invalidate Completion is awaited (R299; reset DESIGN CHOICE, log 7) -/
  wait : List (Nat × Nat)
  deriving DecidableEq, Repr

/-- The reset value of Sd (R12; marks as at the fields). -/
def Sd.reset : Sd where
  va := 0
  scope := 0
  regime := 0
  td := 0
  io := false
  busy := false
  atsto := false
  wait := []

/-- Dawn and the boot registers (chapter 15). -/
structure Boot where
  /-- BOOT_STAT.PHASE (R374) -/
  phase : Nat
  /-- BOOT_STAT.FILLED (R374) -/
  filled : Bool
  /-- BOOT_STAT.HANDED (R374) -/
  handed : Bool
  /-- BOOT_STAT.LOCKED (R374) -/
  locked : Bool
  /-- BOOT_STAT.RECOV (R374) -/
  recov : Bool
  /-- BOOT_STAT.SLOT (R374) -/
  slot : Nat
  /-- BOOT_CTL.LOCK (R374) -/
  lockW : Bool
  /-- tick at which phase 5 began (R374; reset DESIGN CHOICE, log 7) -/
  phase5 : Nat
  /-- images of components 1 to 4 in the image store (R366; reset DESIGN CHOICE, log 7) -/
  store : List Img
  /-- object 0x8000 subindex 4 (R386) -/
  lacks : Bool
  /-- the monitor image placed at the start (R386; reset DESIGN CHOICE, log 7) -/
  monitor : Option Img
  /-- boot counter (MRAM; 0 at manufacture) (R386; reset DESIGN CHOICE, log 5) -/
  counter : Nat
  /-- anti-rollback floors (MRAM; 0 at manufacture) (R372; reset DESIGN CHOICE, log 5) -/
  floors : List (Nat × Nat)
  /-- object 0x8210.1 (R386) -/
  rejCode : Nat
  /-- object 0x8210.2 (R386) -/
  rejComp : Nat
  /-- object 0x8210.3 (R386) -/
  rejSrc : Nat
  /-- delivery session: DEST (R375; reset DESIGN CHOICE, log 7) -/
  sess : Option Nat
  /-- images accepted whole in the session (R375; reset DESIGN CHOICE, log 7) -/
  sessImgs : List Img
  /-- the header accepted last whose body is awaited (R375; reset DESIGN CHOICE, log 7) -/
  sessHdr : Option Img
  /-- object 0x8200.4 (R375; reset DESIGN CHOICE, log 7) -/
  sessRes : Nat
  /-- next free offset of the inactive slot (R376; reset DESIGN CHOICE, log 7) -/
  flashOff : Nat
  /-- component and offset of the images written to the inactive slot (R376; reset DESIGN CHOICE, log 7) -/
  dirList : List (Nat × Nat)
  /-- object 0x8401.1 (R386) -/
  liveRun : Bool
  /-- object 0x8401.2 (R386) -/
  liveRes : Nat
  /-- region of the live restart (R378; reset DESIGN CHOICE, log 7) -/
  liveReg : Nat
  /-- its component mask (R378; reset DESIGN CHOICE, log 7) -/
  liveMask : Nat
  /-- its images (R378; reset DESIGN CHOICE, log 7) -/
  liveImgs : List Img
  /-- object 0x8410.1 (R380; reset DESIGN CHOICE, log 7) -/
  placeDst : Nat
  /-- object 0x8410.3 (R380; reset DESIGN CHOICE, log 7) -/
  placeRes : Nat
  /-- scan-entered flag (MRAM) (R381; reset DESIGN CHOICE, log 5) -/
  scanFlag : Bool
  /-- object 0x9020.1 (MRAM) (R415; reset DESIGN CHOICE, log 5) -/
  scanKinds : Nat
  /-- LBIST byte of the start record (R381; reset DESIGN CHOICE, log 7) -/
  lbistRes : Nat
  /-- SLOTB flag (R381; reset DESIGN CHOICE, log 7) -/
  slotB : Bool
  /-- object 0x7020.1 was set at the start (R381; reset DESIGN CHOICE, log 7) -/
  fatalAtStart : Bool
  /-- the Vesper ring (MRAM), by slot (R382; reset DESIGN CHOICE, log 5) -/
  vesper : List (Nat × List Byte)
  /-- records ever written (R382; reset DESIGN CHOICE, log 5) -/
  vesperN : Nat
  /-- object 0x8320.2 (R384; reset DESIGN CHOICE, log 7) -/
  vesperRd : Nat
  /-- the nonce written last (R382; reset DESIGN CHOICE, log 7) -/
  nonce : List Byte
  /-- object 0x8310.2 (R382; reset DESIGN CHOICE, log 7) -/
  nonceOut : List Byte
  /-- revoked key pairs (fuses) (R368; reset DESIGN CHOICE, log 5) -/
  revoked : Nat
  /-- object 0x7020.1 (MRAM) (R233; reset DESIGN CHOICE, log 5) -/
  fatal : Bool
  /-- object 0x7020.2 (MRAM) (R233; reset DESIGN CHOICE, log 5) -/
  fatalRec : Option Rec
  /-- zeroization has completed within the current start (R391; reset DESIGN CHOICE, log 7) -/
  zeroized : Bool
  /-- the identity key copy is present (R382; reset DESIGN CHOICE, log 7) -/
  keyDerived : Bool
  /-- a release of RESET_N is held until PWRGOOD and REFCLK (R428; reset DESIGN CHOICE, log 7) -/
  waitRel : Bool
  /-- a monitor placement was requested (R380; reset DESIGN CHOICE, log 7) -/
  monPend : Bool
  deriving DecidableEq, Repr

/-- The reset value of Boot (R12; marks as at the fields). -/
def Boot.reset : Boot where
  phase := 0
  filled := false
  handed := false
  locked := false
  recov := false
  slot := 0
  lockW := false
  phase5 := 0
  store := []
  lacks := false
  monitor := none
  counter := 0
  floors := []
  rejCode := 0
  rejComp := 0
  rejSrc := 0
  sess := none
  sessImgs := []
  sessHdr := none
  sessRes := 0
  flashOff := 4096
  dirList := []
  liveRun := false
  liveRes := 0
  liveReg := 0
  liveMask := 0
  liveImgs := []
  placeDst := 0
  placeRes := 0
  scanFlag := false
  scanKinds := 0
  lbistRes := 0
  slotB := false
  fatalAtStart := false
  vesper := []
  vesperN := 0
  vesperRd := 0
  nonce := []
  nonceOut := []
  revoked := 0
  fatal := false
  fatalRec := none
  zeroized := false
  keyDerived := false
  waitRel := false
  monPend := false

/-- The stage set, snapshot and write buffer of one Slate port (R395, R396, R402). -/
structure Stage where
  /-- staged values, by 256 x index + subindex (R402) -/
  ents : List (Nat × SVal)
  /-- stale mark (R403; reset DESIGN CHOICE, log 7) -/
  stale : Bool
  /-- object of the snapshot (R395; reset DESIGN CHOICE, log 7) -/
  snapKey : Option Nat
  /-- the snapshot (R395; reset DESIGN CHOICE, log 7) -/
  snap : List Byte
  /-- write buffer: OP, object, TOTAL (R396; reset DESIGN CHOICE, log 7) -/
  wbuf : Option (Nat × Nat × Nat)
  /-- bytes assembled so far (R396; reset DESIGN CHOICE, log 7) -/
  wdata : List Byte
  /-- object 0x1F10 (R408) -/
  result : W64
  /-- object 0x1F11 (R408) -/
  lastT : Nat
  /-- object 0x1F14 (R408) -/
  bad : Nat
  deriving DecidableEq, Repr

/-- The reset value of Stage (R12; marks as at the fields). -/
def Stage.reset : Stage where
  ents := []
  stale := false
  snapKey := none
  snap := []
  wbuf := none
  wdata := []
  result := 0
  lastT := 0
  bad := 0

/-- An accepted commit not yet applied (R405). -/
structure Pend where
  /-- commit tick (R405) -/
  tick : Nat
  /-- port (R405) -/
  port : Nat
  /-- values, by 256 x index + subindex (R405) -/
  ents : List (Nat × SVal)
  deriving DecidableEq, Repr

/-- The reset value of Pend (R12; marks as at the fields). -/
def Pend.reset : Pend where
  tick := 0
  port := 0
  ents := []

/-- The Slate object dictionary and its ports (chapter 16). -/
structure Slate where
  /-- volatile settings changed since the start, by 256 x index + subindex (R387, R389) -/
  vals : List (Nat × SVal)
  /-- persistent settings held in MRAM (none written yet at manufacture) (R389; reset DESIGN CHOICE, log 5) -/
  pers : List (Nat × SVal)
  /-- per port: 0 SVC, 1 FLD, 2 HST, 3 DBG (R402) -/
  stages : List (Nat × Stage)
  /-- pending commits, in order of acceptance (R405) -/
  pends : List Pend
  /-- pointer of the command intake arbiter (R221) -/
  ptr : Nat
  /-- field node number sampled (R399, R407; reset DESIGN CHOICE, log 7) -/
  node : Nat
  /-- CAN transmit error counter (R399; reset DESIGN CHOICE, log 7) -/
  tec : Nat
  /-- CAN receive error counter (R399; reset DESIGN CHOICE, log 7) -/
  recv : Nat
  /-- the node is bus-off (R399; reset DESIGN CHOICE, log 7) -/
  busOff : Bool
  /-- the CAN FD controller runs from the 80 MHz division (R364; reset DESIGN CHOICE, log 7) -/
  canPll : Bool
  /-- SPI status RDY (R400; reset DESIGN CHOICE, log 7) -/
  svcRdy : Bool
  /-- SPI status NAK (R400; reset DESIGN CHOICE, log 7) -/
  svcNak : Bool
  /-- response of the service port (R400; reset DESIGN CHOICE, log 7) -/
  svcRsp : List Byte
  /-- SL_HREQ (R401; reset DESIGN CHOICE, log 7) -/
  hreq : Mem
  /-- SL_HRSP (R401; reset DESIGN CHOICE, log 7) -/
  hrsp : List Byte
  /-- SL_HCTL.NEN (R401) -/
  nen : Bool
  /-- SL_HSTAT.DONE (R401) -/
  hdone : Bool
  /-- SLATE scan status RDY (R414; reset DESIGN CHOICE, log 7) -/
  dbgRdy : Bool
  /-- SLATE scan status NAK (R414; reset DESIGN CHOICE, log 7) -/
  dbgNak : Bool
  /-- response of the debug port (R414; reset DESIGN CHOICE, log 7) -/
  dbgRsp : List Byte
  /-- TAP instruction in force (R414; reset DESIGN CHOICE, log 7) -/
  ir : Nat
  deriving DecidableEq, Repr

/-- The reset value of Slate (R12; marks as at the fields). -/
def Slate.reset : Slate where
  vals := []
  pers := []
  stages := []
  pends := []
  ptr := 0
  node := 0
  tec := 0
  recv := 0
  busOff := false
  canPll := false
  svcRdy := false
  svcNak := false
  svcRsp := []
  hreq := []
  hrsp := []
  nen := false
  hdone := false
  dbgRdy := false
  dbgNak := false
  dbgRsp := []
  ir := 0xFF

/-- The LBIST registers of a unit (R413). -/
structure Lb where
  /-- LBIST_STAT.STATUS (R413) -/
  status : Nat
  /-- LBIST_STAT.DONE (R413) -/
  done : Bool
  /-- LBIST_STAT.CAUSE (R413) -/
  cause : Nat
  /-- LBIST_PAT.PAT_COUNT (R413) -/
  pat : Nat
  /-- LBIST_SIG.SIG (R413) -/
  sig : W64
  deriving DecidableEq, Repr

/-- The reset value of Lb (R12; marks as at the fields). -/
def Lb.reset : Lb where
  status := 0
  done := false
  cause := 0
  pat := 0
  sig := 0

/-- Repair state held in MRAM (R273, R277, R280, R417), as at manufacture. -/
structure Mram where
  /-- block map changes, by 18 x region + position (unlisted: the map of manufacture) (R417; reset DESIGN CHOICE, log 5) -/
  map : List (Nat × Nat)
  /-- SPD serials recorded with marks and rows, by 2 x channel + slot (R273; reset DESIGN CHOICE, log 5) -/
  serials : List (Nat × Nat)
  /-- row-remap tables (R277; reset DESIGN CHOICE, log 5) -/
  rows : List (Nat × List W64)
  /-- row entries to remove at the next start: channel, entry (R279; reset DESIGN CHOICE, log 5) -/
  rowDel : List (Nat × Nat)
  /-- on-die repair supplement (R280; reset DESIGN CHOICE, log 5) -/
  supp : List W64
  /-- supplement entries to remove at the next start (R281; reset DESIGN CHOICE, log 5) -/
  suppDel : List Nat
  /-- L2 arrays (2 x physical block + core) whose FULL is set (R150; reset DESIGN CHOICE, log 5) -/
  l2full : List Nat
  /-- slices (physical block) whose FULL is set (R150; reset DESIGN CHOICE, log 5) -/
  slcfull : List Nat
  /-- marks to clear at the next start: channel, mark (R273; reset DESIGN CHOICE, log 5) -/
  markOff : List (Nat × Nat)
  deriving DecidableEq, Repr

/-- The reset value of Mram (R12; marks as at the fields). -/
def Mram.reset : Mram where
  map := []
  serials := []
  rows := []
  rowDel := []
  supp := []
  suppDel := []
  l2full := []
  slcfull := []
  markOff := []

/-- Pins and supplies (chapter 18). -/
structure Pins where
  /-- VDD_AON and VDDIO_AON are in range (R427) -/
  aon : Bool
  /-- RESET_N is high (R427) -/
  resetN : Bool
  /-- PWRGOOD is high (R427; reset DESIGN CHOICE, log 4) -/
  pwrgood : Bool
  /-- REFCLK runs (R427; reset DESIGN CHOICE, log 4) -/
  refclk : Bool
  /-- rail groups in range, one bit per row of R425 (object 0x2320) (R428; reset DESIGN CHOICE, log 4) -/
  rails : Nat
  /-- THERMTRIP_N is low (R430; reset DESIGN CHOICE, log 4) -/
  trip : Bool
  /-- FLD_ID[3:0] as driven by the board (R424; reset DESIGN CHOICE, log 4) -/
  straps : Nat
  /-- package power shadow copy (mW) (R365; reset DESIGN CHOICE, log 7) -/
  power : Nat
  /-- die temperature shadow copy (m degrees C) (R365; reset DESIGN CHOICE, log 7) -/
  temp : Int
  /-- region power shadow copies (R365; reset DESIGN CHOICE, log 7) -/
  regPower : List (Nat × Nat)
  /-- region temperature shadow copies (R365; reset DESIGN CHOICE, log 7) -/
  regTemp : List (Nat × Int)
  /-- VDD_CORE shadow copies (mV) (R365; reset DESIGN CHOICE, log 7) -/
  regMv : List (Nat × Nat)
  /-- the latest sample lay above the warning threshold (R365; reset DESIGN CHOICE, log 7) -/
  above : Bool
  /-- NOON_OUT drives its pulse (R199) -/
  noonOut : Bool
  deriving DecidableEq, Repr

/-- The reset value of Pins (R12; marks as at the fields). -/
def Pins.reset : Pins where
  aon := true
  resetN := false
  pwrgood := false
  refclk := true
  rails := 12
  trip := false
  straps := 0
  power := 0
  temp := 0
  regPower := []
  regTemp := []
  regMv := []
  above := false
  noonOut := false

/-- What is fused at manufacture (R2, R5, R407). -/
structure Fuses where
  /-- the part (R3, R407; reset DESIGN CHOICE, log 5) -/
  part : Part
  /-- stepping letter, 0 for A (R5; reset DESIGN CHOICE, log 5) -/
  stepL : Nat
  /-- stepping digit (R5; reset DESIGN CHOICE, log 5) -/
  stepD : Nat
  /-- device serial number (R407; reset DESIGN CHOICE, log 5) -/
  serial : W64
  /-- expected LBIST signatures, by 19 x region + unit (R413; reset DESIGN CHOICE, log 5) -/
  lbistExp : List (Nat × W64)
  deriving DecidableEq, Repr

/-- The reset value of Fuses (R12; marks as at the fields). -/
def Fuses.reset : Fuses where
  part := .vt9256
  stepL := 0
  stepD := 1
  serial := 1
  lbistExp := []

end Sys2Proof.Machine
end

