-- ==== Sys2Proof/Config.lean ====
section
/-! DEFINITION. What the part fixes, and the values the specification leaves open: opaque constants, so that
nothing can be proved of their values. A use of a free value applies the constant to State.free, which the
step then advances (log 6). -/

namespace Sys2Proof.Config

open Sys2Proof.Machine

/-- Enabled blocks per region (R3). -/
def perRegion : Part → Nat
  | .vt9256 => 16
  | .vt9192 => 12
  | .vt9160 => 10

/-- Enabled blocks of the part (R3). -/
def nBlocks (p : Part) : Nat := 8 * perRegion p

/-- Memory channels of the part (R1, R3). -/
def nChans : Part → Nat
  | .vt9160 => 12
  | _ => 16

/-- PCI Express device ID (R3). -/
def deviceId : Part → Nat
  | .vt9256 => 0x9256
  | .vt9192 => 0x9192
  | .vt9160 => 0x9160

/-- Cycles an instruction takes in normal mode beyond what the model counts (log 12). -/
opaque freeCycles : Nat → Nat
/-- Whether a TLB or walk-cache entry is still held when an access could use it (log 11). -/
opaque entryKept : Nat → Bool
/-- A random 64-bit draw (R90, log 17). -/
opaque random : Nat → BitVec 64
/-- Whether random bits are ready within 200 cc (R90, log 17). -/
opaque randomReady : Nat → Bool
/-- A random 512-bit key pair (R251, R252, log 16). -/
opaque randomKey : Nat → BitVec 512
/-- The low byte of the TYPE of a record whose TYPE the specification does not name, by what the record
reports (log 15). -/
opaque recordType : Nat → BitVec 8
/-- Syndrome bytes the specification does not lay out (log 15). -/
opaque recordSynd : Nat → List (BitVec 8)
/-- Index of a predictor table for a branch and a history (R107, log 26). -/
opaque predictorIndex : Nat → BitVec 64 → BitVec 128 → Nat
/-- Whether an image header's signatures are valid under the key pair its header names (R368, log 16). -/
opaque signatureValid : List (BitVec 8) → Nat → Bool
/-- The signature bytes that Dawn makes over a message (R382, log 16). -/
opaque signature : List (BitVec 8) → List (BitVec 8)
/-- The bytes of the identity public keys and certificates, by subindex of object 0x8300 and position (R382,
log 16). -/
opaque identityByte : Nat → Nat → BitVec 8
/-- The length of the certificates of object 0x8300 (R382, log 16). -/
opaque certLen : Nat
/-- Whether infinity times zero plus a quiet NaN is invalid (IEEE 754-2019 leaves it to the implementation; R66,
log 29). -/
opaque fmaInvalid : Bool
/-- The result of SHA512S: the rule names sixteen words held in three registers of four (R80, log 30). -/
opaque sha512s : BitVec 256 → BitVec 256 → BitVec 256 → BitVec 256
/-- A word read from an array or a device that the specification leaves open (log 6). -/
opaque freeWord : Nat → BitVec 512
/-- Open yes-or-no choices (log 6). -/
opaque freeChoice : Nat → Bool

end Sys2Proof.Config
end

