-- ==== Sys2Proof/Machine/State.lean ====
section
/-! DEFINITION. The whole state of the device, the reasons a step can stop, and the state at reset. -/

namespace Sys2Proof.Machine

/-- What the device sends to the outside (log 21): the bytes it shifts out on a serial port, frames, and the
packets of the PCI Express links. -/
inductive Out where
  /-- bytes read out of the service port (R400) -/
  | spi (bytes : List Byte)
  /-- a frame on the field port (R399) -/
  | can (f : CanFrame)
  /-- bits shifted out of TDO, least significant first (R414) -/
  | tdo (bytes : List Byte)
  /-- a request sent on a link: root port, tag, kind, address, bytes (R332, R334) -/
  | request (r f tag kind addr : Nat) (bytes : List Byte)
  /-- a completion sent to a device: region, requester ID, outcome, bytes (R298, R331) -/
  | completion (r rid : Nat) (k : CplKind) (bytes : List Byte)
  /-- an ATS Invalidate Request: region, requester ID, PASID, address, size in bits (R299) -/
  | atsInval (r rid : Nat) (addr : Nat)
  /-- an answer to an ATS translation request: region, requester ID, page address, size, R, W (R299) -/
  | atsReply (r rid pa size : Nat) (rd wr : Bool)
  /-- a PRG Response: region, requester ID, group, response code (R300) -/
  | prg (r rid group code : Nat)
  /-- a message on a link: region, port, kind (R336, R345, R358) -/
  | message (r f kind : Nat)
  deriving DecidableEq, Repr

/-- Why a step faults: nothing does. Every condition the specification reports is an event, a record, a response or a
state of the device, and the device goes on; so the type has no constructor. -/
inductive Fault where
  deriving DecidableEq, Repr

/-- Why a step is refused. -/
inductive Refusal where
  /-- Raised by an arm of exec whose command has no meaning yet. Safe: no next state is claimed. -/
  | notModelled (mnemonic : String)
  deriving DecidableEq, Repr

/-- The whole device. -/
structure State where
  /-- commands waiting, first in first out (the model's own, log 3) -/
  pending : List Instr
  /-- next free-value index (the model's own, log 6) -/
  free : Nat
  /-- set inside a step when an access meets a home that holds its requests; false between steps (the model's own, log 43) -/
  waits : Bool
  /-- fuses (R407; reset DESIGN CHOICE, log 5) -/
  fuses : Fuses
  /-- repair state in MRAM (R383; reset DESIGN CHOICE, log 5) -/
  mram : Mram
  /-- pins and supplies (R424) -/
  pins : Pins
  /-- a chip-fatal stop has occurred since the last reset (R235; reset DESIGN CHOICE, log 7) -/
  stopped : Bool
  /-- the scan chains have been connected: out of operation until RESET_N (R414; reset DESIGN CHOICE, log 7) -/
  scan : Bool
  /-- cores, by core ID (unlisted: Core.reset) (R16, R31) -/
  cores : List (Nat × Core)
  /-- logical blocks, by global block number (R14) -/
  blocks : List (Nat × Block)
  /-- regions (R13) -/
  regions : List (Nat × Region)
  /-- memory channels (R13) -/
  chans : List (Nat × Chan)
  /-- power domains (R350) -/
  pwr : List (Nat × Pwr)
  /-- plaintext of DRAM under the key each line was written with (unlisted: 0) (R24, R253) -/
  dram : Mem
  /-- key pair a DRAM line was written under (unlisted: the key of the fill) (R250, R251; reset DESIGN CHOICE, log 7) -/
  lineKey : List (Nat × W512)
  /-- the null key under which the latest fill wrote every line (R253; reset DESIGN CHOICE, log 7) -/
  fillKey : W512
  /-- DRAM lines stored poisoned, ascending (R265) -/
  poison : List Nat
  /-- installed capacity (object 0x3010.4) (R239) -/
  capacity : Nat
  /-- C, channels in use (object 0x3010.6) (R239) -/
  nchan : Nat
  /-- granule g in force (object 0x3010.5) (R240) -/
  gran : Nat
  /-- DEVCORR in force since the start (object 0x3110.2 sets it for the next start) (R263) -/
  devcorr : Bool
  /-- boot SRAM (unlisted: 0) (R24; reset DESIGN CHOICE, log 8) -/
  sram : Mem
  /-- SLC-as-RAM (unlisted: 0) (R128) -/
  slcRam : Mem
  /-- boot flash (unlisted: 0xFF, held as its complement) (R367; reset DESIGN CHOICE, log 8) -/
  flash : Mem
  /-- Noon root and WALL (R174) -/
  noon : Noon
  /-- SLC_WAYMASK, by domain (unlisted: 0xFFF) (R143) -/
  waymask : List (Nat × Nat)
  /-- AMB_MP, by domain (R167) -/
  ambmp : List (Nat × W64)
  /-- ROUTE entries of the internal sources (R51) -/
  route : List (Nat × W64)
  /-- message route table (R51) -/
  mroute : List (Nat × W64)
  /-- drop count of the chip router (R233) -/
  chipDrops : Nat
  /-- chip error log (R231) -/
  chipLog : Log
  /-- tick of the latest replay of a die link (R234; reset DESIGN CHOICE, log 7) -/
  replayT : Option Nat
  /-- tick of the latest disagreement of a tree copy (R234; reset DESIGN CHOICE, log 7) -/
  treeT : Option Nat
  /-- key engine and key slots (R252) -/
  keys : Keys
  /-- TLB shootdown (R294) -/
  sd : Sd
  /-- Dawn and the boot registers (R374) -/
  boot : Boot
  /-- Slate (R387) -/
  slate : Slate
  /-- LBIST registers, by 19 x region + unit (R413) -/
  lbist : List (Nat × Lb)
  /-- objects 0x9018.1 and 0x9018.2 (R435) -/
  lbistSel : Nat × Nat
  /-- what the device has sent to the outside, newest first (the model's own, log 21) -/
  out : List Out
  deriving DecidableEq, Repr

/-- The reset value of State (R12; marks as at the fields). -/
def State.reset : State where
  pending := []
  free := 0
  waits := false
  fuses := Fuses.reset
  mram := Mram.reset
  pins := Pins.reset
  stopped := false
  scan := false
  cores := []
  blocks := []
  regions := []
  chans := []
  pwr := []
  dram := []
  lineKey := []
  fillKey := 0
  poison := []
  capacity := 0
  nchan := 0
  gran := 8
  devcorr := true
  sram := []
  slcRam := []
  flash := []
  noon := Noon.reset
  waymask := []
  ambmp := []
  route := []
  mroute := []
  chipDrops := 0
  chipLog := Log.reset
  replayT := none
  treeT := none
  keys := Keys.reset
  sd := Sd.reset
  boot := Boot.reset
  slate := Slate.reset
  lbist := []
  lbistSel := (0, 0)
  out := []

/-- How the work of an instruction ends, before its retirement or its event (R45, R49, R103). -/
inductive Done where
  /-- it completes and goes on to the next instruction -/
  | ok (s : State)
  /-- it completes as a taken branch or jump -/
  | jump (s : State) (target : W64)
  /-- it raises an event and does not retire -/
  | exc (s : State) (e : Exc)
  /-- it retires and raises an event: the calls and BRK -/
  | call (s : State) (e : Exc)
  /-- it does not complete yet, or everything is done -/
  | stay (s : State)
  deriving DecidableEq, Repr

/-- A translated and checked access of a core. -/
structure CoreAcc where
  pa : Nat
  ks : Nat
  dev : Bool
  tord : Bool
  /-- inside the metered window -/
  win : Bool
  deriving DecidableEq, Repr

end Sys2Proof.Machine
end

