-- ==== Sys2Proof/Machine/Ops.lean ====
section
/-! DEFINITION. The named operations over the state: sparse maps, memories as canonical byte lists, bit fields,
the units of the device by number, the address map, posting to the event routers and the error logs. -/

namespace Sys2Proof.Machine

/-! ### Sparse maps -/

/-- The entry of key `k`; `d` when none is listed. -/
def SMap.get {α : Type} (d : α) : List (Nat × α) → Nat → α
  | [], _ => d
  | (i, a) :: t, k => if i = k then a else SMap.get d t k

/-- The map with `v` at key `k`; keys stay in rising order. -/
def SMap.set {α : Type} : List (Nat × α) → Nat → α → List (Nat × α)
  | [], k, v => [(k, v)]
  | (i, a) :: t, k, v =>
    if i = k then (k, v) :: t
    else if k < i then (k, v) :: (i, a) :: t
    else (i, a) :: SMap.set t k v

/-- The map without key `k`. -/
def SMap.del {α : Type} (m : List (Nat × α)) (k : Nat) : List (Nat × α) := m.filter (fun e => e.1 != k)

/-- Inserts into an ascending list without repeats. -/
def insNat : List Nat → Nat → List Nat
  | [], k => [k]
  | i :: t, k => if i = k then i :: t else if k < i then k :: i :: t else i :: insNat t k

/-! ### Bytes, numbers and bit fields (R8) -/

/-- The number that bytes stand for, least significant first (R8). -/
def leNat : List Byte → Nat
  | [] => 0
  | b :: t => b.toNat + 256 * leNat t

/-- The `n` bytes of a number, least significant first (R8). -/
def natLe : Nat → Nat → List Byte
  | 0, _ => []
  | n + 1, v => BitVec.ofNat 8 v :: natLe n (v / 256)

/-- Bits [lo+len-1:lo] of a number. -/
def bits (v lo len : Nat) : Nat := (v >>> lo) % 2 ^ len

/-- Bits [lo+len-1:lo] of a word. -/
def fld {n : Nat} (w : BitVec n) (lo len : Nat) : Nat := bits w.toNat lo len

/-- The number with `v` in bits [lo+len-1:lo]. -/
def setBits (x lo len v : Nat) : Nat := x - (bits x lo len) <<< lo + (v % 2 ^ len) <<< lo

/-- The word with `v` in bits [lo+len-1:lo]. -/
def setFld {n : Nat} (w : BitVec n) (lo len v : Nat) : BitVec n := BitVec.ofNat n (setBits w.toNat lo len v)

/-- A Bool as a bit. -/
def bit (b : Bool) : Nat := if b then 1 else 0

/-- A number as a signed `n`-bit integer. -/
def sInt (n v : Nat) : Int := if v % 2 ^ n < 2 ^ (n - 1) then (v % 2 ^ n : Nat) else (v % 2 ^ n : Nat) - (2 : Int) ^ n

/-- An integer as its `n`-bit two's complement. -/
def toTwos (n : Nat) (i : Int) : Nat := (i % (2 : Int) ^ n).toNat

/-- Byte `i` of a line. -/
def lineByte (l : Line) (i : Nat) : Byte := l.extractLsb' (8 * i) 8

/-- Bytes `off` to `off + n - 1` of a line. -/
def lineBytes (l : Line) (off n : Nat) : List Byte := natLe n (l.toNat >>> (8 * off))

/-- The line with `bs` at byte `off`. -/
def linePut (l : Line) (off : Nat) (bs : List Byte) : Line :=
  BitVec.ofNat 512 (setBits l.toNat (8 * off) (8 * bs.length) (leNat bs))

/-- The line that takes from `d` the bytes whose mask bit is 1. -/
def lineMask (l d : Line) (mask : Nat) : Line :=
  (List.range 64).foldl (fun a i => if mask.testBit i then linePut a i [lineByte d i] else a) l

/-- A list of bytes as a line; missing bytes are 0. -/
def bytesLine (bs : List Byte) : Line := BitVec.ofNat 512 (leNat (bs.take 64))

/-- 32-bit words of a number. -/
def satAdd (w v : Nat) : Nat := min (2 ^ w - 1) (v + 1)

/-! ### Memories -/

/-- The byte at an address; an unlisted address reads 0 (log 8). -/
def Mem.byte : Mem → Nat → Byte
  | [], _ => 0
  | (i, x) :: t, a => if i = a then x else Mem.byte t a

/-- The memory with byte `b` at address `a`, in canonical form. -/
def Mem.put : Mem → Nat → Byte → Mem
  | [], a, b => if b = 0 then [] else [(a, b)]
  | (i, x) :: t, a, b =>
    if a < i then (if b = 0 then (i, x) :: t else (a, b) :: (i, x) :: t)
    else if i = a then (if b = 0 then t else (a, b) :: t)
    else (i, x) :: Mem.put t a b

/-- The canonical form: addresses strictly rising from `lo`, no zero byte. -/
def Mem.wfFrom : Nat → Mem → Bool
  | _, [] => true
  | lo, (i, x) :: t => decide (lo ≤ i) && decide (x ≠ 0) && Mem.wfFrom (i + 1) t

/-- The canonical form holds. -/
def Mem.wf (m : Mem) : Bool := Mem.wfFrom 0 m

/-- `n` bytes from address `a`. -/
def Mem.read (m : Mem) (a : Nat) : Nat → List Byte
  | 0 => []
  | n + 1 => Mem.byte m a :: Mem.read m (a + 1) n

/-- The memory with the bytes written from address `a` on. -/
def Mem.write (m : Mem) (a : Nat) : List Byte → Mem
  | [] => m
  | b :: t => Mem.write (Mem.put m a b) (a + 1) t

/-! ### Units by number -/

def State.core (s : State) (c : Nat) : Core := SMap.get Core.reset s.cores c
def State.setCore (s : State) (c : Nat) (k : Core) : State := { s with cores := SMap.set s.cores c k }
def State.modCore (s : State) (c : Nat) (f : Core → Core) : State := s.setCore c (f (s.core c))
def State.block (s : State) (b : Nat) : Block := SMap.get Block.reset s.blocks b
def State.setBlock (s : State) (b : Nat) (x : Block) : State := { s with blocks := SMap.set s.blocks b x }
def State.modBlock (s : State) (b : Nat) (f : Block → Block) : State := s.setBlock b (f (s.block b))
def State.region (s : State) (r : Nat) : Region := SMap.get Region.reset s.regions r
def State.modRegion (s : State) (r : Nat) (f : Region → Region) : State :=
  { s with regions := SMap.set s.regions r (f (s.region r)) }
def State.chan (s : State) (c : Nat) : Chan := SMap.get Chan.reset s.chans c
def State.modChan (s : State) (c : Nat) (f : Chan → Chan) : State :=
  { s with chans := SMap.set s.chans c (f (s.chan c)) }
def State.dom (s : State) (i : Nat) : Pwr := SMap.get Pwr.reset s.pwr i
def State.modDom (s : State) (i : Nat) (f : Pwr → Pwr) : State := { s with pwr := SMap.set s.pwr i (f (s.dom i)) }
def State.modNoon (s : State) (f : Noon → Noon) : State := { s with noon := f s.noon }
def State.modBoot (s : State) (f : Boot → Boot) : State := { s with boot := f s.boot }
def State.modSlate (s : State) (f : Slate → Slate) : State := { s with slate := f s.slate }
def State.fn (s : State) (r : Nat) : Fn := (s.region r).fn
def State.modFn (s : State) (r : Nat) (f : Fn → Fn) : State := s.modRegion r (fun x => { x with fn := f x.fn })
def State.inst (s : State) (r i : Nat) : Inst := SMap.get Inst.reset (s.fn r).insts i
def State.modInst (s : State) (r i : Nat) (f : Inst → Inst) : State :=
  s.modFn r (fun x => { x with insts := SMap.set x.insts i (f (SMap.get Inst.reset x.insts i)) })
def State.port (s : State) (r f : Nat) : Port := SMap.get Port.reset (s.region r).ports f
def State.modPort (s : State) (r f : Nat) (g : Port → Port) : State :=
  s.modRegion r (fun x => { x with ports := SMap.set x.ports f (g (SMap.get Port.reset x.ports f)) })
def State.emit (s : State) (o : Out) : State := { s with out := o :: s.out }

/-- Draws the index of a free value and advances the counter (log 6). -/
def State.draw (s : State) : Nat × State := (s.free, { s with free := s.free + 1 })

/-! ### The part and its numbering (R3, R14, R16, R18) -/

def State.part (s : State) : Part := s.fuses.part
/-- Enabled blocks per region (R3). -/
def State.perRegion (s : State) : Nat := Config.perRegion s.part
/-- The global block number names an enabled block (R14). -/
def State.blockPresent (s : State) (b : Nat) : Bool := decide (b < 128) && decide (b % 16 < s.perRegion)
/-- The core ID names a core of an enabled block (R16). -/
def State.corePresent (s : State) (c : Nat) : Bool := decide (c < 256) && decide (c % 32 / 2 < s.perRegion)
/-- The channel is present (R1). -/
def State.chanPresent (s : State) (ch : Nat) : Bool := decide (ch < Config.nChans s.part)
/-- The global block of a core (R16). -/
def coreBlock (c : Nat) : Nat := c / 2
/-- The region of a core (R16). -/
def coreRegion (c : Nat) : Nat := c / 32
/-- The present cores, in order (R16). -/
def State.allCores (s : State) : List Nat := (List.range 256).filter s.corePresent
/-- The enabled blocks, in order (R14). -/
def State.allBlocks (s : State) : List Nat := (List.range 128).filter s.blockPresent

/-- The device is in operation: no chip-fatal stop, no scan, out of reset, root PLL locked (R235, R414, R22). -/
def State.up (s : State) : Bool := s.noon.run && !s.stopped && !s.scan && s.pins.resetN

/-- The state of a power domain is ON (R353). -/
def State.on (s : State) (i : Nat) : Bool := decide ((s.dom i).st = 0)

/-- A core issues instructions: the device is up, the core is present and ON, and it is not stopped (R230). -/
def State.coreLive (s : State) (c : Nat) : Bool :=
  s.up && s.corePresent c && s.on c && decide ((s.core c).run ≠ .stopped)

/-! ### The block map and retired ways (R2, R14, R15, R148, R417) -/

/-- The map byte of a physical position: logical ID and role; at manufacture logical IDs 0 to N-1 lie at the
positions of the same number, 16 and 17 are spares, the rest are fused off (R2, R14, R417). -/
def State.mapByte (s : State) (r p : Nat) : Nat :=
  SMap.get (if p < s.perRegion then p else if p < 16 then 0x9F else 0x3F) s.mram.map (18 * r + p)

/-- The physical position of a logical block; 31 when none is bound to it (R15). -/
def State.physOf (s : State) (b : Nat) : Nat :=
  ((List.range 18).find? (fun p => s.mapByte (b / 16) p == b % 16)).getD 31

/-- Ways retired by repair supplement entries of KIND `kind` for a physical block and core (R148, R280). -/
def State.retiredWays (s : State) (kind b core : Nat) : List Nat :=
  (s.mram.supp.filter (fun e => e.getLsbD 0 && fld e 1 3 == kind && fld e 8 8 == 18 * (b / 16) + s.physOf b
    && (kind == 3 || fld e 16 1 == core))).map (fun e => fld e 39 4)

/-! ### Slate settings that units read (R389) -/

/-- The value of a settable object: as committed or written, else its default. -/
def State.setting (s : State) (idx sub : Nat) (dflt : Int) : Int :=
  match s.slate.vals.find? (fun e => e.1 == 256 * idx + sub) with
  | some (_, .n v) => v
  | _ =>
    match s.slate.pers.find? (fun e => e.1 == 256 * idx + sub) with
    | some (_, .n v) => v
    | _ => dflt

def State.settingN (s : State) (idx sub : Nat) (dflt : Nat) : Nat := (s.setting idx sub dflt).toNat

/-! ### The physical address map (R24 to R28) -/

/-- The DRAM window (R24). -/
def inDram (pa : Nat) : Bool := decide (pa < 0x80000000000)
/-- The boot SRAM (R24). -/
def inSram (pa : Nat) : Bool := decide (0xA001000000000 ≤ pa) && decide (pa < 0xA001000400000)
/-- PCI Express memory space (R24). -/
def inPcie (pa : Nat) : Bool := decide (0x8000000000000 ≤ pa) && decide (pa < 0x8100000000000)
/-- ECAM configuration space (R24). -/
def inEcam (pa : Nat) : Bool := decide (0x9000000000000 ≤ pa) && decide (pa < 0x9000010000000)
/-- The internal endpoint window (R24). -/
def inEndpoint (pa : Nat) : Bool := decide (0x9010000000000 ≤ pa) && decide (pa < 0x9010100000000)
/-- The region register spaces, their reserved part excluded (R26). -/
def inRegion (pa : Nat) : Bool :=
  decide (0xA000000000000 ≤ pa) && decide (pa < 0xA000800000000) && decide (pa % 0x100000000 < 0x16000000)
/-- The chip register space, its reserved units excluded (R431). -/
def inChip (pa : Nat) : Bool :=
  decide (0xA000801000000 ≤ pa) && decide (pa < 0xA00080C000000)
/-- The message window (R51). -/
def inMsgWindow (pa : Nat) : Bool := decide (0xA000802000000 ≤ pa) && decide (pa < 0xA000803000000)
/-- Device space (R27). Reserved units and ranges inside it are reserved addresses (R28). -/
def inDevice (pa : Nat) : Bool := inPcie pa || inEcam pa || inEndpoint pa || inRegion pa || inChip pa

/-- DRAM that a core may use: installed capacity, or in SLC-as-RAM mode its 32 MiB (R25, R128, R254). -/
def State.dramOk (s : State) (pa : Nat) : Bool :=
  if s.boot.handed then decide (pa < s.capacity) else decide (pa < 0x2000000)

/-- SUB of the ACCESS_FAULT an access to `pa` raises, 0 when it raises none: 2 reserved address, 3 above the
installed DRAM or outside SLC-as-RAM (R28, R34, R128). -/
def State.paFault (s : State) (pa : Nat) : Nat :=
  if inDram pa then (if s.dramOk pa then 0 else 3)
  else if inSram pa || inDevice pa then 0 else 2

/-- The home block of a line (R126). -/
def State.home (s : State) (la : Nat) : Nat :=
  let h := (la % 2 ^ 16) ^^^ (la / 2 ^ 16 % 2 ^ 16) ^^^ (la / 2 ^ 32 % 2 ^ 14)
  let k := (h * Config.nBlocks s.part) / 2 ^ 16
  16 * (k % 8) + k / 8

/-- Channels in use, in ascending order (R239). -/
def State.chansUsed (s : State) : List Nat :=
  (List.range 16).filter (fun c => s.chanPresent c && decide (3 ≤ (s.chan c).st))

/-- Interleave: the position of the channel and the channel-local byte address (R240). -/
def State.interleave (s : State) (pa : Nat) : Nat × Nat :=
  let n := s.nchan
  let u := pa / 2 ^ s.gran
  let q := u / n
  let fold := (q % 256) ^^^ (q / 2 ^ 8 % 256) ^^^ (q / 2 ^ 16 % 256) ^^^ (q / 2 ^ 24 % 256) ^^^ (q / 2 ^ 32 % 256)
  ((u % n + fold) % n, q * 2 ^ s.gran + pa % 2 ^ s.gran)

/-- The channel that holds an address (R239, R240). -/
def State.chanOf (s : State) (pa : Nat) : Nat := s.chansUsed.getD (s.interleave pa).1 0

/-- The physical address of a channel-local byte address: the inverse of `interleave` (R240, R266). -/
def State.uninterleave (s : State) (pos loc : Nat) : Nat :=
  let n := s.nchan
  let q := loc / 2 ^ s.gran
  let fold := (q % 256) ^^^ (q / 2 ^ 8 % 256) ^^^ (q / 2 ^ 16 % 256) ^^^ (q / 2 ^ 24 % 256) ^^^ (q / 2 ^ 32 % 256)
  (q * n + (pos + n - fold % n) % n) * 2 ^ s.gran + loc % 2 ^ s.gran

/-! ### Core levels and domains (R36, R39) -/

def Lvl.num : Lvl → Nat
  | .u => 0 | .s => 1 | .h => 2 | .m => 3

def Lvl.ofNum : Nat → Lvl
  | 0 => .u | 1 => .s | 2 => .h | _ => .m

/-- The domain of an access at a level: TD0 at H and M, TDID.TD at S and U (R39). -/
def Core.tdAt (k : Core) : Lvl → Nat
  | .h => 0 | .m => 0 | _ => k.tdid

/-- The domain of the core's accesses (R39). -/
def Core.td (k : Core) : Nat := k.tdAt k.lvl

/-- STATUS as a word (R34). -/
def Core.status (k : Core) : W64 :=
  BitVec.ofNat 64 (k.lvl.num + 4 * bit k.ie + 8 * bit k.guest + 16 * bit k.sum + 32 * bit k.impend + 256 * k.evlvl)

/-- The pending bit of event `n` at level `l` (R44). -/
def pendKey (l : Lvl) (n : Nat) : Nat := 256 * l.num + n

/-- Sets a pending bit (R44). -/
def Core.setPend (k : Core) (l : Lvl) (n : Nat) : Core := { k with pend := insNat k.pend (pendKey l n) }

/-- The event registers of a level (R34); U has none. -/
def Core.bank (k : Core) : Lvl → EvBank
  | .u => EvBank.reset | .s => k.bankS | .h => k.bankH | .m => k.bankM

def Core.setBank (k : Core) (l : Lvl) (b : EvBank) : Core :=
  match l with
  | .u => k | .s => { k with bankS := b } | .h => { k with bankH := b } | .m => { k with bankM := b }

/-! ### Power: waking a core (R355) -/

/-- The core holds its state and is not in RET or OFF: ON, or still in the walk that precedes RET or OFF. -/
def State.coreAwake (s : State) (c : Nat) : Bool :=
  let d := s.dom c
  decide (d.st = 0) || (decide (d.st = 3) && decide (d.dest ≠ 0) && (s.core c).walk.isSome)

/-- A wake condition for a core: a return from RET that WFE entered begins; during the walk of the entry it is
remembered (R354, R355). -/
def State.wakeCore (s : State) (c cause : Nat) : State :=
  let d := s.dom c
  if d.st = 1 ∧ d.viaWfe = true then s.modDom c (fun d => { d with st := 3, dest := 0, src := 1, cause := cause })
  else if d.st = 3 ∧ d.dest = 1 ∧ d.viaWfe = true then s.modDom c (fun d => { d with wakeReq := true, cause := cause })
  else s

/-! ### Posting (R51 to R53) -/

/-- The ROUTE entry of an internal source or of a message index (R51). -/
def State.routeEntry (s : State) (msg : Bool) (i : Nat) : W64 := SMap.get 0 (if msg then s.mroute else s.route) i

def State.setRoute (s : State) (msg : Bool) (i : Nat) (v : W64) : State :=
  if msg then { s with mroute := SMap.set s.mroute i v } else { s with route := SMap.set s.route i v }

def routeVector (e : W64) : Nat := fld e 0 8
def routeLevel (e : W64) : Nat := fld e 8 2
def routeCore (e : W64) : Nat := fld e 10 8
def routeTd (e : W64) : Nat := fld e 18 6
def routeEn (e : W64) : Bool := e.getLsbD 24
def routePend (e : W64) : Bool := e.getLsbD 25

/-- The router of a source: a region's, or 8 for the chip's (R51). -/
def routerOf (msg : Bool) (i : Nat) : Nat := if msg then 8 else if i < 3072 then i / 384 else 8

/-- A dropped post is counted (R52, R233). -/
def State.countDrop (s : State) (rt : Nat) : State :=
  if rt = 8 then { s with chipDrops := s.chipDrops + 1 } else s.modRegion rt (fun x => { x with drops := x.drops + 1 })

/-- The entry can deliver: EN = 1, LEVEL not 0, VECTOR from 32, CORE a present core in service (R52, R230). -/
def State.routeOk (s : State) (e : W64) : Bool :=
  routeEn e && decide (routeLevel e ≠ 0) && decide (32 ≤ routeVector e) && s.corePresent (routeCore e)
    && decide ((s.core (routeCore e)).run ≠ .stopped)

/-- A post that the entry's checks let through: delivered, or held in the entry (R53). -/
def State.deliverPost (s : State) (msg : Bool) (i : Nat) : State :=
  let e := s.routeEntry msg i
  let c := routeCore e
  let hold := s.setRoute msg i (setFld e 25 1 1)
  if routePend e then s
  else if !s.coreAwake c then hold.wakeCore c 2
  else if routeLevel e = 1 ∧ (s.core c).tdid ≠ routeTd e then
    hold.modCore c (fun k => k.setPend .h 63)
  else
    (s.modCore c (fun k => k.setPend (Lvl.ofNum (routeLevel e)) (routeVector e))).wakeCore c 2

/-- A post of an internal source (R52). -/
def State.post (s : State) (src : Nat) : State :=
  if s.routeOk (s.routeEntry false src) then s.deliverPost false src else s.countDrop (routerOf false src)

/-- Posts a list of sources in order. -/
def State.posts (s : State) (l : List Nat) : State := l.foldl State.post s

/-- The held post of an entry whose conditions of R53 hold is delivered; otherwise nothing changes. -/
def State.deliverHeld (s : State) (msg : Bool) (i : Nat) : State :=
  let e := s.routeEntry msg i
  let c := routeCore e
  let k := s.core c
  if routePend e && s.routeOk e && s.coreAwake c
      && (decide (routeLevel e ≠ 1) || (decide (k.lvl.num ≤ 1) && decide (k.tdid = routeTd e))) then
    (s.setRoute msg i (setFld e 25 1 0)).modCore c
      (fun k => k.setPend (Lvl.ofNum (routeLevel e)) (routeVector e))
  else s

/-- A rewrite of an entry keeps PEND; a held post that the new fields cannot deliver is dropped and counted
(R51, R53). -/
def State.writeRoute (s : State) (msg : Bool) (i : Nat) (v : W64) : State :=
  let old := s.routeEntry msg i
  let e := setFld (BitVec.ofNat 64 (fld v 0 25) : W64) 25 1 (bit (routePend old))
  if routePend old && !s.routeOk e then
    (s.setRoute msg i (setFld e 25 1 0)).countDrop (routerOf msg i)
  else s.setRoute msg i e

/-! ### Records and logs (R225 to R233) -/

/-- The source ID (R227). -/
def srcId (kind region block core index : Nat) : Nat :=
  kind + 16 * region + 128 * block + 2048 * core + 4096 * index

/-- The source ID of a core (R227). -/
def srcCore (c : Nat) : Nat := srcId 0 (coreRegion c) (c / 2 % 16) (c % 2) 0

/-- The source ID of a block's Noon agent, index 0, or of a region's I/O stop agent (R433). -/
def srcAgent (a : Nat) : Nat := if a < 128 then srcId 2 (a / 16) (a % 16) 0 0 else srcId 2 (a - 128) 0 0 1

/-- The TYPE of a record that the specification does not name: the source's KIND above a free low byte (log 15). -/
def openType (kind what : Nat) : Nat := 256 * kind + (Config.recordType what).toNat

def logSize (l : Nat) : Nat := if l = 8 then 1024 else 256

def State.log (s : State) (l : Nat) : Log := if l = 8 then s.chipLog else (s.region l).log

def State.modLog (s : State) (l : Nat) (f : Log → Log) : State :=
  if l = 8 then { s with chipLog := f s.chipLog } else s.modRegion l (fun x => { x with log := f x.log })

/-- Distance of slot `i` from a read pointer, in ring order. -/
def ringDist (size p i : Nat) : Nat := (i + size - p % size) % size

/-- Slot `i` holds a record of class 2, 3 or 4 that a reader has not passed (R231). -/
def Log.protects (g : Log) (size i : Nat) (r : Rec) : Bool :=
  decide (2 ≤ r.cls) && (decide (ringDist size g.htail i < g.count)
    || (g.fldgate && decide (ringDist size g.fld i < g.fldCount)))

/-- Number of protected slots (R232). -/
def Log.nProt (g : Log) (size : Nat) : Nat := (g.slots.filter (fun e => g.protects size e.1 e.2)).length

/-- The record at a slot. -/
def Log.slot (g : Log) (i : Nat) : Option Rec := (g.slots.find? (fun e => e.1 == i)).map (·.2)

/-- A new record reaches the log: it takes the slot at HEAD, or is dropped where that slot is protected
(R231). The second component says whether it was written. -/
def Log.push (g : Log) (size : Nat) (r : Rec) : Log × Bool :=
  let r := { r with seq := g.seq, ovf := g.ovf.contains r.src }
  let seq := (g.seq + 1) % 2 ^ 32
  let place (g : Log) : Log :=
    { g with
      slots := SMap.set g.slots g.head r, head := (g.head + 1) % size, seq := seq
      htail := if g.count = size then (g.htail + 1) % size else g.htail
      count := if g.count = size then size else g.count + 1
      fld := if g.fldCount = size then (g.fld + 1) % size else g.fld
      fldCount := if g.fldCount = size then size else g.fldCount + 1
      ovf := g.ovf.filter (· != r.src) }
  match g.slot g.head with
  | none => (place g, true)
  | some o =>
    if g.protects size g.head o then
      ({ g with seq := seq, lost := satAdd 32 g.lost, ovf := insNat g.ovf r.src }, false)
    else
      let g' := place g
      ({ g' with lost := satAdd 32 g'.lost, ovf := insNat g'.ovf o.src }, true)

/-- Writes a record to a log and posts its notifications (R231, R232). -/
def State.logRecord (s : State) (l : Nat) (r : Rec) : State :=
  let size := logSize l
  let before := (s.log l).nProt size
  let (g, ok) := (s.log l).push size r
  let s := s.modLog l (fun _ => g)
  let base := if l = 8 then 3072 else 384 * l + 256
  if ok then
    let s := if g.nany then s.post base else s
    let s := if g.nsev && decide (2 ≤ r.cls) then s.post (base + 1) else s
    let s := if g.nfull && decide (before < size * 3 / 4) && decide (size * 3 / 4 ≤ g.nProt size) then s.post (base + 2)
      else s
    match r.td with
    | some d => if l = 8 ∧ r.cls = 3 then s.post (3136 + d) else s
    | none => s
  else s

/-- The record a source writes, with the time of its detection (R226). -/
def State.mkRec (s : State) (r : RecIn) : Rec :=
  { tick := s.noon.tick, wall := s.noon.wall, addr := r.addr, src := r.src, lvl := r.lvl, clvl := r.clvl,
    cls := r.cls, td := r.td, ovf := false, typ := r.typ, seq := 0, synd := r.synd.take 16, prog := r.prog }

/-- A record goes to the log of its containing level, and one of class 3 or 4 also to the chip log (R231). -/
def State.record (s : State) (r : RecIn) : State :=
  let e := s.mkRec r
  let reg := r.src / 16 % 8
  let s := if r.clvl < 3 then s.logRecord reg e else s.logRecord 8 e
  if r.clvl < 3 ∧ 3 ≤ r.cls then s.logRecord 8 e else s

/-- A record of one source, class and TYPE contained at the level of its origin. -/
def recAt (src lvl cls typ : Nat) (td addr : Option Nat) (synd : List Nat) (prog : Nat) : RecIn :=
  { src, lvl, clvl := lvl, cls, typ, td, addr, synd, prog }

/-- PROG of a change that was not applied (R228). -/
def progNone : Nat := 3 <<< 62

/-- A post of chip source `src` or of message `i` from a requester of domain `td`: a domain that differs from
the entry's is dropped, counted and recorded (R52, R189, R432). -/
def State.postFrom (s : State) (msg : Bool) (i td rid : Nat) : State :=
  let e := s.routeEntry msg i
  if routeTd e ≠ td then
    (s.countDrop 8).record
      (recAt (srcId 9 0 0 0 1) 3 0 0x0901 (some td) none
        [i % 256, i / 256 % 256, if msg then 1 else 2, routeTd e, rid % 256, rid / 256] 0)
  else if s.routeOk e then s.deliverPost msg i else s.countDrop 8

/-- A write to the message window: a 4-byte write at its base whose bits [31:15] are 0 is a message; any other
is dropped and counted (R51). -/
def State.message (s : State) (td rid off : Nat) (bytes : List Byte) : State :=
  if off = 0 ∧ bytes.length = 4 ∧ leNat bytes < 2 ^ 15 then s.postFrom true (leNat bytes) td rid
  else s.countDrop 8

/-- The record of poisoned data consumed by a core, with the progress of the instruction (R267, R228, R229; its TYPE is
not named: log 15). -/
def State.poisonProg (s : State) (c td pa prog : Nat) : State :=
  s.record (recAt (srcCore c) 0 3 (openType 0 0) (some td) (some pa) (Config.recordSynd 0 |>.map (·.toNat)) prog)

/-- The record for an instruction without progress (R228). -/
def State.poisonRecord (s : State) (c td pa : Nat) : State := s.poisonProg c td pa 0

end Sys2Proof.Machine
end

