-- ==== Sys2Proof/Machine/Crypto.lean ====
section
/-! DEFINITION. The ciphers and hashes that the specification names by their standards: AES, GHASH and GCM,
XTS, SHA-512 and SHA-384, Keccak and SHA3-256 (R80, R250, R311). Byte i of a block is bits [8i+7:8i] (R8). -/

namespace Sys2Proof.Machine

/-! ### AES -/

/-- Product in GF(2^8) under x^8 + x^4 + x^3 + x + 1; `n` bits of `b` are used. -/
def gfMul : Nat → Nat → Nat → Nat
  | 0, _, _ => 0
  | n + 1, a, b =>
    let a2 := if a < 128 then 2 * a else (2 * a) ^^^ 0x11B
    (if b % 2 = 1 then a else 0) ^^^ gfMul n a2 (b / 2)

def gf (a b : Nat) : Nat := gfMul 8 a b

/-- The inverse in GF(2^8), 0 for 0: the 254th power. -/
def gfInv (a : Nat) : Nat :=
  let a2 := gf a a
  let a4 := gf a2 a2
  let a8 := gf a4 a4
  let a16 := gf a8 a8
  let a32 := gf a16 a16
  let a64 := gf a32 a32
  let a128 := gf a64 a64
  gf a128 (gf a64 (gf a32 (gf a16 (gf a8 (gf a4 a2)))))

/-- Rotation of a byte to the left. -/
def rotl8 (a n : Nat) : Nat := (a <<< n ||| a >>> (8 - n)) % 256

/-- The S-box of AES. -/
def aesSub (a : Nat) : Nat :=
  let b := gfInv a
  b ^^^ rotl8 b 1 ^^^ rotl8 b 2 ^^^ rotl8 b 3 ^^^ rotl8 b 4 ^^^ 0x63

/-- The inverse S-box of AES. -/
def aesInvSub (a : Nat) : Nat := gfInv (rotl8 a 1 ^^^ rotl8 a 3 ^^^ rotl8 a 6 ^^^ 0x05)

/-- Byte `i` of a block. -/
def blkByte (x : W128) (i : Nat) : Nat := fld x (8 * i) 8

/-- The block whose byte `i` is `f i`. -/
def blkOf (f : Nat → Nat) : W128 :=
  BitVec.ofNat 128 ((List.range 16).foldr (fun i acc => f i % 256 + 256 * acc) 0)

def aesShiftRows (x : W128) : W128 := blkOf (fun i => blkByte x ((i + 4 * (i % 4)) % 16))
def aesInvShiftRows (x : W128) : W128 := blkOf (fun i => blkByte x ((i + 16 - 4 * (i % 4)) % 16))
def aesSubBytes (x : W128) : W128 := blkOf (fun i => aesSub (blkByte x i))
def aesInvSubBytes (x : W128) : W128 := blkOf (fun i => aesInvSub (blkByte x i))

/-- MixColumns with the row coefficients `m0 .. m3`. -/
def aesMix (m0 m1 m2 m3 : Nat) (x : W128) : W128 :=
  blkOf (fun i =>
    let c := 4 * (i / 4)
    let at' (j : Nat) := blkByte x (c + (i + j) % 4)
    gf (at' 0) m0 ^^^ gf (at' 1) m1 ^^^ gf (at' 2) m2 ^^^ gf (at' 3) m3)

def aesMixColumns (x : W128) : W128 := aesMix 2 3 1 1 x
def aesInvMixColumns (x : W128) : W128 := aesMix 14 11 13 9 x

/-- One encryption round; the last round omits MixColumns (R80). -/
def aesRound (last : Bool) (x k : W128) : W128 :=
  let y := aesShiftRows (aesSubBytes x)
  (if last then y else aesMixColumns y) ^^^ k

/-- The inverse of `aesRound` under the same round key (R80). -/
def aesInvRound (last : Bool) (x k : W128) : W128 :=
  let y := x ^^^ k
  aesInvSubBytes (aesInvShiftRows (if last then y else aesInvMixColumns y))

/-- Key schedule words of AES-256, newest first: `n` more words. -/
def aesExpand : Nat → List W32 → List W32
  | 0, ws => ws
  | n + 1, ws =>
    let i := ws.length
    let t := (ws.headD 0).toNat
    let sub (v : Nat) : Nat :=
      aesSub (bits v 0 8) + 256 * aesSub (bits v 8 8) + 65536 * aesSub (bits v 16 8) + 16777216 * aesSub (bits v 24 8)
    let rcon (k : Nat) : Nat := (List.range (k - 1)).foldl (fun a _ => gf a 2) 1
    let t' :=
      if i % 8 = 0 then sub (t / 256 + (t % 256) * 16777216) ^^^ rcon (i / 8)
      else if i % 8 = 4 then sub t else t
    aesExpand n (((ws.getD 7 0) ^^^ BitVec.ofNat 32 t') :: ws)

/-- The fifteen round keys of AES-256. -/
def aesKeys (key : BitVec 256) : List W128 :=
  let w0 := (List.range 8).map (fun i => (key.extractLsb' (32 * i) 32 : W32))
  let ws := (aesExpand 52 w0.reverse).reverse
  (List.range 15).map (fun r =>
    ((ws.getD (4 * r + 3) 0 ++ ws.getD (4 * r + 2) 0) ++ (ws.getD (4 * r + 1) 0 ++ ws.getD (4 * r) 0) : BitVec 128))

/-- AES-256 encryption of a block under expanded keys. -/
def aesEnc (ks : List W128) (x : W128) : W128 :=
  aesRound true (((ks.drop 1).take 13).foldl (fun a k => aesRound false a k) (x ^^^ ks.headD 0)) (ks.getD 14 0)

/-- AES-256 decryption of a block under expanded keys. -/
def aesDec (ks : List W128) (x : W128) : W128 :=
  let inv (last : Bool) (a k : W128) : W128 := aesInvRound last a k
  ((ks.drop 1).take 13).reverse.foldl (inv false) (inv true x (ks.getD 14 0)) ^^^ ks.headD 0

/-! ### XTS (R250) -/

/-- Multiplication of the tweak by the primitive element of IEEE 1619. -/
def xtsNext (t : W128) : W128 := (t <<< 1) ^^^ (if t.getLsbD 127 then 0x87 else 0)

/-- The four tweaks of a 64-byte data unit. -/
def xtsTweaks (pair : W512) (la : Nat) : List W128 :=
  let t0 := aesEnc (aesKeys (pair.extractLsb' 256 256)) (BitVec.ofNat 128 la)
  let t1 := xtsNext t0
  let t2 := xtsNext t1
  [t0, t1, t2, xtsNext t2]

/-- AES-XTS-256 over one line, with `f` the block operation. -/
def xtsLine (f : List W128 → W128 → W128) (pair : W512) (la : Nat) (d : Line) : Line :=
  let ks := aesKeys (pair.extractLsb' 0 256)
  let ts := xtsTweaks pair la
  let blk (i : Nat) : W128 := f ks (d.extractLsb' (128 * i) 128 ^^^ ts.getD i 0) ^^^ ts.getD i 0
  (blk 3 ++ blk 2) ++ (blk 1 ++ blk 0)

def xtsEncrypt (pair : W512) (la : Nat) (d : Line) : Line := xtsLine aesEnc pair la d
def xtsDecrypt (pair : W512) (la : Nat) (d : Line) : Line := xtsLine aesDec pair la d

/-- What a line written under one key reads as under another (R251). -/
def xtsCross (written reading : W512) (la : Nat) (d : Line) : Line :=
  if written = reading then d else xtsDecrypt reading la (xtsEncrypt written la d)

/-! ### GF(2^128) in GCM bit order (R80) -/

/-- Bit `i` of a block in GCM order: the most significant bit of byte 0 first. -/
def gcmBit (x : W128) (i : Nat) : Bool := x.getLsbD (8 * (i / 8) + (7 - i % 8))

/-- The block with bits reversed within each byte. -/
def gcmSwap (x : W128) : Nat :=
  (List.range 128).foldl (fun a i => if gcmBit x i then a + 2 ^ i else a) 0

/-- The product of `a` by the bits of `b`, bit 0 the constant term, under x^128 + x^7 + x^2 + x + 1. -/
def polyMul : Nat → Nat → Nat → Nat
  | 0, _, _ => 0
  | n + 1, a, b =>
    let a2 := if a < 2 ^ 127 then 2 * a else (2 * a) ^^^ (2 ^ 128 + 0x87)
    (if b % 2 = 1 then a else 0) ^^^ polyMul n a2 (b / 2)

/-- The GCM product (R80). -/
def gcmMul (x y : W128) : W128 :=
  BitVec.ofNat 128 (gcmSwap (BitVec.ofNat 128 (polyMul 128 (gcmSwap x) (gcmSwap y))))

/-! ### SHA-512 (R80) -/

/-- Round constants of SHA-512 (R80), first twenty. -/
def shaK0 : List W64 :=
  [0x428A2F98D728AE22, 0x7137449123EF65CD, 0xB5C0FBCFEC4D3B2F, 0xE9B5DBA58189DBBC, 0x3956C25BF348B538,
   0x59F111F1B605D019, 0x923F82A4AF194F9B, 0xAB1C5ED5DA6D8118, 0xD807AA98A3030242, 0x12835B0145706FBE,
   0x243185BE4EE4B28C, 0x550C7DC3D5FFB4E2, 0x72BE5D74F27B896F, 0x80DEB1FE3B1696B1, 0x9BDC06A725C71235,
   0xC19BF174CF692694, 0xE49B69C19EF14AD2, 0xEFBE4786384F25E3, 0x0FC19DC68B8CD5B5, 0x240CA1CC77AC9C65]
/-- Round constants 20 to 39. -/
def shaK1 : List W64 :=
  [0x2DE92C6F592B0275, 0x4A7484AA6EA6E483, 0x5CB0A9DCBD41FBD4, 0x76F988DA831153B5, 0x983E5152EE66DFAB,
   0xA831C66D2DB43210, 0xB00327C898FB213F, 0xBF597FC7BEEF0EE4, 0xC6E00BF33DA88FC2, 0xD5A79147930AA725,
   0x06CA6351E003826F, 0x142929670A0E6E70, 0x27B70A8546D22FFC, 0x2E1B21385C26C926, 0x4D2C6DFC5AC42AED,
   0x53380D139D95B3DF, 0x650A73548BAF63DE, 0x766A0ABB3C77B2A8, 0x81C2C92E47EDAEE6, 0x92722C851482353B]
/-- Round constants 40 to 59. -/
def shaK2 : List W64 :=
  [0xA2BFE8A14CF10364, 0xA81A664BBC423001, 0xC24B8B70D0F89791, 0xC76C51A30654BE30, 0xD192E819D6EF5218,
   0xD69906245565A910, 0xF40E35855771202A, 0x106AA07032BBD1B8, 0x19A4C116B8D2D0C8, 0x1E376C085141AB53,
   0x2748774CDF8EEB99, 0x34B0BCB5E19B48A8, 0x391C0CB3C5C95A63, 0x4ED8AA4AE3418ACB, 0x5B9CCA4F7763E373,
   0x682E6FF3D6B2B8A3, 0x748F82EE5DEFB2FC, 0x78A5636F43172F60, 0x84C87814A1F0AB72, 0x8CC702081A6439EC]
/-- Round constants 60 to 79. -/
def shaK3 : List W64 :=
  [0x90BEFFFA23631E28, 0xA4506CEBDE82BDE9, 0xBEF9A3F7B2C67915, 0xC67178F2E372532B, 0xCA273ECEEA26619C,
   0xD186B8C721C0C207, 0xEADA7DD6CDE0EB1E, 0xF57D4F7FEE6ED178, 0x06F067AA72176FBA, 0x0A637DC5A2C898A6,
   0x113F9804BEF90DAE, 0x1B710B35131C471B, 0x28DB77F523047D84, 0x32CAAB7B40C72493, 0x3C9EBE0A15C9BEBC,
   0x431D67C49C100D4C, 0x4CC5D4BECB3E42B6, 0x597F299CFC657E2A, 0x5FCB6FAB3AD6FAEC, 0x6C44198C4A475817]
/-- Initial value of SHA-384 (R80). -/
def sha384Init : List W64 :=
  [0xCBBB9D5DC1059ED8, 0x629A292A367CD507, 0x9159015A3070DD17, 0x152FECD8F70E5939, 0x67332667FFC00B31,
   0x8EB44A8768581511, 0xDB0C2E0D64F98FA7, 0x47B5481DBEFA4FA4]
/-- Round constants of Keccak-f[1600] (R80). -/
def keccakRc : List W64 :=
  [0x0000000000000001, 0x0000000000008082, 0x800000000000808A, 0x8000000080008000, 0x000000000000808B,
   0x0000000080000001, 0x8000000080008081, 0x8000000000008009, 0x000000000000008A, 0x0000000000000088,
   0x0000000080008009, 0x000000008000000A, 0x000000008000808B, 0x800000000000008B, 0x8000000000008089,
   0x8000000000008003, 0x8000000000008002, 0x8000000000000080, 0x000000000000800A, 0x800000008000000A,
   0x8000000080008081, 0x8000000000008080, 0x0000000080000001, 0x8000000080008008]
/-- Rotation of lane x + 5y (R80). -/
def keccakRot : List Nat :=
  [0, 1, 62, 28, 27, 36, 44, 6, 55, 20, 3, 10, 43, 25, 39, 41, 45, 15, 21, 8, 18, 2, 61, 56, 14]

def shaK : List W64 := shaK0 ++ shaK1 ++ shaK2 ++ shaK3

def shaS0 (x : W64) : W64 := x.rotateRight 1 ^^^ x.rotateRight 8 ^^^ (x >>> 7)
def shaS1 (x : W64) : W64 := x.rotateRight 19 ^^^ x.rotateRight 61 ^^^ (x >>> 6)
def shaB0 (x : W64) : W64 := x.rotateRight 28 ^^^ x.rotateRight 34 ^^^ x.rotateRight 39
def shaB1 (x : W64) : W64 := x.rotateRight 14 ^^^ x.rotateRight 18 ^^^ x.rotateRight 41

/-- One round on the eight working words, with `kw` the sum of constant and schedule word. -/
def shaRound (s : List W64) (kw : W64) : List W64 :=
  match s with
  | [a, b, c, d, e, f, g, h] =>
    let t1 := h + shaB1 e + ((e &&& f) ^^^ (~~~e &&& g)) + kw
    let t2 := shaB0 a + ((a &&& b) ^^^ (a &&& c) ^^^ (b &&& c))
    [t1 + t2, a, b, c, d + t1, e, f, g]
  | _ => s

/-- Schedule words, newest first: `n` more. -/
def shaSchedule : Nat → List W64 → List W64
  | 0, w => w
  | n + 1, w => shaSchedule n ((shaS1 (w.getD 1 0) + w.getD 6 0 + shaS0 (w.getD 14 0) + w.getD 15 0) :: w)

/-- The compression of one 128-byte block, given as sixteen words. -/
def shaCompress (h : List W64) (w : List W64) : List W64 :=
  let ws := (shaSchedule 64 w.reverse).reverse
  let out := (List.zipWith (· + ·) shaK ws).foldl shaRound h
  List.zipWith (· + ·) h out

/-- A big-endian 64-bit word of a byte list at offset `o`. -/
def beWord (bs : List Byte) (o : Nat) : W64 := BitVec.ofNat 64 (leNat ((bs.drop o).take 8).reverse)

/-- The big-endian bytes of a word. -/
def wordBe (w : W64) : List Byte := (natLe 8 w.toNat).reverse

/-- Compresses the whole 128-byte blocks at the head of `bs`; `n` bounds their number. The rest is returned. -/
def shaBlocks : Nat → List W64 → List Byte → List W64 × List Byte
  | 0, h, bs => (h, bs)
  | n + 1, h, bs =>
    if bs.length < 128 then (h, bs)
    else shaBlocks n (shaCompress h ((List.range 16).map (fun i => beWord bs (8 * i)))) (bs.drop 128)

/-- The padding of a message of `len` bytes whose last partial block is `part`. -/
def shaPad (part : List Byte) (len : Nat) : List Byte :=
  let z := (111 + 128 - part.length % 128) % 128
  part ++ [0x80] ++ List.replicate z 0 ++ (natLe 16 (8 * len)).reverse

/-- The SHA-384 digest from a running state, a partial block and the message length. -/
def sha384Final (h : List W64) (part : List Byte) (len : Nat) : List Byte :=
  (((shaBlocks 2 h (shaPad part len)).1.take 6).map wordBe).flatten

/-- SHA-384 of a message. -/
def sha384 (m : List Byte) : List Byte :=
  let (h, part) := shaBlocks (m.length / 128) sha384Init m
  sha384Final h part m.length

/-! ### Keccak (R80) -/

/-- One round of Keccak-f[1600] on the 25 lanes. -/
def keccakRound (a : List W64) (rc : W64) : List W64 :=
  let lane (l : List W64) (x y : Nat) : W64 := l.getD (x % 5 + 5 * (y % 5)) 0
  let c (x : Nat) : W64 := lane a x 0 ^^^ lane a x 1 ^^^ lane a x 2 ^^^ lane a x 3 ^^^ lane a x 4
  let th := (List.range 25).map (fun i => a.getD i 0 ^^^ c (i % 5 + 4) ^^^ (c (i % 5 + 1)).rotateLeft 1)
  let rot := List.zipWith (fun v n => v.rotateLeft n) th keccakRot
  -- lane (x, y) of the permuted state is lane (x + 3y, x) of the rotated one
  let pi := (List.range 25).map (fun i => lane rot (i % 5 + 3 * (i / 5)) (i % 5))
  let chi := (List.range 25).map (fun i =>
    lane pi i (i / 5) ^^^ (~~~(lane pi (i % 5 + 1) (i / 5)) &&& lane pi (i % 5 + 2) (i / 5)))
  match chi with
  | h :: t => (h ^^^ rc) :: t
  | [] => []

/-- Keccak-f[1600]. -/
def keccakF (a : List W64) : List W64 := keccakRc.foldl keccakRound a

/-- The 25 lanes of 200 bytes. -/
def keccakLanes (bs : List Byte) : List W64 :=
  (List.range 25).map (fun i => BitVec.ofNat 64 (leNat ((bs.drop (8 * i)).take 8)))

def keccakBytes (a : List W64) : List Byte := (a.map (fun w => natLe 8 w.toNat)).flatten

/-- Absorbs one 136-byte block of SHA3-256. -/
def sha3Absorb (a : List W64) (blk : List Byte) : List W64 :=
  keccakF ((List.range 25).map (fun i =>
    a.getD i 0 ^^^ (if i < 17 then BitVec.ofNat 64 (leNat ((blk.drop (8 * i)).take 8)) else 0)))

/-- Absorbs the whole blocks at the head of `bs`. -/
def sha3Blocks : Nat → List W64 → List Byte → List W64 × List Byte
  | 0, a, bs => (a, bs)
  | n + 1, a, bs => if bs.length < 136 then (a, bs) else sha3Blocks n (sha3Absorb a bs) (bs.drop 136)

/-- The SHA3-256 digest from a running state and a partial block. -/
def sha3Final (a : List W64) (part : List Byte) : List Byte :=
  let p := part ++ [0x06] ++ List.replicate (135 - part.length) 0
  let p := p.take 135 ++ [(p.getD 135 0) ^^^ 0x80]
  (keccakBytes (sha3Absorb a p)).take 32

/-! ### GCM (R311) -/

/-- A block from bytes, zero-padded. -/
def bytesBlk (bs : List Byte) : W128 := BitVec.ofNat 128 (leNat (bs.take 16))

/-- GHASH over bytes, block by block; the last is padded with zeros. `n` bounds the number of blocks. -/
def ghash (h : W128) : Nat → W128 → List Byte → W128
  | 0, y, _ => y
  | n + 1, y, bs => if bs.isEmpty then y else ghash h n (gcmMul (y ^^^ bytesBlk bs) h) (bs.drop 16)

/-- The counter block: the 96-bit IV and a big-endian 32-bit counter. -/
def gcmCtrBlk (iv : BitVec 96) (ctr : Nat) : W128 :=
  bytesBlk (natLe 12 iv.toNat ++ (natLe 4 ctr).reverse)

/-- Counter-mode encryption of bytes from counter `ctr`. -/
def gcmCtr (ks : List W128) (iv : BitVec 96) : Nat → Nat → List Byte → List Byte
  | 0, _, _ => []
  | n + 1, ctr, bs =>
    if bs.isEmpty then []
    else
      let k := natLe 16 (aesEnc ks (gcmCtrBlk iv (ctr % 2 ^ 32))).toNat
      List.zipWith (· ^^^ ·) (bs.take 16) k ++ gcmCtr ks iv n (ctr + 1) (bs.drop 16)

/-- The length block of GCM: bit lengths of additional data and text, big-endian. -/
def gcmLenBlk (aad text : Nat) : W128 := bytesBlk ((natLe 8 (8 * aad)).reverse ++ (natLe 8 (8 * text)).reverse)

/-- The tag from the hash state after the text. -/
def gcmTag (ks : List W128) (iv : BitVec 96) (y : W128) (aad text : Nat) : W128 :=
  gcmMul (y ^^^ gcmLenBlk aad text) (aesEnc ks 0) ^^^ aesEnc ks (gcmCtrBlk iv 1)

end Sys2Proof.Machine
end

