-- ==== Sys2Proof/Machine/Lines.lean ====
section
/-! DEFINITION. Lines: the memory channels as the homes use them, the SLC slices, the directory, the private
arrays of a core, and the requests of R136 between them. A request that a command starts leaves its directory
entry busy; `settle` completes a busy entry in one go, which is how an access of a core that needs the line
completes within its own step (log 18). -/

namespace Sys2Proof.Machine

/-! ### Replacement (R130) -/

/-- R130's choice among eligible ways of a set that holds `held` (way, age): the way, and by how much the ages
of the eligible ways rise. The lowest invalid way, else the lowest of the oldest. -/
def nruPick (held : List (Nat × Nat)) (elig : List Nat) : Option (Nat × Nat) :=
  match elig.find? (fun w => !(held.any (fun h => h.1 == w))) with
  | some w => some (w, 0)
  | none =>
    let es := held.filter (fun h => elig.contains h.1)
    let top := es.foldl (fun a h => max a h.2) 0
    match elig.find? (fun w => held.any (fun h => h.1 == w && h.2 == top)) with
    | some w => some (w, 3 - top)
    | none => none

/-! ### Memory channels as the homes use them (R245 to R251, R265) -/

/-- The key pair of a domain and selector (R250). -/
def State.keyOf (s : State) (td ks : Nat) : W512 := SMap.get s.keys.null s.keys.slots (4 * td + ks)

/-- The key pair that a line of DRAM was written under (R250, R253). -/
def State.lineKeyOf (s : State) (la : Nat) : W512 := SMap.get s.fillKey s.lineKey la

/-- A line of DRAM as stored: plaintext under the key it was written with, and its poison mark (R250, R265). -/
def State.dramLine (s : State) (la : Nat) : Line × Bool :=
  if s.poison.contains la then (0, true) else (bytesLine (s.dram.read (64 * la) 64), false)

/-- A line of DRAM as read under the key of a domain and selector (R250, R251). -/
def State.dramRead (s : State) (la td ks : Nat) : Line × Bool :=
  let (d, p) := s.dramLine la
  if p then (0, true) else (xtsCross (s.lineKeyOf la) (s.keyOf td ks) la d, false)

/-- Stores a line in DRAM under a key, or as poison (R250, R265). -/
def State.dramStore (s : State) (la : Nat) (key : W512) (d : Line) (poison : Bool) : State :=
  { s with
    dram := s.dram.write (64 * la) (lineBytes (if poison then 0 else d) 0 64)
    lineKey := SMap.set s.lineKey la key
    poison := if poison then insNat s.poison la else s.poison.filter (· != la) }

/-- A request reaches a channel: its idle count restarts and a channel in RET wakes (R257, R357). -/
def State.chanTouch (s : State) (ch : Nat) : State :=
  let c := s.chan ch
  let s := s.modChan ch (fun c => { c with idle := 0, st := if c.st = 7 then 4 else c.st })
  if c.st = 7 then s.modDom (392 + ch) (fun d => { d with st := 0, wake := 4 }) else s

/-- A full-line write: it replaces a queued write of its line and frees the line's merge-buffer entry
(R246, R248); a fenced channel discards it (R230). -/
def State.memWrite (s : State) (la td ks : Nat) (d : Line) (poison : Bool) : State :=
  let ch := s.chanOf (64 * la)
  let s := s.chanTouch ch
  if (s.chan ch).st = 8 then s
  else
    (s.modChan ch (fun c => { c with
      wrq := c.wrq.filter (fun q => q.la != la), merge := c.merge.filter (fun m => m.la != la) })).dramStore
      la (s.keyOf td ks) d poison

/-- A queued write or the stored line, as a read of a channel sees it (R246). -/
def State.chanLine (s : State) (ch la td ks : Nat) : Line × Bool :=
  match (s.chan ch).wrq.find? (fun q => q.la == la) with
  | some q => (q.data, q.poison)
  | none => s.dramRead la td ks

/-- A merge-buffer entry closes: a full mask is written as a line; any other reads the line under the entry's
key, merges and writes, poisoned where the line read is poisoned (R248, R249). -/
def State.mergeClose (s : State) (ch la : Nat) : State :=
  match (s.chan ch).merge.find? (fun m => m.la == la) with
  | none => s
  | some m =>
    let s := s.modChan ch (fun c => { c with merge := c.merge.filter (fun m => m.la != la) })
    if m.mask.toNat = 2 ^ 64 - 1 then s.memWrite la m.td m.ks m.data false
    else
      let (d, p) := s.chanLine ch la m.td m.ks
      s.memWrite la m.td m.ks (lineMask d m.data m.mask.toNat) p

/-- A read of a line from its channel: it closes the line's merge entry first and sees a queued write; a fenced
channel answers poison (R230, R246, R248). -/
def State.memRead (s : State) (la td ks : Nat) : (Line × Bool) × State :=
  let ch := s.chanOf (64 * la)
  let s := (s.chanTouch ch).mergeClose ch la
  if (s.chan ch).st = 8 then ((0, true), s) else (s.chanLine ch la td ks, s)

/-- The byte mask of `n` bytes from offset `off`. -/
def maskOf (off n : Nat) : Nat := (2 ^ n - 1) <<< off

/-- A partial write at a channel: it gathers in the merge buffer (R248). -/
def State.memPartial (s : State) (la td ks off : Nat) (bs : List Byte) : State :=
  let ch := s.chanOf (64 * la)
  let s := s.chanTouch ch
  if (s.chan ch).st = 8 then s
  else
    match (s.chan ch).merge.find? (fun m => m.la == la) with
    | some m =>
      if m.td = td ∧ m.ks = ks then
        let m' : MergeEnt := { m with
          mask := BitVec.ofNat 64 (m.mask.toNat ||| maskOf off bs.length), data := linePut m.data off bs }
        let s := s.modChan ch (fun c => { c with merge := c.merge.map (fun x => if x.la == la then m' else x) })
        if m'.mask.toNat = 2 ^ 64 - 1 then s.mergeClose ch la else s
      else
        (s.mergeClose ch la).modChan ch (fun c => { c with merge := c.merge ++
          [{ la, mask := BitVec.ofNat 64 (maskOf off bs.length), data := linePut 0 off bs, td, ks }] })
    | none =>
      let s :=
        match (s.chan ch).merge with
        | o :: _ => if 32 ≤ (s.chan ch).merge.length then s.mergeClose ch o.la else s
        | [] => s
      s.modChan ch (fun c => { c with merge := c.merge ++
        [{ la, mask := BitVec.ofNat 64 (maskOf off bs.length), data := linePut 0 off bs, td, ks }] })

/-! ### SLC slices (R123, R138, R139, R142) -/

/-- The set of a line in a slice and its directory (R123). -/
def homeSet (la : Nat) : Nat := (la % 4096) ^^^ (la / 4096 % 4096)

/-- The ways of a slice that fills of a domain may replace (R130, R142, R144, R148). -/
def State.slcWays (s : State) (b td : Nat) : List Nat :=
  let mask := SMap.get 0xFFF s.waymask td
  let ret := s.retiredWays 3 b 0
  (List.range 12).filter (fun w => mask.testBit w && !ret.contains w)

def Block.slcFind (x : Block) (la : Nat) : Option SLine := x.slc.find? (fun l => l.la == la)

/-- A line is placed in its slice: over the copy held there, or in a victim way whose dirty line goes to
memory; without an eligible way nothing is allocated, and a dirty line goes straight to memory (R139, R142). -/
def State.slcFill (s : State) (la td ks : Nat) (d : Line) (dirty poison stream : Bool) : State :=
  let b := s.home la
  let x := s.block b
  match x.slcFind la with
  | some l =>
    s.setBlock b { x with slc := x.slc.map (fun y => if y.la == la then
      { l with data := d, dirty := l.dirty || dirty, poison := poison, td := td, ks := ks } else y) }
  | none =>
    let inSet := x.slc.filter (fun l => homeSet l.la == homeSet la)
    let elig := s.slcWays b td
    match nruPick (inSet.map (fun l => (l.way, l.age))) elig with
    | none => if dirty then s.memWrite la td ks d poison else s
    | some (w, up) =>
      let vic := inSet.find? (fun l => l.way == w)
      let rest := (x.slc.filter (fun l => !(homeSet l.la == homeSet la && l.way == w))).map
        (fun l => if homeSet l.la == homeSet la && elig.contains l.way then { l with age := l.age + up } else l)
      let new : SLine :=
        { la, way := w, age := if stream then 3 else 1, dirty, poison, stream, td, ks, data := d }
      let s := s.setBlock b { x with slc := rest ++ [new] }
      match vic with
      | some v => if v.dirty then s.memWrite v.la v.td v.ks v.data v.poison else s
      | none => s

/-- Data of a line at its home: from the slice, or from memory with a fill (R138, R130, R131). -/
def State.homeData (s : State) (la td ks : Nat) (stream : Bool) : (Line × Bool) × State :=
  let b := s.home la
  match (s.block b).slcFind la with
  | some l =>
    ((l.data, l.poison), s.modBlock b (fun x => { x with slc := x.slc.map (fun y =>
      if y.la == la then { y with age := 0, stream := false } else y) }))
  | none =>
    let ((d, p), s) := s.memRead la td ks
    ((d, p), s.slcFill la td ks d false p stream)

/-! ### The directory (R137, R139, R140) -/

def Block.dirFind (x : Block) (la : Nat) : Option DirEnt := x.dir.find? (fun e => e.la == la)

/-- The cores an entry names: its IDs, or the eight of every group of its vector (R137). -/
def DirEnt.holders (e : DirEnt) : List Nat :=
  match e.vec with
  | none => e.ids
  | some v => (List.range 256).filter (fun c => v.getLsbD (c / 8))

/-- A holder is added; the fifth turns the entry into a vector (R137). -/
def DirEnt.addHolder (e : DirEnt) (c : Nat) : DirEnt :=
  match e.vec with
  | some v => { e with vec := some (v ||| BitVec.ofNat 32 (2 ^ (c / 8))) }
  | none =>
    if e.ids.contains c then e
    else if e.ids.length < 4 then { e with ids := insNat e.ids c }
    else { e with ids := [], vec := some (BitVec.ofNat 32 ((e.ids ++ [c]).foldl (fun a i => a ||| 2 ^ (i / 8)) 0)) }

def State.putDir (s : State) (b : Nat) (e : DirEnt) : State :=
  s.modBlock b (fun x => { x with dir := x.dir.map (fun y => if y.la == e.la then e else y) })

def State.delDir (s : State) (b la : Nat) : State :=
  s.modBlock b (fun x => { x with dir := x.dir.filter (fun y => y.la != la) })

/-! ### Private arrays of a core (R123 to R125, R130) -/

def Core.l2Find (k : Core) (la : Nat) : Option CLine := k.l2.find? (fun l => l.la == la)
def Core.vcFind (k : Core) (la : Nat) : Option CLine := k.vc.find? (fun l => l.la == la)
def Core.sbFind (k : Core) (la : Nat) : Option CLine := k.sb.find? (fun l => l.la == la)

/-- The copy of a line in the L2, the victim cache or the side buffer (R124). -/
def Core.copy (k : Core) (la : Nat) : Option CLine :=
  match k.l2Find la with
  | some l => some l
  | none => match k.vcFind la with
    | some l => some l
    | none => k.sbFind la

/-- A line leaves the L1I, unless a code window locks it there, and the L1D (R116, R124). -/
def Core.dropL1 (k : Core) (la : Nat) : Core :=
  { k with l1i := k.l1i.filter (fun l => l.la != la || l.locked), l1d := k.l1d.filter (fun l => l.la != la) }

/-- A line leaves every array: a locked window line is lost (R118), a reservation on it is lost (R70). -/
def Core.dropLine (k : Core) (la : Nat) : Core :=
  let locked := k.l2.any (fun l => l.la == la && l.locked) || k.l1i.any (fun l => l.la == la && l.locked)
  { k with
    l1i := k.l1i.filter (fun l => l.la != la), l1d := k.l1d.filter (fun l => l.la != la)
    l2 := k.l2.filter (fun l => l.la != la), vc := k.vc.filter (fun l => l.la != la)
    sb := k.sb.filter (fun l => l.la != la)
    lost := if locked then insNat k.lost la else k.lost
    resv := if k.resv = some la then none else k.resv }

/-- Ways of the data window: the lowest that are in service (R117, log 27). -/
def State.windowWays (s : State) (c : Nat) : List Nat :=
  let ret := s.retiredWays 2 (coreBlock c) (c % 2)
  ((List.range 16).filter (fun w => !ret.contains w)).take (fld (s.core c).mdpa 0 4)

/-- Ways of the L2 that an ordinary fill may replace: in service and not reserved for a window (R117, R148). -/
def State.l2Ways (s : State) (c : Nat) : List Nat :=
  let ret := s.retiredWays 2 (coreBlock c) (c % 2)
  let win := s.windowWays c
  (List.range 16).filter (fun w => !ret.contains w && !win.contains w)

/-- Places a tag in an L1 array over the ways `elig` (R123, R130). -/
def l1Fill (l : List L1Line) (la : Nat) (elig : List Nat) (locked : Bool) : List L1Line :=
  if l.any (fun x => x.la == la) then l.map (fun x => if x.la == la then { x with age := 0, locked := x.locked || locked } else x)
  else
    let inSet := l.filter (fun x => x.la % 256 == la % 256)
    match nruPick (inSet.map (fun x => (x.way, x.age))) elig with
    | none => l
    | some (w, up) =>
      (l.filter (fun x => !(x.la % 256 == la % 256 && x.way == w))).map
        (fun x => if x.la % 256 == la % 256 && elig.contains x.way then { x with age := x.age + up } else x)
        ++ [{ la, way := w, age := 1, locked }]

/-- Ways of the L1I that an ordinary fill may replace (R117). -/
def Core.l1iWays (k : Core) : List Nat := (List.range 4).drop (fld k.mcpa 0 2)

/-! ### Releases (R136, R138) -/

/-- EVN at the home: the holder is removed; a vector bit stays (R137, R138). -/
def State.homeEvn (s : State) (c la : Nat) : State :=
  let b := s.home la
  match (s.block b).dirFind la with
  | none => s
  | some e =>
    if e.vec.isSome then s
    else
      let ids := e.ids.filter (· != c)
      if ids.isEmpty && e.busy.isNone then s.delDir b la else s.putDir b { e with ids := ids }

/-- WB at the home: the data goes to the slice under the domain recorded with the line (R138, R142). -/
def State.homeWb (s : State) (c : Nat) (l : CLine) : State :=
  (s.slcFill l.la l.td l.ks l.data true l.poison l.stream).homeEvn c l.la

/-- A copy leaves a core for good: WB when it is M, EVN otherwise (R136). -/
def State.release (s : State) (c : Nat) (l : CLine) : State :=
  if l.st = Mesi.m then s.homeWb c l else s.homeEvn c l.la

/-- The victim cache gives up its oldest entries beyond sixteen (R132). `n` bounds their number. -/
def State.trimVc (s : State) (c : Nat) : Nat → State
  | 0 => s
  | n + 1 =>
    match (s.core c).vc with
    | [] => s
    | o :: rest =>
      if (s.core c).vc.length ≤ 16 then s
      else
        let k := s.core c
        let k := { k with vc := rest, resv := if k.resv = some o.la then none else k.resv }
        (s.setCore c k).release c o |>.trimVc c n

/-- A line enters the L2 at an age over the ways `elig`; the victim moves to the victim cache (R123, R130). -/
def State.l2Install (s : State) (c : Nat) (l : CLine) (elig : List Nat) : State :=
  let k := s.core c
  let inSet := k.l2.filter (fun x => x.la % 1024 == l.la % 1024)
  match nruPick (inSet.map (fun x => (x.way, x.age))) elig with
  | none => s.release c l
  | some (w, up) =>
    let vic := inSet.find? (fun x => x.way == w)
    let l2 := (k.l2.filter (fun x => !(x.la % 1024 == l.la % 1024 && x.way == w))).map
      (fun x => if x.la % 1024 == l.la % 1024 && elig.contains x.way then { x with age := x.age + up } else x)
    let k := { k with l2 := l2 ++ [{ l with way := w }] }
    match vic with
    | none => s.setCore c k
    | some v => (s.setCore c { k.dropL1 v.la with vc := k.vc ++ [v] }).trimVc c 2

/-- A fill of the side buffer; the oldest entry of 32 gives way with EVN (R132, R133). -/
def State.sbInstall (s : State) (c : Nat) (l : CLine) : State :=
  let k := s.core c
  match k.sb with
  | o :: rest =>
    if 32 ≤ k.sb.length then (s.setCore c { k with sb := rest ++ [l] }).release c o
    else s.setCore c { k with sb := k.sb ++ [l] }
  | [] => s.setCore c { k with sb := [l] }

/-! ### Recall of every copy (R129, R138, R139, R178) -/

/-- One holder gives up its copy; dirty data goes to the slice (R138). -/
def State.recallFrom (s : State) (la : Nat) (c : Nat) : State :=
  let k := s.core c
  let s1 := s.setCore c (k.dropLine la)
  match k.copy la with
  | some l => if l.st = Mesi.m then s1.slcFill la l.td l.ks l.data true l.poison l.stream else s1
  | none => s1

/-- Every copy of a line is recalled and its directory entry becomes I. -/
def State.recall (s : State) (la : Nat) : State :=
  let b := s.home la
  match (s.block b).dirFind la with
  | none => s
  | some e => (e.holders.foldl (fun s c => s.recallFrom la c) s).delDir b la

/-- A directory entry for a line, in state I, busy with a grant; a full set gives up a victim first (R139). -/
def State.dirAlloc (s : State) (la : Nat) (e : DirEnt) : State :=
  let b := s.home la
  let x := s.block b
  let inSet := x.dir.filter (fun d => homeSet d.la == homeSet la)
  let free := (List.range 16).filter (fun w => !(inSet.any (fun d => d.way == w && (d.busy.isSome || d.pinned))))
  match nruPick (inSet.map (fun d => (d.way, d.age))) free with
  | none => s
  | some (w, up) =>
    let s :=
      match inSet.find? (fun d => d.way == w) with
      | some v => s.recall v.la
      | none => s
    let aged (d : DirEnt) : DirEnt :=
      if homeSet d.la == homeSet la && free.contains d.way then { d with age := d.age + up } else d
    s.modBlock b (fun x => { x with dir := x.dir.map aged ++ [{ e with way := w, age := 1 }] })

/-! ### Requests at a home (R136, R138) -/

/-- Changes of a line that are due at the next boundary: no copy is granted until then (R178). -/
def State.linePending (s : State) (la : Nat) : Bool :=
  (s.block (s.home la)).staging.any (fun p => p.gran / 2 == la)
    || s.allBlocks.any (fun b => (s.block b).acts.any (fun a => a.reg && decide (a.due = s.noon.tick + 1) &&
        (match a.body with
         | .store pa _ _ _ => pa / 64 == la
         | .merge pa _ _ => pa / 64 == la
         | _ => false)))

/-- A request on a line that is not busy starts: the entry becomes busy with a grant that awaits what R138
names. -/
def State.homeStart (s : State) (q : HReq) (pf : Bool) : State :=
  let b := s.home q.la
  let g0 : Grant := { kind := q.kind, core := q.core, td := q.td, ks := q.ks, stream := q.stream, pf := pf, inv := [],
                      fwd := none, st := .m, data := 0, poison := false }
  let needData := q.kind ≠ .rdz
  match (s.block b).dirFind q.la with
  | none =>
    let st : Mesi := if q.kind = ReqKind.rds then (if q.tord then Mesi.s else Mesi.e) else Mesi.m
    let ((d, p), s) := if needData then s.homeData q.la q.td q.ks q.stream else ((0, false), s)
    s.dirAlloc q.la { DirEnt.reset with la := q.la, busy := some { g0 with st := st, data := d, poison := p } }
  | some e =>
    if e.x then
      s.putDir b { e with busy := some { g0 with fwd := e.ids.head?, st := if q.kind = .rds then .s else .m } }
    else if q.kind = .rds then
      let ((d, p), s) := s.homeData q.la q.td q.ks q.stream
      s.putDir b { e with age := 0, busy := some { g0 with st := .s, data := d, poison := p } }
    else
      let own := ((s.core q.core).copy q.la).map (fun l => (l.data, l.poison))
      let ((d, p), s) :=
        match q.kind, e.holders.contains q.core, own with
        | .rdz, _, _ => ((0, false), s)
        | .upg, true, some o => (o, s)
        | _, _, _ => s.homeData q.la q.td q.ks q.stream
      s.putDir b { e with age := 0, busy := some { g0 with inv := e.holders.filter (· != q.core), data := d, poison := p } }

/-- Spare positions of a region (R417). -/
def State.spares (s : State) (r : Nat) : Nat :=
  ((List.range 18).filter (fun p => decide (s.mapByte r p / 32 = 1))).length

/-- A replacement of the block is in progress (R419). -/
def State.replacing (s : State) (b : Nat) : Bool :=
  match (s.region (b / 16)).sparing with
  | some (l, _) => decide (l = b % 16)
  | none => false

/-- The home of a line is fenced and no spare remains: reads return poison and writes are discarded (R230). -/
def State.homeLost (s : State) (la : Nat) : Bool :=
  let b := s.home la
  (s.block b).fenced && decide (s.spares (b / 16) = 0) && !s.replacing b

/-- Requests for the home of a line are held at their source stops (R129, R230, R419). -/
def State.homeHolds (s : State) (la : Nat) : Bool :=
  let b := s.home la
  s.replacing b || ((s.block b).fenced && decide (s.spares (b / 16) ≠ 0))

/-- The access that this step makes waits at its source stop (R230): the command takes no effect and its sender
repeats it (log 2, 43). -/
def State.await (s : State) : State := { s with waits := true }

/-- A request arrives: it starts, or waits in the line's queue while the entry is busy (R136); requests of a fenced
block are held at their source, or end where no spare remains (R230). -/
def State.homeRequest (s : State) (q : HReq) (pf : Bool) : State :=
  let b := s.home q.la
  if s.homeLost q.la then s
  else if s.homeHolds q.la then s.modBlock b (fun x => { x with held := x.held ++ [q] })
  else
    match (s.block b).dirFind q.la with
    | some e => if e.busy.isSome then s.modBlock b (fun x => { x with queue := x.queue ++ [q] }) else s.homeStart q pf
    | none => s.homeStart q pf

/-- The busy grant of a line. -/
def State.grantOf (s : State) (la : Nat) : Option Grant :=
  ((s.block (s.home la)).dirFind la).bind (·.busy)

def State.setGrant (s : State) (la : Nat) (g : Grant) : State :=
  match (s.block (s.home la)).dirFind la with
  | some e => s.putDir (s.home la) { e with busy := some g }
  | none => s

/-- The owner answers a forward: shared, it keeps the line in S and dirty data goes to the slice; exclusive, it
invalidates its copy (R138, R141). An owner whose copy has left answers without data, and the home supplies it. -/
def State.forward (s : State) (la : Nat) (excl : Bool) : State :=
  match s.grantOf la with
  | none => s
  | some g =>
    match g.fwd with
    | none => s
    | some o =>
      let k := s.core o
      match k.copy la with
      | some l =>
        let s :=
          if excl then s.setCore o (k.dropLine la)
          else
            let toS (x : CLine) : CLine := if x.la == la then { x with st := .s } else x
            let s := s.setCore o { k with l2 := k.l2.map toS, vc := k.vc.map toS, sb := k.sb.map toS }
            if l.st = Mesi.m then s.slcFill la l.td l.ks l.data true l.poison l.stream else s
        s.setGrant la { g with fwd := none, data := if g.kind = .rdz then 0 else l.data, poison := g.kind != .rdz && l.poison }
      | none =>
        let s := s.setCore o (k.dropLine la)
        let ((d, p), s) := if g.kind = .rdz then ((0, false), s) else s.homeData la g.td g.ks g.stream
        s.setGrant la { g with fwd := none, data := d, poison := p }

/-- One holder drops its copy and acknowledges (R137, R138). -/
def State.invalidate (s : State) (c la : Nat) : State :=
  let s := s.modCore c (fun k => k.dropLine la)
  match s.grantOf la with
  | none => s
  | some g => s.setGrant la { g with inv := g.inv.filter (· != c) }

/-- The next request that waits for a line starts (R136). -/
def State.nextQueued (s : State) (la : Nat) : State :=
  let b := s.home la
  match (s.block b).queue.find? (fun q => q.la == la) with
  | none => s
  | some q =>
    (s.modBlock b (fun x => { x with queue := x.queue.eraseIdx (x.queue.findIdx (fun q => q.la == la)) })).homeStart q false

/-- The requester acknowledges a grant that awaits nothing more: the line is installed, and the entry takes the
state of R138. -/
def State.ackGrant (s : State) (la : Nat) : State :=
  let b := s.home la
  match (s.block b).dirFind la with
  | none => s
  | some e =>
    match e.busy with
    | none => s
    | some g =>
      if !g.inv.isEmpty || g.fwd.isSome then s
      else
        let e' : DirEnt :=
          if g.st = .s then { ({ e with x := false } : DirEnt).addHolder g.core with busy := none }
          else { e with x := true, ids := [g.core], vec := none, busy := none }
        let s := s.putDir b e'
        let s := s.modCore g.core (fun k => { k.dropLine la with resv := k.resv, lost := k.lost })
        let l : CLine := { la, way := 0, age := if g.stream then 3 else 1, st := g.st, stream := g.stream,
                           poison := g.poison, locked := false, td := g.td, ks := g.ks, data := g.data }
        let s := if g.pf then s.sbInstall g.core l else s.l2Install g.core l (s.l2Ways g.core)
        s.nextQueued la

/-- Completes a busy line: forwards and invalidations are answered and the grant acknowledged; `n` bounds the
requests that were waiting (log 18). -/
def State.settle (s : State) (la : Nat) : Nat → State
  | 0 => s
  | n + 1 =>
    match s.grantOf la with
    | none => s
    | some g =>
      let s := s.forward la (g.kind != .rds)
      let s := g.inv.foldl (fun s c => s.invalidate c la) s
      (s.ackGrant la).settle la n

/-- A request and everything it causes, after whatever the line was busy with (log 18). -/
def State.request (s : State) (q : HReq) (pf : Bool) : State :=
  let n := (s.block (s.home q.la)).queue.length + 2
  ((s.settle q.la n).homeRequest q pf).settle q.la 2

/-- The state after a step, or the state before it where the step met a home that holds its requests (log 43). -/
def State.orWait (s s' : State) : State := if s'.waits then s else s'

/-! ### Coherent reads and writes that are not cached (R138) -/

/-- CRD: an owner is asked to share, its dirty data reaches the slice, and the home answers; a fenced home with no
spare answers poison (R138, R230). -/
def State.crd (s : State) (la td ks : Nat) : (Line × Bool) × State :=
  let b := s.home la
  if s.homeLost la then ((0, true), s)
  else if s.homeHolds la then ((0, false), s.await)
  else
  let s := s.settle la ((s.block b).queue.length + 2)
  match (s.block b).dirFind la with
  | some e =>
    if e.x then
      match e.ids with
      | o :: _ =>
        let k := s.core o
        let s :=
          match k.copy la with
          | some l =>
            let toS (x : CLine) : CLine := if x.la == la then { x with st := .s } else x
            let s := s.setCore o { k with l2 := k.l2.map toS, vc := k.vc.map toS, sb := k.sb.map toS }
            if l.st = Mesi.m then s.slcFill la l.td l.ks l.data true l.poison l.stream else s
          | none => s
        (s.putDir b { e with x := false }).homeData la td ks false
      | [] => s.homeData la td ks false
    else s.homeData la td ks false
  | none => s.homeData la td ks false

/-- CWR of bytes within one line: every holder gives up its copy, the bytes are merged, and the result goes to
the slice, or where none is allocated to memory (R138, R142, R248). Poison stays under a partial write (R267). -/
def State.cwr (s : State) (pa td ks : Nat) (bs : List Byte) (stream : Bool) : State :=
  let la := pa / 64
  let off := pa % 64
  let b := s.home la
  if s.homeLost la then s.record (recAt (srcId 1 (b / 16) (b % 16) 0 0xFF) 1 3 (openType 1 0) (some td) (some pa) [] 0)
  else if s.homeHolds la then s.await
  else
  let s := (s.settle la ((s.block b).queue.length + 2)).recall la
  if 64 ≤ bs.length then s.slcFill la td ks (bytesLine bs) true false stream
  else if (s.slcWays b td).isEmpty && ((s.block b).slcFind la).isNone then s.memPartial la td ks off bs
  else
    let ((d, p), s) := s.homeData la td ks stream
    s.slcFill la td ks (linePut d off bs) true p stream

/-- A line is poisoned at its home, every copy being invalidated (R146, R229). -/
def State.poisonLine (s : State) (la td ks : Nat) : State :=
  (s.recall la).slcFill la td ks 0 true true false

/-! ### Coherent memory by bytes -/

/-- `n` bytes from an ordinary address, read by someone who keeps no copy; whether any line read is poisoned.
Boot SRAM and SLC-as-RAM have no home (R127, R128). -/
def State.readPa (s : State) (pa n td ks : Nat) : (List Byte × Bool) × State :=
  if inSram pa then ((s.sram.read (pa - 0xA001000000000) n, false), s)
  else if !s.boot.handed then ((s.slcRam.read pa n, false), s)
  else
    let first := min n (64 - pa % 64)
    let ((d, p), s) := s.crd (pa / 64) td ks
    let bs := lineBytes d (pa % 64) first
    if first = n then ((bs, p), s)
    else
      let ((d2, p2), s) := s.crd (pa / 64 + 1) td ks
      ((bs ++ lineBytes d2 0 (n - first), p || p2), s)

/-- Every reservation of a line that no core caches is lost (R70, R127, R128). -/
def State.loseResv (s : State) (la : Nat) : State :=
  { s with cores := s.cores.map (fun e => (e.1, if e.2.resv = some la then { e.2 with resv := none } else e.2)) }

/-- Writes bytes within one line at an ordinary address, keeping no copy. -/
def State.writePa (s : State) (pa td ks : Nat) (bs : List Byte) (stream : Bool) : State :=
  if inSram pa then ({ s with sram := s.sram.write (pa - 0xA001000000000) bs } : State).loseResv (pa / 64)
  else if !s.boot.handed then ({ s with slcRam := s.slcRam.write pa bs } : State).loseResv (pa / 64)
  else s.cwr pa td ks bs stream

/-! ### A core's own accesses to a line (R123 to R125, R141) -/

/-- The line enters the L2 for a core's access and the L1D for its loads: a hit in the L2, a recall from the
victim cache, a move from the side buffer, or a request to the home (R123, R130, R133, R141). -/
def State.acquire (s : State) (c la td ks : Nat) (excl tord : Bool) : State :=
  let k := s.core c
  let hit (l : CLine) : CLine := { l with age := if l.stream then 3 else 0 }
  let s :=
    match k.l2Find la with
    | some _ =>
      let touch (x : CLine) : CLine := if x.la == la then { x with age := 0, stream := false } else x
      s.setCore c { k with l2 := k.l2.map touch }
    | none =>
      match k.vcFind la with
      | some l => (s.setCore c { k with vc := k.vc.filter (fun x => x.la != la) }).l2Install c (hit l) (s.l2Ways c)
      | none =>
        match k.sbFind la with
        | some l => (s.setCore c { k with sb := k.sb.filter (fun x => x.la != la) }).l2Install c (hit l) (s.l2Ways c)
        | none =>
          if s.homeLost la || s.homeHolds la then s
          else s.request { HReq.reset with kind := if excl then .rdx else .rds, core := c, la, td, ks, tord } false
  match (s.core c).l2Find la with
  | some l =>
    if excl && decide (l.st = .s) then s.request { HReq.reset with kind := .upg, core := c, la, td, ks, tord } false else s
  | none => s

/-- A tag enters the L1D for a load hit (R123); with the caches disabled it holds nothing (R124). -/
def State.l1dTouch (s : State) (c la : Nat) : State :=
  s.modCore c (fun k => if k.l2en && k.l2.any (fun l => l.la == la) then { k with l1d := l1Fill k.l1d la [0, 1, 2, 3] false } else k)

/-- Data of a line for a core's load of cacheable memory: through its own arrays, or uncached while its caches
are disabled (R151), while a change of the line is due (R178), or where no L2 way could take the line. -/
def State.loadLine (s : State) (c la td ks : Nat) (tord : Bool) : (Line × Bool) × State :=
  let k := s.core c
  if !k.l2en || s.linePending la then s.crd la td ks
  else
    let s := (s.acquire c la td ks false tord).l1dTouch c la
    match (s.core c).l2Find la with
    | some l => ((l.data, l.poison), s)
    | none => s.crd la td ks

/-- A store of bytes within one line by a core's write to the L2 (R101, R125); a store into a poisoned line
leaves it poisoned unless it writes all 64 bytes (R267). -/
def State.storeLine (s : State) (c pa td ks : Nat) (bs : List Byte) (zero : Bool) : State :=
  let la := pa / 64
  let k := s.core c
  if !k.l2en || s.linePending la then s.cwr pa td ks bs false
  else
    let s :=
      if zero && (k.copy la).isNone && !s.homeLost la && !s.homeHolds la then s.request { HReq.reset with kind := .rdz, core := c, la, td, ks } false
      else s.acquire c la td ks true false
    match (s.core c).l2Find la with
    | some l =>
      s.modCore c (fun k => { k with l2 := k.l2.map (fun x => if x.la == la then
        { l with st := .m, data := linePut l.data (pa % 64) bs, poison := l.poison && decide (bs.length < 64) } else x) })
    | none => s.cwr pa td ks bs false

end Sys2Proof.Machine
end

