-- ==== Sys2Proof/Machine/Translate.lean ====
section
/-! DEFINITION. Translation: walks of one and two stages, the checks of a leaf, the TLBs and walk caches, and the
update of A and D (R283 to R292). A core's walks read tables through its own caches, those of an I/O translation
unit through the home (R285). -/

namespace Sys2Proof.Machine

/-! ### Entry format (R286, R287) -/

def pteV (e : Nat) : Bool := e.testBit 0
def pteLeaf (e : Nat) : Bool := e.testBit 1
def pteR (e : Nat) : Bool := e.testBit 2
def pteW (e : Nat) : Bool := e.testBit 3
def pteX (e : Nat) : Bool := e.testBit 4
def pteU (e : Nat) : Bool := e.testBit 5
def pteG (e : Nat) : Bool := e.testBit 6
def pteA (e : Nat) : Bool := e.testBit 7
def pteD (e : Nat) : Bool := e.testBit 8
def pteMT (e : Nat) : Nat := bits e 9 2
def pteTO (e : Nat) : Bool := e.testBit 11
def pteAddr (e : Nat) : Nat := bits e 12 40 * 4096
def pteKS (e : Nat) : Nat := bits e 52 2

/-- A table entry whose must-be-zero bits hold another value (R286). -/
def tableBad (e : Nat) : Bool := decide (bits e 2 10 ≠ 0) || decide (bits e 52 2 ≠ 0) || e.testBit 63

/-- A leaf entry that breaks the format at its level (R286, R287). -/
def leafBad (e lvl : Nat) (noUG : Bool) : Bool :=
  decide (lvl = 3) || e.testBit 63 || (pteW e && !pteR e) || decide (2 ≤ pteMT e) || (pteTO e && decide (pteMT e = 1))
    || decide (pteAddr e % 2 ^ (12 + 9 * lvl) ≠ 0) || (noUG && (pteU e || pteG e))

/-- The output address of a leaf for an input address (R285). -/
def leafOut (e lvl ia : Nat) : Nat := pteAddr e + ia % 2 ^ (12 + 9 * lvl)

def xf (kind lvl stage : Nat) : XFault := { kind, lvl, stage, walk := false, gpa := 0, poison := none }

/-! ### Table reads (R285) -/

/-- Eight bytes of a table: through a core's caches, or at the home. -/
def State.ptRead (s : State) (via : Option Nat) (pa td ks : Nat) : (Nat × Bool) × State :=
  match via with
  | some c =>
    if inDram pa && s.boot.handed then
      let ((d, p), s) := s.loadLine c (pa / 64) td ks false
      ((leNat (lineBytes d (pa % 64) 8), p), s)
    else
      let ((bs, p), s) := s.readPa pa 8 td ks
      ((leNat bs, p), s)
  | none =>
    let ((bs, p), s) := s.readPa pa 8 td ks
    ((leNat bs, p), s)

/-- A table may be read at an address: installed DRAM or boot SRAM (R285). -/
def State.tableOk (s : State) (pa : Nat) : Bool := decide (s.paFault pa = 0) && !inDevice pa

/-- The walk cache of a core or of a region's unit. -/
def State.wcacheOf (s : State) (via : Option Nat) (r : Nat) : List WalkEnt :=
  match via with
  | some c => (s.core c).wcache
  | none => (s.region r).iotu.wcache

def State.setWcache (s : State) (via : Option Nat) (r : Nat) (l : List WalkEnt) : State :=
  match via with
  | some c => s.modCore c (fun k => { k with wcache := l.take 64 })
  | none => s.modRegion r (fun x => { x with iotu := { x.iotu with wcache := l.take 32 } })

/-- Sets A, and D for a store, in the entries of the leaves used; an entry that holds them already is left as
it is (R290). -/
def State.setMarks (s : State) (ms : List Mark) : State :=
  ms.foldl (fun s m =>
    let ((bs, _), s') := s.readPa m.pa 8 m.td m.ks
    let e := leNat bs
    let e' := e ||| 128 ||| (if m.d then 256 else 0)
    if e' = e then s else s'.writePa m.pa m.td m.ks (natLe 8 e') false) s

/-- A table entry: from the walk cache where it is still held there (log 11), else read, with which the stage-2
leaves `ms` that translate the read take A (R290); a table entry that is read enters the walk cache (R292). -/
def State.tableEntry (s : State) (via : Option Nat) (r reg pa td ks : Nat) (ms : List Mark) : (Nat × Bool) × State :=
  let walkRead (s : State) : (Nat × Bool) × State :=
    let ((e, p), s) := (s.setMarks ms).ptRead via pa td ks
    if !p && pteV e && !pteLeaf e then
      ((e, p), s.setWcache via r ({ regime := reg, td, addr := pa, val := BitVec.ofNat 64 e } ::
        (s.wcacheOf via r).filter (fun w => !(w.regime == reg && w.td == td && w.addr == pa))))
    else ((e, p), s)
  match (s.wcacheOf via r).find? (fun w => w.regime == reg && w.td == td && w.addr == pa) with
  | some w =>
    let (i, s) := s.draw
    if Config.entryKept i then ((w.val.toNat, false), s) else walkRead s
  | none => walkRead s

/-! ### Walks (R285, R287) -/

/-- A walk over tables at physical addresses; `n` levels are left, the table at `tbl`. -/
def State.walkPhys (s : State) (via : Option Nat) (r reg td ks : Nat) (noUG : Bool) (stage ia : Nat) :
    Nat → Nat → Except XFault (Nat × Nat × Mark) × State
  | 0, _ => (.error (xf 3 0 stage), s)
  | lvl + 1, tbl =>
    let pa := tbl + 8 * bits ia (12 + 9 * lvl) 9
    if !s.tableOk pa then (.error (xf 5 lvl stage), s)
    else
      let ((e, p), s) := s.tableEntry via r reg pa td ks []
      if p then (.error { xf 0 lvl stage with poison := some pa }, s)
      else if !pteV e then (.error (xf 1 lvl stage), s)
      else if !pteLeaf e then
        if tableBad e || decide (lvl = 0) then (.error (xf 3 lvl stage), s)
        else s.walkPhys via r reg td ks noUG stage ia lvl (pteAddr e)
      else if leafBad e lvl noUG then (.error (xf 3 lvl stage), s)
      else (.ok (e, lvl, { pa, td, ks, d := false }), s)

/-- Stage 2: a guest-physical address through the tables at `root`, read in TD0 with selector 0 (R283, R284). -/
def State.stage2 (s : State) (via : Option Nat) (r root gpa : Nat) (a : Acc) : Except XFault (Nat × Nat × Mark) × State :=
  let at2 (x : Except XFault (Nat × Nat × Mark)) : Except XFault (Nat × Nat × Mark) :=
    match x with
    | .error f => .error { f with gpa := gpa % 2 ^ 48 }
    | .ok (e, lvl, m) =>
      if (a.r && !pteR e) || (a.w && !pteW e) || (a.x && !pteX e) then
        .error { xf 2 lvl 1 with gpa := gpa % 2 ^ 48 }
      else .ok (e, lvl, { m with d := a.w })
  if 2 ^ 48 ≤ gpa then (.error { xf 6 0 1 with gpa := gpa % 2 ^ 48 }, s)
  else
    let (x, s) := s.walkPhys via r 1 0 0 true 1 gpa 4 root
    (at2 x, s)

/-- A plain load, as table reads are checked in stage 2. -/
def accLoad : Acc := { kind := 0, r := true, w := false, x := false, atomic := false }
def accStore : Acc := { kind := 1, r := false, w := true, x := false, atomic := false }
def accFetch : Acc := { kind := 2, r := false, w := false, x := true, atomic := false }
def accRmw : Acc := { kind := 1, r := true, w := true, x := false, atomic := true }
def accLdx : Acc := { kind := 0, r := true, w := false, x := false, atomic := true }
def accStx : Acc := { kind := 1, r := false, w := true, x := false, atomic := true }

/-- A stage-1 walk of a guest: each table lies at a guest-physical address and is read through stage 2, in the
guest's domain with the selector of the stage-2 leaf; that leaf takes A with the read (R283, R288, R290). -/
def State.walkGuest (s : State) (via : Option Nat) (r td root2 ia : Nat) (noUG : Bool) :
    Nat → Nat → Except XFault (Nat × Nat × Mark) × State
  | 0, _ => (.error (xf 3 0 0), s)
  | lvl + 1, tbl =>
    let gpa := tbl + 8 * bits ia (12 + 9 * lvl) 9
    match s.stage2 via r root2 gpa accLoad with
    | (.error f, s) => (.error { f with walk := true }, s)
    | (.ok (e2, l2, m2), s) =>
      let pa := leafOut e2 l2 gpa
      if pteTO e2 || !s.tableOk pa then (.error (xf 5 lvl 0), s)
      else
        let ((e, p), s) := s.tableEntry via r 1 pa td (pteKS e2) [m2]
        if p then (.error { xf 0 lvl 0 with poison := some pa }, s)
        else if !pteV e then (.error (xf 1 lvl 0), s)
        else if !pteLeaf e then
          if tableBad e || decide (lvl = 0) then (.error (xf 3 lvl 0), s)
          else s.walkGuest via r td root2 ia noUG lvl (pteAddr e)
        else if leafBad e lvl noUG then (.error (xf 3 lvl 0), s)
        else (.ok (e, lvl, { pa, td, ks := pteKS e2, d := false }), s)

/-- The permission and user checks of a first-stage leaf (R289). -/
def leafRefuses (e : Nat) (a : Acc) (ucheck : Nat) : Bool :=
  (decide (ucheck = 1) && !pteU e) || (decide (ucheck = 2) && pteU e)
    || (a.r && !pteR e) || (a.w && !pteW e) || (a.x && !pteX e)

/-- Bits [63:48] of a virtual address equal bit 47 (R284). -/
def canonical (va : Nat) : Bool := decide (va / 2 ^ 47 = 0) || decide (va / 2 ^ 47 = 2 ^ 17 - 1)

/-- An access without translation (R283). -/
def untranslated (va : Nat) : Xlat :=
  { pa := va, ks := 0, r := true, w := true, x := true, usr := false, dev := inDevice va, to1 := false, to2 := false,
    glob := false, size := 12, lvl1 := 0, lvl2 := 0, gpa := 0, marks := [] }

/-- The walks of a regime for an address and the combination of their leaves (R283, R288, R289). Nothing is
marked accessed yet, except by table reads. -/
def State.walkAll (s : State) (via : Option Nat) (r : Nat) (g : Regime) (a : Acc) (va : Nat) :
    Except XFault Xlat × State :=
  match g.s1, g.s2 with
  | none, none => (.ok (untranslated va), s)
  | some root, none =>
    if !canonical va then (.error (xf 6 0 0), s)
    else
      match s.walkPhys via r g.num g.td g.wks g.noUG 0 va 4 root with
      | (.error f, s) => (.error f, s)
      | (.ok (e, lvl, m), s) =>
        if leafRefuses e a g.ucheck then (.error (xf 2 lvl 0), s)
        else
          (.ok { pa := leafOut e lvl va, ks := pteKS e, r := pteR e, w := pteW e, x := pteX e, usr := pteU e,
                 dev := decide (pteMT e = 1), to1 := pteTO e, to2 := false, glob := pteG e, size := 12 + 9 * lvl,
                 lvl1 := lvl, lvl2 := 0, gpa := 0, marks := [{ m with d := a.w }] }, s)
  | none, some root2 =>
    match s.stage2 via r root2 va a with
    | (.error f, s) => (.error f, s)
    | (.ok (e, lvl, m), s) =>
      (.ok { pa := leafOut e lvl va, ks := pteKS e, r := pteR e, w := pteW e, x := pteX e, usr := false,
             dev := decide (pteMT e = 1), to1 := false, to2 := pteTO e, glob := false, size := 12 + 9 * lvl,
             lvl1 := 0, lvl2 := lvl, gpa := va % 2 ^ 48, marks := [m] }, s)
  | some root, some root2 =>
    if !canonical va then (.error (xf 6 0 0), s)
    else
      match s.walkGuest via r g.td root2 va g.noUG 4 root with
      | (.error f, s) => (.error f, s)
      | (.ok (e1, l1, m1), s) =>
        if leafRefuses e1 a g.ucheck then (.error (xf 2 l1 0), s)
        else
          let gpa := leafOut e1 l1 va
          match s.stage2 via r root2 gpa a with
          | (.error f, s) => (.error f, s)
          | (.ok (e2, l2, m2), s) =>
            (.ok { pa := leafOut e2 l2 gpa, ks := pteKS e2, r := pteR e1 && pteR e2, w := pteW e1 && pteW e2,
                   x := pteX e1 && pteX e2, usr := pteU e1, dev := decide (pteMT e1 = 1) || decide (pteMT e2 = 1),
                   to1 := pteTO e1, to2 := pteTO e2, glob := pteG e1, size := 12 + 9 * min l1 l2, lvl1 := l1,
                   lvl2 := l2, gpa := gpa % 2 ^ 48, marks := [{ m1 with d := a.w }, m2] }, s)

/-! ### TLBs (R292) -/

def State.tlbOf (s : State) (via : Option Nat) (r : Nat) : List TlbEnt :=
  match via with
  | some c => (s.core c).tlb
  | none => (s.region r).iotu.tlb

def State.setTlb (s : State) (via : Option Nat) (r : Nat) (l : List TlbEnt) : State :=
  match via with
  | some c => s.modCore c (fun k => { k with tlb := l.take 3232 })
  | none => s.modRegion r (fun x => { x with iotu := { x.iotu with tlb := l.take 2048 } })

/-- An entry translates an input address for a regime (R292). -/
def TlbEnt.hits (e : TlbEnt) (g : Regime) (va : Nat) : Bool :=
  decide (e.regime = g.num) && decide (e.td = g.td) && (e.glob || decide (e.asid = g.asid))
    && decide (e.va = va / 2 ^ e.size * 2 ^ e.size)

/-- An entry permits an access without a new walk: permissions, the user rule, and D for a store
(R289, R290, log 11). -/
def TlbEnt.permits (e : TlbEnt) (g : Regime) (a : Acc) : Bool :=
  (!a.r || e.r) && (!a.w || (e.w && e.dirty)) && (!a.x || e.x)
    && (decide (g.ucheck ≠ 1) || e.usr) && (decide (g.ucheck ≠ 2) || !e.usr)

/-- A translation of an address in a regime: from a TLB entry that is still held and permits the access
(log 11), else by the walks. -/
def State.lookup (s : State) (via : Option Nat) (r : Nat) (g : Regime) (a : Acc) (va : Nat) :
    Except XFault Xlat × State :=
  if g.s1.isNone && g.s2.isNone then (.ok (untranslated va), s)
  else
    match (s.tlbOf via r).find? (fun e => e.hits g va && e.permits g a) with
    | none => s.walkAll via r g a va
    | some e =>
      let (i, s) := s.draw
      if Config.entryKept i then
        (.ok { pa := e.pa + va % 2 ^ e.size, ks := e.ks, r := e.r, w := e.w, x := e.x, usr := e.usr, dev := e.dev,
               to1 := e.to1, to2 := e.to2, glob := e.glob, size := e.size, lvl1 := e.lvl1, lvl2 := 0,
               gpa := if g.s2.isSome then e.gpa + va % 2 ^ e.size else 0, marks := [] }, s)
      else s.walkAll via r g a va

/-- A completed walk enters the TLB and sets A and D; a translation that came from the TLB has no leaf to mark
(R290, R292). -/
def State.commitXlat (s : State) (via : Option Nat) (r : Nat) (g : Regime) (a : Acc) (va : Nat) (x : Xlat) : State :=
  if x.marks.isEmpty then s
  else
    let s := s.setMarks x.marks
    let base := va / 2 ^ x.size * 2 ^ x.size
    let e : TlbEnt :=
      { regime := g.num, td := g.td, asid := g.asid, glob := x.glob, va := base, size := x.size
        pa := x.pa / 2 ^ x.size * 2 ^ x.size, r := x.r, w := x.w, x := x.x, usr := x.usr, dirty := a.w
        dev := x.dev, to1 := x.to1, to2 := x.to2, ks := x.ks, lvl1 := x.lvl1, gpa := x.gpa / 2 ^ x.size * 2 ^ x.size }
    s.setTlb via r (e :: (s.tlbOf via r).filter (fun o => !(o.hits g va)))

/-! ### The regimes of a core (R283) -/

/-- The regime of an access at the core's level (R283, R289). -/
def Core.regime (k : Core) (fetch : Bool) : Regime :=
  let satp1 : Option Nat := if k.satp.getLsbD 0 then some (fld k.satp 12 40 * 4096) else none
  let asid := fld k.satp 52 12
  match k.lvl with
  | .m => { num := 2, s1 := none, s2 := none, td := 0, wks := 0, asid := 0, noUG := true, ucheck := 0 }
  | .h =>
    { num := 2, s1 := if k.hatp.getLsbD 0 then some (fld k.hatp 12 40 * 4096) else none, s2 := none, td := 0, wks := 0,
      asid := 0, noUG := true, ucheck := 0 }
  | l =>
    { num := if k.guest then 1 else 0, s1 := satp1
      s2 := if k.guest then some (fld k.hgatp 12 40 * 4096) else none
      td := k.tdid, wks := fld k.satp 1 2, asid := asid, noUG := false
      ucheck := if l = .u then 1 else if fetch || !k.sum then 2 else 0 }

/-! ### Invalidation (R293, R294) -/

/-- Drops the entries of a TLB and walk cache that a TLB instruction names: by regime and domain, and for one
page where `page` is given. -/
def tlbDrop (l : List TlbEnt) (reg td : Nat) (page : Option Nat) : List TlbEnt :=
  l.filter (fun e => !(e.regime == reg && e.td == td &&
    (match page with | none => true | some va => e.va == va / 2 ^ e.size * 2 ^ e.size)))

def wcDrop (l : List WalkEnt) (reg td : Nat) : List WalkEnt := l.filter (fun e => !(e.regime == reg && e.td == td))

/-- The invalidation of one core's TLBs and walk cache. Stage-2 table entries are held in TD0 and go with the
guest regime (R293). -/
def Core.tlbInval (k : Core) (reg td : Nat) (page : Option Nat) : Core :=
  { k with tlb := tlbDrop k.tlb reg td page
           wcache := if reg = 1 then wcDrop (wcDrop k.wcache 1 td) 1 0 else wcDrop k.wcache reg td }

end Sys2Proof.Machine
end

