-- ==== Sys2Proof/Machine/Events.lean ====
section
/-! DEFINITION. Events: targets, taking an event, the event frame, the return and chaining, retirement, and the
boundary before an instruction (R41 to R50, R85, R92, R103 to R106, R120, R121). -/

namespace Sys2Proof.Machine

/-! ### Metered windows and breaks (R116, R119) -/

/-- A break: METER_BREAK is set, and the first since it was last clear records its cause and PC (R119). -/
def Core.brk (k : Core) (cause : Nat) (pc : W64) : Core :=
  if !k.meter then k
  else if k.mbreak then k
  else { k with mbreak := true, mcause := cause, mbpc := pc }

/-- The physical address of a data address inside the data window of a metered core (R116). -/
def Core.dataWindow (k : Core) (va : Nat) : Option Nat :=
  let n := fld k.mdpa 0 4
  if k.meter && decide (k.mdva.toNat ≤ va) && decide (va < k.mdva.toNat + n * 65536) then
    some (fld k.mdpa 16 36 * 65536 + (va - k.mdva.toNat))
  else none

/-- The physical address of a fetch address inside the code window of a metered core (R116). -/
def Core.codeWindow (k : Core) (va : Nat) : Option Nat :=
  let n := fld k.mcpa 0 2
  if k.meter && decide (k.mcva.toNat ≤ va) && decide (va < k.mcva.toNat + n * 16384) then
    some (fld k.mcpa 14 38 * 16384 + (va - k.mcva.toNat))
  else none

/-- Cycles pass: in metered mode exactly `met`; in normal mode a number that the model leaves open
(R61, log 12). -/
def State.cycles (s : State) (c met : Nat) : State :=
  let k := s.core c
  if k.meter then s.setCore c { k with cycle := k.cycle + BitVec.ofNat 64 met }
  else
    let (i, s) := s.draw
    s.setCore c { k with cycle := k.cycle + BitVec.ofNat 64 (Config.freeCycles i) }

/-! ### Exceptions (R34, R41, R291) -/

def mkExc (num : Nat) : Exc := { num, sub := 0, addr := 0, finfo := none, gpa := none, am := none }

/-- ILLEGAL (R41). -/
def illegal : Exc := mkExc 2

/-- FINFO (R291). -/
def finfoWord (kind lvl stage : Nat) (walk : Bool) (acc : Nat) : W64 :=
  BitVec.ofNat 64 (kind + 8 * lvl + 32 * stage + 64 * bit walk + 128 * acc)

/-- The event of a failed translation: POISON_USE for poison in a table, GUEST_FAULT for stage 2, otherwise that
of the access (R41, R285, R288, R291). -/
def excOf (f : XFault) (a : Acc) (va : W64) : Exc :=
  if f.poison.isSome then mkExc 17
  else
    let num := if f.stage = 1 then 14 else if a.kind = 0 then 4 else if a.kind = 1 then 5 else 1
    { num, sub := 0, addr := va, finfo := some (finfoWord f.kind f.lvl f.stage f.walk a.kind)
      gpa := if f.stage = 1 then some (BitVec.ofNat 64 f.gpa) else none, am := none }

/-- ACCESS_FAULT (R27, R28, R34). -/
def accessFault (sub : Nat) (va : W64) : Exc := { mkExc 6 with sub := sub, addr := va }

/-- The target level of a synchronous event (R42). -/
def Core.target (k : Core) (n : Nat) : Lvl :=
  let t : Lvl := if k.mdeleg.getLsbD n then (if k.hdeleg.getLsbD n then .s else .h) else .m
  if t.num < k.lvl.num then k.lvl else t

def Lvl.up : Lvl → Lvl
  | .u => .s | .s => .h | _ => .m

/-! ### Detached long operations (R105, R106) -/

/-- Delivers a result to its destination (R105, R163). -/
def Core.deliver (k : Core) (d : LDest) (r : LRes) : Core :=
  match d, r with
  | .g i, .g v => { k with g := k.g.set i v }
  | .v i, .v v => { k with v := k.v.set i v }
  | .v i, .lane l q ix x =>
    let old := k.v[i]
    let nv : W256 := if l then q ++ old.extractLsb' 0 128 else old.extractLsb' 128 128 ++ q
    let a := k.acc[x]
    { k with v := k.v.set i nv, acc := k.acc.set x { a with ix := a.ix || ix } }
  | .a x, .a v => { k with acc := k.acc.set x v }
  | _, _ => k

/-- One outstanding operation completes: its flags are set, its result is delivered, or it has failed and IMPEND
is set (R50, R67, R105). -/
def Core.completeLong (k : Core) (o : LongOp) : Core × Option LongOp :=
  let k := { k with fpcsr := k.fpcsr ||| BitVec.ofNat 64 o.flags }
  match o.exc with
  | none => (k.deliver o.dest o.res, none)
  | some _ => ({ k with impend := true }, some { o with failed := true })

/-- Completes the outstanding operations that `p` selects. -/
def Core.completeWhere (k : Core) (p : LongOp → Bool) : Core :=
  let (k', rest) := k.longs.foldl (fun (acc : Core × List LongOp) o =>
    if o.failed || !p o then (acc.1, acc.2 ++ [o])
    else
      match acc.1.completeLong o with
      | (k, none) => (k, acc.2)
      | (k, some o) => (k, acc.2 ++ [o])) (k, [])
  { k' with longs := rest }

/-- The oldest operation that has failed and is not yet delivered (R105). -/
def Core.failedLong (k : Core) : Option LongOp := k.longs.find? (·.failed)

/-- IMPRECISE for a failed operation (R50, R161). -/
def impreciseExc (o : LongOp) : Exc :=
  let e := o.exc.getD (mkExc 0)
  { mkExc 18 with sub := e.num, addr := o.pc, am := e.am }

/-- The target of IMPRECISE is that of the original cause (R41). -/
def Core.targetOf (k : Core) (e : Exc) : Lvl := if e.num = 18 then k.target e.sub else k.target e.num

/-! ### Stores that have retired (R101) -/

/-- The store queue gives up its oldest store to the L1D and L2 (R101). Stores to SLC-as-RAM and boot SRAM go
there. The TO stores are handled by the Noon operations. -/
def State.writeStore (s : State) (c : Nat) (e : SqEntry) : State :=
  if inDram e.pa && s.boot.handed then s.storeLine c e.pa e.td e.ks e.bytes e.zero
  else (s.writePa e.pa e.td e.ks e.bytes false).modCore c (fun k => { k with resv := (s.core c).resv })

/-- The check of a store against fetched instructions: a line in the line buffer is discarded, and with it the
captured loop body; a metered store then takes 18 cc more (R61, R87, R111). -/
def State.flushFetch (s : State) (c pa : Nat) : State :=
  let k := s.core c
  if k.lineBuf.contains (pa / 64) then
    s.setCore c { k with lineBuf := [], loopBuf := none, cycle := if k.meter then k.cycle + 18 else k.cycle }
  else s

/-! ### The event frame (R45, R46) -/

/-- The failure of a frame access, as FRAME_FAULT records it (R291). -/
def frameFault (f : XFault) (acc : Nat) (va : Nat) : Exc :=
  { mkExc 15 with addr := BitVec.ofNat 64 va, finfo := some (finfoWord f.kind f.lvl f.stage f.walk acc)
                  gpa := if f.stage = 1 then some (BitVec.ofNat 64 f.gpa) else none }

/-- A 64-byte line of a frame: its physical address and selector. A frame address is physical at H and M and at
S outside a guest, guest-physical at S in a guest (R46); a metered core's window comes first (R116). -/
def State.frameLine (s : State) (c : Nat) (l : Lvl) (a : Acc) (va : Nat) : Except Exc CoreAcc × State :=
  let k := s.core c
  match k.dataWindow va with
  | some pa =>
    if s.paFault pa ≠ 0 ∨ inDevice pa then (.error (frameFault (xf 5 0 0) a.kind va), s)
    else if a.w = true ∧ k.mdpa.getLsbD 4 = false then (.error (frameFault (xf 2 0 0) a.kind va), s)
    else (.ok { pa, ks := 0, dev := false, tord := false, win := true }, s)
  | none =>
    let phys (s : State) (pa ks lvl stage gpa : Nat) (tord : Bool) : Except Exc CoreAcc × State :=
      if inDevice pa || tord then
        (.error (frameFault { xf 4 lvl stage with gpa := gpa } a.kind va), s)
      else if s.paFault pa ≠ 0 then (.error (frameFault { xf 5 lvl 0 with gpa := gpa } a.kind va), s)
      else (.ok { pa, ks, dev := false, tord := false, win := false }, s)
    if l = .s ∧ k.guest = true then
      if !k.hgatp.getLsbD 0 then
        (.error (frameFault { xf 7 0 1 with gpa := va % 2 ^ 48 } a.kind va), s)
      else
        match s.stage2 (some c) 0 (fld k.hgatp 12 40 * 4096) va a with
        | (.error f, s) => (.error (frameFault f a.kind va), s)
        | (.ok (e, lvl, m), s) =>
          let pa := leafOut e lvl va
          let s' := if inDevice pa || pteTO e then s else s.setMarks [m]
          phys s' pa (pteKS e) lvl (if pteTO e then 1 else 0) (va % 2 ^ 48) (pteTO e || decide (pteMT e = 1))
    else phys s va 0 0 0 0 false

/-- The three lines of a frame, all checked before any is used (R45, R46, R72). -/
def State.frameLines (s : State) (c : Nat) (l : Lvl) (a : Acc) (va : Nat) : Except Exc (List CoreAcc) × State :=
  match s.frameLine c l a va with
  | (.error e, s) => (.error e, s)
  | (.ok x, s) =>
    match s.frameLine c l a (va + 64) with
    | (.error e, s) => (.error e, s)
    | (.ok y, s) =>
      match s.frameLine c l a (va + 128) with
      | (.error e, s) => (.error e, s)
      | (.ok z, s) => (.ok [x, y, z], s)

/-- The 192 bytes of a frame (R45). -/
def frameBytes (k : Core) (pc cause addr : W64) : List Byte :=
  natLe 8 pc.toNat ++ natLe 8 k.status.toNat ++ natLe 8 cause.toNat ++ natLe 8 addr.toNat
    ++ ((k.g.toList.take 16).map (fun w => natLe 8 w.toNat)).flatten ++ List.replicate 32 0

/-- CAUSE (R34). -/
def causeWord (num sub : Nat) (chained : Bool) : W64 := BitVec.ofNat 64 (num + 256 * sub + 65536 * bit chained)

/-- A core stops issuing because a frame at M cannot be written or read; a contained-uncorrected record names it
(R46, log 15). -/
def State.stopAtM (s : State) (c : Nat) : State :=
  (s.modCore c (fun k => { k with run := .stopped })).record
    (recAt (srcCore c) 0 3 (openType 0 1) (some (s.core c).td) none [] 0)

/-- The stores of a frame enter the store queue in order (R46, R101). -/
def Core.pushStores (k : Core) (es : List SqEntry) : Core := { k with sq := k.sq ++ es }

/-- Event entry at level `tgt` (R45): the frame is written, CAUSE, ADDR, FINFO, GPA and STATUS follow, and the
PC goes to the table entry. A frame that does not fit or cannot be written raises FRAME_OVERFLOW or FRAME_FAULT
one level up, with nothing of the original event changed; at M the core stops (R46). -/
def State.enter (s : State) (c : Nat) : Nat → Exc → Bool → Lvl → W64 → State
  | 0, _, _, _, _ => s.stopAtM c
  | n + 1, e, async, tgt, pcFrame =>
    let k := s.core c
    let b := k.bank tgt
    let fail (s : State) (e : Exc) : State :=
      if tgt = .m then s.stopAtM c else State.enter s c n e false tgt.up k.pc
    if b.frame.toNat < b.lim.toNat + 192 then fail s (mkExc 16)
    else
      let base := b.frame.toNat - 192
      match s.frameLines c tgt accStore base with
      | (.error f, s) => fail s f
      | (.ok ls, s) =>
        let k := s.core c
        let cause := causeWord e.num e.sub false
        let bytes := frameBytes k pcFrame cause e.addr
        let td := k.tdAt tgt
        let sts : List SqEntry := (List.range 3).map (fun i =>
          { pa := (ls.getD i { pa := 0, ks := 0, dev := false, tord := false, win := false }).pa
            bytes := (bytes.drop (64 * i)).take 64, td := td
            ks := (ls.getD i { pa := 0, ks := 0, dev := false, tord := false, win := false }).ks
            zero := false, tord := none, pc := k.pc, old := false })
        let lv' := tgt.num
        let k1 := k.pushStores sts
        let b' : EvBank := { b with
          frame := BitVec.ofNat 64 base, cause := cause, addr := e.addr
          finfo := e.finfo.getD 0, gpa := if tgt = .s then 0 else e.gpa.getD 0 }
        let k2 := { k1.setBank tgt b' with
          evlvl := if async then e.num / 32 else if k.lvl.num = lv' then k.evlvl else 0
          lvl := tgt, ie := false, guest := if lv' ≤ 1 then k.guest else false
          pc := b.base + BitVec.ofNat 64 (32 * e.num)
          resv := none, loopBuf := none, lineBuf := [], run := .run, half := none, strDone := 0, strKey := none
          pend := if async then k.pend.filter (· != pendKey tgt e.num) else k.pend
          impend := if e.num = 18 then false else k.impend
          longs := if e.num = 18 then k.longs.filter (fun o => !o.failed) else k.longs
          amtrap := match e.am with | some w => w | none => k.amtrap }
        let k3 := if !ls.all (·.win) then k2.brk 4 k.pc
          else if ls.any (fun l => k.lost.contains (l.pa / 64)) then k2.brk 3 k.pc else k2
        (s.setCore c k3).cycles c 24

/-- Takes an event: every detached operation completes first, and if one has failed IMPRECISE is taken in its
place; an asynchronous event then stays pending (R45, R105, R106). -/
def State.takeEvent (s : State) (c : Nat) (e : Exc) (async : Bool) (tgt : Lvl) (pcFrame : W64) : State :=
  let s := s.modCore c (fun k => k.completeWhere (fun _ => true))
  let k := s.core c
  match k.failedLong with
  | some o =>
    if e.num = 18 then s.enter c 4 e false tgt pcFrame
    else
      let e' := impreciseExc o
      s.enter c 4 e' false (k.targetOf e') k.pc
  | none => s.enter c 4 e async tgt pcFrame

/-- Raises a precise synchronous event: the frame names the instruction itself (R45, R49). -/
def State.raise (s : State) (c : Nat) (e : Exc) : State :=
  let k := s.core c
  s.takeEvent c e false (k.targetOf e) k.pc

/-! ### Asynchronous events (R43) -/

/-- A pending bit is takeable (R43). -/
def Core.takeable (k : Core) (key : Nat) : Bool :=
  let l := key / 256
  let n := key % 256
  decide (k.lvl.num < l) || (decide (k.lvl.num = l) && k.ie && decide (k.evlvl < n / 32))

/-- The event taken first among keys: the highest number, and of equal numbers the highest level (R43). -/
def bestKey (l : List Nat) : Option Nat :=
  l.foldl (fun (b : Option Nat) key =>
    match b with
    | none => some key
    | some o => if o % 256 < key % 256 ∨ (o % 256 = key % 256 ∧ o / 256 < key / 256) then some key else b) none

/-- The asynchronous event that the boundary takes, if any (R43). -/
def Core.asyncPick (k : Core) : Option Nat := bestKey (k.pend.filter k.takeable)

/-- Takes an asynchronous event at the boundary before an instruction (R43, R45). -/
def State.takeAsync (s : State) (c key : Nat) : State :=
  s.takeEvent c (mkExc (key % 256)) true (Lvl.ofNum (key / 256)) (s.core c).pc

/-! ### Retirement (R85, R103) -/

/-- LS and LE bound a loop body (R85). -/
def Core.loopValid (k : Core) : Bool :=
  decide (k.ls.toNat % 4 = 0) && decide (k.le.toNat % 4 = 0) && decide (k.ls.toNat ≤ k.le.toNat)
    && decide (k.le.toNat - k.ls.toNat ≤ 252)

/-- The retirement rule of R85 for an instruction at the PC whose own next PC is `next`; `taken` says that it is
a taken branch or jump. -/
def Core.loopRetire (k : Core) (taken : Bool) (next : W64) : Core :=
  if k.lc = 0 ∨ k.loopValid = false then { k with pc := next }
  else if k.pc = k.le ∧ taken = false then
    { k with lc := k.lc - 1, pc := if k.lc - 1 ≠ 0 then k.ls else next }
  else if k.ls.toNat ≤ k.pc.toNat ∧ k.pc.toNat ≤ k.le.toNat ∧ taken = true
      ∧ ¬ (k.ls.toNat ≤ next.toNat ∧ next.toNat ≤ k.le.toNat) then
    { k with lc := 0, pc := next }
  else { k with pc := next }

/-- An instruction retires: INSTRET counts it and the loop rule gives the next PC (R34, R85, R103). -/
def State.retireNow (s : State) (c : Nat) (taken : Bool) (next : W64) : State :=
  s.modCore c (fun k => { k.loopRetire taken next with
    instret := k.instret + 1, half := none, strDone := 0, strKey := none })

/-- An instruction retires and its cycles pass (R61). -/
def State.retire (s : State) (c met : Nat) (taken : Bool) (next : W64) : State :=
  (s.retireNow c taken next).cycles c met

/-- The work of an instruction ends (R45, R49, R103). A faulting instruction takes its full Met (R61). -/
def State.finish (c met : Nat) : Done → State
  | .ok s => s.retire c met false ((s.core c).pc + 4)
  | .jump s t => s.retire c met true t
  | .exc s e => (s.raise c e).cycles c met
  | .call s e =>
    let k := s.core c
    let pcNow := k.pc
    let k' := { k.loopRetire false (k.pc + 4) with instret := k.instret + 1 }
    let frame := k'.pc
    ((s.setCore c { k' with pc := pcNow }).takeEvent c e false (k'.targetOf e) frame).cycles c met
  | .stay s => s

/-! ### Fetch (R27, R88, R95, R116, R285) -/

/-- A line is poisoned where a fetch or a refused read would find it: in the core's own copy, in the slice, or in
memory (R267). -/
def State.linePoisoned (s : State) (c la : Nat) : Bool :=
  match (s.core c).copy la with
  | some l => l.poison
  | none =>
    match (s.block (s.home la)).slcFind la with
    | some l => l.poison
    | none => s.poison.contains la

/-- The fetch of the instruction at the PC: its translation and the refusals of a fetch. The line buffer then
holds its line and the next (R88, R95, R267, R291). -/
def State.fetchCheck (s : State) (c : Nat) : Except Exc Unit × State :=
  let k := s.core c
  let va := k.pc.toNat
  let buf (s : State) (pa : Nat) : Except Exc Unit × State :=
    if inDram pa && s.boot.handed && ((s.core c).copy (pa / 64)).isNone && s.homeHolds (pa / 64) then (.ok (), s.await)
    else if inDram pa && s.linePoisoned c (pa / 64) then (.error (mkExc 17), s.poisonRecord c k.td pa)
    else (.ok (), s.modCore c (fun k => { k with lineBuf := [pa / 64, pa / 64 + 1] }))
  if va % 4 ≠ 0 then (.error { mkExc 0 with addr := k.pc }, s)
  else
    match k.codeWindow va with
    | some pa =>
      let s := if k.lost.contains (pa / 64) then
          s.modCore c (fun k => { k.brk 3 k.pc with lost := k.lost.filter (· != pa / 64)
                                                    l1i := l1Fill k.l1i (pa / 64) (List.range 4) true })
        else s
      buf s pa
    | none =>
      let s := s.modCore c (fun k => k.brk 2 k.pc)
      let g := k.regime true
      if k.guest && decide (k.lvl.num ≤ 1) && !k.hgatp.getLsbD 0 then
        (.error (excOf { xf 7 0 1 with gpa := va % 2 ^ 48 } accFetch k.pc), s)
      else
        match s.lookup (some c) 0 g accFetch va with
        | (.error f, s) =>
          (.error (excOf f accFetch k.pc), match f.poison with | some pa => s.poisonRecord c k.td pa | none => s)
        | (.ok x, s) =>
          if inDevice x.pa then (.error (excOf (xf 4 x.lvl1 0) accFetch k.pc), s)
          else if x.to1 then (.error (excOf (xf 4 x.lvl1 0) accFetch k.pc), s)
          else if x.to2 then (.error (excOf { xf 4 x.lvl2 1 with gpa := x.gpa } accFetch k.pc), s)
          else
            let s := s.commitXlat (some c) 0 g accFetch va x
            if s.paFault x.pa ≠ 0 then (.error (accessFault (s.paFault x.pa) k.pc), s)
            else buf s x.pa

/-! ### The boundary before an instruction (R43, R92, R105) -/

/-- What an instruction needs of the outstanding long operations. -/
def needsLong (ser : Bool) (reads : List LDest) (o : LongOp) : Bool := ser || (reads.contains o.dest && o.dest != .none)

/-- The instruction of a core (log 1, 2, 14): a core that issues nothing stays as it is; the boundary takes an
asynchronous event first, unless the instruction is part way through its accesses (R48, R75); results the instruction reads arrive, or IMPRECISE is taken; the fetch is checked; the
instruction's own work follows, and it retires or raises its event. `ser` marks what waits for every long
operation, `writes` the registers it writes, and `w` the wait that the instruction goes on with. -/
def State.issueAs (s : State) (c met : Nat) (w : RunState) (ser : Bool) (reads writes : List LDest)
    (body : State → Done) : State := s.orWait (
  if !s.coreLive c || decide ((s.core c).run = .dev) then s
  else
    match (if (s.core c).half.isSome then none else (s.core c).asyncPick) with
    | some key => s.takeAsync c key
    | none =>
      if (s.core c).run ≠ .run ∧ (s.core c).run ≠ w then s else
      let s := s.modCore c (fun k => k.completeWhere (needsLong ser reads))
      match (s.core c).longs.find? (fun o => o.failed && needsLong ser reads o) with
      | some _ =>
        match (s.core c).failedLong with
        | some o =>
          let e := impreciseExc o
          s.takeEvent c e false ((s.core c).targetOf e) (s.core c).pc
        | none => s
      | none =>
        match s.fetchCheck c with
        | (.error e, s) => State.finish c met (.exc s e)
        | (.ok _, s) =>
          let s := s.modCore c (fun k => { k with
            longs := k.longs.map (fun o => if writes.contains o.dest && o.dest != .none && !o.failed then { o with dest := .none } else o) })
          State.finish c met (body s))

/-- The instruction of a core that does not wait. -/
def State.issue (s : State) (c met : Nat) (ser : Bool) (reads writes : List LDest) (body : State → Done) : State :=
  s.issueAs c met .run ser reads writes body

/-- An instruction of registers only. -/
def State.compute (s : State) (c met : Nat) (reads writes : List LDest) (f : Core → Core) : State :=
  s.issue c met false reads writes (fun s => .ok (s.modCore c f))

/-- An ALU operation: rd takes a value computed from the core's registers (R62). -/
def State.alu (s : State) (c met : Nat) (rd : Reg) (reads : List LDest) (f : Core → W64) : State :=
  s.compute c met reads [.g rd] (fun k => { k with g := k.g.set rd (f k) })

/-- The instructions that a level below `l` may not execute raise ILLEGAL there (R90). -/
def atLeast (c : Nat) (l : Lvl) (body : State → Done) (s : State) : Done :=
  if (s.core c).lvl.num < l.num then .exc s illegal else body s

/-! ### The return (R38, R47) -/

/-- The STATUS fields that a return restores; GUEST with PL H or M is taken as 0 (R38). -/
def Core.restoreStatus (k : Core) (w : Nat) : Core :=
  let pl := w % 4
  { k with lvl := Lvl.ofNum pl, ie := w.testBit 2, guest := w.testBit 3 && decide (pl ≤ 1), sum := w.testBit 4
           evlvl := bits w 8 3 }

/-- The event with which a return at level `l` chains under the STATUS of the frame (R47, log 23). -/
def Core.chainPick (k : Core) (l : Lvl) (w : Nat) : Option Nat :=
  if w.testBit 2 then
    bestKey (k.pend.filter (fun key => decide (key / 256 = l.num) && decide (bits w 8 3 < key % 256 / 32)))
  else none

/-- The bytes of a frame, read as ordinary loads after the store queue has given up what it holds, and an address that
was found poisoned. -/
def State.readFrame (s : State) (c td : Nat) (ls : List CoreAcc) : (List Byte × Option Nat) × State :=
  ls.foldl (fun (acc : (List Byte × Option Nat) × State) a =>
    let ((bs, bad), s) := acc
    if inDram a.pa && s.boot.handed then
      let ((d, p), s) := s.loadLine c (a.pa / 64) td a.ks false
      ((bs ++ lineBytes d 0 64, if p && bad.isNone then some a.pa else bad), s)
    else
      let ((b, p), s) := s.readPa a.pa 64 td a.ks
      ((bs ++ b, if p && bad.isNone then some a.pa else bad), s)) (([], none), s)

end Sys2Proof.Machine
end

