-- ==== Sys2Proof/Machine/Integer.lean ====
section
/-! DEFINITION. Integer register operations, immediate operations, multiply and divide (R63 to R65). -/

namespace Sys2Proof.Machine

/-! ### Bit counts -/

/-- Leading zeros of a 64-bit word, 64 for 0 (R63). -/
def clz64 (w : W64) : Nat := 64 - (if w = 0 then 0 else w.toNat.log2 + 1)

/-- Trailing zeros of a 64-bit word, 64 for 0 (R63). -/
def ctz64 (w : W64) : Nat := ((List.range 64).find? (fun i => w.getLsbD i)).getD 64

/-- Ones of a 64-bit word (R63). -/
def pop64 (w : W64) : Nat := (List.range 64).foldl (fun a i => a + bit (w.getLsbD i)) 0

/-- The word with its byte order reversed (R63). -/
def bswap64 (w : W64) : W64 := BitVec.ofNat 64 (leNat (natLe 8 w.toNat).reverse)

/-- The shift amount rb[5:0] (R63). -/
def sh6 (w : W64) : Nat := w.toNat % 64

/-- A 16-bit immediate, sign-extended (R57). -/
def immS (i : BitVec 16) : W64 := i.signExtend 64
/-- A 16-bit immediate, zero-extended. -/
def immZ (i : BitVec 16) : W64 := i.setWidth 64

/-- A Bool as a register value. -/
def flag (b : Bool) : W64 := if b then 1 else 0

/-- Signed division truncated toward zero; a zero divisor gives all ones, the most negative number by -1 itself
(R65). -/
def divSigned (a b : W64) : W64 := if b = 0 then BitVec.allOnes 64 else a.sdiv b

/-- The remainder of `divSigned`; a zero divisor gives `a`, the most negative number by -1 gives 0 (R65). -/
def remSigned (a b : W64) : W64 := if b = 0 then a else a - (a.sdiv b) * b

def divUnsigned (a b : W64) : W64 := if b = 0 then BitVec.allOnes 64 else a / b
def remUnsigned (a b : W64) : W64 := if b = 0 then a else a % b

/-- High 64 bits of the signed product (R65). -/
def mulHigh (a b : W64) : W64 := (a.signExtend 128 * b.signExtend 128).extractLsb' 64 64
/-- High 64 bits of the unsigned product (R65). -/
def mulHighU (a b : W64) : W64 := (a.setWidth 128 * b.setWidth 128).extractLsb' 64 64

/-- A register operation of two sources (R63). -/
def State.aluRR (s : State) (c met : Nat) (rd ra rb : Reg) (f : W64 → W64 → W64) : State :=
  s.alu c met rd [.g ra, .g rb] (fun k => f k.g[ra] k.g[rb])

/-- A register operation of one source (R63, R64). -/
def State.aluR (s : State) (c met : Nat) (rd ra : Reg) (f : W64 → W64) : State :=
  s.alu c met rd [.g ra] (fun k => f k.g[ra])

/-! ### Long operations (R104, R105) -/

/-- A long operation of a core that runs detached: LONGOP = 0 outside metered mode (R61, R105). -/
def Core.detached (k : Core) : Bool := !k.longop && !k.meter

/-- A long operation with its result, flags and exception known: attached, it writes its destination or raises
its event precisely; detached, it retires and its result stays outstanding, a ninth waiting for the oldest
(R67, R104, R105). -/
def longDone (c : Nat) (d : LDest) (r : LRes) (flags : Nat) (exc : Option Exc) (s : State) : Done :=
  let k := s.core c
  if k.detached then
    let k := if 8 ≤ k.longs.length then
        k.completeWhere (fun o => decide (some o = k.longs.head?)) else k
    let o : LongOp := { pc := k.pc, dest := d, res := r, flags := flags, exc := exc, failed := false }
    .ok (s.setCore c { k with longs := k.longs ++ [o] })
  else
    let k := { k with fpcsr := k.fpcsr ||| BitVec.ofNat 64 flags }
    match exc with
    | some e => .exc (s.setCore c k) e
    | none => .ok (s.setCore c (k.deliver d r))

/-- DIV, DIVU, REM and REMU raise nothing (R65). -/
def State.divide (s : State) (c : Nat) (rd ra rb : Reg) (f : W64 → W64 → W64) : State :=
  s.issue c 42 false [.g ra, .g rb] [.g rd] (fun s =>
    longDone c (.g rd) (.g (f (s.core c).g[ra] (s.core c).g[rb])) 0 none s)

/-! ### Meanings -/

/-- ADD: rd ← ra + rb (R63). -/
def execAdd (c : Nat) (rd ra rb : Reg) (s : State) : Host.Outcome State Fault Refusal :=
  .next (s.aluRR c 1 rd ra rb (fun a b => a + b))

/-- SUB: rd ← ra - rb (R63). -/
def execSub (c : Nat) (rd ra rb : Reg) (s : State) : Host.Outcome State Fault Refusal :=
  .next (s.aluRR c 1 rd ra rb (fun a b => a - b))

/-- AND: rd ← ra AND rb (R63). -/
def execAndR (c : Nat) (rd ra rb : Reg) (s : State) : Host.Outcome State Fault Refusal :=
  .next (s.aluRR c 1 rd ra rb (fun a b => a &&& b))

/-- OR: rd ← ra OR rb (R63). -/
def execOrR (c : Nat) (rd ra rb : Reg) (s : State) : Host.Outcome State Fault Refusal :=
  .next (s.aluRR c 1 rd ra rb (fun a b => a ||| b))

/-- XOR: rd ← ra XOR rb (R63). -/
def execXorR (c : Nat) (rd ra rb : Reg) (s : State) : Host.Outcome State Fault Refusal :=
  .next (s.aluRR c 1 rd ra rb (fun a b => a ^^^ b))

/-- ANDN: rd ← ra AND NOT rb (R63). -/
def execAndn (c : Nat) (rd ra rb : Reg) (s : State) : Host.Outcome State Fault Refusal :=
  .next (s.aluRR c 1 rd ra rb (fun a b => a &&& ~~~b))

/-- SLL: rd ← ra shifted left by rb[5:0] (R63). -/
def execSll (c : Nat) (rd ra rb : Reg) (s : State) : Host.Outcome State Fault Refusal :=
  .next (s.aluRR c 1 rd ra rb (fun a b => a <<< sh6 b))

/-- SRL: rd ← ra shifted right logically (R63). -/
def execSrl (c : Nat) (rd ra rb : Reg) (s : State) : Host.Outcome State Fault Refusal :=
  .next (s.aluRR c 1 rd ra rb (fun a b => a >>> sh6 b))

/-- SRA: rd ← ra shifted right arithmetically (R63). -/
def execSra (c : Nat) (rd ra rb : Reg) (s : State) : Host.Outcome State Fault Refusal :=
  .next (s.aluRR c 1 rd ra rb (fun a b => a.sshiftRight (sh6 b)))

/-- ROR: rd ← ra rotated right (R63). -/
def execRor (c : Nat) (rd ra rb : Reg) (s : State) : Host.Outcome State Fault Refusal :=
  .next (s.aluRR c 1 rd ra rb (fun a b => a.rotateRight (sh6 b)))

/-- SLT: rd ← 1 if ra < rb signed (R63). -/
def execSlt (c : Nat) (rd ra rb : Reg) (s : State) : Host.Outcome State Fault Refusal :=
  .next (s.aluRR c 1 rd ra rb (fun a b => flag (a.slt b)))

/-- SLTU: rd ← 1 if ra < rb unsigned (R63). -/
def execSltu (c : Nat) (rd ra rb : Reg) (s : State) : Host.Outcome State Fault Refusal :=
  .next (s.aluRR c 1 rd ra rb (fun a b => flag (a.ult b)))

/-- MIN: signed minimum (R63). -/
def execMinS (c : Nat) (rd ra rb : Reg) (s : State) : Host.Outcome State Fault Refusal :=
  .next (s.aluRR c 1 rd ra rb (fun a b => if a.slt b then a else b))

/-- MAX: signed maximum (R63). -/
def execMaxS (c : Nat) (rd ra rb : Reg) (s : State) : Host.Outcome State Fault Refusal :=
  .next (s.aluRR c 1 rd ra rb (fun a b => if a.slt b then b else a))

/-- MINU: unsigned minimum (R63). -/
def execMinu (c : Nat) (rd ra rb : Reg) (s : State) : Host.Outcome State Fault Refusal :=
  .next (s.aluRR c 1 rd ra rb (fun a b => if a.ult b then a else b))

/-- MAXU: unsigned maximum (R63). -/
def execMaxu (c : Nat) (rd ra rb : Reg) (s : State) : Host.Outcome State Fault Refusal :=
  .next (s.aluRR c 1 rd ra rb (fun a b => if a.ult b then b else a))

/-- SEL: rd ← ra if the old rd is not 0, else rb (R63). -/
def execSel (c : Nat) (rd ra rb : Reg) (s : State) : Host.Outcome State Fault Refusal :=
  .next (s.alu c 1 rd [.g rd, .g ra, .g rb] (fun k => if k.g[rd] ≠ 0 then k.g[ra] else k.g[rb]))

/-- CLZ (R63). -/
def execClz (c : Nat) (rd ra : Reg) (s : State) : Host.Outcome State Fault Refusal :=
  .next (s.aluR c 2 rd ra (fun a => BitVec.ofNat 64 (clz64 a)))

/-- CTZ (R63). -/
def execCtz (c : Nat) (rd ra : Reg) (s : State) : Host.Outcome State Fault Refusal :=
  .next (s.aluR c 2 rd ra (fun a => BitVec.ofNat 64 (ctz64 a)))

/-- POP (R63). -/
def execPop (c : Nat) (rd ra : Reg) (s : State) : Host.Outcome State Fault Refusal :=
  .next (s.aluR c 2 rd ra (fun a => BitVec.ofNat 64 (pop64 a)))

/-- BSWAP (R63). -/
def execBswap (c : Nat) (rd ra : Reg) (s : State) : Host.Outcome State Fault Refusal :=
  .next (s.aluR c 2 rd ra (fun a => bswap64 a))

/-- ADDI (R64). -/
def execAddi (c : Nat) (rd ra : Reg) (imm : BitVec 16) (s : State) : Host.Outcome State Fault Refusal :=
  .next (s.aluR c 1 rd ra (fun a => a + immS imm))

/-- ANDI (R64). -/
def execAndi (c : Nat) (rd ra : Reg) (imm : BitVec 16) (s : State) : Host.Outcome State Fault Refusal :=
  .next (s.aluR c 1 rd ra (fun a => a &&& immZ imm))

/-- ORI (R64). -/
def execOri (c : Nat) (rd ra : Reg) (imm : BitVec 16) (s : State) : Host.Outcome State Fault Refusal :=
  .next (s.aluR c 1 rd ra (fun a => a ||| immZ imm))

/-- XORI (R64). -/
def execXori (c : Nat) (rd ra : Reg) (imm : BitVec 16) (s : State) : Host.Outcome State Fault Refusal :=
  .next (s.aluR c 1 rd ra (fun a => a ^^^ immZ imm))

/-- SLTI (R64). -/
def execSlti (c : Nat) (rd ra : Reg) (imm : BitVec 16) (s : State) : Host.Outcome State Fault Refusal :=
  .next (s.aluR c 1 rd ra (fun a => flag (a.slt (immS imm))))

/-- SLTIU (R64). -/
def execSltiu (c : Nat) (rd ra : Reg) (imm : BitVec 16) (s : State) : Host.Outcome State Fault Refusal :=
  .next (s.aluR c 1 rd ra (fun a => flag (a.ult (immS imm))))

/-- The shift that IMM[7:6] selects by IMM[5:0] places (R64). -/
def shiftImm (imm : BitVec 16) (a : W64) : W64 :=
  let n := imm.toNat % 64
  match fld imm 6 2 with
  | 0 => a <<< n
  | 1 => a >>> n
  | 2 => a.sshiftRight n
  | _ => a.rotateRight n

/-- SHI: a shift by IMM; IMM[15:8] not 0 raises ILLEGAL (R58, R64). -/
def execShi (c : Nat) (rd ra : Reg) (imm : BitVec 16) (s : State) : Host.Outcome State Fault Refusal :=
  .next (s.issue c 1 false [.g ra] [.g rd] (fun s =>
    if fld imm 8 8 ≠ 0 then .exc s illegal
    else .ok (s.modCore c (fun k => { k with g := k.g.set rd (shiftImm imm k.g[ra]) }))))

/-- MOVZ: rd ← IMM shifted left by 16h; h above 3 raises ILLEGAL (R64). -/
def execMovz (c : Nat) (rd h : Reg) (imm : BitVec 16) (s : State) : Host.Outcome State Fault Refusal :=
  .next (s.issue c 1 false [] [.g rd] (fun s =>
    if 4 ≤ h.val then .exc s illegal
    else .ok (s.modCore c (fun k => { k with g := k.g.set rd (immZ imm <<< (16 * h.val)) }))))

/-- MOVK: rd[16h+15:16h] ← IMM; h above 3 raises ILLEGAL (R64). -/
def execMovk (c : Nat) (rd h : Reg) (imm : BitVec 16) (s : State) : Host.Outcome State Fault Refusal :=
  .next (s.issue c 1 false [.g rd] [.g rd] (fun s =>
    if 4 ≤ h.val then .exc s illegal
    else .ok (s.modCore c (fun k => { k with g := k.g.set rd (setFld k.g[rd] (16 * h.val) 16 imm.toNat) }))))

/-- MUL: low 64 bits of the product (R65). -/
def execMul (c : Nat) (rd ra rb : Reg) (s : State) : Host.Outcome State Fault Refusal :=
  .next (s.aluRR c 3 rd ra rb (fun a b => a * b))

/-- MULH: high 64 bits of the signed product (R65). -/
def execMulh (c : Nat) (rd ra rb : Reg) (s : State) : Host.Outcome State Fault Refusal :=
  .next (s.aluRR c 4 rd ra rb mulHigh)

/-- MULHU: high 64 bits of the unsigned product (R65). -/
def execMulhu (c : Nat) (rd ra rb : Reg) (s : State) : Host.Outcome State Fault Refusal :=
  .next (s.aluRR c 4 rd ra rb mulHighU)

/-- DIV: a long operation (R65, R104, R105). -/
def execDivS (c : Nat) (rd ra rb : Reg) (s : State) : Host.Outcome State Fault Refusal :=
  .next (s.divide c rd ra rb divSigned)

/-- DIVU: a long operation (R65, R104, R105). -/
def execDivu (c : Nat) (rd ra rb : Reg) (s : State) : Host.Outcome State Fault Refusal :=
  .next (s.divide c rd ra rb divUnsigned)

/-- REM: a long operation (R65, R104, R105). -/
def execRemS (c : Nat) (rd ra rb : Reg) (s : State) : Host.Outcome State Fault Refusal :=
  .next (s.divide c rd ra rb remSigned)

/-- REMU: a long operation (R65, R104, R105). -/
def execRemu (c : Nat) (rd ra rb : Reg) (s : State) : Host.Outcome State Fault Refusal :=
  .next (s.divide c rd ra rb remUnsigned)

end Sys2Proof.Machine
end

