-- ==== Sys2Proof/Machine/Branch.lean ====
section
/-! DEFINITION. Branches, loops and the predictor state they train (R83 to R86, R107 to R111). -/

namespace Sys2Proof.Machine

/-! ### Predictors (R107, R108, R110) -/

/-- Training at retirement: the direction counter of the branch, the history and the target buffer; with BPOFF = 1
nothing is read or updated (R107, R108). Which entry a branch uses is open (log 26). -/
def Core.train (k : Core) (kind : Nat) (cond taken : Bool) (target : W64) : Core :=
  if k.bpoff then k
  else
    let i := Config.predictorIndex 0 k.pc k.ghist
    let old := SMap.get 1 k.dirTab i
    let cnt := if taken then min 3 (old + 1) else old - 1
    { k with
      dirTab := if cond then SMap.set k.dirTab i cnt else k.dirTab
      ghist := (k.ghist <<< 1) ||| (if taken then 1 else 0)
      btb := if taken then
          ({ pc := k.pc, target, kind, lvl := k.lvl.num, td := k.tdid, tagged := k.wpctl.getLsbD 0 } ::
            k.btb.filter (fun e => e.pc != k.pc)).take 12288
        else k.btb }

/-- The return stack: a call pushes, a return pops (R107). -/
def Core.rasPush (k : Core) (a : W64) : Core := if k.bpoff then k else { k with ras := (a :: k.ras).take 32 }
def Core.rasPop (k : Core) : Core := if k.bpoff then k else { k with ras := k.ras.tail }

/-- The target of a relative branch: PC + 4 × a signed offset (R57). -/
def relTarget {n : Nat} (pc : W64) (off : BitVec n) : W64 := pc + 4 * off.signExtend 64

/-- The condition of Bcc by COND; 6 and 7 are not conditions (R83). -/
def branchCond (cond : Fin 8) (a b : W64) : Option Bool :=
  match cond.val with
  | 0 => some (a == b)
  | 1 => some (a != b)
  | 2 => some (a.slt b)
  | 3 => some (!a.slt b)
  | 4 => some (a.ult b)
  | 5 => some (!a.ult b)
  | _ => none

/-- INSTR_ALIGN at a jump, with the target in ADDR (R83). -/
def instrAlign (t : W64) : Exc := { mkExc 0 with addr := t }

/-- BR: PC ← PC + 4 × OFF26 (R83). -/
def execBr (c : Nat) (off : BitVec 26) (s : State) : Host.Outcome State Fault Refusal :=
  .next (s.issue c 3 false [] [] (fun s =>
    let t := relTarget (s.core c).pc off
    .jump (s.modCore c (fun k => k.train 0 false true t)) t))

/-- BAL: G31 ← PC + 4, PC ← PC + 4 × OFF26 (R83). -/
def execBal (c : Nat) (off : BitVec 26) (s : State) : Host.Outcome State Fault Refusal :=
  .next (s.issue c 3 false [] [.g 31] (fun s =>
    let t := relTarget (s.core c).pc off
    .jump (s.modCore c (fun k =>
      { (k.train 2 false true t).rasPush (k.pc + 4) with g := k.g.set 31 (k.pc + 4) })) t))

/-- Bcc: a taken conditional branch goes to PC + 4 × OFF13; COND 6 and 7 raise ILLEGAL (R83). -/
def execBcc (c : Nat) (cond : Fin 8) (ra rb : Reg) (off : BitVec 13) (s : State) : Host.Outcome State Fault Refusal :=
  .next (s.issue c 3 false [.g ra, .g rb] [] (fun s =>
    let k := s.core c
    match branchCond cond k.g[ra] k.g[rb] with
    | none => .exc s illegal
    | some taken =>
      let t := relTarget k.pc off
      let s := s.setCore c (k.train 1 true taken t)
      if taken then .jump s t else .ok s))

/-- JALR: t ← ra + IMM, rd ← PC + 4, PC ← t; a target that is no multiple of 4 raises INSTR_ALIGN (R83). -/
def execJalr (c : Nat) (rd ra : Reg) (imm : BitVec 16) (s : State) : Host.Outcome State Fault Refusal :=
  .next (s.issue c 4 false [.g ra] [.g rd] (fun s =>
    let k := s.core c
    let t := k.g[ra] + immS imm
    if t.toNat % 4 ≠ 0 then .exc s (instrAlign t)
    else
      let k1 := k.train (if rd = 31 then 2 else 3) false true t
      let k2 := if rd = 31 then k1.rasPush (k.pc + 4) else k1
      .jump (s.setCore c { k2 with g := k.g.set rd (k.pc + 4) }) t))

/-- JR: PC ← ra + IMM (R83). -/
def execJr (c : Nat) (ra : Reg) (imm : BitVec 16) (s : State) : Host.Outcome State Fault Refusal :=
  .next (s.issue c 4 false [.g ra] [] (fun s =>
    let k := s.core c
    let t := k.g[ra] + immS imm
    if t.toNat % 4 ≠ 0 then .exc s (instrAlign t)
    else
      let k1 := k.train 3 false true t
      .jump (s.setCore c (if ra = 31 then k1.rasPop else k1)) t))

/-- LOOP: LS, LE and LC; the next PC is LE + 4 when the count is 0; LC not 0 or IMM[15:6] not 0 raises ILLEGAL (R83, R84, R111). -/
def execLoop (c : Nat) (ra : Reg) (imm : BitVec 16) (s : State) : Host.Outcome State Fault Refusal :=
  .next (s.issue c 2 false [.g ra] [] (fun s =>
    let k := s.core c
    if fld imm 6 10 ≠ 0 ∨ k.lc ≠ 0 then .exc s illegal
    else
      let ls := k.pc + 4
      let le := k.pc + 4 * BitVec.ofNat 64 (imm.toNat % 64 + 1)
      let n : BitVec 32 := k.g[ra].setWidth 32
      -- LOOP itself lies before LS, so the retirement rule leaves LC as written; a count of 0 skips the body
      if n = 0 then .stay ((s.setCore c { k with ls, le, lc := 0 }).retire c 2 false (le + 4))
      else .ok (s.setCore c { k with ls, le, lc := n, loopBuf := some (ls, le) })))

end Sys2Proof.Machine
end

