-- ==== Sys2Proof/Machine/Flags.lean ====
section
/-! DEFINITION. Floating-point arithmetic with its flags: binary64 and binary32 of IEEE 754-2019, results exact
before one rounding, tininess detected after rounding (R66, R67, R79). -/

namespace Sys2Proof.Machine

/-- Fraction bits of a precision: binary32 when `sp`. -/
def fpFrac (sp : Bool) : Nat := if sp then 23 else 52
/-- Exponent bits. -/
def fpExpBits (sp : Bool) : Nat := if sp then 8 else 11
/-- Exponent bias. -/
def fpBias (sp : Bool) : Int := if sp then 127 else 1023
/-- Width of a value. -/
def fpWidth (sp : Bool) : Nat := if sp then 32 else 64

/-- Flag bits of FPCSR (R66). -/
def fNX : Nat := 1
def fUF : Nat := 2
def fOF : Nat := 4
def fDZ : Nat := 8
def fNV : Nat := 16

def fpSign (sp : Bool) (v : Nat) : Bool := v.testBit (fpWidth sp - 1)
def fpExp (sp : Bool) (v : Nat) : Nat := bits v (fpFrac sp) (fpExpBits sp)
def fpMan (sp : Bool) (v : Nat) : Nat := bits v 0 (fpFrac sp)
def fpMaxExp (sp : Bool) : Nat := 2 ^ fpExpBits sp - 1
def fpIsNan (sp : Bool) (v : Nat) : Bool := decide (fpExp sp v = fpMaxExp sp) && decide (fpMan sp v ≠ 0)
def fpIsSnan (sp : Bool) (v : Nat) : Bool := fpIsNan sp v && !(v.testBit (fpFrac sp - 1))
def fpIsInf (sp : Bool) (v : Nat) : Bool := decide (fpExp sp v = fpMaxExp sp) && decide (fpMan sp v = 0)
def fpIsZero (sp : Bool) (v : Nat) : Bool := decide (fpExp sp v = 0) && decide (fpMan sp v = 0)

/-- The canonical quiet NaN (R66). -/
def fpNan (sp : Bool) : Nat := if sp then 0x7FC00000 else 0x7FF8000000000000

def fpZero (sp sign : Bool) : Nat := bit sign * 2 ^ (fpWidth sp - 1)
def fpInf (sp sign : Bool) : Nat := fpZero sp sign + fpMaxExp sp * 2 ^ fpFrac sp
def fpMaxFinite (sp sign : Bool) : Nat := fpInf sp sign - 1

/-- Significand and exponent of a finite value: it equals ± significand × 2^exponent. -/
def fpParts (sp : Bool) (v : Nat) : Nat × Int :=
  let e := fpExp sp v
  if e = 0 then (fpMan sp v, 1 - fpBias sp - fpFrac sp)
  else (fpMan sp v + 2 ^ fpFrac sp, (e : Int) - fpBias sp - fpFrac sp)

/-- Number of bits of a number. -/
def bitLen (m : Nat) : Nat := if m = 0 then 0 else m.log2 + 1

/-- Whether a rounding mode raises the kept magnitude, given its last bit and where the rest lies: 0 exact,
1 below half, 2 half, 3 above half (R66). -/
def roundUp (rm : Nat) (sign odd : Bool) (rest : Nat) : Bool :=
  match rm with
  | 0 => decide (rest = 3) || (decide (rest = 2) && odd)
  | 1 => false
  | 2 => sign && decide (rest ≠ 0)
  | 3 => !sign && decide (rest ≠ 0)
  | _ => decide (2 ≤ rest)

/-- `m` × 2^`e`, plus less than one unit of `m` when `sticky`, cut to a multiple of 2^`q`: the kept part and where
the rest lies. -/
def cutAt (m : Nat) (e : Int) (sticky : Bool) (q : Int) : Nat × Nat :=
  if q ≤ e then (m * 2 ^ (e - q).toNat, if sticky then 1 else 0)
  else
    let n := (q - e).toNat
    let rem := m % 2 ^ n
    let half := 2 ^ (n - 1)
    let rest :=
      if rem = 0 then (if sticky then 1 else 0)
      else if rem < half then 1
      else if rem = half then (if sticky then 3 else 2)
      else 3
    (m / 2 ^ n, rest)

/-- Rounds a nonzero magnitude to a precision: the value and its flags. Tininess is judged on the result rounded
to full precision with an unbounded exponent; underflow is raised when the result is tiny and inexact
(R66, log 28). -/
def roundPack (sp : Bool) (rm : Nat) (sign : Bool) (m : Nat) (e : Int) (sticky : Bool) : Nat × Nat :=
  let p := fpFrac sp + 1
  let emin := 1 - fpBias sp
  let top := e + bitLen m - 1
  let qn : Int := top - fpFrac sp
  let qmin : Int := emin - fpFrac sp
  let (kn, rn) := cutAt m e sticky qn
  let big := kn + bit (roundUp rm sign (kn % 2 = 1) rn)
  let tiny := decide (top < emin) && !(decide (top = emin - 1) && decide (big = 2 ^ p))
  let q := if qn < qmin then qmin else qn
  let (k, r) := cutAt m e sticky q
  let k := k + bit (roundUp rm sign (k % 2 = 1) r)
  let inexact := decide (r ≠ 0)
  -- renormalise a significand that rounded up to 2^p
  let (k, q) := if k = 2 ^ p then (2 ^ (p - 1), q + 1) else (k, q)
  let biased : Int := if k < 2 ^ (p - 1) then 0 else q + fpFrac sp + fpBias sp
  if (fpMaxExp sp : Int) ≤ biased then
    let toMax := decide (rm = 1) || (decide (rm = 2) && !sign) || (decide (rm = 3) && sign)
    ((if toMax then fpMaxFinite sp sign else fpInf sp sign), fOF + fNX)
  else
    (fpZero sp sign + biased.toNat * 2 ^ fpFrac sp + k % 2 ^ fpFrac sp,
     (if inexact then fNX else 0) + (if tiny && inexact then fUF else 0))

/-- An exact integer × 2^`e`, rounded; a zero takes the sign `zs`. -/
def roundInt (sp : Bool) (rm : Nat) (v : Int) (e : Int) (zs : Bool) : Nat × Nat :=
  if v = 0 then (fpZero sp zs, 0) else roundPack sp rm (decide (v < 0)) v.natAbs e false

/-- Signed significand of a finite value. -/
def fpSigned (sp : Bool) (v : Nat) : Int × Int :=
  let (m, e) := fpParts sp v
  (if fpSign sp v then -(m : Int) else m, e)

/-- The sum of two dyadic numbers over the lower exponent. -/
def dyAdd (a : Int × Int) (b : Int × Int) : Int × Int :=
  let e := if a.2 ≤ b.2 then a.2 else b.2
  (a.1 * 2 ^ (a.2 - e).toNat + b.1 * 2 ^ (b.2 - e).toNat, e)

/-- The flag of a signalling NaN among operands. -/
def nvIf (b : Bool) : Nat := if b then fNV else 0

/-- Addition; subtraction adds the negated operand (R66). -/
def fpAdd (sp : Bool) (rm a b : Nat) : Nat × Nat :=
  if fpIsNan sp a || fpIsNan sp b then (fpNan sp, nvIf (fpIsSnan sp a || fpIsSnan sp b))
  else if fpIsInf sp a then
    if fpIsInf sp b && (fpSign sp a != fpSign sp b) then (fpNan sp, fNV) else (a, 0)
  else if fpIsInf sp b then (b, 0)
  else
    let (v, e) := dyAdd (fpSigned sp a) (fpSigned sp b)
    let zs := if fpSign sp a = fpSign sp b then fpSign sp a else decide (rm = 2)
    roundInt sp rm v e zs

/-- The value with its sign inverted. -/
def fpNeg (sp : Bool) (v : Nat) : Nat := v ^^^ 2 ^ (fpWidth sp - 1)

/-- Subtraction. A NaN stays as it is. -/
def fpSub (sp : Bool) (rm a b : Nat) : Nat × Nat := fpAdd sp rm a (if fpIsNan sp b then b else fpNeg sp b)

def fpMul (sp : Bool) (rm a b : Nat) : Nat × Nat :=
  let sign := fpSign sp a != fpSign sp b
  if fpIsNan sp a || fpIsNan sp b then (fpNan sp, nvIf (fpIsSnan sp a || fpIsSnan sp b))
  else if (fpIsInf sp a && fpIsZero sp b) || (fpIsZero sp a && fpIsInf sp b) then (fpNan sp, fNV)
  else if fpIsInf sp a || fpIsInf sp b then (fpInf sp sign, 0)
  else
    let (m, e) := fpParts sp a
    let (n, f) := fpParts sp b
    if m * n = 0 then (fpZero sp sign, 0) else roundPack sp rm sign (m * n) (e + f) false

/-- Division: the quotient to enough bits and a sticky remainder (R66). -/
def fpDiv (sp : Bool) (rm a b : Nat) : Nat × Nat :=
  let sign := fpSign sp a != fpSign sp b
  if fpIsNan sp a || fpIsNan sp b then (fpNan sp, nvIf (fpIsSnan sp a || fpIsSnan sp b))
  else if fpIsInf sp a then (if fpIsInf sp b then (fpNan sp, fNV) else (fpInf sp sign, 0))
  else if fpIsInf sp b then (fpZero sp sign, 0)
  else if fpIsZero sp b then (if fpIsZero sp a then (fpNan sp, fNV) else (fpInf sp sign, fDZ))
  else if fpIsZero sp a then (fpZero sp sign, 0)
  else
    let (m, e) := fpParts sp a
    let (n, f) := fpParts sp b
    let num := m * 2 ^ 120
    roundPack sp rm sign (num / n) (e - f - 120) (decide (num % n ≠ 0))

/-- The integer square root, bit by bit from bit `i`. -/
def isqrtFrom : Nat → Nat → Nat → Nat
  | 0, _, r => r
  | i + 1, n, r => let r' := r + 2 ^ i; isqrtFrom i n (if r' * r' ≤ n then r' else r)

def fpSqrt (sp : Bool) (rm a : Nat) : Nat × Nat :=
  if fpIsNan sp a then (fpNan sp, nvIf (fpIsSnan sp a))
  else if fpIsZero sp a then (a, 0)
  else if fpSign sp a then (fpNan sp, fNV)
  else if fpIsInf sp a then (a, 0)
  else
    let (m, e) := fpParts sp a
    let (m, e) := if e % 2 = 0 then (m, e) else (2 * m, e - 1)
    let n := m * 2 ^ 120
    let r := isqrtFrom 90 n 0
    roundPack sp rm false r (e / 2 - 60) (decide (r * r ≠ n))

/-- Fused multiply-add with one rounding. Infinity times zero plus a quiet NaN is invalid or not as the
implementation chooses (R66, log 29). -/
def fpFma (sp : Bool) (rm a b c : Nat) : Nat × Nat :=
  let ps := fpSign sp a != fpSign sp b
  let inf0 := (fpIsInf sp a && fpIsZero sp b) || (fpIsZero sp a && fpIsInf sp b)
  if fpIsNan sp a || fpIsNan sp b || fpIsNan sp c then
    (fpNan sp, nvIf (fpIsSnan sp a || fpIsSnan sp b || fpIsSnan sp c || (inf0 && Config.fmaInvalid)))
  else if inf0 then (fpNan sp, fNV)
  else if fpIsInf sp a || fpIsInf sp b then
    if fpIsInf sp c && (fpSign sp c != ps) then (fpNan sp, fNV) else (fpInf sp ps, 0)
  else if fpIsInf sp c then (c, 0)
  else
    let (m, e) := fpParts sp a
    let (n, f) := fpParts sp b
    let prod : Int × Int := (if ps then -((m * n : Nat) : Int) else ((m * n : Nat) : Int), e + f)
    let (v, x) := dyAdd prod (fpSigned sp c)
    roundInt sp rm v x (if ps = fpSign sp c then ps else decide (rm = 2))

/-- a < b for values that are not NaN. -/
def fpLt (sp : Bool) (a b : Nat) : Bool :=
  if fpIsZero sp a && fpIsZero sp b then false
  else if fpSign sp a && !fpSign sp b then true
  else if !fpSign sp a && fpSign sp b then false
  else if fpSign sp a then decide (b < a) else decide (a < b)

/-- a = b for values that are not NaN. -/
def fpEq (sp : Bool) (a b : Nat) : Bool := (fpIsZero sp a && fpIsZero sp b) || decide (a = b)

/-- minimumNumber and maximumNumber: a number wins over a NaN, a signalling NaN raises NV, and -0 lies below +0
(R66). -/
def fpMinMax (sp mx : Bool) (a b : Nat) : Nat × Nat :=
  let nv := nvIf (fpIsSnan sp a || fpIsSnan sp b)
  if fpIsNan sp a && fpIsNan sp b then (fpNan sp, nv)
  else if fpIsNan sp a then (b, nv)
  else if fpIsNan sp b then (a, nv)
  else
    let less := fpLt sp a b || (fpIsZero sp a && fpIsZero sp b && fpSign sp a && !fpSign sp b)
    (if less != mx then a else b, 0)

/-- Comparisons: 0 equal (quiet), 1 less, 2 less or equal (signalling) (R66). -/
def fpCmp (sp : Bool) (op a b : Nat) : Nat × Nat :=
  if fpIsNan sp a || fpIsNan sp b then
    (0, nvIf (decide (op ≠ 0) || fpIsSnan sp a || fpIsSnan sp b))
  else
    (bit (match op with
      | 0 => fpEq sp a b
      | 1 => fpLt sp a b
      | _ => fpLt sp a b || fpEq sp a b), 0)

/-- Conversion to a signed 64-bit integer: NaN gives 2^63 - 1, out of range saturates, both with NV (R66). -/
def fpToInt (sp : Bool) (rm a : Nat) : Nat × Nat :=
  let hi : Nat := 2 ^ 63 - 1
  let lo : Nat := 2 ^ 63
  if fpIsNan sp a then (hi, fNV)
  else if fpIsInf sp a then (if fpSign sp a then lo else hi, fNV)
  else
    let sign := fpSign sp a
    let (m, e) := fpParts sp a
    let (k, r) := cutAt m e false 0
    let k := k + bit (roundUp rm sign (k % 2 = 1) r)
    if sign then (if lo < k then (lo, fNV) else (toTwos 64 (-(k : Int)), if r ≠ 0 then fNX else 0))
    else if hi < k then (hi, fNV) else (k, if r ≠ 0 then fNX else 0)

/-- Conversion of a signed integer (R66). -/
def fpOfInt (sp : Bool) (rm a : Nat) : Nat × Nat := roundInt sp rm (sInt 64 a) 0 false

/-- Conversion to the precision `sp` from the other (R66). -/
def fpConv (sp : Bool) (rm a : Nat) : Nat × Nat :=
  let src := !sp
  if fpIsNan src a then (fpNan sp, nvIf (fpIsSnan src a))
  else if fpIsInf src a then (fpInf sp (fpSign src a), 0)
  else
    let (v, e) := fpSigned src a
    roundInt sp rm v e (fpSign src a)

/-- The class mask of FCLASS (R66). -/
def fpClass (sp : Bool) (a : Nat) : Nat :=
  let neg := fpSign sp a
  let i :=
    if fpIsSnan sp a then 8 else if fpIsNan sp a then 9
    else if fpIsInf sp a then (if neg then 0 else 7)
    else if fpIsZero sp a then (if neg then 3 else 4)
    else if fpExp sp a = 0 then (if neg then 2 else 5)
    else (if neg then 1 else 6)
  2 ^ i

/-! ### Flags and traps (R67) -/

/-- FPCSR.RM (R66). -/
def Core.rm (k : Core) : Nat := fld k.fpcsr 5 3

/-- Some raised exception is enabled (R67). -/
def Core.fpTraps (k : Core) (flags : Nat) : Bool := decide (flags &&& fld k.fpcsr 8 5 ≠ 0)

/-- A floating-point result: written with its flags, or FP_TRAP with the flags set and nothing written (R67). -/
def fpWrite (flags : Nat) (wr : Core → Core) (s : State) (c : Nat) : Done :=
  let k := s.core c
  let k' := { k with fpcsr := k.fpcsr ||| BitVec.ofNat 64 flags }
  if k.fpTraps flags then .exc (s.setCore c k') (mkExc 11) else .ok (s.setCore c (wr k'))

/-- A scalar operand of a precision: binary32 is taken from bits [31:0] (R66). -/
def fpArg (sp : Bool) (w : W64) : Nat := if sp then w.toNat % 2 ^ 32 else w.toNat

/-- A lane-wise operation on two vectors and its flags together (R67, R79). -/
def vfLanes (sp : Bool) (f : Nat → Nat → Nat → Nat × Nat) (a b d : W256) : W256 × Nat :=
  let w := fpWidth sp
  let rs := (List.range (256 / w)).map (fun i => f (fld a (w * i) w) (fld b (w * i) w) (fld d (w * i) w))
  (BitVec.ofNat 256 (rs.foldr (fun r acc => r.1 + 2 ^ w * acc) 0), rs.foldl (fun acc r => acc ||| r.2) 0)

end Sys2Proof.Machine
end

