-- ==== Sys2Proof/Machine/Vector.lean ====
section
/-! DEFINITION. Vector integer, vector floating point and cryptographic instructions of registers (R78 to R80). -/

namespace Sys2Proof.Machine

/-- Element width of a size field: 0 byte, 1 halfword, 2 word, 3 doubleword (R78). -/
def elemW (sz : Fin 4) : Nat := 8 * 2 ^ sz.val

/-- The vector whose element `i` is `f` of the elements `i` of two vectors (R78). -/
def vMap2 (w : Nat) (f : Nat → Nat → Nat) (a b : W256) : W256 :=
  BitVec.ofNat 256 ((List.range (256 / w)).foldr (fun i acc => f (fld a (w * i) w) (fld b (w * i) w) % 2 ^ w + 2 ^ w * acc) 0)

/-- A vector operation of two sources. -/
def State.vec2 (s : State) (c met : Nat) (vd va vb : Reg) (f : W256 → W256 → W256) : State :=
  s.compute c met [.v va, .v vb] [.v vd] (fun k => { k with v := k.v.set vd (f k.v[va] k.v[vb]) })

/-- An element-wise vector operation (R78). -/
def State.vecE (s : State) (c met : Nat) (sz : Fin 4) (vd va vb : Reg) (f : Nat → Nat → Nat → Nat) : State :=
  s.vec2 c met vd va vb (vMap2 (elemW sz) (f (elemW sz)))

/-- An element-wise floating-point operation with `old` the destination's element (R67, R79). -/
def State.vecF (s : State) (c met : Nat) (sp : Bool) (vd va vb : Reg) (rdOld : Bool)
    (f : Nat → Nat → Nat → Nat → Nat × Nat) : State :=
  s.issue c met false (if rdOld then [.v va, .v vb, .v vd] else [.v va, .v vb]) [.v vd] (fun s =>
    let k := s.core c
    let (r, fl) := vfLanes sp (f k.rm) k.v[va] k.v[vb] k.v[vd]
    fpWrite fl (fun k => { k with v := k.v.set vd r }) s c)

/-- All ones of a width, or 0. -/
def onesIf (w : Nat) (b : Bool) : Nat := if b then 2 ^ w - 1 else 0

/-- Byte `i` of the result is byte (vb byte i)[4:0] of va (R78). -/
def vperm (a b : W256) : W256 := vMap2 8 (fun _ i => fld a (8 * (i % 32)) 8) a b

/-- VADD per element (R78). -/
def execVadd (c : Nat) (sz : Fin 4) (vd va vb : Reg) (s : State) : Host.Outcome State Fault Refusal :=
  .next (s.vecE c 1 sz vd va vb (fun _ a b => a + b))

/-- VSUB per element (R78). -/
def execVsub (c : Nat) (sz : Fin 4) (vd va vb : Reg) (s : State) : Host.Outcome State Fault Refusal :=
  .next (s.vecE c 1 sz vd va vb (fun w a b => a + 2 ^ w - b))

/-- VSLL per element (R78). -/
def execVsll (c : Nat) (sz : Fin 4) (vd va vb : Reg) (s : State) : Host.Outcome State Fault Refusal :=
  .next (s.vecE c 1 sz vd va vb (fun w a b => a <<< (b % w)))

/-- VSRL per element (R78). -/
def execVsrl (c : Nat) (sz : Fin 4) (vd va vb : Reg) (s : State) : Host.Outcome State Fault Refusal :=
  .next (s.vecE c 1 sz vd va vb (fun w a b => a >>> (b % w)))

/-- VSRA per element (R78). -/
def execVsra (c : Nat) (sz : Fin 4) (vd va vb : Reg) (s : State) : Host.Outcome State Fault Refusal :=
  .next (s.vecE c 1 sz vd va vb (fun w a b => toTwos w (sInt w a / 2 ^ (b % w))))

/-- VMIN per element (R78). -/
def execVmin (c : Nat) (sz : Fin 4) (vd va vb : Reg) (s : State) : Host.Outcome State Fault Refusal :=
  .next (s.vecE c 1 sz vd va vb (fun w a b => if sInt w a < sInt w b then a else b))

/-- VMAX per element (R78). -/
def execVmax (c : Nat) (sz : Fin 4) (vd va vb : Reg) (s : State) : Host.Outcome State Fault Refusal :=
  .next (s.vecE c 1 sz vd va vb (fun w a b => if sInt w a < sInt w b then b else a))

/-- VMUL per element (R78). -/
def execVmul (c : Nat) (sz : Fin 4) (vd va vb : Reg) (s : State) : Host.Outcome State Fault Refusal :=
  .next (s.vecE c 4 sz vd va vb (fun _ a b => a * b))

/-- VCEQ per element (R78). -/
def execVceq (c : Nat) (sz : Fin 4) (vd va vb : Reg) (s : State) : Host.Outcome State Fault Refusal :=
  .next (s.vecE c 1 sz vd va vb (fun w a b => onesIf w (a == b)))

/-- VCGT per element (R78). -/
def execVcgt (c : Nat) (sz : Fin 4) (vd va vb : Reg) (s : State) : Host.Outcome State Fault Refusal :=
  .next (s.vecE c 1 sz vd va vb (fun w a b => onesIf w (decide (sInt w b < sInt w a))))

/-- VAND, bitwise (R78). -/
def execVand (c : Nat) (vd va vb : Reg) (s : State) : Host.Outcome State Fault Refusal :=
  .next (s.vec2 c 1 vd va vb (fun a b => a &&& b))

/-- VOR, bitwise (R78). -/
def execVor (c : Nat) (vd va vb : Reg) (s : State) : Host.Outcome State Fault Refusal :=
  .next (s.vec2 c 1 vd va vb (fun a b => a ||| b))

/-- VXOR, bitwise (R78). -/
def execVxor (c : Nat) (vd va vb : Reg) (s : State) : Host.Outcome State Fault Refusal :=
  .next (s.vec2 c 1 vd va vb (fun a b => a ^^^ b))

/-- VPERM (R78). -/
def execVperm (c : Nat) (vd va vb : Reg) (s : State) : Host.Outcome State Fault Refusal :=
  .next (s.vec2 c 3 vd va vb vperm)

/-- VSPLAT: every element takes the low bits of G[va] (R78). -/
def execVsplat (c : Nat) (sz : Fin 4) (vd ga : Reg) (s : State) : Host.Outcome State Fault Refusal :=
  .next (s.compute c 2 [.g ga] [.v vd] (fun k =>
    { k with v := k.v.set vd (vMap2 (elemW sz) (fun _ _ => k.g[ga].toNat) 0 0) }))

/-- VEXT: an index beyond the element count raises ILLEGAL (R78). -/
def execVext (c : Nat) (sz : Fin 4) (gd va idx : Reg) (s : State) : Host.Outcome State Fault Refusal :=
  .next (s.issue c 2 false [.v va] [.g gd] (fun s =>
    if 256 / elemW sz ≤ idx.val then .exc s illegal
    else .ok (s.modCore c (fun k =>
      { k with g := k.g.set gd (BitVec.ofNat 64 (fld k.v[va] (elemW sz * idx.val) (elemW sz))) }))))

/-- VFADD per element (R79). -/
def execVfadd (c : Nat) (sp : Bool) (vd va vb : Reg) (s : State) : Host.Outcome State Fault Refusal :=
  .next (s.vecF c 4 sp vd va vb false (fun rm a b _ => fpAdd sp rm a b))

/-- VFSUB per element (R79). -/
def execVfsub (c : Nat) (sp : Bool) (vd va vb : Reg) (s : State) : Host.Outcome State Fault Refusal :=
  .next (s.vecF c 4 sp vd va vb false (fun rm a b _ => fpSub sp rm a b))

/-- VFMUL per element (R79). -/
def execVfmul (c : Nat) (sp : Bool) (vd va vb : Reg) (s : State) : Host.Outcome State Fault Refusal :=
  .next (s.vecF c 4 sp vd va vb false (fun rm a b _ => fpMul sp rm a b))

/-- VFMIN per element (R79). -/
def execVfmin (c : Nat) (sp : Bool) (vd va vb : Reg) (s : State) : Host.Outcome State Fault Refusal :=
  .next (s.vecF c 2 sp vd va vb false (fun _ a b _ => fpMinMax sp false a b))

/-- VFMAX per element (R79). -/
def execVfmax (c : Nat) (sp : Bool) (vd va vb : Reg) (s : State) : Host.Outcome State Fault Refusal :=
  .next (s.vecF c 2 sp vd va vb false (fun _ a b _ => fpMinMax sp true a b))

/-- VFMA: vd ← va × vb + vd with one rounding per element (R79). -/
def execVfma (c : Nat) (sp : Bool) (vd va vb : Reg) (s : State) : Host.Outcome State Fault Refusal :=
  .next (s.vecF c 5 sp vd va vb true (fun rm a b d => fpFma sp rm a b d))

/-- VFDIV, a long operation (R79, R104, R105). -/
def execVfdiv (c : Nat) (sp : Bool) (vd va vb : Reg) (s : State) : Host.Outcome State Fault Refusal :=
  .next (s.issue c 22 false [.v va, .v vb] [.v vd] (fun s =>
    let k := s.core c
    let (r, fl) := vfLanes sp (fun a b _ => fpDiv sp k.rm a b) k.v[va] k.v[vb] 0
    longDone c (.v vd) (.v r) fl (if k.fpTraps fl then some (mkExc 11) else none) s))

/-! ### Cryptographic instructions (R80) -/

/-- A function on both 128-bit lanes of two vectors. -/
def lanes2 (f : W128 → W128 → W128) (a b : W256) : W256 :=
  f (a.extractLsb' 128 128) (b.extractLsb' 128 128) ++ f (a.extractLsb' 0 128) (b.extractLsb' 0 128)

/-- A cryptographic instruction of registers: a long operation that raises nothing (R80). -/
def State.cryptoOp (s : State) (c met : Nat) (vd va vb : Reg) (rdOld : Bool) (f : W256 → W256 → W256 → W256) : State :=
  s.issue c met false (if rdOld then [.v va, .v vb, .v vd] else [.v va, .v vb]) [.v vd] (fun s =>
    let k := s.core c
    longDone c (.v vd) (.v (f k.v[vd] k.v[va] k.v[vb])) 0 none s)

/-- Word `i` of a vector. -/
def vWord (x : W256) (i : Nat) : W64 := x.extractLsb' (64 * i) 64

/-- Two SHA-512 rounds. The one split of the state in which only one half changes holds words a, b, e, f in vd after
the rounds and in va before them; vd brings c, d, g, h. The two inputs are the low words of vb (R80, log 31). -/
def sha512r (d a b : W256) : W256 :=
  let st := [vWord a 0, vWord a 1, vWord d 0, vWord d 1, vWord a 2, vWord a 3, vWord d 2, vWord d 3]
  let r := shaRound (shaRound st (vWord b 0)) (vWord b 1)
  (r.getD 5 0 ++ r.getD 4 0) ++ (r.getD 1 0 ++ r.getD 0 0)

/-- AESE on each 128-bit lane (R80). -/
def execAese (c : Nat) (vd va vb : Reg) (s : State) : Host.Outcome State Fault Refusal :=
  .next (s.cryptoOp c 4 vd va vb false (fun _ a b => lanes2 (aesRound false) a b))

/-- AESEL on each 128-bit lane (R80). -/
def execAesel (c : Nat) (vd va vb : Reg) (s : State) : Host.Outcome State Fault Refusal :=
  .next (s.cryptoOp c 4 vd va vb false (fun _ a b => lanes2 (aesRound true) a b))

/-- AESD on each 128-bit lane (R80). -/
def execAesd (c : Nat) (vd va vb : Reg) (s : State) : Host.Outcome State Fault Refusal :=
  .next (s.cryptoOp c 4 vd va vb false (fun _ a b => lanes2 (aesInvRound false) a b))

/-- AESDL on each 128-bit lane (R80). -/
def execAesdl (c : Nat) (vd va vb : Reg) (s : State) : Host.Outcome State Fault Refusal :=
  .next (s.cryptoOp c 4 vd va vb false (fun _ a b => lanes2 (aesInvRound true) a b))

/-- GMUL on each 128-bit lane (R80). -/
def execGmul (c : Nat) (vd va vb : Reg) (s : State) : Host.Outcome State Fault Refusal :=
  .next (s.cryptoOp c 4 vd va vb false (fun _ a b => lanes2 (gcmMul) a b))

/-- SHA512S: the rule does not say where sixteen words lie in three registers of four; the result is open (R80, log 30). -/
def execSha512s (c : Nat) (vd va vb : Reg) (s : State) : Host.Outcome State Fault Refusal :=
  .next (s.cryptoOp c 3 vd va vb true Config.sha512s)

/-- SHA512R (R80, log 31). -/
def execSha512r (c : Nat) (vd va vb : Reg) (s : State) : Host.Outcome State Fault Refusal :=
  .next (s.cryptoOp c 6 vd va vb true sha512r)

end Sys2Proof.Machine
end

