-- ==== Sys2Proof/Machine/Amber.lean ====
section
/-! DEFINITION. Amber exact arithmetic: quantities, accumulators, images and the instructions that use only
registers (R155 to R164). -/

namespace Sys2Proof.Machine

/-- Lane `l` of a vector register (R31). -/
def laneOf (v : W256) (l : Bool) : W128 := if l then v.extractLsb' 128 128 else v.extractLsb' 0 128

/-- The vector with lane `l` replaced. -/
def putLane (v : W256) (l : Bool) (q : W128) : W256 :=
  if l then q ++ v.extractLsb' 0 128 else v.extractLsb' 128 128 ++ q

/-- Bits [127:126] equal bit 125 (R155). -/
def qCanonical (q : W128) : Bool := decide (q.getLsbD 126 = q.getLsbD 125) && decide (q.getLsbD 127 = q.getLsbD 125)

/-- The value of a quantity (R155). -/
def qVal (q : W128) : Int := sInt 126 (q.toNat % 2 ^ 126)

/-- A value as a canonical quantity (R155). -/
def qOf (v : Int) : W128 := BitVec.ofNat 128 (toTwos 128 v)

/-- The value of an accumulator (R157). -/
def AmAcc.int (a : AmAcc) : Int := a.val.toInt

/-- The accumulator range (R157). -/
def accFits (v : Int) : Bool := decide (-(2 : Int) ^ 323 ≤ v) && decide (v ≤ 2 ^ 323 - 1)

def AmAcc.put (a : AmAcc) (v : Int) : AmAcc := { a with val := BitVec.ofNat 324 (toTwos 324 v) }

/-- A power of ten. -/
def pow10 (n : Nat) : Int := (10 : Int) ^ n

/-- AMSCL (R156). -/
def Core.amSA (k : Core) : Nat := fld k.amscl 0 6
def Core.amSB (k : Core) : Nat := fld k.amscl 8 6
def Core.amSD (k : Core) : Nat := fld k.amscl 16 6
def Core.tov (k : Core) : Bool := k.amscl.getLsbD 24

/-- AMBER_TRAP with its code, accumulator and lane (R161). -/
def amberTrap (code : Nat) (x : Fin 8) (l : Bool) : Exc :=
  { mkExc 12 with am := some (BitVec.ofNat 64 (code + 16 * x.val + 128 * bit l)) }

/-- What an accumulating operation does: the new accumulator, and the code it traps with (R159 to R161).
`v` at scale `sc` enters an accumulator; an overflow sets OV and traps only under TOV. -/
def accumulate (a : AmAcc) (v : Int) (sc : Nat) (tov : Bool) : AmAcc × Option Nat :=
  if a.scale.toNat < sc then (a, some 3)
  else
    let r := a.int + v * pow10 (a.scale.toNat - sc)
    if accFits r then (a.put r, none) else ({ a with ov := true }, if tov then some 4 else none)

/-- The outcome of an accumulating operation on a core: written, or trapped with only the flag changed (R161). -/
def accDone (s : State) (c : Nat) (x : Fin 8) (l : Bool) (r : AmAcc × Option Nat) : Done :=
  let s := s.modCore c (fun k => { k with acc := k.acc.set x r.1 })
  match r.2 with
  | some code => .exc s (amberTrap code x l)
  | none => .ok s

/-- AADD and ASUB, by the sign of the operand (R162). -/
def State.amAdd (s : State) (c : Nat) (l : Bool) (x : Fin 8) (va : Reg) (sg : Int) : State :=
  s.issue c 2 false [.a x, .v va] [.a x] (fun s =>
    let k := s.core c
    let q := laneOf k.v[va] l
    if !qCanonical q then .exc s (amberTrap 1 x l)
    else accDone s c x l (accumulate k.acc[x] (sg * qVal q) k.amSA k.tov))

/-- The checks and sum of AMAC and AMACS: codes 1, 2 (short operands), 3 and 4 in order (R161, R162). -/
def macResult (k : Core) (l short : Bool) (x : Fin 8) (va vb : Reg) : AmAcc × Option Nat :=
  let p := laneOf k.v[va] l
  let q := laneOf k.v[vb] l
  let fits (v : Int) : Bool := decide (-(2 : Int) ^ 53 ≤ v) && decide (v ≤ 2 ^ 53 - 1)
  if !qCanonical p || !qCanonical q then (k.acc[x], some 1)
  else if short && !(fits (qVal p) && fits (qVal q)) then (k.acc[x], some 2)
  else accumulate k.acc[x] (qVal p * qVal q) (k.amSA + k.amSB) k.tov

/-- The readout of R163 and R164: the quantity and IX, or the code it traps with and IX. -/
def readout (a : AmAcc) (d mode : Nat) : Except (Nat × Bool) (W128 × Bool) :=
  let t := a.scale.toNat
  if a.ov || a.ms then .error (4, false)
  else
    let fin (r : Int) (inexact : Bool) : Except (Nat × Bool) (W128 × Bool) :=
      if r < -(2 : Int) ^ 125 ∨ 2 ^ 125 - 1 < r then .error (6, false) else .ok (qOf r, inexact)
    if t ≤ d then fin (a.int * pow10 (d - t)) false
    else
      let dv := pow10 (t - d)
      let q0 := Int.tdiv a.int dv
      let rem := a.int - q0 * dv
      let inexact := decide (rem ≠ 0)
      let away := if a.int < 0 then q0 - 1 else q0 + 1
      let twice : Int := 2 * rem.natAbs
      if mode = 5 ∧ rem ≠ 0 then .error (5, true)
      else
        let r := match mode with
          | 0 => if dv < twice then away else if twice < dv then q0 else if q0 % 2 = 0 then q0 else away
          | 1 => if dv ≤ twice then away else q0
          | 3 => if rem < 0 then q0 - 1 else q0
          | 4 => if 0 < rem then q0 + 1 else q0
          | _ => q0
        fin r inexact

/-- The flag word of AFLG (R157). -/
def flagWord (a : AmAcc) : W64 :=
  BitVec.ofNat 64 (bit a.ov + 2 * bit a.ix + 4 * bit a.ms + 8 * bit (decide (a.val = 0)) + 16 * bit (decide (a.int < 0))
    + 256 * a.scale.toNat)

/-- The 64-byte image of an accumulator with a merge count (R158). -/
def accImage (a : AmAcc) (count : Nat) : List Byte :=
  natLe 48 (toTwos 384 a.int) ++ natLe 1 a.scale.toNat ++ natLe 1 (bit a.ov + 2 * bit a.ix + 4 * bit a.ms)
    ++ List.replicate 6 0 ++ natLe 8 count

/-- The accumulator that an image holds; none for an invalid image (R158). -/
def imageAcc (bs : List Byte) : Option AmAcc :=
  let v := leNat (bs.take 48)
  let top := bits v 324 60
  let sign := v.testBit 323
  let sc := (bs.getD 0x30 0).toNat
  let fl := (bs.getD 0x31 0).toNat
  if top = (if sign then 2 ^ 60 - 1 else 0) ∧ sc ≤ 38 ∧ fl < 8 ∧ leNat ((bs.drop 0x32).take 6) = 0 then
    some { val := BitVec.ofNat 324 v, scale := BitVec.ofNat 6 sc, ov := fl.testBit 0, ix := fl.testBit 1, ms := fl.testBit 2 }
  else none

/-- ACLR: Ax ← 0 at scale G[va][5:0] with its flags cleared; a scale above 38 traps with SCALE (R162). -/
def execAclr (c : Nat) (x : Fin 8) (ga : Reg) (s : State) : Host.Outcome State Fault Refusal :=
  .next (s.issue c 1 false [.g ga] [.a x] (fun s =>
    let sc := fld (s.core c).g[ga] 0 6
    if 38 < sc then .exc s (amberTrap 3 x false)
    else .ok (s.modCore c (fun k => { k with acc := k.acc.set x { AmAcc.reset with scale := BitVec.ofNat 6 sc } }))))

/-- AADD (R162). -/
def execAadd (c : Nat) (l : Bool) (x : Fin 8) (va : Reg) (s : State) : Host.Outcome State Fault Refusal :=
  .next (s.amAdd c l x va 1)

/-- ASUB (R162). -/
def execAsub (c : Nat) (l : Bool) (x : Fin 8) (va : Reg) (s : State) : Host.Outcome State Fault Refusal :=
  .next (s.amAdd c l x va (-1))

/-- AMAC, a long operation; a trap sets only the flag its code names (R161, R162). -/
def execAmac (c : Nat) (l : Bool) (x : Fin 8) (va vb : Reg) (s : State) : Host.Outcome State Fault Refusal :=
  .next (s.issue c 6 false [.a x, .v va, .v vb] [.a x] (fun s =>
    let (a, code) := macResult (s.core c) l false x va vb
    match code with
    | none => longDone c (.a x) (.a a) 0 none s
    | some n => longDone c (.a x) .none 0 (some (amberTrap n x l)) (s.modCore c (fun k => { k with acc := k.acc.set x a }))))

/-- AMACS (R162). -/
def execAmacs (c : Nat) (l : Bool) (x : Fin 8) (va vb : Reg) (s : State) : Host.Outcome State Fault Refusal :=
  .next (s.issue c 4 false [.a x, .v va, .v vb] [.a x] (fun s =>
    accDone s c x l (macResult (s.core c) l true x va vb)))

/-- ASCL: raises the scale by G[va][5:0] places; an overflow leaves value and scale (R160, R162). -/
def execAscl (c : Nat) (x : Fin 8) (ga : Reg) (s : State) : Host.Outcome State Fault Refusal :=
  .next (s.issue c 3 false [.a x, .g ga] [.a x] (fun s =>
    let k := s.core c
    let a := k.acc[x]
    let n := fld k.g[ga] 0 6
    if 38 < a.scale.toNat + n then .exc s (amberTrap 3 x false)
    else
      let v := a.int * pow10 n
      if accFits v then accDone s c x false ({ a.put v with scale := a.scale + BitVec.ofNat 6 n }, none)
      else accDone s c x false ({ a with ov := true }, if k.tov then some 4 else none)))

/-- ARND, a long operation: lane L of vd ← Ax read out at scale SD; modes 6 and 7 raise ILLEGAL (R82, R163, R164). -/
def execArnd (c : Nat) (l : Bool) (mode : Fin 8) (vd : Reg) (x : Fin 8) (s : State) : Host.Outcome State Fault Refusal :=
  .next (s.issue c 40 false [.a x, .v vd] [.v vd] (fun s =>
    let k := s.core c
    if 6 ≤ mode.val then .exc s illegal
    else
      match readout k.acc[x] k.amSD mode.val with
      | .ok (q, ix) => longDone c (.v vd) (.lane l q ix x) 0 none s
      | .error (code, ix) =>
        longDone c (.v vd) .none 0 (some (amberTrap code x l))
          (s.modCore c (fun k => { k with acc := k.acc.set x { k.acc[x] with ix := k.acc[x].ix || ix } }))))

/-- AFLG (R157). -/
def execAflg (c : Nat) (gd : Reg) (x : Fin 8) (s : State) : Host.Outcome State Fault Refusal :=
  .next (s.compute c 1 [.a x] [.g gd] (fun k => { k with g := k.g.set gd (flagWord k.acc[x]) }))

/-- AFCLR (R157). -/
def execAfclr (c : Nat) (x : Fin 8) (s : State) : Host.Outcome State Fault Refusal :=
  .next (s.compute c 1 [.a x] [.a x] (fun k =>
    { k with acc := k.acc.set x { k.acc[x] with ov := false, ix := false, ms := false } }))

end Sys2Proof.Machine
end

