-- ==== Sys2Proof/Machine/Noon.lean ====
section
/-! DEFINITION. The Noon fabric: keys and their order, the changes of a line, mailboxes, posting and registration
of actions, staging of TO stores, ready reports and stretches, WALL (R168 to R205, R433, R434). -/

namespace Sys2Proof.Machine

/-! ### Noon order (R180) -/

/-- Keys are compared field by field (R180). -/
def NKey.lt (a b : NKey) : Bool :=
  decide (a.slot < b.slot) || (decide (a.slot = b.slot) && (decide (a.block < b.block) || (decide (a.block = b.block) &&
    (decide (a.core < b.core) || (decide (a.core = b.core) && (decide (a.tick < b.tick) || (decide (a.tick = b.tick) &&
      decide (a.seq < b.seq))))))))

/-- Inserts into a list sorted by `lt`, after its equals. -/
def insBy {α : Type} (lt : α → α → Bool) (x : α) : List α → List α
  | [] => [x]
  | y :: t => if lt x y then x :: y :: t else y :: insBy lt x t

/-- Sorts a list by `lt`. -/
def sortBy {α : Type} (lt : α → α → Bool) (l : List α) : List α := l.foldl (fun acc x => insBy lt x acc) []

/-- Actions in the order of an apply buffer: due tick, then key (R186). -/
def NAct.lt (a b : NAct) : Bool := decide (a.due < b.due) || (decide (a.due = b.due) && a.key.lt b.key)

/-- The key of a change that a core retires now in a slot, and the core with its sequence advanced (R180). -/
def State.noonKey (s : State) (c slot : Nat) : NKey × State :=
  let k := s.core c
  let seq := if k.seqTick = s.noon.tick then k.seq else 0
  ({ slot, block := coreBlock c, core := c % 2, tick := s.noon.tick, seq },
   s.setCore c { k with seqTick := s.noon.tick, seq := seq + 1 })

/-! ### Quotas (R185) -/

def State.quota (s : State) (d : Nat) : W64 :=
  SMap.get (if d = 0 then BitVec.ofNat 64 (64 + 128 + 0xFFF * 256) else 0) s.noon.quota d
def State.quotaEnt (s : State) (d : Nat) : Nat := fld (s.quota d) 0 7
def State.bindEn (s : State) (d : Nat) : Bool := (s.quota d).getLsbD 7
def State.quotaHold (s : State) (d : Nat) : Nat := fld (s.quota d) 8 12

/-! ### Agents (R176, R182) -/

/-- Agents: the blocks' by global block number, the I/O stops' as 128 + region (R196). -/
def State.allAgents (s : State) : List Nat := s.allBlocks ++ (List.range 8).map (128 + ·)

/-- The number that stands for the root as applying agent. -/
def rootAgent : Nat := 200

/-- The applying agent of an action (R182). -/
def State.applier (s : State) : ActBody → Nat
  | .mail core _ => coreBlock core
  | .store pa _ _ _ => s.home (pa / 64)
  | .merge pa _ _ => s.home (pa / 64)
  | .cstart r _ _ _ => 128 + r
  | .event _ => rootAgent

/-- Every action posted and not yet applied, with the block that holds it. -/
def State.allActs (s : State) : List (Nat × NAct) :=
  (s.allBlocks.map (fun b => (s.block b).acts.map (fun a => (b, a)))).flatten

/-- Changes an action of a block: `f` on the entry with the key. -/
def State.modAct (s : State) (b : Nat) (key : NKey) (f : NAct → NAct) : State :=
  s.modBlock b (fun x => { x with acts := x.acts.map (fun a => if a.key = key then f a else a) })

/-- Removes an action of a block. -/
def State.delAct (s : State) (b : Nat) (key : NKey) : State :=
  s.modBlock b (fun x => { x with acts := x.acts.filter (fun a => a.key ≠ key) })

/-- Column and row of a block stop (R17). -/
def stopXY (b : Nat) : Nat × Nat :=
  let r := b / 16
  let l := b % 16
  (4 * (r % 4) + l % 4, if r < 4 then l / 4 else 7 - l / 4)

def absDiff (a b : Nat) : Nat := (a - b) + (b - a)

/-- The unloaded transit between two block stops, in mc (R19, R20). -/
def transit (a b : Nat) : Nat :=
  let (xa, ya) := stopXY a
  let (xb, yb) := stopXY b
  absDiff xa xb + absDiff ya yb + 3 * (absDiff (xa / 4) (xb / 4) + absDiff (ya / 4) (yb / 4))

/-- The one-way transit from an applying agent to a block's agent (R18, R20). -/
def agentTransit (a b : Nat) : Nat :=
  if a < 128 then transit a b
  else if a < 136 then 1 + transit (16 * (a - 128) + 1) b
  else 7 + transit (16 * (b / 16) + 2) b

/-! ### Changes of a line (R178, R187, R170) -/

/-- The private copies of a line that is to change leave their holders, an M copy first reaching the slice
(R178). -/
def State.preChange (s : State) (la : Nat) : State :=
  (s.settle la ((s.block (s.home la)).queue.length + 2)).recall la

/-- The record of a change to a poisoned line that was discarded (R187, R433). -/
def State.changeLost (s : State) (kind la td : Nat) (k : NKey) : State :=
  s.record (recAt (srcAgent (s.home la)) 1 3 0x0203 (some td) (some (64 * la))
    ([kind, k.slot, k.block, k.core] ++ (natLe 4 k.seq).map (·.toNat) ++ (natLe 8 k.tick).map (·.toNat)) progNone)

/-- Masked bytes of a change reach their line: all 64 replace it, poison included; fewer are discarded on a
poisoned line (R187). -/
def State.changeLine (s : State) (kind la td ks : Nat) (k : NKey) (mask : Nat) (d : Line) : State :=
  if inSram (64 * la) then
    let at0 := 64 * la - 0xA001000000000
    ({ s with sram := s.sram.write at0 (lineBytes (lineMask (bytesLine (s.sram.read at0 64)) d mask) 0 64) } : State).loseResv la
  else if !s.boot.handed then
    ({ s with slcRam := s.slcRam.write (64 * la) (lineBytes (lineMask (bytesLine (s.slcRam.read (64 * la) 64)) d mask) 0 64) }
      : State).loseResv la
  else
    let s := s.preChange la
    if mask = 2 ^ 64 - 1 then s.slcFill la td ks d true false false
    else
      let ((old, p), s) := s.homeData la td ks false
      if p then s.changeLost kind la td k else s.slcFill la td ks (lineMask old d mask) true false false

/-- The record line after a merge (R170). -/
def mergeImage (bs : List Byte) (c : AmAcc) (clr : Bool) : List Byte :=
  if clr then accImage c 1
  else
    let count := (leNat (bs.drop 0x38) + 1) % 2 ^ 64
    let setMs : List Byte :=
      bs.take 0x31 ++ [bs.getD 0x31 0 ||| 4] ++ (bs.drop 0x32).take 6 ++ natLe 8 count
    match imageAcc (bs.take 56) with
    | none => setMs
    | some r =>
      if r.scale.toNat < c.scale.toNat then setMs
      else
        let v := r.int + c.int * pow10 (r.scale.toNat - c.scale.toNat)
        let r' := if accFits v then r.put v else { r with ov := true }
        accImage { r' with ov := r'.ov || c.ov, ix := r'.ix || c.ix, ms := r'.ms || c.ms } count

/-- A merge is applied to its record line; a poisoned line stays as it is (R170). -/
def State.mergeLine (s : State) (pa td : Nat) (k : NKey) (c : AmAcc) (clr : Bool) : State :=
  let la := pa / 64
  if !s.boot.handed then { s with slcRam := s.slcRam.write pa (mergeImage (s.slcRam.read pa 64) c clr) }
  else
    let s := s.preChange la
    let ((old, p), s) := s.homeData la td 0 false
    if p then s.changeLost 3 la td k
    else s.slcFill la td 0 (bytesLine (mergeImage (lineBytes old 0 64) c clr)) true false false

/-! ### Mailboxes (R188) -/

def State.mailbox (s : State) (c : Nat) : List Mail :=
  if c % 2 = 0 then (s.block (coreBlock c)).mail0 else (s.block (coreBlock c)).mail1

def State.setMailbox (s : State) (c : Nat) (l : List Mail) : State :=
  s.modBlock (coreBlock c) (fun x => if c % 2 = 0 then { x with mail0 := l } else { x with mail1 := l })

/-- Messages of a domain in a core's mailbox (R183). -/
def State.mailCount (s : State) (c td : Nat) : Nat := ((s.mailbox c).filter (fun m => m.td == td)).length

/-- A message is appended; it wakes a core in RET (R188, R355). None where the mailbox is full. -/
def State.putMail (s : State) (c td : Nat) (key : NKey) (d : Line) : Option State :=
  if 16 ≤ (s.mailbox c).length then none
  else some ((s.setMailbox c (s.mailbox c ++ [{ td, block := key.block, core := key.core, data := d, bad := false }])).wakeCore c 3)

/-! ### Posting (R183, R184) -/

/-- The block's agent no longer serves its logical ID: it is being moved for sparing, or no position holds the
ID (R192, R419). -/
def State.vacated (s : State) (b : Nat) : Bool := (s.block b).moving || decide (s.physOf b = 31)

/-- Codes 4 to 8 of R183 for an action of a core: 0 when none applies. -/
def State.postRefusal (s : State) (c : Nat) (due td : Nat) (body : ActBody) : Nat :=
  let acts := (s.block (coreBlock c)).acts
  let a := s.applier body
  if due ≤ s.noon.tick then 4
  else if s.noon.tick + 65536 < due then 5
  else if a < 128 ∧ s.vacated a = true then 6
  else if s.quotaEnt td ≤ (acts.filter (fun x => x.td == td)).length then 7
  else if 64 ≤ acts.length then 8
  else 0

/-- NOON_REFUSE with its code in NOON_STAT.RSN (R183). -/
def noonRefuse (c code : Nat) (s : State) : Done :=
  .exc (s.modCore c (fun k => { k with rsn := code })) (mkExc 13)

/-- An action takes its entry in the block's table (R184). -/
def State.postAct (s : State) (c slot due td : Nat) (body : ActBody) : State :=
  let (key, s) := s.noonKey c slot
  s.modBlock (coreBlock c) (fun x => { x with acts := x.acts ++
    [{ due, key, td, body, reg := false, kept := false }] })

/-- The block's agent has reported: TO stores, posts and binds of its cores wait until the boundary or the next
quantum (R434). -/
def State.noonHeld (s : State) (c : Nat) : Bool := (s.block (coreBlock c)).reported

/-- What a held instruction leaves: on a metered core a break of cause 7 (R119, R434). -/
def noonWait (c : Nat) (s : State) : Done := .stay (s.modCore c (fun k => k.brk 7 k.pc))

/-! ### Registration (R186) -/

/-- The actions that an agent's apply buffer holds, in its order (R186). -/
def State.buffer (s : State) (a : Nat) : List (Nat × NAct) :=
  sortBy (fun x y => x.2.lt y.2) (s.allActs.filter (fun x => x.2.reg && x.2.kept && decide (s.applier x.2.body = a)))

/-- The line that an action changes. -/
def actLine : ActBody → Option Nat
  | .store pa _ _ _ => some (pa / 64)
  | .merge pa _ _ => some (pa / 64)
  | _ => none

/-- An action arrives at its applying agent: the buffer keeps the 64 lowest and returns the highest; a line due
to change at the next boundary loses its private copies (R178, R186). -/
def State.registerAct (s : State) (b : Nat) (a : NAct) : State :=
  let s := s.modAct b a.key (fun x => { x with reg := true, kept := true })
  let s :=
    match (s.buffer (s.applier a.body)).drop 64 with
    | (b', a') :: _ => s.modAct b' a'.key (fun x => { x with kept := false })
    | [] => s
  match actLine a.body with
  | some la => if a.due = s.noon.tick + 1 then s.preChange la else s
  | none => s

/-! ### TO stores (R201 to R203) -/

/-- The 32-byte granules that bytes from `pa` on touch, with mask and data within each (R201). -/
def granules (pa : Nat) (bs : List Byte) : List (Nat × BitVec 32 × W256) :=
  let first := pa / 32
  let last := (pa + bs.length - 1) / 32
  (List.range (last + 1 - first)).map (fun i =>
    let g := first + i
    let lo := max pa (32 * g)
    let hi := min (pa + bs.length) (32 * g + 32)
    let part := (bs.drop (lo - pa)).take (hi - lo)
    (g, BitVec.ofNat 32 ((2 ^ (hi - lo) - 1) <<< (lo % 32)), BitVec.ofNat 256 (leNat part <<< (8 * (lo % 32)))))

/-- The publish entries of the parts of one TO store (R201). -/
def pubEntries (key : NKey) (es : List SqEntry) : List PubEnt :=
  (es.map (fun e => (granules e.pa e.bytes).map (fun g => { PubEnt.reset with
    gran := g.1, mask := g.2.1, data := g.2.2, key := key, td := e.td, ks := e.ks }))).flatten

/-- The parts of the first TO store in a store queue: one instruction, one key (R180, R201). -/
def Core.toGroup (k : Core) : List SqEntry :=
  let l := k.sq.dropWhile (fun e => e.tord.isNone)
  l.takeWhile (fun e => decide (e.tord = (l.head?.bind (·.tord))))

/-- A TO store leaves the store queue into the publish buffer when the tick's budget has room for every granule
it touches (R201). -/
def State.publish (s : State) (c : Nat) (key : NKey) (es : List SqEntry) : Option State :=
  let b := coreBlock c
  let ps := pubEntries key es
  if 64 < (s.block b).pubCount + ps.length then none
  else some (s.modBlock b (fun x => { x with pubCount := x.pubCount + ps.length, pub := x.pub ++ ps }))

/-- The home stages a published store: its line loses its private copies first (R178, R202). A fenced home with no
spare discards it (R230). -/
def State.stageEnt (s : State) (b : Nat) (p : PubEnt) : State :=
  if s.homeLost (p.gran / 2) then
    s.record (recAt (srcId 1 (b / 16) (b % 16) 0 0xFF) 1 3 (openType 1 0) (some p.td) (some (32 * p.gran)) [] 0)
  else
    (s.preChange (p.gran / 2)).modBlock b (fun x => { x with staging := x.staging ++ [{ p with staged := true }] })

/-- The bytes that a core's own TO stores of the tick have staged at the home of a line, in program order
(R203). -/
def State.ownStaged (s : State) (c la : Nat) (d : Line) : Line :=
  let own := (s.block (s.home la)).staging.filter (fun p =>
    decide (p.gran / 2 = la) && decide (p.key.block = coreBlock c) && decide (p.key.core = c % 2))
  (sortBy (fun x y => x.key.lt y.key) (own.map (fun p => { p with key := { p.key with slot := 0 } }))).foldl
    (fun d p => lineMask d (BitVec.ofNat 512 (p.data.toNat <<< (256 * (p.gran % 2))))
      (p.mask.toNat <<< (32 * (p.gran % 2)))) d

/-- A core's load overlaps a publish entry of its own that is not acknowledged (R203). -/
def State.ownUnacked (s : State) (c pa n : Nat) : Bool :=
  (s.block (coreBlock c)).pub.any (fun p => decide (p.key.core = c % 2) && decide (pa / 32 ≤ p.gran)
    && decide (p.gran ≤ (pa + n - 1) / 32))

/-- A core has published a TO store to a line in this tick (R203). -/
def State.ownPublished (s : State) (c la : Nat) : Bool :=
  (s.block (s.home la)).staging.any (fun p =>
    decide (p.gran / 2 = la) && decide (p.key.block = coreBlock c) && decide (p.key.core = c % 2))

/-! ### Ready reports (R176, R434) -/

/-- A retired TO store of a core that the tick's budget can still take (R176 (a), R201). -/
def State.toWaiting (s : State) (c : Nat) : Bool :=
  let g := (s.core c).toGroup
  !g.isEmpty && decide ((s.block (coreBlock c)).pubCount + ((g.map (fun e => (granules e.pa e.bytes).length)).sum) ≤ 64)

/-- A bound core holds the boundary out of the current tick (R193). -/
def State.holds (s : State) (c : Nat) : Bool :=
  (s.core c).bind && decide ((s.core c).closedTo ≤ s.noon.tick)

/-- An instance holds the boundary into its publish tick: it runs, and has not completed every descriptor up to the
tail of its CSTART (R176 (f), R190, R324). -/
def State.instHolds (s : State) (x : Inst) : Bool :=
  match x.hold with
  | some (tail, p) =>
    let left := (tail + 65536 - x.head) % 65536
    decide (p = s.noon.tick + 1) && (decide (x.st = 1) || decide (x.st = 4)) && decide (0 < left) && decide (left ≤ 256)
  | none => false

/-- An action due now that its agent has returned and not yet brought back (R186). -/
def State.returnedDue (s : State) (a : Nat) : Bool :=
  s.allActs.any (fun x => x.2.reg && !x.2.kept && decide (x.2.due ≤ s.noon.tick) && decide (s.applier x.2.body = a))

/-- The conditions of R176 that an agent fails, bit n - 1 for condition n, at mc `now` of the tick. A fenced block's
agent holds no boundary (log 48). -/
def State.failing (s : State) (a now : Nat) : Nat :=
  if a < 128 then
    if (s.block a).fenced then 64 * bit (s.block a).moving else
    let x := s.block a
    let cores := [2 * a, 2 * a + 1]
    let lines := x.staging.map (fun p => p.gran / 2)
    bit (!x.pub.isEmpty || cores.any s.toWaiting)
      + 2 * bit (x.acts.any (fun y => decide (y.due = s.noon.tick + 1) && !y.reg))
      + 4 * bit (s.returnedDue a || decide (now < x.applyEnd))
      + 8 * bit (lines.any (fun la => (x.dirFind la).isSome))
      + 16 * bit (cores.any s.holds)
      + 64 * bit x.moving
  else
    let x := s.region (a - 128)
    4 * bit (s.returnedDue a || decide (now < x.iosEnd)) + 32 * bit (x.fn.insts.any (fun e => s.instHolds e.2))

def State.reportedOf (s : State) (a : Nat) : Bool :=
  if a < 128 then (s.block a).reported else (s.region (a - 128)).iosReported

def State.missedOf (s : State) (a : Nat) : Nat :=
  if a < 128 then (s.block a).missed else (s.region (a - 128)).iosMissed

def State.setReport (s : State) (a : Nat) (rep : Bool) (missed : Nat) : State :=
  if a < 128 then s.modBlock a (fun x => { x with reported := rep, missed := missed })
  else s.modRegion (a - 128) (fun x => { x with iosReported := rep, iosMissed := missed })

/-- The mc of the evaluation of quantum k (R434). -/
def State.evalMc (s : State) : Nat := 212 + 30 * s.noon.k

/-- An element of a list that the model leaves open (log 6). -/
def State.pick (s : State) (l : List Nat) (d : Nat) : Nat × State :=
  let (i, s) := s.draw
  (l.getD ((Config.freeWord i).toNat % l.length) d, s)

/-- NOON_STRLAST for a stretched boundary: the late agents are those that sent no report at an earlier quantum;
among several, and among several conditions that a late agent failed last, the model does not know the order
in which they became true (R196, log 32). -/
def State.stretchWord (s : State) : W64 × State :=
  let late := s.allAgents.filter (fun a => !s.noon.early.contains a)
  let (a, s) := s.pick (if late.isEmpty then s.allAgents else late) 0
  let m := s.missedOf a
  let conds := ((List.range 7).filter (fun i => m.testBit i)).map (· + 1)
  let (cz, s) := s.pick (if conds.isEmpty then [1, 2, 3, 4, 5, 6, 7] else conds) 1
  (BitVec.ofNat 64 (min s.noon.k 0xFFFF + 65536 * cz + 1048576 * a), s)

/-! ### Slips (R194, R356, R230) -/

/-- A core is unbound with SLIP = 1: its slip source is posted and a record written; `why` is SYND byte 1
(R194, R433). -/
def State.slipCore (s : State) (c why : Nat) : State :=
  if !(s.core c).bind then s
  else
    let s := s.modCore c (fun k => { k with bind := false, slip := true })
    (s.post (384 * coreRegion c + 352 + c % 32)).record
      (recAt (srcAgent (coreBlock c)) 1 0 0x0201 (some (s.core c).tdid) none
        ([c % 2, why, 0, 0, 0, 0, 0, 0] ++ (natLe 8 (s.noon.tick + 1)).map (·.toNat)) 0)

/-! ### WALL (R197, R198) -/

/-- REFCLK periods pass: each adds 10 ns, TRIM and the share of the slew, in units of 2^-32 ns (R197, log 13). -/
def State.passRefs (s : State) (n : Nat) : State :=
  let w := s.noon
  let used : Int := if w.slewN ≤ n then w.slew else w.slew * n / w.slewN
  let add : Int := (n : Int) * (10 * 2 ^ 32 + w.trim) + used
  let total : Nat := w.wall * 2 ^ 32 + w.wfrac + add.toNat
  { s with noon := { w with
      wall := total / 2 ^ 32 % 2 ^ 64, wfrac := total % 2 ^ 32, slew := w.slew - used, slewN := w.slewN - n
      refs := w.refs + n } }

/-- The nearest multiple of 10^9, ties down (R198). -/
def nearestSec (v : Nat) : Nat :=
  let q := v / 1000000000
  if 500000000 < v % 1000000000 then (q + 1) * 1000000000 else q * 1000000000

/-- An accepted edge of NOON_PPS_IN (R198). -/
def State.ppsAccept (s : State) : State :=
  let w := s.noon
  let e : Int := (w.wall : Int) - nearestSec w.wall
  let w : Noon := { w with cap := w.wall, e := e, lost := false, lostPosted := false, ppsAt := w.refs, ppsAny := true }
  let w : Noon :=
    if s.settingN 0x5100 2 0 = 0 then w
    else if e ≤ -1000000 then { w with wall := ((w.wall : Int) - e).toNat % 2 ^ 64 }
    else if 1000000 ≤ e then { w with slew := -e * 2 ^ 32, slewN := (e.toNat + 4) / 5 }
    else
      let adj : Int := (2 * e * 2 ^ 28 + 100000000) / 200000000
      { w with slew := -e * 2 ^ 32, slewN := 100000000, trim := max (-(2 ^ 24)) (min (2 ^ 24) (w.trim - adj)) }
  { s with noon := w }

/-! ### Meanings -/

/-- READY_EVALUATION: an agent evaluates its conditions at mc 212 + 30k and reports when all hold (R176, R434). -/
def execReadyEvaluation (a : Nat) (s : State) : Host.Outcome State Fault Refusal :=
  .next (if !s.up || !s.allAgents.contains a || s.noon.ordered then s
    else
      let f := s.failing a s.evalMc
      if f = 0 then s.setReport a true (s.missedOf a) else s.setReport a false f)

/-- ROOT_SAMPLING: at mc 224 + 30k the root orders the boundary, or k rises by 1 and the holds of this quantum end
(R175, R434). -/
def execRootSampling (s : State) : Host.Outcome State Fault Refusal :=
  .next (if !s.up || s.noon.ordered then s
    else if s.allAgents.all s.reportedOf then { s with noon := { s.noon with ordered := true } }
    else
      let rep := s.allAgents.filter s.reportedOf
      let s := rep.foldl (fun s a => s.setReport a false (s.missedOf a)) s
      { s with noon := { s.noon with k := s.noon.k + 1, early := rep.foldl insNat s.noon.early } })

/-- TO_STORE_STAGE: the home of a block stages the first published store that has not arrived yet (R178, R202). -/
def execToStoreStage (b : Nat) (s : State) : Host.Outcome State Fault Refusal :=
  .next (if !s.up || !s.blockPresent b || s.replacing b || ((s.block b).fenced && decide (s.spares (b / 16) ≠ 0)) then s
    else
      match s.allBlocks.find? (fun q => (s.block q).pub.any (fun p => !p.staged && decide (s.home (p.gran / 2) = b))) with
      | none => s
      | some q =>
        match (s.block q).pub.find? (fun p => !p.staged && decide (s.home (p.gran / 2) = b)) with
        | none => s
        | some p =>
          let i := (s.block q).pub.findIdx (fun p => !p.staged && decide (s.home (p.gran / 2) = b))
          (s.stageEnt b p).modBlock q (fun x => { x with pub := x.pub.modify i (fun p => { p with staged := true }) }))

/-- PUBLISH_ACKNOWLEDGEMENT: a block frees its oldest entry that the home has acknowledged (R201). -/
def execPublishAcknowledgement (b : Nat) (s : State) : Host.Outcome State Fault Refusal :=
  .next (if !s.up || !s.blockPresent b then s
    else s.modBlock b (fun x => { x with pub := x.pub.eraseIdx (x.pub.findIdx (·.staged)) }))

/-- ACTION_REGISTER: the oldest action of a block that has not arrived yet reaches its applying agent (R186). -/
def execActionRegister (b : Nat) (s : State) : Host.Outcome State Fault Refusal :=
  .next (if !s.up || !s.blockPresent b then s
    else
      match (s.block b).acts.find? (fun a => !a.reg) with
      | none => s
      | some a => s.registerAct b a)

/-- TICK_TIMER_POST: the agent posts a core's timer source once for a write of NTCMP that a boundary has met (R195). -/
def execTickTimerPost (c : Nat) (s : State) : Host.Outcome State Fault Refusal :=
  .next (if !s.up || !s.corePresent c || !(s.core c).timerDue then s
    else (s.modCore c (fun k => { k with timerDue := false })).post (384 * coreRegion c + 320 + c % 32))

/-- PPS_EDGE: a rising edge of NOON_PPS_IN at a REFCLK period; one within 0.5 s of the last accepted edge is a
glitch (R198). -/
def execPpsEdge (refs : Nat) (s : State) : Host.Outcome State Fault Refusal :=
  .next (if !s.pins.aon || decide (refs < s.noon.refs) then s
    else
      let s := s.passRefs (refs - s.noon.refs)
      if s.noon.ppsAny && decide (s.noon.refs - s.noon.ppsAt < 50000000) then
        { s with noon := { s.noon with glitch := (s.noon.glitch + 1) % 2 ^ 32 } }
      else s.ppsAccept)

/-- PPS_LOST: 2 s without an accepted edge set PPS_LOST, and chip source 3,200 is posted once (R198). -/
def execPpsLost (s : State) : Host.Outcome State Fault Refusal :=
  .next (if !s.pins.aon || s.noon.lostPosted then s
    else ({ s with noon := { s.noon with lost := true, lostPosted := true } }).post 3200)

end Sys2Proof.Machine
end

