-- ==== Sys2Proof/Machine/Iotu.lean ====
section
/-! DEFINITION. The root ports as the rest of the device uses them (R328, R332, R335, R358), the I/O translation
units with their event queues, and the TLB shootdown (R293 to R301). -/

namespace Sys2Proof.Machine

/-! ### Root ports and their stacks -/

/-- The ports of a stack that are present (R29, R328). -/
def State.portPresent (s : State) (r f : Nat) : Bool :=
  match (s.region r).bifurc with
  | 0 => decide (f = 0)
  | 1 => decide (f < 2)
  | _ => decide (f < 4)

/-- A byte of a port's configuration header that software may write (log 33). -/
def Port.cfgByte (p : Port) (off dflt : Nat) : Nat := SMap.get dflt p.cfg off

/-- The port forwards memory requests: Command.Memory Space Enable (log 33). -/
def Port.mse (p : Port) : Bool := (p.cfgByte 4 0).testBit 1
/-- Command.Bus Master Enable: requests of the devices below are taken (log 33). -/
def Port.bme (p : Port) : Bool := (p.cfgByte 4 0).testBit 2

/-- The prefetchable memory window of a port (log 33). -/
def Port.window (p : Port) : Nat × Nat :=
  let b (off : Nat) := p.cfgByte off 0
  let up (off : Nat) := b off + 256 * b (off + 1) + 65536 * b (off + 2) + 16777216 * b (off + 3)
  (up 0x28 * 2 ^ 32 + (b 0x24 / 16 + 16 * b 0x25) * 2 ^ 20,
   up 0x2C * 2 ^ 32 + (b 0x26 / 16 + 16 * b 0x27) * 2 ^ 20 + 0xFFFFF)

/-- The stack that owns an address of PCI Express memory space (R24). -/
def stackOfAddr (pa : Nat) : Nat := (pa - 0x8000000000000) / 0x20000000000

/-- The port whose window holds an address of its stack (log 33). -/
def State.portOfAddr (s : State) (pa : Nat) : Option Nat :=
  let r := stackOfAddr pa
  (List.range 4).find? (fun f => s.portPresent r f && (s.port r f).mse && decide ((s.port r f).window.1 ≤ pa)
    && decide (pa ≤ (s.port r f).window.2))

/-- The port of a region below which a bus lies (R338). -/
def State.portOfBus (s : State) (r bus : Nat) : Option Nat :=
  (List.range 4).find? (fun f => s.portPresent r f && decide ((s.port r f).sec ≠ 0) && decide ((s.port r f).sec ≤ bus)
    && decide (bus ≤ (s.port r f).sub))

/-- The completion timeout in ns of an encoding (R335). -/
def ctoNs : Nat → Nat
  | 1 => 50000
  | 2 => 1000000
  | 5 => 16000000
  | 6 => 65000000
  | 9 => 260000000
  | 10 => 1000000000
  | 13 => 4000000000
  | _ => 50000000

/-- A tag that is neither outstanding nor in quarantine (R332, R337). -/
def Port.freeTag (p : Port) : Option Nat :=
  ((List.range 768).map (256 + ·)).find? (fun t => !(p.reqs.any (fun e => e.1 == t)) && !(p.quar.any (fun e => e.1 == t)))

/-- A domain of R350 in RET starts its return; one on its way to RET returns when it has arrived (R351, R362). -/
def State.wakeDom (s : State) (i cause : Nat) : State :=
  let d := s.dom i
  if d.st = 1 then s.modDom i (fun d => { d with st := 3, dest := 0, src := 1, cause := cause })
  else if d.st = 3 ∧ d.dest = 1 then s.modDom i (fun d => { d with wakeReq := true, cause := cause })
  else s

/-- How far a request toward a stack gets (R332, R336, R358). -/
inductive Sent where
  /-- it cannot be sent yet -/
  | wait (s : State)
  /-- no target, a stack in OFF, or a link that is down: Unsupported Request -/
  | ur (s : State)
  /-- sent with this tag -/
  | ok (s : State) (tag : Nat)
  deriving DecidableEq, Repr

/-- The link of a port carries requests. -/
def Port.live (p : Port) : Bool := p.up && !p.dpc && !p.perst

/-- A non-posted request toward a port (R332, R335, R358). -/
def State.sendReq (s : State) (r f : Nat) (q : PReq) (kind addr : Nat) (bytes : List Byte) : Sent :=
  let d := s.dom (408 + r)
  if d.st = 2 then .ur s
  else if d.st ≠ 0 then .wait (s.wakeDom (408 + r) 6)
  else if !(s.port r f).live then .ur s
  else
    match (s.port r f).freeTag with
    | none => .wait s
    | some t =>
      let s := s.modRegion r (fun x => { x with stackIdle := 0 })
      let q := { q with sent := s.noon.wall, limit := ctoNs (s.port r f).cto }
      .ok ((s.modPort r f (fun p => { p with inL12 := false, reqs := SMap.set p.reqs t q })).emit
        (.request r f t kind addr bytes)) t

/-- A posted write toward a port; with no live link it is discarded (R332, R358). -/
def State.sendPosted (s : State) (r f addr : Nat) (bytes : List Byte) : Option State :=
  let d := s.dom (408 + r)
  if d.st = 2 then some s
  else if d.st ≠ 0 then none
  else if !(s.port r f).live then some s
  else
    some (((s.modRegion r (fun x => { x with stackIdle := 0 })).modPort r f (fun p => { p with inL12 := false })).emit
      (.request r f 0 1 addr bytes))

/-- The record of a port (R349). -/
def State.portRecord (s : State) (r f cls typ : Nat) (td : Option Nat) (synd : List Nat) : State :=
  s.record (recAt (srcId 6 r 0 0 f) 0 cls typ td none synd 0)

/-! ### The event queue of a unit (R301) -/

def State.iotu (s : State) (r : Nat) : Iotu := (s.region r).iotu
def State.modIotu (s : State) (r : Nat) (f : Iotu → Iotu) : State := s.modRegion r (fun x => { x with iotu := f x.iotu })

/-- Entries of the ring (R301). -/
def Iotu.size (u : Iotu) : Nat := 2 ^ (fld u.eqb 0 4 + 4)

/-- Byte 1 of an entry (R301). -/
def eqFlags (kind stage : Nat) (wr pasid last : Bool) : Nat :=
  kind % 8 + 8 * stage + 16 * bit wr + 32 * bit pasid + 64 * bit last

/-- An entry is written at HEAD and source 384r + 270 posted; a full ring drops it, and so does an address that is
no installed DRAM, which is recorded (R301). The first component says whether it was placed. -/
def State.iotEvent (s : State) (r typ flags rid pasidGrp addr : Nat) : Bool × State :=
  let u := s.iotu r
  let drop (s : State) : State := (s.modIotu r (fun u => { u with lost := satAdd 32 u.lost })).post (384 * r + 271)
  let pa := fld u.eqb 12 40 * 4096 + 32 * u.head
  if (u.head + 1) % u.size = u.tail then (false, drop s)
  else if !(inDram pa && s.dramOk pa) then
    (false, (drop s).record (recAt (srcId 8 r 0 0 0) 2 0 0x0802 none none ((natLe 8 pa).map (·.toNat)) 0))
  else
    let bs := natLe 1 typ ++ natLe 1 flags ++ natLe 2 rid ++ natLe 4 pasidGrp ++ natLe 8 addr ++ natLe 8 s.noon.tick
      ++ natLe 8 0
    let s := s.writePa pa 0 0 bs false
    (true, (s.modIotu r (fun u => { u with head := (u.head + 1) % u.size })).post (384 * r + 270))

/-! ### Contexts (R297) -/

def ctxW (c : List W64) (i : Nat) : W64 := c.getD i 0
def ctxV (c : List W64) : Bool := (ctxW c 0).getLsbD 0
def ctxS1 (c : List W64) : Bool := (ctxW c 0).getLsbD 1
def ctxAts (c : List W64) : Bool := (ctxW c 0).getLsbD 2
def ctxPri (c : List W64) : Bool := (ctxW c 0).getLsbD 3
def ctxTd (c : List W64) : Nat := fld (ctxW c 0) 4 6
def ctxS2Root (c : List W64) : Nat := fld (ctxW c 0) 12 40 * 4096
def ctxS1Root (c : List W64) : Nat := fld (ctxW c 1) 12 40 * 4096
def ctxPsize (c : List W64) : Nat := fld (ctxW c 2) 0 5
def ctxPtab (c : List W64) : Nat := fld (ctxW c 2) 12 40 * 4096

/-- A "must be 0" field is not 0, or PSIZE is above 20 (R297). -/
def ctxBad (c : List W64) : Bool :=
  decide (fld (ctxW c 0) 10 2 ≠ 0) || decide (fld (ctxW c 0) 52 12 ≠ 0) || decide (ctxW c 3 ≠ 0) || decide (20 < ctxPsize c)

/-- The four words of 32 bytes. -/
def wordsOf (bs : List Byte) : List W64 := (List.range 4).map (fun i => BitVec.ofNat 64 (leNat ((bs.drop (8 * i)).take 8)))

/-- Where the context entry of a requester lies (R297). -/
def State.ctxAddr (s : State) (r rid : Nat) : Nat := fld (s.iotu r).ctl 21 31 * 2 ^ 21 + 32 * rid

/-- The context entry of a requester, read in TD0 with selector 0; none where it is poisoned or no memory holds it
(R296, R297, log 34). -/
def State.contextRead (s : State) (r rid : Nat) : Option (List W64) × State :=
  let pa := s.ctxAddr r rid
  if !(inDram pa && s.dramOk pa) then (none, s)
  else
    let ((bs, p), s) := s.readPa pa 32 0 0
    if p then
      (none, s.record (recAt (srcId 8 r 0 0 0) 2 3 0x0801 none (some pa) [] 0))
    else
      let c := wordsOf bs
      (some c, s.modIotu r (fun u => { u with ctx := ((rid, c) :: u.ctx.filter (fun e => e.1 != rid)).take 64 }))

/-- The context entry of a requester, from the context cache where it is still held (log 11), else read (R296). -/
def State.context (s : State) (r rid : Nat) : Option (List W64) × State :=
  match (s.iotu r).ctx.find? (fun e => e.1 == rid) with
  | some (_, c) =>
    let (i, s) := s.draw
    if Config.entryKept i then (some c, s) else s.contextRead r rid
  | none => s.contextRead r rid

/-- The tag that tells the roots of one context from those of another in the IOTLB (R296). -/
def ioAsid (s1 s2 : Nat) : Nat := s1 / 4096 * 2 ^ 40 + s2 / 4096

/-- The regime of a requester's accesses: a guest's, with the leaves of the first stage at U = 1 (R298). -/
def ioRegimeOf (c : List W64) (root : Nat) : Regime :=
  { num := 1, s1 := if ctxS1 c then some root else none, s2 := some (ctxS2Root c), td := ctxTd c, wks := 0
    asid := ioAsid (if ctxS1 c then root + 2 ^ 60 else 0) (ctxS2Root c), noUG := false, ucheck := 1 }

/-- A table entry that the unit finds poisoned is recorded, and the access answered as for V = 0 (R301). -/
def State.ioFault (s : State) (r td : Nat) (f : XFault) : XFault × State :=
  match f.poison with
  | none => (f, s)
  | some pa =>
    ({ f with kind := 1, poison := none }, s.record (recAt (srcId 8 r 0 0 0) 2 3 0x0801 (some td) (some pa) [] 0))

/-- The regime for a request with an optional PASID: the PASID entry is read through stage 2 (R297, R298). -/
def State.ioRegime (s : State) (r : Nat) (c : List W64) (pasid : Option Nat) : Except XFault Regime × State :=
  match pasid with
  | none => (.ok (ioRegimeOf c (ctxS1Root c)), s)
  | some p =>
    if 2 ^ ctxPsize c ≤ p then (.error (xf 1 0 0), s)
    else
      let gpa := ctxPtab c + 8 * p
      match s.stage2 none r (ctxS2Root c) gpa accLoad with
      | (.error f, s) =>
        let (f, s) := s.ioFault r (ctxTd c) f
        (.error { f with walk := true }, s)
      | (.ok (e, l, m), s) =>
        let pa := leafOut e l gpa
        if !s.tableOk pa then (.error (xf 5 0 0), s)
        else
          let ((bs, poi), s) := (s.setMarks [m]).readPa pa 8 (ctxTd c) (pteKS e)
          let w := leNat bs
          if poi then
            let (f, s) := s.ioFault r (ctxTd c) { xf 0 0 0 with poison := some pa }
            (.error f, s)
          else if !w.testBit 0 then (.error (xf 1 0 0), s)
          else (.ok (ioRegimeOf c (bits w 12 40 * 4096)), s)

/-! ### Translated ranges (R298, R300, R302) -/

/-- The pieces of a range within 4 KiB pages; `k` bounds their number. -/
def pagePieces : Nat → Nat → Nat → List (Nat × Nat)
  | 0, _, _ => []
  | k + 1, va, n =>
    if n = 0 then []
    else
      let m := min n (4096 - va % 4096)
      (va, m) :: pagePieces k (va + m) (n - m)

def piecesOf (va n : Nat) : List (Nat × Nat) := pagePieces (n / 4096 + 2) va n

/-- A translation by a unit (R298, R301). -/
def State.ioLookup (s : State) (r : Nat) (g : Regime) (a : Acc) (va : Nat) : Except XFault Xlat × State :=
  match s.lookup none r g a va with
  | (.error f, s) =>
    let (f, s) := s.ioFault r g.td f
    (.error f, s)
  | x => x

/-- Translates every piece of a range; the first fault and its input address, or the pieces with their leaves. -/
def State.ioXlats (s : State) (r : Nat) (g : Regime) (a : Acc) :
    List (Nat × Nat) → Except (XFault × Nat) (List (Nat × Nat × Xlat)) × State
  | [] => (.ok [], s)
  | (va, n) :: t =>
    match s.ioLookup r g a va with
    | (.error f, s) => (.error (f, va), s)
    | (.ok x, s) =>
      match s.ioXlats r g a t with
      | (.error e, s) => (.error e, s)
      | (.ok l, s) => (.ok ((va, n, x) :: l), s)

/-- A, D and the IOTLB for translations that an access used (R290, R296). -/
def State.ioCommit (s : State) (r : Nat) (g : Regime) (a : Acc) (l : List (Nat × Nat × Xlat)) : State :=
  l.foldl (fun s e => s.commitXlat none r g a e.1 { e.2.2 with glob := false }) s

/-- Where an output address leads (R298): 0 DRAM, 1 an internal endpoint or a port, 2 the message window,
3 nowhere. -/
def State.ioTarget (s : State) (pa : Nat) : Nat :=
  if inDram pa && s.dramOk pa then 0
  else if inEndpoint pa || inPcie pa then 1
  else if inMsgWindow pa then 2
  else 3

/-- The pieces of a physical range within lines; `k` bounds their number. -/
def linePieces : Nat → Nat → Nat → List (Nat × Nat)
  | 0, _, _ => []
  | k + 1, pa, n =>
    if n = 0 then []
    else
      let m := min n (64 - pa % 64)
      (pa, m) :: linePieces k (pa + m) (n - m)

/-- Reads ordinary memory of any length, line by line; whether a line was poisoned (R138). -/
def State.memRange (s : State) (pa n td ks : Nat) : (List Byte × Bool) × State :=
  (linePieces (n / 64 + 2) pa n).foldl (fun (acc : (List Byte × Bool) × State) e =>
    let ((bs, p), s) := acc.2.readPa e.1 e.2 td ks
    ((acc.1.1 ++ bs, acc.1.2 || p), s)) (([], false), s)

/-- Writes ordinary memory of any length, line by line (R138). -/
def State.memStore (s : State) (pa td ks : Nat) (bs : List Byte) (stream : Bool) : State :=
  (linePieces (bs.length / 64 + 2) pa bs.length).foldl (fun s e =>
    s.writePa e.1 td ks ((bs.drop (e.1 - pa)).take e.2) stream) s

/-! ### Shootdown (R293 to R295, R299) -/

/-- The invalidation of a shootdown on one TLB and walk cache: SCOPE 0 a page, 1 a domain, 2 everything; REGIME 3
means all three (R293, R294). -/
def Sd.dropTlb (d : Sd) (l : List TlbEnt) : List TlbEnt :=
  if d.scope = 2 then []
  else
    let regs := if d.regime = 3 then [0, 1, 2] else [d.regime]
    regs.foldl (fun l g => tlbDrop l g d.td (if d.scope = 0 then some (d.va.toNat / 4096 * 4096) else none)) l

def Sd.dropWc (d : Sd) (l : List WalkEnt) : List WalkEnt :=
  if d.scope = 2 then []
  else
    let regs := if d.regime = 3 then [0, 1, 2] else [d.regime]
    regs.foldl (fun l g => if g = 1 then wcDrop (wcDrop l 1 d.td) 1 0 else wcDrop l g d.td) l

/-- Requester IDs behind the ports of a region that answer on a link. -/
def State.ridsOf (s : State) (r : Nat) : List Nat :=
  ((List.range 4).map (fun f =>
    let p := s.port r f
    if s.portPresent r f && p.live && decide (p.sec ≠ 0) then
      ((List.range (p.sub + 1 - p.sec)).map (fun b => (List.range 256).map (fun d => 256 * (p.sec + b) + d))).flatten
    else [])).flatten

/-- The ATS-enabled functions of a region that a shootdown affects (R294, R299). -/
def State.atsTargets (s : State) (r : Nat) : List Nat :=
  if !(s.iotu r).ctl.getLsbD 0 then []
  else (s.ridsOf r).filter (fun rid =>
    let pa := s.ctxAddr r rid
    let c := wordsOf (s.readPa pa 32 0 0).1.1
    inDram pa && s.dramOk pa && ctxV c && !ctxBad c && ctxAts c && (decide (s.sd.scope = 2) || decide (ctxTd c = s.sd.td)))

/-- GO of TLB_SD_CMD starts the command on every core, and with IO = 1 on every unit and function; it is ignored while one
is in progress (R294, R295, R299). -/
def State.sdGo (s : State) : State :=
  if s.sd.busy then s
  else
    let d := s.sd
    let s := { s with sd := { d with busy := true } }
    let s := s.allCores.foldl (fun s c => s.modCore c (fun k => { k with
      tlb := d.dropTlb k.tlb, wcache := d.dropWc k.wcache, sq := k.sq.map (fun e => { e with old := true }) })) s
    if !d.io then s
    else
      (List.range 8).foldl (fun s r =>
        let ts := s.atsTargets r
        let s := s.modIotu r (fun u => { u with tlb := d.dropTlb u.tlb, wcache := d.dropWc u.wcache, ctx := [] })
        ts.foldl (fun s rid =>
          ({ s with sd := { s.sd with wait := s.sd.wait ++ [(r, rid)] } }).emit (.atsInval r rid d.va.toNat)) s) s

/-- TLB_SHOOTDOWN: a write of 1 to GO. -/
def execTlbShootdown (s : State) : Host.Outcome State Fault Refusal := .next (if !s.up then s else s.sdGo)

/-- SHOOTDOWN_COMPLETE: BUSY becomes 0 once no core holds an ordinary store made before the command, nothing that
a unit translated is outstanding, and every function has answered or timed out (R295). -/
def execShootdownComplete (s : State) : Host.Outcome State Fault Refusal :=
  .next (if !s.up || !s.sd.busy then s
    else
      let stores := s.allCores.any (fun c => (s.core c).sq.any (fun e => e.old && e.tord.isNone))
      let reads := s.sd.io && (List.range 8).any (fun r => (s.region r).fn.insts.any (fun e => e.2.pipe && !e.2.peer.isEmpty))
      if stores || reads || !s.sd.wait.isEmpty then s else { s with sd := { s.sd with busy := false } })

/-- ATS_INVALIDATE_COMPLETION (R299). -/
def execAtsInvalidateCompletion (r rid : Nat) (s : State) : Host.Outcome State Fault Refusal :=
  .next (if !s.up then s else { s with sd := { s.sd with wait := s.sd.wait.filter (fun e => e != (r, rid)) } })

/-- ATS_INVALIDATION_TIMEOUT: ATSTO, an event-queue entry of type 4, and the function's translated requests are
refused until its context entry is rewritten (R299). -/
def execAtsInvalidationTimeout (r rid : Nat) (s : State) : Host.Outcome State Fault Refusal :=
  .next (s.orWait (if !s.up || !s.sd.wait.contains (r, rid) then s
    else
      let c := wordsOf (s.readPa (s.ctxAddr r rid) 32 0 0).1.1
      let s := { s with sd := { s.sd with wait := s.sd.wait.filter (fun e => e != (r, rid)), atsto := true } }
      let s := s.modIotu r (fun u => { u with blocked := (rid, c) :: u.blocked.filter (fun e => e.1 != rid) })
      (s.iotEvent r 4 0 rid 0 0).2))

/-- The base of the event queue is written, HEAD and TAIL become 0 and the entries held are discarded; SIZE 9 to 15
leaves the field (R301). -/
def State.eqbWrite (s : State) (r : Nat) (v : W64) : State :=
  s.modIotu r (fun u =>
    let size := if 9 ≤ fld v 0 4 then fld u.eqb 0 4 else fld v 0 4
    { u with eqb := BitVec.ofNat 64 (size + fld v 12 40 * 4096), head := 0, tail := 0 })

/-- IOT_EQB_WRITE. -/
def execIotEqbWrite (r : Nat) (v : BitVec 64) (s : State) : Host.Outcome State Fault Refusal :=
  .next (if !s.up || decide (8 ≤ r) then s else s.eqbWrite r v)

/-- A write of IOT_PRGR sends one response; other codes send nothing (R301). -/
def State.prgrWrite (s : State) (r : Nat) (v : W64) : State :=
  let code := fld v 46 4
  if code = 0 ∨ code = 1 ∨ code = 15 then s.emit (.prg r (fld v 0 16) (fld v 37 9) code) else s

/-- PAGE_REQUEST_GROUP_RESPONSE. -/
def execPageRequestGroupResponse (r : Nat) (v : BitVec 64) (s : State) : Host.Outcome State Fault Refusal :=
  .next (if !s.up || decide (8 ≤ r) then s else s.prgrWrite r v)

end Sys2Proof.Machine
end

