-- ==== Sys2Proof/Machine/Cobalt.lean ====
section
/-! DEFINITION. The Cobalt complex of a region: its function and instances, MSI-X messages, what a descriptor and a
chunk do (R302, R305 to R326, R343). -/

namespace Sys2Proof.Machine

/-! ### The function and its instances -/

/-- The translation context of an instance (R309). -/
def Inst.ctx (x : Inst) : List W64 := [x.ctx0, x.ctx1, x.ctx2, x.ctx3]
/-- The domain of an instance (R309). -/
def Inst.td (x : Inst) : Nat := ctxTd x.ctx
def Inst.regime (x : Inst) : Regime := ioRegimeOf x.ctx (ctxS1Root x.ctx)

/-- INST_RING and INST_QOS (R309). -/
def Inst.depth (x : Inst) : Nat := 2 ^ fld x.ring 0 4
def Inst.base (x : Inst) : Nat := fld x.ring 6 42 * 64
def Inst.qlim (x : Inst) : Nat := fld x.qos 0 9
def Inst.share (x : Inst) : Nat := fld x.qos 16 9
def Inst.vec (x : Inst) : Nat := fld x.qos 32 11
def Inst.ven (x : Inst) : Bool := x.qos.getLsbD 43

/-- Descriptors queued (R314). -/
def Inst.occupancy (x : Inst) : Nat := (x.tail + 65536 - x.head) % 65536
/-- Input address of a ring slot (R310). -/
def Inst.slot (x : Inst) (index : Nat) : Nat := x.base + 64 * (index % x.depth)

/-- The function is in D0 with its complex ON (R344). -/
def State.fnOn (s : State) (r : Nat) : Bool := s.on (384 + r) && decide ((s.fn r).pm = 0)

/-- The function makes accesses of its own: D0, not contained, Bus Master Enable (R342, R346). -/
def State.fnRuns (s : State) (r : Nat) : Bool :=
  s.up && s.fnOn r && !(s.fn r).frozen && (s.fn r).bme

/-- A record of the function; `i` is the instance or 0xFF (R227, R327, R349). -/
def State.cobRecord (s : State) (r i cls typ : Nat) (td : Option Nat) (synd : List Nat) (prog : Nat) : State :=
  s.record (recAt (srcId 7 r 0 0 i) 2 cls typ td none synd prog)

/-- PROG of a descriptor: elements for ASUM, bytes otherwise (R228, R313). -/
def progWord (op n : Nat) : Nat := (if op = 8 then 2 else 1) <<< 62 + n

/-! ### MSI-X (R343) -/

/-- An entry of the table; at reset it is masked, with address and data 0 (log 8). -/
def Fn.entry (x : Fn) (e : Nat) : W128 := SMap.get (BitVec.ofNat 128 (2 ^ 96)) x.msix e

def Fn.masked (x : Fn) (e : Nat) : Bool := x.fmask || (x.entry e).getLsbD 96

/-- A message leaves: to the message window, or nowhere, which is counted and recorded (R343, R349). -/
def State.msixSend (s : State) (r e td : Nat) : State :=
  let w := (s.fn r).entry e
  let addr := fld w 0 64
  if addr = 0xA000802000000 then s.message td 0xFFFF 0 (natLe 4 (fld w 64 32))
  else (s.countDrop r).cobRecord r 0xFF 0 0x070A (some td)
    ([e % 256, e / 256, 0, 0, 0, 0, 0, 0] ++ (natLe 8 addr).map (·.toNat)) 0

/-- An instance raises the message of an entry (R343, R346). -/
def State.msixRaise (s : State) (r e td : Nat) : State :=
  let x := s.fn r
  if !x.msixEn || x.frozen then s
  else if x.masked e || !x.bme then
    s.modFn r (fun x => { x with pba := insNat x.pba e, pbaTd := SMap.set x.pbaTd e td })
  else s.msixSend r e td

/-- The pending messages that may now leave, in order of entry (R343). -/
def State.msixFlush (s : State) (r : Nat) : State :=
  let x := s.fn r
  if !x.msixEn || x.frozen || !x.bme then s
  else
    (x.pba.filter (fun e => !x.masked e)).foldl (fun s e =>
      (s.modFn r (fun y => { y with pba := y.pba.filter (· != e) })).msixSend r e (SMap.get 0 x.pbaTd e)) s

/-! ### Registers of BAR0, as they read (R308, R309, R323, R343, R346) -/

def Inst.statWord (x : Inst) : Nat :=
  x.st + 256 * x.status + 65536 * x.head + 2 ^ 32 * x.tail + 2 ^ 48 * bit x.cwf + 2 ^ 49 * bit x.drf

/-- Register at an 8-byte aligned offset of BAR0 (R308, R342). While the function is contained, everything but the
function registers reads all ones (R346). -/
def State.bar0Read (s : State) (r off : Nat) : W64 :=
  let x := s.fn r
  let v : Nat :=
    if off < 0x1000 then
      if off = 0 then
        bit x.frozen + 2 * x.cause + 8 * bit (decide (x.reads = 0)) + 16 * bit x.crel + 65536 * x.entries
      else 0
    else if x.frozen then 2 ^ 64 - 1
    else if off < 0x10000 then 0
    else if off < 0x18000 then fld (x.entry ((off - 0x10000) / 16)) (64 * ((off / 8) % 2)) 64
    else if off < 0x18100 then
      (List.range 64).foldl (fun a i => a + bit (x.pba.contains (8 * (off - 0x18000) + i)) * 2 ^ i) 0
    else if 0x200000 ≤ off ∧ off < 0x240000 then
      let q := SMap.get Inst.reset x.insts ((off - 0x200000) / 0x1000)
      match off % 0x1000 with
      | 0x00 => q.ctx0.toNat
      | 0x08 => q.ctx1.toNat
      | 0x10 => q.ctx2.toNat
      | 0x18 => q.ctx3.toNat
      | 0x20 => q.ring.toNat
      | 0x28 => q.qos.toNat
      | 0x30 => 256 * q.res + 2048 * bit q.busy
      | 0x38 => q.statWord
      | 0x40 => q.faddr.toNat
      | 0x48 => q.ctxa.toNat
      | 0x50 => q.lastp.toNat
      | _ => 0
    else if 0x240000 ≤ off ∧ off < 0x241000 then
      let o := off - 0x240000
      if o < 0x80 then (SMap.get 0 x.shd (o / 8)).toNat
      else if o < 0x100 then (SMap.get 0 x.live ((o - 0x80) / 8)).toNat
      else if o = 0x100 then x.cmask + 2 ^ 17 * bit x.cbusy
      else 0
    else if 0x300000 ≤ off ∧ off < 0x340000 then
      let q := SMap.get Inst.reset x.insts ((off - 0x300000) / 0x1000)
      if off % 0x1000 = 8 then
        q.st + 8 * q.dbres + 256 * q.status + 65536 * q.head + 2 ^ 32 * q.tail
      else 0
    else 0
  BitVec.ofNat 64 v

/-! ### Tail writes (R314, R324) -/

/-- R314's judgement: 0 accepted, 1 QFULL, 2 BADTAIL, 3 NOTREADY. -/
def Inst.judge (x : Inst) (t : Nat) : Nat :=
  let dOld := x.occupancy
  let dNew := (t + 65536 - x.head) % 65536
  if x.st = 0 then 3
  else if dNew < dOld then 2
  else if x.qlim < dNew ∨ x.depth < dNew then 1
  else 0

/-- A tail write of an instance with its publish tick, 0 for a doorbell (R314, R324). -/
def State.tailWrite (s : State) (r i t p : Nat) : State :=
  s.modInst r i (fun x =>
    let j := x.judge t
    if j = 0 then { x with tail := t, dbres := 0, lastp := BitVec.ofNat 64 p
                           hold := if p = 0 then x.hold else some (t, p) }
    else { x with dbres := j })

/-! ### Faults of an instance's own accesses (R302, R318) -/

/-- Why an access of an instance failed: a fault with KIND, STAGE, write and the input address, an address error,
poison at an input address, a timeout. -/
inductive IoFail where
  | xlat (kind stage : Nat) (wr : Bool) (va : Nat)
  | addr (va : Nat)
  | poison (va : Nat)
  | cto
  deriving DecidableEq, Repr

def ioFailOf (f : XFault) (wr : Bool) (va : Nat) : IoFail := .xlat f.kind f.stage wr va

/-- Reads of a descriptor, parameter block or save area must be installed DRAM: anything else is a fault of KIND 5
(R318). -/
def State.instRead (s : State) (r : Nat) (x : Inst) (va n : Nat) : Except IoFail (List Byte) × State :=
  let g := x.regime
  match s.ioXlats r g accLoad (piecesOf va n) with
  | (.error (f, v), s) => (.error (ioFailOf f false v), s)
  | (.ok l, s) =>
    match l.find? (fun e => s.ioTarget e.2.2.pa != 0) with
    | some e => (.error (.xlat 5 0 false e.1), s)
    | none =>
      let s := s.ioCommit r g accLoad l
      let ((bs, p), s) := l.foldl (fun (acc : (List Byte × Option Nat) × State) e =>
        let ((b, q), s) := acc.2.memRange e.2.2.pa e.2.1 g.td e.2.2.ks
        ((acc.1.1 ++ b, if q && acc.1.2.isNone then some e.1 else acc.1.2), s)) (([], none), s)
      match p with
      | some v => (.error (.poison v), s)
      | none => (.ok bs, s)

/-- Writes of an instance into memory that must be installed DRAM: a fault of KIND 5 otherwise (R318). -/
def State.instWrite (s : State) (r : Nat) (x : Inst) (va : Nat) (bs : List Byte) : Except IoFail Unit × State :=
  let g := x.regime
  match s.ioXlats r g accStore (piecesOf va bs.length) with
  | (.error (f, v), s) => (.error (ioFailOf f true v), s)
  | (.ok l, s) =>
    match l.find? (fun e => s.ioTarget e.2.2.pa != 0) with
    | some e => (.error (.xlat 5 0 true e.1), s)
    | none =>
      let s := s.ioCommit r g accStore l
      (.ok (), l.foldl (fun s e => s.memStore e.2.2.pa g.td e.2.2.ks ((bs.drop (e.1 - va)).take e.2.1) false) s)

/-- KIND and STAGE as DETAIL holds them, whether a write failed, and the input address (R301, R313, R318). -/
def IoFail.detail : IoFail → Nat × Nat × Bool × Nat
  | .xlat k st wr va => (k, st, wr, va)
  | .addr va => (5, 0, false, va)
  | .poison va => (0, 0, false, va)
  | .cto => (0, 0, false, 0)

/-- The record of poison that an instance read (R313, R318, R327). -/
def State.cobPoison (s : State) (r i : Nat) (x : Inst) (op : Nat) : State :=
  s.cobRecord r i 3 0x0701 (some x.td) [x.head % 256, x.head / 256, op] (progWord op x.prog)

/-- The event-queue entry of a stop (R301, R302, R318). -/
def State.cobEvent (s : State) (r i kind stage va : Nat) (wr : Bool) : State :=
  (s.iotEvent r 3 (eqFlags kind stage wr false false) (r + 8 * i) 0 va).2

/-! ### Descriptors (R310 to R312) -/

def nat8 (bs : List Byte) (o : Nat) : Nat := leNat ((bs.drop o).take 8)

/-- A descriptor from the 64 bytes of its slot (R310). -/
def parseDesc (bs : List Byte) : Desc :=
  let b1 := (bs.getD 1 0).toNat
  { op := (bs.getD 0 0).toNat, irq := b1 % 2 == 1, res1 := b1 / 2 + 128 * leNat ((bs.drop 4).take 4)
    param := leNat ((bs.drop 2).take 2), len := nat8 bs 8, src := nat8 bs 0x10, dst := nat8 bs 0x18
    aux1 := nat8 bs 0x20, aux2 := nat8 bs 0x28, raw := bytesLine bs }

/-- Check 1 of R312. -/
def Desc.invalid (d : Desc) : Bool :=
  let z (l : List Nat) : Bool := l.any (· != 0)
  decide (d.res1 ≠ 0) || decide (d.op < 1) || decide (9 < d.op) || decide (2 ^ 48 < d.len) ||
  (match d.op with
   | 1 => z [d.param, d.aux1, d.aux2]
   | 2 => z [d.param, d.src, d.aux2]
   | 3 => z [d.param, d.src, d.aux1, d.aux2] || decide (d.dst % 4096 ≠ 0) || decide (d.len % 4096 ≠ 0)
   | 4 => z [d.aux1, d.aux2] || decide (1 < d.param)
   | 5 => z [d.param]
   | 6 => z [d.param]
   | 7 => z [d.param, d.aux1, d.aux2]
   | 8 => z [d.aux1, d.aux2, bits d.param 6 2, bits d.param 14 2] || decide (38 < bits d.param 0 6) || decide (38 < bits d.param 8 6)
   | 9 => z [d.param, d.len, d.src, d.dst, d.aux2]
   | _ => true)

/-- Check 2 of R312: the ranges of a COPY overlap. -/
def Desc.overlaps (d : Desc) : Bool :=
  decide (d.op = 1) && decide (d.src < d.dst + d.len) && decide (d.dst < d.src + d.len)

/-- The operation state at the start of a descriptor (R311, R172). -/
def Desc.start (d : Desc) : OpSt :=
  match d.op with
  | 4 => { OpSt.reset with hash := if d.param = 0 then sha384Init else List.replicate 25 0 }
  | 8 => { OpSt.reset with acc := { AmAcc.reset with scale := BitVec.ofNat 6 (bits d.param 8 6) } }
  | _ => OpSt.reset

/-- The GCM parameter block captured (R311); none where a "must be 0" byte is not 0 or the length is above
2^32 - 1. -/
def gcmParams (bs : List Byte) : Option OpSt :=
  if leNat ((bs.drop 0x2C).take 4) ≠ 0 ∨ 2 ^ 32 ≤ nat8 bs 0x38 then none
  else
    some { OpSt.reset with
      key := BitVec.ofNat 256 (leNat (bs.take 32)), iv := BitVec.ofNat 96 (leNat ((bs.drop 32).take 12))
      aad := nat8 bs 0x30, aadLen := nat8 bs 0x38, ctr := 2 }

/-- The checks of R312 once the reads are done: the status and DETAIL of the first that fails. -/
def Desc.refused (d : Desc) (params : Bool) : Option (Nat × Nat) :=
  if d.invalid || !params then some (0x20, 0)
  else if d.overlaps then some (0x21, 0)
  else if d.op = 8 ∧ bits d.param 8 6 < bits d.param 0 6 then some (0x25, 3)
  else none

/-! ### Chunks (R302, R311) -/

/-- Bytes, or elements, of the chunk at the recorded progress (R302). -/
def chunkLen (d : Desc) (prog : Nat) : Nat :=
  let left := d.len - prog
  let page (base : Nat) : Nat := min left (4096 - (base + prog) % 4096)
  match d.op with
  | 8 => min left 256
  | 4 => page d.src
  | 7 => page d.src
  | _ => page d.dst

/-- The ranges that a chunk reads (R302, R311). -/
def chunkReads (d : Desc) (o : OpSt) (prog : Nat) : List (Nat × Nat) :=
  let n := chunkLen d prog
  let last := decide (prog + n = d.len)
  match d.op with
  | 1 => [(d.src + prog, n)]
  | 4 => [(d.src + prog, n)]
  | 5 => (d.src + prog, n) :: (if prog = 0 then [(o.aad, o.aadLen)] else [])
  | 6 => (d.src + prog, n) :: (if prog = 0 then [(o.aad, o.aadLen)] else []) ++ (if last then [(d.aux2, 16)] else [])
  | 7 => [(d.src + prog, n), (d.dst + prog, n)]
  | 8 => [(d.src + 16 * prog, 16 * n)]
  | _ => []

/-- What a chunk computes from the bytes of its read ranges: the new operation state, the writes (input address,
bytes), and the status and DETAIL with which the descriptor ends; `none` for a chunk that contributes nothing
and ends the descriptor with AMBER code 1. The last component is by how much PROG rises. -/
structure ChunkOut where
  op : OpSt
  writes : List (Nat × List Byte)
  fin : Option (Nat × Nat)
  adv : Nat
  deriving DecidableEq, Repr

/-- The bytes of FILL at input address `va` (R311). -/
def fillBytes (pat va n : Nat) : List Byte := (List.range n).map (fun i => BitVec.ofNat 8 (bits pat (8 * ((va + i) % 8)) 8))

/-- GCM over a chunk: the text and the operation state after it (R311). -/
def gcmChunk (dec : Bool) (o : OpSt) (prog : Nat) (src aad : List Byte) : List Byte × OpSt :=
  let ks := aesKeys o.key
  let h := aesEnc ks 0
  let y := if prog = 0 then ghash h (aad.length / 16 + 1) 0 aad else o.ghash
  let skip := prog % 16
  let out := (gcmCtr ks o.iv (src.length / 16 + 2) (2 + prog / 16) (List.replicate skip 0 ++ src)).drop skip
  let ct := o.part ++ (if dec then src else out)
  let full := ct.length / 16 * 16
  (out, { o with ghash := ghash h (full / 16) y (ct.take full), part := ct.drop full, ctr := 2 + (prog + src.length) / 16 })

/-- The tag after the last chunk (R311). -/
def gcmFinal (o : OpSt) (len : Nat) : List Byte :=
  let ks := aesKeys o.key
  let y := ghash (aesEnc ks 0) 1 o.ghash o.part
  natLe 16 (gcmTag ks o.iv y o.aadLen len).toNat

/-- The quantities of an ASUM chunk enter the accumulator; none where one is not canonical (R172). -/
def asumChunk (acc : AmAcc) (sc : Nat) (bs : List Byte) (n : Nat) : Option AmAcc :=
  (List.range n).foldl (fun (a : Option AmAcc) i =>
    match a with
    | none => none
    | some a =>
      let q : W128 := BitVec.ofNat 128 (leNat ((bs.drop (16 * i)).take 16))
      if qCanonical q then some (accumulate a (qVal q) sc false).1 else none) (some acc)

/-- The work of a chunk (R302, R311, R313). -/
def chunkWork (d : Desc) (o : OpSt) (prog : Nat) (rd : List (List Byte)) : ChunkOut :=
  let n := chunkLen d prog
  let last := decide (prog + n = d.len)
  let ok : Option (Nat × Nat) := if last then some (1, 0) else none
  let a := rd.getD 0 []
  match d.op with
  | 1 => { op := o, writes := [(d.dst + prog, a)], fin := ok, adv := n }
  | 2 => { op := o, writes := [(d.dst + prog, fillBytes d.aux1 (d.dst + prog) n)], fin := ok, adv := n }
  | 3 => { op := o, writes := [(d.dst + prog, List.replicate n 0)], fin := ok, adv := n }
  | 4 =>
    let buf := o.part ++ a
    if d.param = 0 then
      let (h, p) := shaBlocks (buf.length / 128) o.hash buf
      { op := { o with hash := h, part := p }, writes := if last then [(d.dst, sha384Final h p d.len)] else [], fin := ok, adv := n }
    else
      let (h, p) := sha3Blocks (buf.length / 136) o.hash buf
      { op := { o with hash := h, part := p }, writes := if last then [(d.dst, sha3Final h p)] else [], fin := ok, adv := n }
  | 5 =>
    let (out, o) := gcmChunk false o prog a (rd.getD 1 [])
    { op := o, writes := (d.dst + prog, out) :: (if last then [(d.aux2, gcmFinal o d.len)] else []), fin := ok, adv := n }
  | 6 =>
    let (out, o') := gcmChunk true o prog a (rd.getD 1 [])
    let tag := rd.getD (if prog = 0 then 2 else 1) []
    { op := o', writes := [(d.dst + prog, out)]
      fin := if last then some (if gcmFinal o' d.len = tag then (1, 0) else (3, 0)) else none, adv := n }
  | 7 =>
    let b := rd.getD 1 []
    match (List.range n).find? (fun i => a.getD i 0 != b.getD i 0) with
    | some i => { op := o, writes := [], fin := some (2, 0), adv := i }
    | none => { op := o, writes := [], fin := ok, adv := n }
  | 8 =>
    match asumChunk o.acc (bits d.param 0 6) a n with
    | none => { op := o, writes := [], fin := some (0x25, 1), adv := 0 }
    | some acc =>
      { op := { o with acc }, writes := if last then [(d.dst, accImage acc 0)] else [], fin := ok, adv := n }
  | _ => { op := o, writes := [], fin := some (1, 0), adv := 0 }

/-- A chunk before it writes: translated, read and computed (R302). The writes are the translated pieces. -/
structure ChunkPlan where
  out : ChunkOut
  pieces : List (Xlat × List Byte)
  deriving DecidableEq, Repr

/-- The pieces of up to 512 bytes in which a range of PCI Express memory space is read (R332); `k` bounds their
number. -/
def mrrs : Nat → Nat → Nat → List (Nat × Nat)
  | 0, _, _ => []
  | k + 1, pa, n => if n = 0 then [] else (pa, min n 512) :: mrrs k (pa + 512) (n - 512)

/-- The bytes of a translated source piece (R298, R302, R319): memory, an endpoint's registers, a port's answer, or
the zeros of the message window (R51). -/
def State.pieceRead (s : State) (x : Inst) (e : Nat × Nat × Xlat) : Except IoFail (List Byte) × State :=
  let (va, n, t) := e
  match s.ioTarget t.pa with
  | 0 =>
    let ((bs, p), s) := s.memRange t.pa n x.td t.ks
    (if p then .error (.poison va) else .ok bs, s)
  | 1 =>
    if inPcie t.pa then
      let ps := (mrrs (n / 512 + 1) t.pa n).map (fun q =>
        (x.peer.find? (fun y => y.pa == q.1 && y.n == q.2)).getD { PeerRd.reset with st := 2 })
      if ps.any (fun y => y.st == 3) then (.error .cto, s)
      else if ps.any (fun y => y.st == 4) then (.error (.poison va), s)
      else if ps.any (fun y => y.st == 2) then (.error (.addr va), s)
      else (.ok (ps.map (·.data)).flatten, s)
    else
      let off := t.pa - 0x9010000000000
      match (List.range 8).find? (fun q => (s.fn q).mse && decide ((s.fn q).bar0.toNat ≤ t.pa)
          && decide (t.pa < (s.fn q).bar0.toNat + 0x800000)) with
      | none => (.error (.addr va), s)
      | some q =>
        let o := t.pa - (s.fn q).bar0.toNat
        if !s.fnOn q || (decide (0x400000 ≤ o) && decide (o < 0x440000)) then (.error (.addr va), s)
        else
          (.ok ((List.range n).map (fun j =>
            BitVec.ofNat 8 (fld (s.bar0Read q ((o + j) / 8 * 8)) (8 * ((off + j) % 8)) 8))), s)
  | 2 => (.ok (List.replicate n 0), s)
  | _ => (.error (.addr va), s)

/-- Reads a list of translated pieces in order. -/
def State.pieceReads (s : State) (x : Inst) :
    List (Nat × Nat × Xlat) → Except IoFail (List Byte) × State
  | [] => (.ok [], s)
  | e :: t =>
    match s.pieceRead x e with
    | (.error f, s) => (.error f, s)
    | (.ok b, s) =>
      match s.pieceReads x t with
      | (.error f, s) => (.error f, s)
      | (.ok bs, s) => (.ok (b ++ bs), s)

/-- Translates and reads a list of ranges: all are translated before any is read. -/
def State.rangeReads (s : State) (r : Nat) (x : Inst) (g : Regime) :
    List (List (Nat × Nat × Xlat)) → Except IoFail (List (List Byte)) × State
  | [] => (.ok [], s)
  | l :: t =>
    match (s.ioCommit r g accLoad l).pieceReads x l with
    | (.error f, s) => (.error f, s)
    | (.ok b, s) =>
      match s.rangeReads r x g t with
      | (.error f, s) => (.error f, s)
      | (.ok bs, s) => (.ok (b :: bs), s)

/-- Translates a list of ranges. -/
def State.rangeXlats (s : State) (r : Nat) (g : Regime) (a : Acc) :
    List (Nat × Nat) → Except (XFault × Nat) (List (List (Nat × Nat × Xlat))) × State
  | [] => (.ok [], s)
  | e :: t =>
    match s.ioXlats r g a (piecesOf e.1 e.2) with
    | (.error f, s) => (.error f, s)
    | (.ok l, s) =>
      match s.rangeXlats r g a t with
      | (.error f, s) => (.error f, s)
      | (.ok ls, s) => (.ok (l :: ls), s)

/-- The destination ranges of a chunk, which are translated before anything is read (R302, R311). -/
def chunkDests (d : Desc) (prog : Nat) : List (Nat × Nat) :=
  let n := chunkLen d prog
  let last := decide (prog + n = d.len)
  match d.op with
  | 4 => if last then [(d.dst, if d.param = 0 then 48 else 32)] else []
  | 5 => (d.dst + prog, n) :: (if last then [(d.aux2, 16)] else [])
  | 7 => []
  | 8 => if last then [(d.dst, 64)] else []
  | _ => [(d.dst + prog, n)]

/-- A chunk up to its writes: every page is translated, then every source byte read (R302). -/
def State.chunkPlan (s : State) (r : Nat) (x : Inst) (d : Desc) : Except IoFail ChunkPlan × State :=
  let g := x.regime
  match s.rangeXlats r g accLoad (chunkReads d x.op x.prog) with
  | (.error (f, v), s) => (.error (ioFailOf f false v), s)
  | (.ok src, s) =>
    match s.rangeXlats r g accStore (chunkDests d x.prog) with
    | (.error (f, v), s) => (.error (ioFailOf f true v), s)
    | (.ok dst, s) =>
      match (src ++ dst).flatten.find? (fun e => s.ioTarget e.2.2.pa == 3) with
      | some e => (.error (.addr e.1), s)
      | none =>
        match s.rangeReads r x g src with
        | (.error f, s) => (.error f, s)
        | (.ok rd, s) =>
          let out := chunkWork d x.op x.prog rd
          let pieces := (List.zipWith (fun (w : Nat × List Byte) (l : List (Nat × Nat × Xlat)) =>
            l.map (fun e => (e.2.2, (w.2.drop (e.1 - w.1)).take e.2.1))) out.writes dst).flatten
          (.ok { out, pieces }, s.ioCommit r g accStore dst.flatten)

end Sys2Proof.Machine
end

