-- ==== Sys2Proof/Machine/Engine.lean ====
section
/-! DEFINITION. The Cobalt commands: containment of the function, the life cycle of an instance, doorbells,
inbound windows, BAR0 writes, dispatch, descriptors and chunks (R305 to R326, R342 to R348). -/

namespace Sys2Proof.Machine

/-! ### Containment (R318, R346, R347) -/

/-- Destination bytes in memory that an abandoned chunk had already written: a prefix that the model leaves open
(R318, log 36). -/
def State.abandonWrites (s : State) (r : Nat) (x : Inst) (d : Desc) : State :=
  let (i, s) := s.draw
  match s.chunkPlan r x d with
  | (.error _, s) => s
  | (.ok p, s) =>
    let total := p.pieces.foldl (fun a e => a + e.2.length) 0
    let n := (Config.freeWord i).toNat % (total + 1)
    (p.pieces.foldl (fun (acc : State × Nat) e =>
      let bs := e.2.take (n - acc.2)
      (if s.ioTarget e.1.pa = 0 then acc.1.memStore e.1.pa x.td e.1.ks bs (decide (d.op = 3)) else acc.1, acc.2 + e.2.length))
      (s, 0)).1

/-- An instance with a descriptor in progress stops with CONTAIN (R318). -/
def State.containInst (s : State) (r i : Nat) : State :=
  let x := s.inst r i
  match x.desc with
  | none => s
  | some d =>
    if x.st ≠ 1 ∧ x.st ≠ 4 then s
    else
      let s := if x.pipe then s.abandonWrites r x d else s
      s.modInst r i (fun x => { x with st := 2, status := 0x11, pipe := false, peer := [] })

/-- Entry into containment, or a further cause while the function is contained (R346, R347). -/
def State.contain (s : State) (r cause unit pipe : Nat) : State :=
  let rec0 (s : State) : State := s.cobRecord r 0xFF 3 0x0702 none [cause, unit, pipe] 0
  if (s.fn r).frozen then
    let s := s.modFn r (fun x => { x with crel := false })
    if cause = 3 then rec0 (s.modFn r (fun x => { x with cause := 3 })) else s
  else
    let s := s.modFn r (fun x => { x with frozen := true, cause, entries := satAdd 16 x.entries
                                          aer := if cause = 1 then x.aer ||| 2 ^ 22 else x.aer })
    let s := ((s.fn r).insts.map (·.1)).foldl (fun s i => s.containInst r i) s
    (rec0 s).post (384 * r + 281)

/-- RELEASE sets PEND of a contained function (R347). -/
def State.relRequest (s : State) (r : Nat) : State :=
  s.modFn r (fun x => { x with crel := x.crel || x.frozen })

/-! ### Life cycle (R318) -/

/-- The commands of an instance are taken: the function answers and is not contained (R344, R346). -/
def State.instOpen (s : State) (r i : Nat) : Bool :=
  s.up && decide (r < 8) && decide (i < 64) && s.fnOn r && !(s.fn r).frozen

def State.instRes (s : State) (r i n : Nat) : State := s.modInst r i (fun x => { x with res := n })

/-- The checks of ENABLE (R309, R318). -/
def Inst.configOk (x : Inst) : Bool :=
  ctxV x.ctx && !ctxAts x.ctx && !ctxPri x.ctx && decide (x.ctx2 = 0) && !ctxBad x.ctx
    && decide (3 ≤ fld x.ring 0 4) && decide (fld x.ring 0 4 ≤ 8) && decide (x.base % (64 * x.depth) = 0)

def State.opEnable (s : State) (r i : Nat) : State :=
  let x := s.inst r i
  if x.st ≠ 0 then s.instRes r i 2
  else if x.configOk then s.modInst r i (fun x => { x with st := 1, res := 0 })
  else s.instRes r i 3

def State.opQuiesce (s : State) (r i : Nat) (desc : Bool) : State :=
  let x := s.inst r i
  if x.st = 1 ∨ x.st = 2 ∨ x.st = 3 then
    s.modInst r i (fun x => { x with st := 4, prev := x.st, qdesc := desc, res := 0 })
  else s.instRes r i 2

def State.opRun (s : State) (r i : Nat) : State :=
  let x := s.inst r i
  if x.st = 5 then s.modInst r i (fun x => { x with st := x.prev, res := 0 }) else s.instRes r i 2

def State.opReset (s : State) (r i : Nat) : State :=
  let x := s.inst r i
  if x.st = 0 ∨ x.st = 5 then
    s.modInst r i (fun x => { x with
      st := 0, head := 0, tail := 0, lastp := 0, prog := 0, op := OpSt.reset, desc := none, fin := none, hold := none
      cwf := false, drf := false, needParam := false, pipe := false, peer := [], res := 0 })
  else s.instRes r i 1

/-- The operation state as the save area holds it: the layout within its 336 bytes is the model's (log 35). -/
def opImage (d : Desc) (o : OpSt) : List Byte :=
  let b : List Byte :=
    match d.op with
    | 4 => (o.hash.map (fun w => natLe 8 w.toNat)).flatten ++ o.part
    | 5 => natLe 32 o.key.toNat ++ natLe 12 o.iv.toNat ++ natLe 4 o.ctr ++ natLe 16 o.ghash.toNat
        ++ (o.part ++ List.replicate (16 - o.part.length) 0) ++ natLe 8 o.aad ++ natLe 8 o.aadLen
    | 6 => natLe 32 o.key.toNat ++ natLe 12 o.iv.toNat ++ natLe 4 o.ctr ++ natLe 16 o.ghash.toNat
        ++ (o.part ++ List.replicate (16 - o.part.length) 0) ++ natLe 8 o.aad ++ natLe 8 o.aadLen
    | 8 => accImage o.acc 0
    | _ => []
  b ++ List.replicate (336 - b.length) 0

/-- The final statuses in the order in which the save area numbers a completion that is still to be written
(log 35). -/
def finCodes : List Nat := [1, 2, 3, 4, 0x10, 0x11, 0x20, 0x21, 0x22, 0x23, 0x24, 0x25, 0x26]

/-- The completion that a failed write left pending, as the last byte of the operation state (log 35). -/
def finByte : Option (Nat × Nat) → Byte
  | none => 0
  | some (st, d) => BitVec.ofNat 8 (finCodes.findIdx (· == st) + 16 * d)

def byteFin (b : Byte) : Nat × Nat := (finCodes.getD (b.toNat % 16) 0x10, b.toNat / 16)

/-- The operation state that a save area holds for a descriptor and its progress (log 35). -/
def imageOp (d : Desc) (prog : Nat) (b : List Byte) : OpSt :=
  match d.op with
  | 4 =>
    let n := if d.param = 0 then 8 else 25
    let blk := if d.param = 0 then 128 else 136
    { OpSt.reset with hash := (List.range n).map (fun i => BitVec.ofNat 64 (nat8 b (8 * i)))
                      part := (b.drop (8 * n)).take (prog % blk) }
  | 8 => { OpSt.reset with acc := (imageAcc (b.take 56)).getD AmAcc.reset }
  | _ =>
    { OpSt.reset with key := BitVec.ofNat 256 (leNat (b.take 32)), iv := BitVec.ofNat 96 (leNat ((b.drop 32).take 12))
                      ctr := leNat ((b.drop 44).take 4), ghash := BitVec.ofNat 128 (leNat ((b.drop 48).take 16))
                      part := (b.drop 64).take (prog % 16), aad := nat8 b 80, aadLen := nat8 b 88 }

/-- Bytes 0x000 to 0x1EF of the save area (R320). -/
def Inst.saveBody (x : Inst) : List Byte :=
  let d := x.desc.getD Desc.reset
  natLe 2 1 ++ natLe 1 x.prev ++ natLe 1 x.status ++ natLe 2 x.head ++ natLe 2 x.tail ++ natLe 8 x.ring.toNat
    ++ natLe 8 x.qos.toNat ++ natLe 8 x.lastp.toNat
    ++ natLe 1 (bit x.cwf + 2 * bit x.drf + 4 * bit x.desc.isSome) ++ List.replicate 7 0
    ++ natLe 8 (progWord d.op x.prog) ++ (if x.desc.isSome then lineBytes d.raw 0 64 else List.replicate 64 0)
    ++ ((if x.desc.isSome then opImage d x.op else List.replicate 336 0).take 335 ++ [if x.cwf then finByte x.fin else 0])
    ++ List.replicate 48 0

/-- SAVE of a quiesced instance; an address that is no installed DRAM is a FAULT (R320). -/
def State.opSave (s : State) (r i : Nat) : State :=
  let x := s.inst r i
  let pa := fld x.ctxa 6 46 * 64
  if x.st ≠ 5 then s.instRes r i 2
  else if !(s.fn r).bme then s.modInst r i (fun x => { x with busy := true })
  else if !(inDram pa && s.dramOk pa && s.dramOk (pa + 511)) then s.modInst r i (fun x => { x with res := 4, busy := false })
  else
    let body := x.saveBody
    (s.memStore pa 0 0 (body ++ (sha384 body).take 16) false).modInst r i (fun x => { x with res := 0, busy := false })

/-- The checks of RESTORE (R320). -/
def saveOk (b : List Byte) (x : Inst) : Bool :=
  let head := leNat ((b.drop 4).take 2)
  let tail := leNat ((b.drop 6).take 2)
  let st := (b.getD 2 0).toNat
  decide (leNat (b.take 2) = 1) && decide ((sha384 (b.take 0x1F0)).take 16 = (b.drop 0x1F0).take 16)
    && decide (1 ≤ st) && decide (st ≤ 3) && decide (nat8 b 8 % 16 = fld x.ring 0 4)
    && decide ((tail + 65536 - head) % 65536 ≤ x.depth) && decide ((b.getD 0x20 0).toNat < 8)
    && decide (leNat ((b.drop 0x21).take 7) = 0) && decide (leNat ((b.drop 0x1C0).take 48) = 0)

/-- RESTORE into a free instance (R320). -/
def State.opRestore (s : State) (r i : Nat) : State :=
  let x := s.inst r i
  let pa := fld x.ctxa 6 46 * 64
  if x.st ≠ 0 then s.instRes r i 2
  else if !(s.fn r).bme then s.modInst r i (fun x => { x with busy := true })
  else if !(inDram pa && s.dramOk pa && s.dramOk (pa + 511)) then s.modInst r i (fun x => { x with res := 4, busy := false })
  else
    let ((b, p), s) := s.memRange pa 512 0 0
    if p then s.modInst r i (fun x => { x with res := 4, busy := false })
    else if !saveOk b x then s.modInst r i (fun x => { x with res := 5, busy := false })
    else
      let fl := (b.getD 0x20 0).toNat
      let d := parseDesc ((b.drop 0x30).take 64)
      let prog := nat8 b 0x28 % 2 ^ 62
      s.modInst r i (fun x => { x with
        st := 5, prev := (b.getD 2 0).toNat, status := (b.getD 3 0).toNat, head := leNat ((b.drop 4).take 2)
        tail := leNat ((b.drop 6).take 2), lastp := BitVec.ofNat 64 (nat8 b 0x18), cwf := fl.testBit 0, drf := fl.testBit 1
        desc := if fl.testBit 2 then some d else none, prog
        op := if fl.testBit 2 then imageOp d prog ((b.drop 0x70).take 336) else OpSt.reset
        fin := if fl.testBit 0 then some (byteFin (b.getD 0x1BF 0)) else none, res := 0, busy := false })

/-- DB_CTL: RESUME and SKIP (R318). -/
def State.opResume (s : State) (r i : Nat) : State :=
  let x := s.inst r i
  if x.st = 2 then s.modInst r i (fun x => { x with st := 1, cwf := false, drf := false })
  else if x.st = 3 then s.modInst r i (fun x => { x with st := 1 })
  else s.modInst r i (fun x => { x with dbres := 4 })

def State.opSkip (s : State) (r i : Nat) : State :=
  let x := s.inst r i
  if x.st = 2 then
    s.modInst r i (fun x => { x with st := 1, cwf := false, drf := false, needParam := false, fin := some (4, 0) })
  else s.opResume r i

/-- INST_CMD (R309, R318): OP 0 does nothing, OP 7 to 15 is no command; a write while BUSY = 1 is ignored. -/
def State.instCmd (s : State) (r i op : Nat) (desc : Bool) : State :=
  if (s.inst r i).busy then s
  else
    match op with
    | 0 => s
    | 1 => s.opEnable r i
    | 2 => s.opQuiesce r i desc
    | 3 => s.opRun r i
    | 4 => s.opReset r i
    | 5 => s.opSave r i
    | 6 => s.opRestore r i
    | _ => s.instRes r i 6

/-- The requester may use the doorbell page of an instance: TD0 or its own domain; any other is recorded (R316). -/
def State.foreign (s : State) (r i td tail : Nat) : Option State :=
  let x := s.inst r i
  if td = 0 ∨ td = x.td then none
  else some (s.cobRecord r i 0 0x0706 (some td) [tail % 256, tail / 256 % 256, td] 0)

def State.dbTail (s : State) (r i td t : Nat) : State :=
  match s.foreign r i td t with
  | some s => s
  | none => s.tailWrite r i t 0

def State.dbCtl (s : State) (r i td : Nat) (resume skip : Bool) : State :=
  match s.foreign r i td 0xFFFF with
  | some s => s
  | none =>
    if resume && skip then s.modInst r i (fun x => { x with dbres := 4 })
    else if resume then s.opResume r i
    else if skip then s.opSkip r i
    else s

/-! ### PME (R345) -/

/-- An event that the function in D3 refuses asks for a wake (R345). -/
def State.pmeEvent (s : State) (r : Nat) : State :=
  let x := s.fn r
  let s := s.modFn r (fun x => { x with pmeStatus := true })
  if x.pmeEn && !x.pmeStatus then s.post (384 * r + 280) else s

/-! ### Inbound windows (R321 to R323) -/

def ibwEn (v : W64) : Bool := v.getLsbD 0
def ibwInst (v : W64) : Nat := fld v 1 6
def ibwFirst (v : W64) : Nat := fld v 7 8
def ibwSlots (v : W64) : Nat := fld v 15 9

/-- A transaction through an aperture: delivered to ring slots in the instance's context, or refused and recorded.
The first component says whether it was refused (R321, R322, R345, R346). -/
def State.aperture (s : State) (r w td off : Nat) (rd : Bool) (bs : List Byte) (hdr : List Nat) : Bool × State :=
  let v := SMap.get 0 (s.fn r).live w
  let i := ibwInst v
  let x := s.inst r i
  let bad := rd || !ibwEn v || decide (ibwSlots v * 64 < off + bs.length) || decide (x.st = 0) || !(s.fn r).bme
    || (decide (td ≠ 0) && decide (td ≠ x.td)) || (s.fn r).frozen || !s.fnOn r
  if bad then
    let s := s.cobRecord r i 0 0x0703 (some td) (hdr.take 16) 0
    (true, if s.fnOn r || rd then s else s.pmeEvent r)
  else
    let g := x.regime
    let parts := (linePieces (bs.length / 64 + 2) off bs.length).map (fun e =>
      (x.slot (ibwFirst v + e.1 / 64) + e.1 % 64, (bs.drop (e.1 - off)).take e.2))
    match s.rangeXlats r g accStore (parts.map (fun e => (e.1, e.2.length))) with
    | (.error (f, va), s) => (false, (s.modInst r i (fun x => { x with faddr := BitVec.ofNat 64 (va % 2 ^ 48) })).cobEvent r i f.kind f.stage va true)
    | (.ok ls, s) =>
      match ls.flatten.find? (fun e => s.ioTarget e.2.2.pa != 0) with
      | some e => (false, s.cobEvent r i 5 0 e.1 true)
      | none =>
        let s := s.ioCommit r g accStore ls.flatten
        (false, (List.zipWith (fun (p : Nat × List Byte) l => (p, l)) parts ls).foldl (fun s e =>
          e.2.foldl (fun s q => s.memStore q.2.2.pa x.td q.2.2.ks ((e.1.2.drop (q.1 - e.1.1)).take q.2.1) false) s) s)

/-! ### BAR0 writes (R27, R308, R309, R314, R318, R323, R343, R346) -/

/-- The old word with the covered bytes of a write (R27); bit j of `m` covers byte j, and `v` is 0 elsewhere. -/
def mergeW (old v : W64) (m : Nat) : W64 :=
  (List.range 8).foldl (fun a j => if m.testBit j then setFld a (8 * j) 8 (fld v (8 * j) 8) else a) old

/-- INST_QOS: a SHARE above 256, or one that would raise the function's sum above 256, is not taken (R309). -/
def State.writeQos (s : State) (r i : Nat) (w : W64) : State :=
  let x := s.inst r i
  let sh := fld w 16 9
  let others := (s.fn r).insts.foldl (fun a e => if e.1 = i then a else a + e.2.share) 0
  let sh' := if 256 < sh ∨ 256 < others + sh then x.share else sh
  s.modInst r i (fun x => { x with qos := BitVec.ofNat 64 (fld w 0 9 + 65536 * sh' + 2 ^ 32 * fld w 32 12) })

/-- A write of covered bytes to the register at an 8-byte aligned offset of BAR0, apertures excluded. -/
def State.bar0Reg (s : State) (td r off : Nat) (v : W64) (m : Nat) : State :=
  let x := s.fn r
  if off < 0x1000 then
    if off = 0 then
      let s := if v.getLsbD 5 then s.relRequest r else s
      if v.getLsbD 6 then s.contain r 3 0 0 else s
    else s
  else if x.frozen then s
  else if 0x10000 ≤ off ∧ off < 0x18000 then
    let e := (off - 0x10000) / 16
    let old := x.entry e
    let hi := (off / 8) % 2
    let w := mergeW (BitVec.ofNat 64 (fld old (64 * hi) 64)) v m
    let w := if hi = 1 then BitVec.ofNat 64 (w.toNat % 2 ^ 33) else w
    (s.modFn r (fun x => { x with msix := SMap.set x.msix e (setFld old (64 * hi) 64 w.toNat) })).msixFlush r
  else if 0x200000 ≤ off ∧ off < 0x240000 then
    let i := (off - 0x200000) / 0x1000
    let q := s.inst r i
    let free := decide (q.st = 0)
    match off % 0x1000 with
    | 0x00 => if free then s.modInst r i (fun x => { x with ctx0 := mergeW x.ctx0 v m }) else s
    | 0x08 => if free then s.modInst r i (fun x => { x with ctx1 := mergeW x.ctx1 v m }) else s
    | 0x10 => if free then s.modInst r i (fun x => { x with ctx2 := mergeW x.ctx2 v m }) else s
    | 0x18 => if free then s.modInst r i (fun x => { x with ctx3 := mergeW x.ctx3 v m }) else s
    | 0x20 =>
      if free then
        s.modInst r i (fun x =>
          let w := mergeW x.ring v m
          { x with ring := BitVec.ofNat 64 (fld w 0 4 + 64 * fld w 6 42) })
      else s
    | 0x28 => s.writeQos r i (mergeW q.qos v m)
    | 0x30 => if m.testBit 0 then s.instCmd r i (fld v 0 4) (v.getLsbD 4) else s
    | 0x48 => s.modInst r i (fun x => { x with ctxa := BitVec.ofNat 64 (64 * fld (mergeW x.ctxa v m) 6 46) })
    | _ => s
  else if 0x240000 ≤ off ∧ off < 0x240080 then
    if x.cbusy then s
    else
      let w := (off - 0x240000) / 8
      s.modFn r (fun x => { x with shd := SMap.set x.shd w (BitVec.ofNat 64 (fld (mergeW (SMap.get 0 x.shd w) v m) 0 24)) })
  else if off = 0x240100 then
    s.modFn r (fun x => { x with cmask := fld (mergeW (BitVec.ofNat 64 x.cmask) v m) 0 16, cbusy := x.cbusy || v.getLsbD 16 })
  else if 0x300000 ≤ off ∧ off < 0x340000 then
    let i := (off - 0x300000) / 0x1000
    match off % 0x1000 with
    | 0x00 => if m.testBit 0 && m.testBit 1 then s.dbTail r i td (fld v 0 16) else s
    | 0x10 => if m.testBit 0 then s.dbCtl r i td (v.getLsbD 0) (v.getLsbD 1) else s
    | _ => s
  else s

/-- The registers that bytes from an offset cover: the aligned offset, the word with the bytes in place, the mask. -/
def regParts (off : Nat) (bs : List Byte) : List (Nat × W64 × Nat) :=
  (List.range ((off + bs.length - 1) / 8 + 1 - off / 8)).map (fun j =>
    let a := (off / 8 + j) * 8
    let lo := max off a
    let hi := min (off + bs.length) (a + 8)
    (a, BitVec.ofNat 64 (leNat ((bs.drop (lo - off)).take (hi - lo)) <<< (8 * (lo - a))), maskOf (lo - a) (hi - lo)))

/-- A write of bytes within BAR0 that is no aperture's (R308). -/
def State.bar0Write (s : State) (td r off : Nat) (bs : List Byte) : State :=
  (regParts off bs).foldl (fun s e => s.bar0Reg td r e.1 e.2.1 e.2.2) s

/-- The function whose BAR0 holds an address of the internal endpoint window (R342). -/
def State.bar0Of (s : State) (pa : Nat) : Option Nat :=
  (List.range 8).find? (fun r => (s.fn r).mse && inEndpoint (s.fn r).bar0.toNat && inEndpoint ((s.fn r).bar0.toNat + 0x7FFFFF)
    && decide ((s.fn r).bar0.toNat ≤ pa) && decide (pa < (s.fn r).bar0.toNat + 0x800000))

/-- A write that reaches the internal endpoint window from a peer: refused where nothing takes it (R322, R342,
R344). The first component says whether it was refused. -/
def State.endpointWrite (s : State) (td pa : Nat) (bs : List Byte) (hdr : List Nat) : Bool × State :=
  match s.bar0Of pa with
  | none => (true, s)
  | some r =>
    let off := pa - (s.fn r).bar0.toNat
    if 0x400000 ≤ off ∧ off < 0x440000 then
      s.aperture r ((off - 0x400000) / 0x4000) td (off % 0x4000) false bs hdr
    else if !s.fnOn r then (true, s)
    else (false, s.bar0Write td r off bs)

/-- A write toward PCI Express memory space, in packets of at most 512 bytes; none where it cannot be sent yet
(R330, R358). -/
def State.pcieWrite (s : State) (pa : Nat) (bs : List Byte) : Option State :=
  match s.portOfAddr pa with
  | none => some s
  | some f => s.sendPosted (stackOfAddr pa) f pa bs

/-! ### Descriptors -/

/-- A stop of an instance's own access (R318): DRF or not, the event, the address; poison is recorded. -/
def State.stopFault (s : State) (r i : Nat) (f : IoFail) (op : Nat) : State :=
  let x := s.inst r i
  let s := match f with
    | .poison _ => s.cobPoison r i x op
    | _ => s
  let (k, st, wr, va) := f.detail
  (s.modInst r i (fun x => { x with faddr := BitVec.ofNat 64 (va % 2 ^ 48) })).cobEvent r i k st va wr

/-- An instance leaves its running state for `st`: while it quiesces, that is the state to return to (R318). -/
def Inst.goTo (x : Inst) (st : Nat) : Inst := if x.st = 4 then { x with prev := st } else { x with st := st }

/-- VEC after a stop or a final status (R313). -/
def State.postVec (s : State) (r i status : Nat) (irq : Bool) : State :=
  let x := s.inst r i
  if x.ven && (irq || decide (16 ≤ status)) then s.msixRaise r x.vec x.td else s

/-- The second half of a start, once the descriptor is held: the parameter block, the checks and the operation state
(R311, R312, R318, R325). -/
def State.descBegin (s : State) (r i : Nat) (d : Desc) : State :=
  let go (s : State) (params : Option OpSt) : State :=
    s.modInst r i (fun x =>
      let x := { x with desc := some d, prog := 0, needParam := false }
      match d.refused params.isSome with
      | some f => { x with fin := some f }
      | none =>
        if d.op = 9 then
          { x with fin := some (if d.aux1 ≠ 0 ∧ d.aux1 = x.lastp.toNat then (1, 0) else (0x26, 0)) }
        else { x with op := params.getD OpSt.reset })
  if d.op = 5 ∨ d.op = 6 then
    match s.instRead r (s.inst r i) d.aux1 64 with
    | (.error f, s) =>
      let (k, st, _, _) := f.detail
      (s.stopFault r i f d.op).modInst r i (fun x => { x with
        desc := some d, prog := 0, needParam := true, fin := some (0x10, k + 8 * st) })
    | (.ok bs, s) => go s (gcmParams bs)
  else go s (some d.start)

/-! ### Dispatch (R305, R307) -/

/-- The next chunk of an instance is ready (R302, R307). -/
def Inst.ready (x : Inst) : Bool :=
  (decide (x.st = 1) || (decide (x.st = 4) && x.qdesc && decide (x.prev = 1))) && x.desc.isSome && x.fin.isNone
    && !x.needParam && !x.pipe

/-- Instances that a free pipe may take, in rotating order within the first tier that holds one (R218, R307). -/
def Fn.candidates (x : Fn) : List Nat :=
  let q (i : Nat) : Inst := SMap.get Inst.reset x.insts i
  let elig := ((List.range 64).map (fun j => (x.ptr + j) % 64)).filter (fun i => (q i).ready)
  let t1 := elig.filter (fun i => decide ((q i).disp < (q i).share))
  if t1.isEmpty then elig else t1

/-- The reads of a chunk in PCI Express memory space: physical address and length (R302, R332). -/
def State.peerReads (s : State) (r : Nat) (x : Inst) (d : Desc) : List (Nat × Nat) :=
  match (s.rangeXlats r x.regime accLoad (chunkReads d x.op x.prog)).1 with
  | .error _ => []
  | .ok ls =>
    ((ls.flatten.filter (fun e => inPcie e.2.2.pa)).map (fun e => mrrs (e.2.1 / 512 + 1) e.2.2.pa e.2.1)).flatten

/-- Sends the reads of a chunk; none where one must wait, in which case only a wake of the stack is kept. -/
def State.sendPeers (s : State) (r i : Nat) : List (Nat × Nat) → State × Bool
  | [] => (s, true)
  | (pa, n) :: t =>
    match s.portOfAddr pa with
    | none =>
      (s.modInst r i (fun x => { x with peer := x.peer ++ [{ PeerRd.reset with pa, n, st := 2 }] })).sendPeers r i t
    | some f =>
      let g := stackOfAddr pa
      match s.sendReq g f { PReq.reset with who := 256 + 64 * r + i, size := n, td := (s.inst r i).td } 0 pa [] with
      | .wait s => (s, false)
      | .ur s =>
        (s.modInst r i (fun x => { x with peer := x.peer ++ [{ PeerRd.reset with pa, n, st := 2 }] })).sendPeers r i t
      | .ok s tag =>
        ((s.modInst r i (fun x => { x with peer := x.peer ++ [{ PeerRd.reset with pa, n, key := 1024 * (4 * g + f) + tag }] })).modFn r
          (fun x => { x with reads := x.reads + 1 })).sendPeers r i t

/-- Counts a dispatch (R307). -/
def Fn.count (x : Fn) (i : Nat) : Fn :=
  let x := { x with ptr := (i + 1) % 64, win := (x.win + 1) % 256
                    insts := SMap.set x.insts i { SMap.get Inst.reset x.insts i with
                      pipe := true, disp := (SMap.get Inst.reset x.insts i).disp + 1 } }
  if x.win = 0 then { x with insts := x.insts.map (fun e => (e.1, { e.2 with disp := 0 })) } else x

/-! ### Chunks: the writes (R302) -/

/-- The writes toward ports can be sent now (R358). -/
def State.canWrite (s : State) (p : ChunkPlan) : Bool :=
  p.pieces.all (fun e => !inPcie e.1.pa || (s.pcieWrite e.1.pa e.2).isSome)

def State.writePiece (s : State) (td : Nat) (stream : Bool) (e : Xlat × List Byte) : State :=
  match s.ioTarget e.1.pa with
  | 0 => s.memStore e.1.pa td e.1.ks e.2 stream
  | 1 => if inPcie e.1.pa then (s.pcieWrite e.1.pa e.2).getD s else (s.endpointWrite td e.1.pa e.2 []).2
  | 2 => s.message td 0xFFFF (e.1.pa - 0xA000802000000) e.2
  | _ => s

/-! ### Meanings -/

/-- DB_TAIL_WRITE (R314, R316). -/
def execDbTailWrite (r i td tail : Nat) (s : State) : Host.Outcome State Fault Refusal :=
  .next (if s.instOpen r i then s.dbTail r i td (tail % 65536) else s)

/-- RESUME (R316, R318). -/
def execResumeDesc (r i td : Nat) (s : State) : Host.Outcome State Fault Refusal :=
  .next (if s.instOpen r i then s.dbCtl r i td true false else s)

/-- SKIP (R316, R318). -/
def execSkipDesc (r i td : Nat) (s : State) : Host.Outcome State Fault Refusal :=
  .next (if s.instOpen r i then s.dbCtl r i td false true else s)

/-- ENABLE (R318). -/
def execEnableInst (r i : Nat) (s : State) : Host.Outcome State Fault Refusal :=
  .next (if s.instOpen r i then s.instCmd r i 1 false else s)

/-- QUIESCE (R318). -/
def execQuiesceInst (r i : Nat) (desc : Bool) (s : State) : Host.Outcome State Fault Refusal :=
  .next (if s.instOpen r i then s.instCmd r i 2 desc else s)

/-- RUN (R318). -/
def execRunInst (r i : Nat) (s : State) : Host.Outcome State Fault Refusal :=
  .next (if s.instOpen r i then s.instCmd r i 3 false else s)

/-- RESET (R318). -/
def execResetInst (r i : Nat) (s : State) : Host.Outcome State Fault Refusal :=
  .next (if s.instOpen r i then s.instCmd r i 4 false else s)

/-- SAVE (R318, R320). -/
def execSaveInst (r i : Nat) (s : State) : Host.Outcome State Fault Refusal :=
  .next (s.orWait (if s.instOpen r i then s.instCmd r i 5 false else s))

/-- RESTORE (R318, R320). -/
def execRestoreInst (r i : Nat) (s : State) : Host.Outcome State Fault Refusal :=
  .next (s.orWait (if s.instOpen r i then s.instCmd r i 6 false else s))

/-- INST_CMD_UNDEFINED: OP 7 to 15 sets RES to UNDEF (R309, R318). -/
def execInstCmdUndefined (r i op : Nat) (s : State) : Host.Outcome State Fault Refusal :=
  .next (if s.instOpen r i && decide (7 ≤ op) && decide (op ≤ 15) then s.instCmd r i op false else s)

/-- QUIESCE_COMPLETE: no chunk is in a pipe and nothing is to be written; with DESC = 1 a running descriptor has
ended too (R303, R318). -/
def execQuiesceComplete (r i : Nat) (s : State) : Host.Outcome State Fault Refusal :=
  .next (
    let x := s.inst r i
    if !s.instOpen r i || decide (x.st ≠ 4) || x.pipe || x.fin.isSome || (x.qdesc && decide (x.prev = 1) && x.desc.isSome)
    then s
    else s.modInst r i (fun x => { x with st := 5, qdesc := false }))

/-- CHUNK_DISPATCH: the arbiter gives a free pipe the next chunk (R305, R307, R342). -/
def execChunkDispatch (r : Nat) (s : State) : Host.Outcome State Fault Refusal :=
  .next (s.orWait (
    if !s.fnRuns r || (s.fn r).holdUcode || decide (4 ≤ ((s.fn r).insts.filter (fun e => e.2.pipe)).length) then s
    else
      match (s.fn r).candidates with
      | [] => s
      | i :: _ =>
        let x := s.inst r i
        match x.desc with
        | none => s
        | some d =>
          match (s.modInst r i (fun x => { x with peer := [] })).sendPeers r i (s.peerReads r x d) with
          | (s', true) => s'.modFn r (fun f => f.count i)
          | (s', false) => { s with pwr := s'.pwr }))

/-- DESCRIPTOR_START: an active instance reads and checks the descriptor at HEAD (R310, R312, R318, R325). -/
def execDescriptorStart (r i : Nat) (s : State) : Host.Outcome State Fault Refusal :=
  .next (s.orWait (
    let x := s.inst r i
    if !s.fnRuns r || decide (64 ≤ i) || (s.fn r).holdUcode || decide (x.st ≠ 1) || x.fin.isSome then s
    else
      match x.desc with
      | some d => if x.needParam then s.descBegin r i d else s
      | none =>
        if x.occupancy = 0 then s
        else
          match s.instRead r x (x.slot x.head) 64 with
          | (.error f, s) =>
            ((s.stopFault r i f 0).modInst r i (fun x => { (x.goTo 2) with status := 0x10, drf := true })).postVec r i
              0x10 false
          | (.ok bs, s) => s.descBegin r i (parseDesc bs)))

/-- CHUNK_COMPLETE: the chunk in a pipe translates, reads and writes; a fault, an address error, poison or a timeout
writes nothing (R302, R313, R319). -/
def execChunkComplete (r i : Nat) (s : State) : Host.Outcome State Fault Refusal :=
  .next (s.orWait (
    let x := s.inst r i
    if !s.up || !s.fnOn r || decide (64 ≤ i) || !x.pipe || x.peer.any (fun p => p.st == 0) then s
    else
      match x.desc with
      | none => s
      | some d =>
        let stop (s : State) (f : Nat × Nat) : State :=
          s.modInst r i (fun x => { x with pipe := false, peer := [], fin := some f })
        match s.chunkPlan r x d with
        | (.error f, s) =>
          match f with
          | .xlat k st _ _ => stop (s.stopFault r i f d.op) (0x10, k + 8 * st)
          | .addr _ => stop s (0x22, 0)
          | .poison _ => stop (s.cobPoison r i x d.op) (0x23, 0)
          | .cto => stop s (0x24, 0)
        | (.ok p, s') =>
          if !s'.canWrite p then s
          else
            (p.pieces.foldl (fun s e => s.writePiece x.td (decide (d.op = 3)) e) s').modInst r i (fun x => { x with
              pipe := false, peer := [], op := p.out.op, prog := x.prog + p.out.adv, fin := p.out.fin })))

/-- DESCRIPTOR_COMPLETION: CMPL and PROG are written, HEAD advances past a final status, and VEC may be posted; a
fault of the write stops the instance with CWF (R313, R318). -/
def execDescriptorCompletion (r i : Nat) (s : State) : Host.Outcome State Fault Refusal :=
  .next (s.orWait (
    let x := s.inst r i
    if !s.fnRuns r || decide (64 ≤ i) || (decide (x.st ≠ 1) && decide (x.st ≠ 4)) || x.cwf then s
    else
      match x.fin with
      | none => s
      | some (status, detail) =>
        let op := (x.desc.getD Desc.reset).op
        let irq := (x.desc.getD Desc.reset).irq
        let bs := natLe 8 (status + 256 * detail) ++ natLe 8 (progWord op x.prog)
        match s.instWrite r x (x.slot x.head + 0x30) bs with
        | (.error f, s) =>
          ((s.stopFault r i f op).modInst r i (fun x => { (x.goTo 2) with status := 0x10, cwf := true })).postVec r i
            0x10 irq
        | (.ok (), s) =>
          let s := s.modInst r i (fun x =>
            let x := { x with fin := none, status := if 16 ≤ status then status else x.status }
            if status = 0x10 ∨ status = 0x11 then x.goTo 2
            else
              let x := { x with head := (x.head + 1) % 65536, desc := none, prog := 0, op := OpSt.reset, needParam := false }
              if 0x20 ≤ status then x.goTo 3 else x.goTo 1)
          s.postVec r i status irq))

/-- APERTURE_WRITE: a peer transaction through an inbound window; a refused read is answered Unsupported Request
(R321, R322). -/
def execApertureWrite (r w td rid off : Nat) (rd : Bool) (bytes : List (BitVec 8)) (hdr : List Nat) (s : State) :
    Host.Outcome State Fault Refusal :=
  .next (
    if !s.up || decide (8 ≤ r) || decide (16 ≤ w) then s
    else if !(s.fn r).mse then (if rd then s.emit (.completion r rid .ur []) else s)
    else
      let (refused, s) := s.aperture r w td off rd bytes hdr
      if refused && rd then s.emit (.completion r rid .ur []) else s)

/-- IBW_COMMIT: MASK is written and GO requests the application, unless one is in progress (R323). -/
def execIbwCommit (r : Nat) (mask : BitVec 16) (s : State) : Host.Outcome State Fault Refusal :=
  .next (if !s.up || decide (8 ≤ r) || !s.fnOn r || (s.fn r).frozen then s
    else s.modFn r (fun x => { x with cmask := mask.toNat, cbusy := true }))

/-- IBW_COMMIT_POINT: the shadow values of the mask become live (R323). -/
def execIbwCommitPoint (r : Nat) (s : State) : Host.Outcome State Fault Refusal :=
  .next (if !s.up || decide (8 ≤ r) || !(s.fn r).cbusy then s
    else s.modFn r (fun x => { x with cbusy := false, live := (List.range 16).foldl (fun l w =>
      if x.cmask.testBit w then SMap.set l w (SMap.get 0 x.shd w) else l) x.live }))

/-- FUNCTION_CONTAINMENT (R346, R347). -/
def execFunctionContainment (r cause unit pipe : Nat) (s : State) : Host.Outcome State Fault Refusal :=
  .next (s.orWait (if !s.up || decide (8 ≤ r) || !(decide (1 ≤ cause) && decide (cause ≤ 3)) then s else s.contain r cause unit pipe))

/-- CONTAINMENT_RELEASE: sets PEND of a contained function (R347). -/
def execContainmentRelease (r : Nat) (s : State) : Host.Outcome State Fault Refusal :=
  .next (if !s.up || decide (8 ≤ r) then s else s.relRequest r)

/-- CONTAINMENT_RELEASE_EFFECT: with PEND and QUIET, and the unit in service (R347). -/
def execContainmentReleaseEffect (r : Nat) (s : State) : Host.Outcome State Fault Refusal :=
  .next (
    let x := s.fn r
    if !s.up || decide (8 ≤ r) || !x.crel || decide (x.reads ≠ 0) || (s.iotu r).fenced then s
    else
      ((s.modFn r (fun x => { x with frozen := false, crel := false })).cobRecord r 0xFF 0 0x0707 none
        [x.entries % 256, x.entries / 256] 0).msixFlush r)

/-- A write of PowerState: D0 or D3hot; D3hot is ignored and recorded while an instance runs; the domain follows
(R344). D1 and D2 are not supported, and the field keeps its value. -/
def State.powerstate (s : State) (r v : Nat) : State :=
  let x := s.fn r
  let d := s.dom (384 + r)
  if v = 3 then
    if x.pm = 3 then s
    else if x.insts.any (fun e => decide (1 ≤ e.2.st) && decide (e.2.st ≤ 4)) then s.cobRecord r 0xFF 0 0x0709 none [3] 0
    else
      let s := s.modFn r (fun x => { x with pm := 3 })
      if d.st = 0 then s.modDom (384 + r) (fun d => { d with st := 3, dest := 1, src := 0 }) else s
  else if v = 0 then
    let s := s.modFn r (fun x => { x with pm := 0 })
    s.wakeDom (384 + r) 9
  else s

/-- POWERSTATE_WRITE (R344). -/
def execPowerstateWrite (r v : Nat) (s : State) : Host.Outcome State Fault Refusal :=
  .next (if !s.up || decide (8 ≤ r) then s else s.powerstate r v)

/-- PME_STATUS_CLEAR (R345). -/
def execPmeStatusClear (r : Nat) (s : State) : Host.Outcome State Fault Refusal :=
  .next (if !s.up || decide (8 ≤ r) then s else s.modFn r (fun x => { x with pmeStatus := false }))

/-- The effects of Bus Master Enable becoming 1: saves that wait, then the pending messages (R342, R343). -/
def State.bmeRelease (s : State) (r : Nat) : State :=
  let s := ((s.fn r).insts.map (·.1)).foldl (fun s i =>
    let x := s.inst r i
    if x.busy then (if x.st = 5 then s.opSave r i else s.opRestore r i) else s) s
  s.msixFlush r

/-- A write of the Command register: Memory Space Enable, Bus Master Enable and SERR# Enable; setting Bus Master
Enable lets the held work and messages go (R341, R342). -/
def State.commandWrite (s : State) (r : Nat) (mse bme serr : Bool) : State :=
  (s.modFn r (fun x => { x with mse, bme, serr })).bmeRelease r

/-- COMMAND_REGISTER_WRITE (R341, R342). -/
def execCommandRegisterWrite (r v : Nat) (s : State) : Host.Outcome State Fault Refusal :=
  .next (s.orWait (if !s.up || decide (8 ≤ r) then s else s.commandWrite r (v.testBit 1) (v.testBit 2) (v.testBit 8)))

/-- MSIX_ENTRY_UNMASK: the entry's mask bit becomes 0 and its pending message is sent (R343). -/
def execMsixEntryUnmask (r e : Nat) (s : State) : Host.Outcome State Fault Refusal :=
  .next (if !s.up || decide (8 ≤ r) || decide (2048 ≤ e) || !s.fnOn r || (s.fn r).frozen then s
    else
      (s.modFn r (fun x => { x with msix := SMap.set x.msix e (setFld (x.entry e) 96 1 0) })).msixFlush r)

end Sys2Proof.Machine
end

