-- ==== Sys2Proof/Machine/Pcie.lean ====
section
/-! DEFINITION. PCI Express root ports: configuration registers, completions and timeouts, messages, Downstream
Port Containment, and the commands of a link (R29, R328 to R341, R349). -/

namespace Sys2Proof.Machine

/-! ### Error reporting of a port (R331, R338, R340; log 37) -/

/-- The error's severity reaches the port's source: 0 correctable, 1 non-fatal, 2 fatal (R340). -/
def State.aerPost (s : State) (r f sev : Nat) : State :=
  if (s.port r f).rootCmd.testBit sev then s.post (384 * r + 272 + f) else s

/-- A port logs an error of its own: status bit, header, and its report. Errors that the base specification calls
advisory are reported as correctable. -/
def State.aerError (s : State) (r f bit sev : Nat) (hdr : List Nat) : State :=
  (s.modPort r f (fun p => { p with
    aerUnc := p.aerUnc ||| 2 ^ bit, aerCor := if sev = 0 then p.aerCor ||| 2 ^ 13 else p.aerCor
    aerLog := if p.aerUnc = 0 then hdr.take 16 else p.aerLog })).aerPost r f sev

/-! ### Completion of what waits (R336, R337) -/

/-- Loaded bytes reach their register (R62, R68, R162). -/
def Core.putDest (k : Core) (rd : PDest) (bs : List Byte) : Core :=
  let w (off n : Nat) : Nat := leNat ((bs.drop off).take n)
  match rd with
  | .none => k
  | .g r n sg => { k with g := k.g.set r (if sg then BitVec.ofInt 64 (sInt (8 * n) (w 0 n)) else BitVec.ofNat 64 (w 0 n)) }
  | .pair r p => { k with g := (k.g.set r (BitVec.ofNat 64 (w 0 8))).set p (BitVec.ofNat 64 (w 8 8)) }
  | .v r => { k with v := k.v.set r (BitVec.ofNat 256 (w 0 32)) }
  | .lane r hi => { k with v := k.v.set r (putLane k.v[r] hi (BitVec.ofNat 128 (w 0 16))) }

/-- A core's request completes with these bytes: the register is written and the instruction retires; an instruction
with further accesses keeps the bytes and goes on when its sender repeats it (R73, log 2). -/
def State.coreDone (s : State) (q : PReq) (bs : List Byte) : State :=
  let k := s.core q.who
  let got := k.half.getD []
  if k.run ≠ .dev then s
  else if q.more then
    s.setCore q.who { k with run := .run, half := some (got ++ bs ++ List.replicate (q.size - bs.length) 0) }
  else (s.setCore q.who { k.putDest q.rd (got ++ bs) with run := .run }).retire q.who q.met false (k.pc + 4)

/-- A core's request fails: a load completes with all ones, and a record goes to the requester's domain (R336). -/
def State.coreFail (s : State) (r f typ : Nat) (q : PReq) (hdr : List Nat) : State :=
  (s.portRecord r f 3 typ (some q.td) hdr).coreDone q (List.replicate q.size 0xFF)

/-- A core's load receives poison (R41, R229, R338). -/
def State.corePoison (s : State) (q : PReq) : State :=
  if (s.core q.who).run ≠ .dev then s
  else ((s.modCore q.who (fun k => { k with run := .run })).poisonRecord q.who q.td q.pa).raise q.who (mkExc 17)

/-- A read of a Cobalt chunk ends: 1 with its data, 2 an error, 3 a timeout, 4 poison (R319, R336, R338). -/
def State.peerDone (s : State) (r f tag : Nat) (q : PReq) (st : Nat) (bs : List Byte) : State :=
  let g := (q.who - 256) / 64
  let key := 1024 * (4 * r + f) + tag
  (s.modInst g ((q.who - 256) % 64) (fun x => { x with
    peer := x.peer.map (fun p => if p.key = key ∧ p.st = 0 then { p with st := st, data := bs.take p.n } else p) })).modFn g
    (fun x => { x with reads := x.reads - 1 })

/-- A request ends with an error: Unsupported Request, Completer Abort, or a contained port (R336, R339). -/
def State.reqError (s : State) (r f tag : Nat) (q : PReq) (hdr : List Nat) : State :=
  if q.who < 256 then s.coreFail r f 0x0607 q hdr else s.peerDone r f tag q 2 []

def State.dropReq (s : State) (r f tag : Nat) : State := s.modPort r f (fun p => { p with reqs := SMap.del p.reqs tag })

/-- The request that a tag names. -/
def Port.reqOf (p : Port) (tag : Nat) : Option PReq := (p.reqs.find? (fun e => e.1 == tag)).map (·.2)

/-- A completion that completes no request is counted and recorded (R319, R337). -/
def State.lateCpl (s : State) (r f tag : Nat) (hdr : List Nat) : State :=
  match (s.port r f).quar.find? (fun e => e.1 == tag) with
  | some (_, _, who) =>
    if 256 ≤ who then
      let g := (who - 256) / 64
      (s.modRegion g (fun x => { x with lateCto := satAdd 32 x.lateCto })).cobRecord g ((who - 256) % 64) 0 0x0704 none
        (hdr.take 16) 0
    else (s.modPort r f (fun p => { p with cnt1 := satAdd 32 p.cnt1 })).portRecord r f 0 0x0604 none hdr
  | none => (s.modPort r f (fun p => { p with cnt1 := satAdd 32 p.cnt1 })).portRecord r f 0 0x0604 none hdr

/-! ### Downstream Port Containment (R339) -/

/-- DPC is triggered: the link is disabled and every outstanding request of the port completes with an error; the RP
PIO log takes the first of a core. -/
def State.dpcEnter (s : State) (r f cause : Nat) (hdr : List Nat) : State :=
  let p := s.port r f
  if p.dpc then (if cause = 8 then s.modPort r f (fun p => { p with dpcFence := true }) else s)
  else
    let firstCore := (p.reqs.find? (fun e => decide (e.2.who < 256))).map (fun e => e.2.hdr)
    let s := s.modPort r f (fun p => { p with
      dpc := true, up := false, dpcFence := decide (cause = 8), cnt4 := satAdd 32 p.cnt4, reqs := []
      rppio := match p.rppio, firstCore with | none, some h => some h | o, _ => o })
    let s := p.reqs.foldl (fun s e => s.reqError r f e.1 e.2 []) s
    (s.portRecord r f 3 0x0602 none (cause :: (hdr ++ List.replicate 15 0).take 15)).post (384 * r + 276 + f)

/-- Software clears DPC Trigger Status: containment ends, unless the port is contained by a fence whose unit is
still fenced (R339). The link retrains by its own command. -/
def State.dpcClear (s : State) (r f : Nat) : State :=
  let p := s.port r f
  if !p.dpc || (p.dpcFence && (s.iotu r).fenced) then s
  else s.modPort r f (fun p => { p with dpc := false, dpcFence := false })

/-! ### Configuration space (R29, R330, R341; log 33) -/

/-- Revision ID (R5). -/
def State.revision (s : State) : Nat := 16 * s.fuses.stepL + s.fuses.stepD

/-- Four configuration bytes that software may write, from `off`, with their default. -/
def cfgWord (m : List (Nat × Nat)) (off dflt : Nat) : Nat :=
  SMap.get (bits dflt 0 8) m off + 256 * SMap.get (bits dflt 8 8) m (off + 1)
    + 65536 * SMap.get (bits dflt 16 8) m (off + 2) + 16777216 * SMap.get (bits dflt 24 8) m (off + 3)

/-- The header log of AER as words, first header byte most significant. -/
def hdrWord (h : List Nat) (i : Nat) : Nat :=
  (List.range 4).foldl (fun a j => 256 * a + h.getD (4 * i + j) 0) 0

/-- The link speed field for a rate code of object 0x6110 or slower: 6 at 64 GT/s. -/
def linkSpeed (code : Nat) : Nat := 6 - min code 5

/-- A register of a root port (R330, R335, R338 to R340). -/
def State.portDword (s : State) (r f off : Nat) : Nat :=
  let p := s.port r f
  match off with
  | 0x00 => 0x92001EA7
  | 0x04 => (cfgWord p.cfg 4 0) % 65536 + 0x100000
  | 0x08 => s.revision + 0x06040000
  | 0x0C => cfgWord p.cfg 0x0C 0 % 256 + 65536 * (1 + 128 * bit (decide ((s.region r).bifurc ≠ 0)))
  | 0x18 => cfgWord p.cfg 0x18 0 % 256 + 256 * p.sec + 65536 * p.sub
  | 0x20 => cfgWord p.cfg 0x20 0
  | 0x24 => cfgWord p.cfg 0x24 0 + 0x00010001
  | 0x28 => cfgWord p.cfg 0x28 0
  | 0x2C => cfgWord p.cfg 0x2C 0
  | 0x34 => 0x40
  | 0x3C => cfgWord p.cfg 0x3C 0 % 256 + 65536 * (cfgWord p.cfg 0x3C 0 / 65536)
  | 0x40 => 0x00035001
  | 0x50 => 0x00420010
  | 0x54 => 0x00008022
  | 0x58 => cfgWord p.cfg 0x58 0x2810 % 65536
  | 0x5C => 0x00000C06 + 16 * (if (s.region r).bifurc = 0 then 16 else if (s.region r).bifurc = 1 then 8 else 4)
  | 0x60 => cfgWord p.cfg 0x60 0 % 65536 + 65536 * (if p.up then linkSpeed p.rate + 16 * p.width + 8192 else 0)
  | 0x6C => 8 * bit p.pmeInt + 16 * bit p.crsVis + cfgWord p.cfg 0x6C 0 % 8 + 65536
  | 0x70 => match p.pmeStat with | some rid => rid + 65536 | none => 0
  | 0x74 => 0x0003098F
  | 0x78 => p.cto + cfgWord p.cfg 0x78 0 % 65536 / 16 * 16
  | 0x7C => 0x7E
  | 0x80 => cfgWord p.cfg 0x80 6 % 65536
  | 0x100 => 0x15020001
  | 0x104 => p.aerUnc
  | 0x108 => cfgWord p.cfg 0x108 0
  | 0x10C => cfgWord p.cfg 0x10C 0x00462030
  | 0x110 => p.aerCor
  | 0x114 => cfgWord p.cfg 0x114 0x2000
  | 0x118 => 0xA0
  | 0x11C => hdrWord p.aerLog 0
  | 0x120 => hdrWord p.aerLog 1
  | 0x124 => hdrWord p.aerLog 2
  | 0x128 => hdrWord p.aerLog 3
  | 0x12C => p.rootCmd
  | 0x130 => p.rootErr
  | 0x150 => 0x0001001D
  | 0x154 => 0x0040 + 65536 * p.dpcEn
  | 0x158 => bit p.dpc
  | 0x170 => hdrWord (p.rppio.getD []) 0
  | 0x174 => hdrWord (p.rppio.getD []) 1
  | 0x178 => hdrWord (p.rppio.getD []) 2
  | 0x17C => hdrWord (p.rppio.getD []) 3
  | _ => 0

/-- The bits of the registers that software may write and that nothing else holds, by offset (log 33). -/
def portRw : Nat → Nat
  | 0x04 => 0x547
  | 0x0C => 0xFF
  | 0x18 => 0xFF
  | 0x20 => 0xFFF0FFF0
  | 0x24 => 0xFFF0FFF0
  | 0x28 => 0xFFFFFFFF
  | 0x2C => 0xFFFFFFFF
  | 0x3C => 0x035F00FF
  | 0x58 => 0xFFFF
  | 0x60 => 0x1FB
  | 0x6C => 0x7
  | 0x78 => 0xFFE0
  | 0x80 => 0xFFFF
  | 0x108 => 0xFFFFFFFF
  | 0x10C => 0xFFFFFFFF
  | 0x114 => 0xFFFFFFFF
  | _ => 0

/-- Writes the covered bytes of a register that holds plain bits. -/
def putCfg (m : List (Nat × Nat)) (off rw v mask : Nat) : List (Nat × Nat) :=
  (List.range 4).foldl (fun m j =>
    if mask.testBit j && decide (bits rw (8 * j) 8 ≠ 0) then SMap.set m (off + j) (bits v (8 * j) 8 &&& bits rw (8 * j) 8)
    else m) m

/-- A write of covered bytes to a register of a root port. -/
def State.portWrite (s : State) (r f off v mask : Nat) : State :=
  let b (i : Nat) : Bool := mask.testBit (i / 8) && v.testBit i
  let cov (i : Nat) : Bool := mask.testBit (i / 8)
  let clr (x : Nat) : Nat := (List.range 32).foldl (fun a i => if b i && a.testBit i then a - 2 ^ i else a) x
  let s := s.modPort r f (fun p => { p with cfg := putCfg p.cfg off (portRw off) v mask })
  match off with
  | 0x18 => s.modPort r f (fun p => { p with
      sec := if cov 8 then bits v 8 8 else p.sec, sub := if cov 16 then bits v 16 8 else p.sub })
  | 0x6C => if cov 0 then s.modPort r f (fun p => { p with pmeInt := b 3, crsVis := b 4 }) else s
  | 0x70 => if b 16 then s.modPort r f (fun p => { p with pmeStat := none }) else s
  | 0x78 =>
    if cov 0 && [0, 1, 2, 5, 6, 9, 10, 13].contains (bits v 0 4) then s.modPort r f (fun p => { p with cto := bits v 0 4 }) else s
  | 0x104 => s.modPort r f (fun p => { p with aerUnc := clr p.aerUnc })
  | 0x110 => s.modPort r f (fun p => { p with aerCor := clr p.aerCor })
  | 0x12C => if cov 0 then s.modPort r f (fun p => { p with rootCmd := bits v 0 3 }) else s
  | 0x130 => s.modPort r f (fun p => { p with rootErr := clr p.rootErr })
  | 0x154 =>
    let s := if cov 16 then s.modPort r f (fun p => { p with dpcEn := if bits v 16 2 = 3 then p.dpcEn else bits v 16 2 }) else s
    if b 22 && decide ((s.port r f).dpcEn ≠ 0) then s.dpcEnter r f 7 [] else s
  | 0x158 => if b 0 then s.dpcClear r f else s
  | _ => s

/-- The base address register as the device decodes it: 8 MiB, aligned (R341, R342). -/
def bar0Bits : Nat := 2 ^ 64 - 2 ^ 23

/-- A register of a Cobalt function's configuration space (R341). -/
def State.fnDword (s : State) (r off : Nat) : Nat :=
  let x := s.fn r
  let dev := Config.deviceId s.part
  match off with
  | 0x00 => 0x1EA7 + 65536 * dev
  | 0x04 => 2 * bit x.mse + 4 * bit x.bme + 256 * bit x.serr + 0x100000
  | 0x08 => s.revision + 0x08800000
  | 0x0C => cfgWord x.cfg 0x0C 0 % 256
  | 0x10 => x.bar0.toNat % 2 ^ 32 + 4
  | 0x14 => x.bar0.toNat / 2 ^ 32
  | 0x2C => 0x1EA7 + 65536 * dev
  | 0x34 => 0x40
  | 0x3C => cfgWord x.cfg 0x3C 0 % 256
  | 0x40 => 0xC0035001
  | 0x44 => x.pm + 8 + 256 * bit x.pmeEn + 32768 * bit x.pmeStatus
  | 0x50 => 0x00929010
  | 0x54 => 0x00008002
  | 0x58 => cfgWord x.cfg 0x58 0x2810 % 65536
  | 0x90 => 0x11 + 65536 * (0x7FF + 16384 * bit x.fmask + 32768 * bit x.msixEn)
  | 0x94 => 0x00010000
  | 0x98 => 0x00018000
  | 0x100 => 0x00020001
  | 0x104 => x.aer
  | 0x108 => cfgWord x.cfg 0x108 0
  | 0x10C => cfgWord x.cfg 0x10C 0x00462030
  | 0x114 => cfgWord x.cfg 0x114 0x2000
  | _ => 0

def fnRw : Nat → Nat
  | 0x0C => 0xFF
  | 0x3C => 0xFF
  | 0x58 => 0xFFFF
  | 0x108 => 0xFFFFFFFF
  | 0x10C => 0xFFFFFFFF
  | 0x114 => 0xFFFFFFFF
  | _ => 0

/-- A write of covered bytes to a register of a Cobalt function's configuration space (R341 to R345). -/
def State.fnWrite (s : State) (r off v mask : Nat) : State :=
  let b (i : Nat) : Bool := mask.testBit (i / 8) && v.testBit i
  let cov (i : Nat) : Bool := mask.testBit (i / 8)
  let s := s.modFn r (fun x => { x with cfg := putCfg x.cfg off (fnRw off) v mask })
  match off with
  | 0x04 => s.commandWrite r
      (if cov 0 then b 1 else (s.fn r).mse) (if cov 0 then b 2 else (s.fn r).bme) (if cov 8 then b 8 else (s.fn r).serr)
  | 0x10 => s.modFn r (fun x => { x with bar0 := mergeW x.bar0 (BitVec.ofNat 64 v) mask &&& BitVec.ofNat 64 bar0Bits })
  | 0x14 => s.modFn r (fun x => { x with
      bar0 := mergeW x.bar0 (BitVec.ofNat 64 (v * 2 ^ 32)) (mask * 16) &&& BitVec.ofNat 64 bar0Bits })
  | 0x44 =>
    let s := if cov 8 then
        s.modFn r (fun x => { x with pmeEn := b 8, pmeStatus := x.pmeStatus && !b 15 })
      else s
    if cov 0 then s.powerstate r (bits v 0 2) else s
  | 0x90 =>
    if cov 24 then (s.modFn r (fun x => { x with fmask := b 30, msixEn := b 31 })).msixFlush r else s
  | 0x104 => s.modFn r (fun x => { x with
      aer := (List.range 32).foldl (fun a i => if b i && a.testBit i then a - 2 ^ i else a) x.aer })
  | _ => s

/-- Bus, device and function of an ECAM address (R24). -/
def ecamBdf (pa : Nat) : Nat × Nat × Nat := (bits pa 20 8, bits pa 15 5, bits pa 12 3)

/-- A function of the internal bus is present: a root port, or a Cobalt function (R29). -/
def State.bus0Present (s : State) (dev fn : Nat) : Bool :=
  (decide (dev < 8) && decide (fn < 4) && s.portPresent dev fn) || (decide (8 ≤ dev) && decide (dev < 16) && decide (fn = 0))

/-- Bytes of the internal bus's configuration space; an absent function reads all ones (R29). -/
def State.bus0Read (s : State) (pa n : Nat) : List Byte :=
  let (_, dev, fn) := ecamBdf pa
  if !s.bus0Present dev fn then List.replicate n 0xFF
  else
    (List.range n).map (fun j =>
      let o := (pa + j) % 4096
      let w := if dev < 8 then s.portDword dev fn (o / 4 * 4) else s.fnDword (dev - 8) (o / 4 * 4)
      BitVec.ofNat 8 (bits w (8 * (o % 4)) 8))

/-- A configuration write on the internal bus; one to an absent function is discarded (R29). -/
def State.bus0Write (s : State) (pa : Nat) (bs : List Byte) : State :=
  let (_, dev, fn) := ecamBdf pa
  if !s.bus0Present dev fn then s
  else
    (regParts (pa % 4096) bs).foldl (fun s e =>
      let half (s : State) (h : Nat) : State :=
        let m := bits e.2.2 (4 * h) 4
        if m = 0 then s
        else if dev < 8 then s.portWrite dev fn (e.1 + 4 * h) (fld e.2.1 (32 * h) 32) m
        else s.fnWrite (dev - 8) (e.1 + 4 * h) (fld e.2.1 (32 * h) 32) m
      half (half s 0) 1) s

/-- The region and port that lead to a bus (R29, R338). -/
def State.busOwner (s : State) (bus : Nat) : Option (Nat × Nat) :=
  ((List.range 8).filterMap (fun r => (s.portOfBus r bus).map (fun f => (r, f)))).head?

/-! ### Accesses of a core (R332, R336) -/

/-- What a core's access toward PCI Express comes to. -/
inductive LinkAcc where
  /-- it cannot be sent yet; what it changed is only the wake of the stack -/
  | wait (s : State)
  /-- done in this step, with these bytes for a read -/
  | done (s : State) (bs : List Byte)
  /-- sent: the core waits for the completion -/
  | sent (s : State)
  deriving DecidableEq, Repr

/-- A read in PCI Express memory space or in the configuration space of a bus below a port. -/
def State.linkRead (s : State) (q : PReq) (pa : Nat) : LinkAcc :=
  let ur (s : State) (r f : Nat) : LinkAcc :=
    .done (s.portRecord r f 3 0x0607 (some q.td) []) (List.replicate q.size 0xFF)
  let cfg := inEcam pa
  let owner := if cfg then s.busOwner (ecamBdf pa).1 else (s.portOfAddr pa).map (fun f => (stackOfAddr pa, f))
  match owner with
  | none => if cfg then .done s (List.replicate q.size 0xFF) else ur s (stackOfAddr pa) 0
  | some (r, f) =>
    match s.sendReq r f { q with vid := cfg && decide (pa % 4096 < 2) } (if cfg then 2 else 0) pa [] with
    | .wait s => .wait s
    | .ur s => ur s r f
    | .ok s _ => .sent (s.modCore q.who (fun k => { k with run := .dev }))

/-- A write: posted in memory space; a configuration write waits for its completion (R336). -/
def State.linkWrite (s : State) (q : PReq) (pa : Nat) (bs : List Byte) : LinkAcc :=
  if !inEcam pa then
    match s.portOfAddr pa with
    | none => .done s []
    | some f =>
      match s.sendPosted (stackOfAddr pa) f pa bs with
      | some s => .done s []
      | none => .wait (s.wakeDom (408 + stackOfAddr pa) 6)
  else
    match s.busOwner (ecamBdf pa).1 with
    | none => .done s []
    | some (r, f) =>
      match s.sendReq r f { q with write := true } 3 pa bs with
      | .wait s => .wait s
      | .ur s => .done (s.portRecord r f 3 0x0607 (some q.td) []) []
      | .ok s _ => .sent (s.modCore q.who (fun k => { k with run := .dev }))

/-! ### Meanings -/

/-- The port takes part in what arrives on its link. -/
def State.linkOpen (s : State) (r f : Nat) : Bool :=
  s.up && decide (r < 8) && s.portPresent r f && (s.port r f).live && s.on (408 + r)

/-- LINK_TRAINING: a port that is not contained and whose stack is ON trains; the rate is the slower of the cap and the
partner's, and a narrower or slower link is recorded (R329). -/
def execLinkTraining (r f width rate cap failed : Nat) (s : State) : Host.Outcome State Fault Refusal :=
  .next (
    let p := s.port r f
    let lanes := if (s.region r).bifurc = 0 then 16 else if (s.region r).bifurc = 1 then 8 else 4
    if !s.up || decide (8 ≤ r) || !s.portPresent r f || p.dpc || p.perst || !s.on (408 + r)
      || decide (width = 0) || decide (lanes < width) then s
    else
      let own := s.settingN 0x6110 (4 * r + f + 1) 0
      let best := max own cap
      let s := s.modPort r f (fun p => { p with up := true, width, rate := max best rate, inL12 := false })
      if width < lanes ∨ best < rate then
        s.portRecord r f 1 0x0608 none [width, rate, failed % 256, failed / 256 % 256]
      else s)

/-- COMPLETION_RECEIVED: a completion completes the request whose tag it carries, or is discarded (R334, R336, R337,
R338). -/
def execCompletionReceived (r f tag : Nat) (k : CplKind) (data : List (BitVec 8)) (hdr : List Nat) (s : State) :
    Host.Outcome State Fault Refusal :=
  .next (
    if !s.linkOpen r f then s
    else
      match (s.port r f).reqOf tag with
      | none => (s.lateCpl r f tag hdr).aerError r f 16 0 hdr
      | some q =>
        let free := s.dropReq r f tag
        let bs := (data ++ List.replicate q.size 0).take q.size
        match k with
        | .ok => if q.who < 256 then free.coreDone q bs else free.peerDone r f tag q 1 bs
        | .poisoned =>
          let free := free.aerError r f 12 1 hdr
          if q.write then free.coreDone q bs
          else if q.who < 256 then free.corePoison q else free.peerDone r f tag q 4 []
        | .crs =>
          if !inEcam q.pa then free.reqError r f tag q hdr
          else if q.vid && (s.port r f).crsVis then
            free.coreDone q ((List.range q.size).map (fun j =>
              if (q.pa + j) % 4096 = 0 then 1 else if (q.pa + j) % 4096 = 1 then 0 else 0xFF))
          else s.modPort r f (fun p => { p with reqs := SMap.set p.reqs tag { q with crs := true } })
        | _ => free.reqError r f tag q hdr)

/-- COMPLETION_TIMEOUT: at a boundary, a request older than its limit times out and its tag is quarantined for twice
the limit (R335 to R337, R319). -/
def execCompletionTimeout (r f tag : Nat) (s : State) : Host.Outcome State Fault Refusal :=
  .next (
    if !s.up || decide (8 ≤ r) || !s.portPresent r f then s
    else
      match (s.port r f).reqOf tag with
      | none => s
      | some q =>
        if s.noon.wall < q.sent + q.limit then s
        else
          let s := (s.dropReq r f tag).modPort r f (fun p => { p with
            cnt2 := satAdd 32 p.cnt2, quar := p.quar ++ [(tag, s.noon.wall + 2 * q.limit, q.who)] })
          let s := s.aerError r f 14 1 q.hdr
          if q.who < 256 then s.coreFail r f 0x0605 q q.hdr else s.peerDone r f tag q 3 [])

/-- TAG_QUARANTINE_END (R337). -/
def execTagQuarantineEnd (r f tag : Nat) (s : State) : Host.Outcome State Fault Refusal :=
  .next (if !s.up || decide (8 ≤ r) || !s.portPresent r f then s
    else s.modPort r f (fun p => { p with quar := p.quar.filter (fun e => !(e.1 == tag && decide (e.2.1 ≤ s.noon.wall))) }))

/-- CRS_RETRY: the port reissues a configuration request that was answered with CRS (R334). -/
def execCrsRetry (r f tag : Nat) (s : State) : Host.Outcome State Fault Refusal :=
  .next (
    if !s.linkOpen r f then s
    else
      match (s.port r f).reqOf tag with
      | none => s
      | some q =>
        if !q.crs then s
        else (s.modPort r f (fun p => { p with reqs := SMap.set p.reqs tag { q with crs := false } })).emit
          (.request r f tag (if q.write then 3 else 2) q.pa []))

/-- PCIE_MESSAGE_RECEIVED: discarded, counted and recorded (R333). -/
def execPcieMessageReceived (r f : Nat) (k : MsgKind) (hdr : List Nat) (s : State) : Host.Outcome State Fault Refusal :=
  .next (
    if !s.linkOpen r f then s
    else
      match k with
      | .errCor => s
      | .errNonfatal => s
      | .errFatal => s
      | _ => (s.modPort r f (fun p => { p with cnt3 := satAdd 32 p.cnt3 })).portRecord r f 0 0x0609 none hdr)

/-- Root Error Status after an error message: first and multiple, non-fatal and fatal (R338, log 37). -/
def rootStatus (w : Nat) : MsgKind → Nat
  | .errCor => if w.testBit 0 then w ||| 2 else w ||| 1
  | .errNonfatal => (if w.testBit 2 then w ||| 8 else w ||| 4) ||| 32
  | .errFatal => (if w.testBit 2 then w ||| 8 else w ||| 4 ||| 16) ||| 64
  | _ => w

/-- ERROR_MESSAGE_RECEIVED: the messages that trigger DPC do so; the others update Root Error Status and post the
source where their report is enabled (R338 to R340). -/
def execErrorMessageReceived (r f : Nat) (k : MsgKind) (hdr : List Nat) (s : State) : Host.Outcome State Fault Refusal :=
  .next (
    if !s.linkOpen r f then s
    else
      let p := s.port r f
      let log (sev : Nat) : State := (s.modPort r f (fun p => { p with rootErr := rootStatus p.rootErr k })).aerPost r f sev
      match k with
      | .errCor => log 0
      | .errNonfatal => if p.dpcEn = 2 then s.dpcEnter r f 6 hdr else log 1
      | .errFatal => if p.dpcEn ≠ 0 then s.dpcEnter r f 5 hdr else log 2
      | _ => s)

/-- PME_MESSAGE_RECEIVED (R340). -/
def execPmeMessageReceived (r f rid : Nat) (s : State) : Host.Outcome State Fault Refusal :=
  .next (
    if !s.linkOpen r f then s
    else
      let s := s.modPort r f (fun p => { p with pmeStat := some (p.pmeStat.getD rid) })
      if (s.port r f).pmeInt then s.post (384 * r + 282 + f) else s)

/-- A bucket takes an error (R147): it counts at most one a window that has not yet counted `depth`. -/
def Bucket.add (b : Bucket) (tick depth window : Nat) : Bucket × Bool :=
  let n := b.count + 1
  let ovf := decide (depth < n)
  let stamps := if ovf then (b.stamps ++ [tick]).filter (fun t => decide (tick ≤ t + window)) else b.stamps
  ({ count := if ovf then 0 else n, stamps }, ovf)

/-- LINK_ERROR_CORRECTED: a correctable link error sets its status bit and counts in the port's bucket; an overflow is
recorded (R340). -/
def execLinkErrorCorrected (r f which : Nat) (s : State) : Host.Outcome State Fault Refusal :=
  .next (
    if !s.linkOpen r f then s
    else
      let (b, ovf) := (s.port r f).bkt.add s.noon.tick (s.settingN 0x6030 1 64) (s.settingN 0x6030 3 864000000000)
      let s := (s.modPort r f (fun p => { p with bkt := b, aerCor := p.aerCor ||| 2 ^ (which % 32) })).aerPost r f 0
      if ovf then s.portRecord r f 1 0x0601 none ((natLe 4 (s.port r f).aerCor).map (·.toNat)) else s)

/-- DPC_TRIGGER by the port's own fatal errors (causes 1 to 4) or by software (7), where the trigger is enabled
(R338, R339). -/
def execDpcTrigger (r f cause : Nat) (hdr : List Nat) (s : State) : Host.Outcome State Fault Refusal :=
  .next (
    let p := s.port r f
    if !s.up || decide (8 ≤ r) || !s.portPresent r f || decide (p.dpcEn = 0) then s
    else if (1 ≤ cause ∧ cause ≤ 4) ∨ cause = 7 then
      let s := if p.dpc ∨ cause = 7 then s
        else s.aerError r f (if cause = 1 then 18 else if cause = 2 then 13 else if cause = 3 then 17 else 5) 2 hdr
      s.dpcEnter r f cause hdr
    else s)

/-- DPC_TRIGGER_STATUS_CLEAR (R339). -/
def execDpcTriggerStatusClear (r f : Nat) (s : State) : Host.Outcome State Fault Refusal :=
  .next (if !s.up || decide (8 ≤ r) || !s.portPresent r f then s else s.dpcClear r f)

end Sys2Proof.Machine
end

