-- ==== Sys2Proof/Machine/Dma.lean ====
section
/-! DEFINITION. Requests of external devices through an I/O translation unit: untranslated and translated
requests, translation and page requests, and what a root port does with a request of its partner
(R296 to R300, R331, R332, R338). -/

namespace Sys2Proof.Machine

/-- What a device asks for: a read, a write, a write that carries poison, an AtomicOp on old bytes. -/
inductive DmaOp where
  | read
  | write (bs : List Byte)
  | poison (n : Nat)
  | atomic (f : List Byte → List Byte)

/-- The bytes a request covers. -/
def DmaOp.size (len : Nat) : DmaOp → Nat
  | .read => len
  | .write bs => bs.length
  | .poison n => n
  | .atomic _ => len

/-- How a request is answered: performed, with bytes for one that returns some and whether
they are poisoned (R267), or Unsupported Request. -/
inductive DmaAns where
  | done (bs : List Byte) (poison : Bool)
  | ur
  /-- Unsupported Request that R338 records -/
  | urRec
  /-- it cannot be performed yet: a stack must wake first (R358) -/
  | wait
  deriving DecidableEq, Repr

def DmaOp.acc : DmaOp → Acc
  | .read => accLoad
  | .atomic _ => accRmw
  | _ => accStore

def DmaOp.posted : DmaOp → Bool
  | .write _ => true
  | .poison _ => true
  | _ => false

/-- An event-queue entry of type 1 (R297, R300). -/
def State.dmaFault (s : State) (r rid : Nat) (pasid : Option Nat) (addr kind stage : Nat) (wr : Bool) : State :=
  (s.iotEvent r 1 (eqFlags kind stage wr pasid.isSome false) rid (pasid.getD 0 % 2 ^ 20) addr).2

/-- The context of a requester, or why the request is refused: 1 not valid or translation off, 3 malformed (R297). -/
def State.dmaContext (s : State) (r rid : Nat) : Except Nat (List W64) × State :=
  if !(s.iotu r).ctl.getLsbD 0 then (.error 1, s)
  else
    match s.context r rid with
    | (none, s) => (.error 1, s)
    | (some c, s) => if !ctxV c then (.error 1, s) else if ctxBad c then (.error 3, s) else (.ok c, s)

/-- An endpoint's register space or a window takes an access here (R28, R342, R344). -/
def State.peerTarget (s : State) (pa : Nat) : Bool :=
  if inPcie pa then (s.portOfAddr pa).isSome
  else
    match s.bar0Of pa with
    | none => false
    | some q => s.fnOn q || (decide (0x400000 ≤ pa - (s.fn q).bar0.toNat) && decide (pa - (s.fn q).bar0.toNat < 0x440000))

/-- Every line that a poisoned write touches is stored poisoned (R338). -/
def State.poisonRange (s : State) (pa n td ks : Nat) : State :=
  (linePieces (n / 64 + 2) pa n).foldl (fun s e => s.poisonLine (e.1 / 64) td ks) s

/-- One translated piece is performed; the bytes it returns (R298, R322, R331, R332). -/
def State.dmaPiece (s : State) (td rid pa ks n : Nat) (op : DmaOp) (bs : List Byte) (hdr : List Nat) : DmaAns × State :=
  match s.ioTarget pa with
  | 0 =>
    match op with
    | .read => let ((b, p), s) := s.memRange pa n td ks; (.done b p, s)
    | .write _ => (.done [] false, s.memStore pa td ks bs false)
    | .poison _ => (.done [] false, s.poisonRange pa n td ks)
    | .atomic f =>
      let ((b, p), s) := s.memRange pa n td ks
      (.done b p, if p then s else s.memStore pa td ks (f b) false)
  | 1 =>
    if !s.peerTarget pa then (.urRec, s)
    else if inPcie pa then
      match op with
      | .write _ =>
        match s.pcieWrite pa bs with
        | some s => (.done [] false, s)
        | none => (.wait, s.wakeDom (408 + stackOfAddr pa) 6)
      | .poison _ => (.done [] false, s)
      | .read => (.done [] false, s.emit (.request (stackOfAddr pa) ((s.portOfAddr pa).getD 0) 0 6 pa []))
      | .atomic _ => (.urRec, s)
    else
      match op with
      | .write _ => (.done [] false, (s.endpointWrite td pa bs hdr).2)
      | .poison _ => (.done [] false, s)
      | .atomic _ => (.urRec, s)
      | .read =>
        match s.bar0Of pa with
        | none => (.urRec, s)
        | some q =>
          let o := pa - (s.fn q).bar0.toNat
          if 0x400000 ≤ o ∧ o < 0x440000 then
            (.ur, (s.aperture q ((o - 0x400000) / 0x4000) td (o % 0x4000) true (List.replicate n 0) hdr).2)
          else
            (.done ((List.range n).map (fun j =>
              BitVec.ofNat 8 (fld (s.bar0Read q ((o + j) / 8 * 8)) (8 * ((o + j) % 8)) 8))) false, s)
  | 2 =>
    match op with
    | .write _ => (.done [] false, s.message td rid (pa - 0xA000802000000) bs)
    | .read => (.done (List.replicate n 0) false, s)
    | .poison _ => (.done [] false, s.countDrop 8)
    | .atomic _ => (.urRec, s)
  | _ => (.urRec, s)

/-- The pieces of a request in order; the first that is refused ends it. -/
def State.dmaPieces (s : State) (td rid va : Nat) (op : DmaOp) (bs : List Byte) (hdr : List Nat) :
    List (Nat × Nat × Nat × Nat) → DmaAns × State
  | [] => (.done [] false, s)
  | (v, n, pa, ks) :: t =>
    match s.dmaPiece td rid pa ks n op ((bs.drop (v - va)).take n) hdr with
    | (.done b p, s) =>
      match s.dmaPieces td rid va op bs hdr t with
      | (.done b' p', s) => (.done (b ++ b') (p || p'), s)
      | x => x
    | x => x

/-- The bytes a write carries. -/
def DmaOp.bytes : DmaOp → List Byte
  | .write bs => bs
  | _ => []

/-- Nothing of a request is performed unless every piece of it has a target (R28, R300, R338). -/
def State.dmaRoute (s : State) (td rid va : Nat) (op : DmaOp) (hdr : List Nat) (ps : List (Nat × Nat × Nat × Nat)) :
    DmaAns × State :=
  if ps.any (fun e => s.ioTarget e.2.2.1 == 3 || (s.ioTarget e.2.2.1 == 1 && !s.peerTarget e.2.2.1)) then (.urRec, s)
  else s.dmaPieces td rid va op op.bytes hdr ps

/-- An untranslated request (R297, R298, R300). -/
def State.dmaUntranslated (s : State) (r rid : Nat) (pasid : Option Nat) (addr len : Nat) (op : DmaOp) (hdr : List Nat) :
    DmaAns × State :=
  let wr := op.acc.w
  match s.dmaContext r rid with
  | (.error k, s) => (.ur, s.dmaFault r rid pasid addr k 0 wr)
  | (.ok c, s) =>
    let fault (s : State) (f : XFault) (va : Nat) : DmaAns × State := (.ur, s.dmaFault r rid pasid va f.kind f.stage wr)
    match s.ioRegime r c pasid with
    | (.error f, s) => fault s f addr
    | (.ok g, s) =>
      match s.ioXlats r g op.acc (piecesOf addr (op.size len)) with
      | (.error (f, va), s) => fault s f va
      | (.ok l, s) =>
        match s.dmaRoute (ctxTd c) rid addr op hdr (l.map (fun e => (e.1, e.2.1, e.2.2.pa, e.2.2.ks))) with
        | (.done b p, s) => (.done b p, s.ioCommit r g op.acc l)
        | x => x

/-- A translated request: a context with ATS = 1, an address in the DRAM window, the endpoint window or PCI Express
memory space, and no invalidation of the function that has timed out (R299). -/
def State.dmaTranslated (s : State) (r rid : Nat) (pasid : Option Nat) (addr len : Nat) (op : DmaOp) (hdr : List Nat) :
    DmaAns × State :=
  match s.dmaContext r rid with
  | (.error k, s) => (.ur, s.dmaFault r rid pasid addr k 0 op.acc.w)
  | (.ok c, s) =>
    let blocked := (s.iotu r).blocked.any (fun e => e.1 == rid && e.2 == c)
    if !ctxAts c || blocked || !(inDram addr || inEndpoint addr || inPcie addr) then (.urRec, s)
    else s.dmaRoute (ctxTd c) rid addr op hdr ((piecesOf addr (op.size len)).map (fun e => (e.1, e.2, e.1, 0)))

/-- The answer of a request leaves: a completion for one that is not posted, and R338's record where one is due.
A request that must wait leaves only the wake. -/
def State.dmaAnswer (s0 : State) (r f rid : Nat) (op : DmaOp) (hdr : List Nat) : DmaAns × State → State
  | (.wait, s) => { s0 with pwr := s.pwr }
  | (.done b p, s) => if op.posted then s else s.emit (.completion r rid (if p then .poisoned else .ok) b)
  | (.ur, s) => if op.posted then s else s.emit (.completion r rid .ur [])
  | (.urRec, s) =>
    let s := s.portRecord r f 0 0x0603 none hdr
    if op.posted then s else s.emit (.completion r rid .ur [])

/-- The port behind which a requester lies, 0 where none does. -/
def State.portOfRid (s : State) (r rid : Nat) : Nat := (s.portOfBus r (rid / 256)).getD 0

def dmaOpOf (wr : Option (List Byte)) : DmaOp := match wr with | some bs => .write bs | none => .read

/-- DMA_REQUEST (R298, R300). -/
def execDmaRequest (r rid : Nat) (pasid : Option Nat) (addr : Nat) (wr : Option (List (BitVec 8))) (len : Nat) (s : State) :
    Host.Outcome State Fault Refusal :=
  .next (s.orWait (if !s.up || decide (8 ≤ r) || (s.iotu r).fenced then s
    else s.dmaAnswer r (s.portOfRid r rid) rid (dmaOpOf wr) [] (s.dmaUntranslated r rid pasid addr len (dmaOpOf wr) [])))

/-- TRANSLATED_REQUEST (R299). -/
def execTranslatedRequest (r rid : Nat) (pasid : Option Nat) (addr : Nat) (wr : Option (List (BitVec 8))) (len : Nat)
    (s : State) : Host.Outcome State Fault Refusal :=
  .next (s.orWait (if !s.up || decide (8 ≤ r) || (s.iotu r).fenced then s
    else s.dmaAnswer r (s.portOfRid r rid) rid (dmaOpOf wr) [] (s.dmaTranslated r rid pasid addr len (dmaOpOf wr) [])))

/-- An access that needs no permission, as a translation request asks (R299, log 39). -/
def accProbe : Acc := { kind := 0, r := false, w := false, x := false, atomic := false }

/-- ATS_TRANSLATION_REQUEST: the combined R and W, with the address of the page; a page that does not translate has
neither, and so has one that the function must reach untranslated, whose U bit is set (R299, log 39). -/
def execAtsTranslationRequest (r rid : Nat) (pasid : Option Nat) (addr : Nat) (s : State) :
    Host.Outcome State Fault Refusal :=
  .next (s.orWait (
    if !s.up || decide (8 ≤ r) || (s.iotu r).fenced then s
    else
      match s.dmaContext r rid with
      | (.error k, s) => (s.dmaFault r rid pasid addr k 0 false).emit (.completion r rid .ur [])
      | (.ok c, s) =>
        if !ctxAts c then
          (s.portRecord r (s.portOfRid r rid) 0 0x0603 none []).emit (.completion r rid .ur [])
        else
          match s.ioRegime r c pasid with
          | (.error _, s) => s.emit (.atsReply r rid 0 12 false false)
          | (.ok g, s) =>
            match s.ioLookup r g accProbe addr with
            | (.error _, s) => s.emit (.atsReply r rid 0 12 false false)
            | (.ok x, s) =>
              if x.ks ≠ 0 then s.emit (.atsReply r rid 0 x.size false false)
              else s.emit (.atsReply r rid (x.pa / 2 ^ x.size * 2 ^ x.size) x.size x.r x.w)))

/-- PAGE_REQUEST: placed in the event queue as type 2; where it cannot be placed and is the last of its group, the
group is answered with Response Failure. A context without PRI discards it (R300, R338). -/
def execPageRequest (r rid : Nat) (pasid : Option Nat) (addr group : Nat) (wr last : Bool) (s : State) :
    Host.Outcome State Fault Refusal :=
  .next (s.orWait (
    if !s.up || decide (8 ≤ r) || (s.iotu r).fenced then s
    else
      let drop (s : State) : State :=
        (s.modPort r (s.portOfRid r rid) (fun p => { p with cnt3 := satAdd 32 p.cnt3 })).portRecord r (s.portOfRid r rid) 0 0x0609
          none []
      match s.dmaContext r rid with
      | (.error _, s) => drop s
      | (.ok c, s) =>
        if !ctxPri c then drop s
        else
          match s.iotEvent r 2 (eqFlags 0 0 wr pasid.isSome last) rid (pasid.getD 0 % 2 ^ 20 + 2 ^ 20 * (group % 512)) addr with
          | (true, s) => s
          | (false, s) => if last then s.emit (.prg r rid (group % 512) 15) else s))

/-- The new bytes of an AtomicOp of a device (R331). -/
def dsAtomic (k : DsKind) (bytes : List Byte) (old : List Byte) : List Byte :=
  match k with
  | .fetchAdd w => natLe (if w then 8 else 4) (leNat old + leNat bytes)
  | .swap w => bytes.take (if w then 8 else 4)
  | .cas w =>
    let n := if w then 8 else 4
    if old.take n = bytes.take n then (bytes.drop n).take n else old
  | _ => old

/-- The request of a device as the unit sees it; none for what a port refuses outright (R331). -/
def dsOp (k : DsKind) (bytes : List Byte) (len : Nat) : Option (DmaOp × Nat) :=
  match k with
  | .write => some (.write bytes, bytes.length)
  | .read => some (.read, len)
  | .poisonedWrite => some (.poison bytes.length, bytes.length)
  | .fetchAdd w => some (.atomic (dsAtomic k bytes), if w then 8 else 4)
  | .swap w => some (.atomic (dsAtomic k bytes), if w then 8 else 4)
  | .cas w => some (.atomic (dsAtomic k bytes), if w then 8 else 4)
  | .cas128 => none

/-- A posted request has no completion. -/
def dsPosted : DsKind → Bool
  | .write => true
  | .poisonedWrite => true
  | _ => false

/-- DOWNSTREAM_REQUEST: a request of a partner: refused where its requester ID is not the port's, where bus mastering
is off, or for a 128-bit CAS; otherwise translated and performed; a poisoned write is recorded (R331, R332, R338). -/
def execDownstreamRequest (r f rid : Nat) (pasid : Option Nat) (k : DsKind) (addr : Nat) (bytes : List (BitVec 8)) (len : Nat)
    (hdr : List Nat) (s : State) : Host.Outcome State Fault Refusal :=
  .next (s.orWait (
    if !s.linkOpen r f || (s.iotu r).fenced then s
    else
      let p := s.port r f
      let refuse (s : State) (bit : Nat) : State :=
        let s := (s.aerError r f bit (if dsPosted k then 1 else 0) hdr).portRecord r f 0 0x0603 none hdr
        if dsPosted k then s else s.emit (.completion r rid .ur [])
      if !(decide (p.sec ≠ 0) && decide (p.sec ≤ rid / 256) && decide (rid / 256 ≤ p.sub)) then refuse s 21
      else if !p.bme then refuse s 20
      else
        match dsOp k bytes len with
        | none => refuse s 20
        | some (op, n) =>
          let out := s.dmaUntranslated r rid pasid addr n op hdr
          let s' := s.dmaAnswer r f rid op hdr out
          match k, out.1 with
          | .poisonedWrite, .done _ _ => (s'.aerError r f 12 1 hdr).portRecord r f 2 0x0606 none hdr
          | _, .urRec => s'.aerError r f 20 (if dsPosted k then 1 else 0) hdr
          | _, _ => s'))

end Sys2Proof.Machine
end

