-- ==== Sys2Proof/Machine/Coherence.lean ====
section
/-! DEFINITION. The commands of the coherence protocol, the walks of a core's caches, the metered windows, and
prefetch (R116 to R118, R132 to R141, R144, R151 to R153). -/

namespace Sys2Proof.Machine

/-! ### Requests that a core sends (R136) -/

/-- A core that may send a request for a line now: it is ON with its caches enabled and no walk in progress, holds no
copy, has no request for the line outstanding, and no change of the line is due (R136, R151, R178). -/
def State.mayRequest (s : State) (c la : Nat) : Bool :=
  let k := s.core c
  let x := s.block (s.home la)
  s.up && s.boot.handed && s.corePresent c && s.on c && k.l2en && k.walk.isNone && s.dramOk (64 * la) && inDram (64 * la)
    && !s.linePending la && !(x.queue.any (fun q => q.la == la && q.core == c)) && !(x.held.any (fun q => q.la == la && q.core == c))
    && (match s.grantOf la with | some g => g.core != c | none => true)

/-- RDS from a core (R138). -/
def execRds (c la td ks : Nat) (tord stream : Bool) (s : State) : Host.Outcome State Fault Refusal :=
  .next (if !s.mayRequest c la || ((s.core c).copy la).isSome then s
    else s.homeRequest { HReq.reset with kind := .rds, core := c, la, td, ks, tord, stream } false)

/-- RDX from a core; a line of a TO page is never requested exclusive (R125, R138). -/
def execRdx (c la td ks : Nat) (tord stream : Bool) (s : State) : Host.Outcome State Fault Refusal :=
  .next (if !s.mayRequest c la || ((s.core c).copy la).isSome || tord then s
    else s.homeRequest { HReq.reset with kind := .rdx, core := c, la, td, ks, stream } false)

/-- UPG from a core that holds the line in S (R138). -/
def execUpg (c la : Nat) (s : State) : Host.Outcome State Fault Refusal :=
  .next (
    match (s.core c).copy la with
    | some l =>
      if !s.mayRequest c la || decide (l.st ≠ .s) then s
      else s.homeRequest { HReq.reset with kind := .upg, core := c, la, td := l.td, ks := l.ks } false
    | none => s)

/-- RDZ from a core (R91, R138). -/
def execRdz (c la td ks : Nat) (s : State) : Host.Outcome State Fault Refusal :=
  .next (if !s.mayRequest c la || ((s.core c).copy la).isSome then s
    else s.homeRequest { HReq.reset with kind := .rdz, core := c, la, td, ks } false)

/-- The oldest entry of the victim cache leaves the core (R132, R136, R138). -/
def State.vcRelease (s : State) (c la : Nat) (dirty : Bool) : State :=
  match (s.core c).vc with
  | l :: rest =>
    if !s.up || !s.corePresent c || !s.on c || decide (l.la ≠ la) || decide ((l.st = .m) ≠ (dirty = true)) then s
    else
      (s.modCore c (fun k => { k with vc := rest, resv := if k.resv = some la then none else k.resv })).release c l
  | [] => s

/-- WB: the oldest victim-cache entry is released with its data (R132, R138). -/
def execWb (c la : Nat) (s : State) : Host.Outcome State Fault Refusal := .next (s.vcRelease c la true)

/-- EVN: the oldest victim-cache entry is released without data (R132, R138). -/
def execEvn (c la : Nat) (s : State) : Host.Outcome State Fault Refusal := .next (s.vcRelease c la false)

/-- CRD from an agent that keeps no copy (R138). -/
def execCrd (la td ks : Nat) (s : State) : Host.Outcome State Fault Refusal :=
  .next (if !s.up || !s.boot.handed || !inDram (64 * la) || !s.dramOk (64 * la) || (s.block (s.home la)).fenced then s
    else (s.crd la td ks).2)

/-- CWR of bytes within one line (R138). -/
def execCwr (pa td ks : Nat) (bytes : List (BitVec 8)) (s : State) : Host.Outcome State Fault Refusal :=
  .next (if !s.up || !s.boot.handed || !inDram pa || !s.dramOk pa || (s.block (s.home (pa / 64))).fenced
      || bytes.isEmpty || decide (64 < pa % 64 + bytes.length) then s
    else s.cwr pa td ks bytes false)

/-- GRANT_ACKNOWLEDGEMENT: the core has installed the line of a grant that awaits nothing more (R136). -/
def execGrantAcknowledgement (c la : Nat) (s : State) : Host.Outcome State Fault Refusal :=
  .next (
    match s.grantOf la with
    | some g => if !s.up || decide (g.core ≠ c) then s else s.ackGrant la
    | none => s)

/-- FORWARD_SHARED: the owner answers and keeps the line in S (R138, R141). -/
def execForwardShared (c la : Nat) (s : State) : Host.Outcome State Fault Refusal :=
  .next (
    match s.grantOf la with
    | some g => if !s.up || decide (g.fwd ≠ some c) || decide (g.kind ≠ .rds) then s else s.forward la false
    | none => s)

/-- FORWARD_EXCLUSIVE: the owner answers and invalidates its copy (R138, R141). -/
def execForwardExclusive (c la : Nat) (s : State) : Host.Outcome State Fault Refusal :=
  .next (
    match s.grantOf la with
    | some g => if !s.up || decide (g.fwd ≠ some c) || decide (g.kind = .rds) then s else s.forward la true
    | none => s)

/-- INVALIDATION: a holder drops its copy and acknowledges (R137). -/
def execInvalidation (c la : Nat) (s : State) : Host.Outcome State Fault Refusal :=
  .next (
    match s.grantOf la with
    | some g => if !s.up || !g.inv.contains c then s else s.invalidate c la
    | none => s)

/-- SLC_WAYMASK_WRITE: every slice holds the new mask of a domain (R144). -/
def execSlcWaymaskWrite (d : Nat) (mask : BitVec 12) (s : State) : Host.Outcome State Fault Refusal :=
  .next (if !s.up || decide (64 ≤ d) then s else { s with waymask := SMap.set s.waymask d mask.toNat })

/-! ### Walks (R151, R153, R354) -/

/-- Every line of a core's L2, victim cache and side buffer is released, and the L1D emptied (R151). -/
def State.walkRelease (s : State) (c : Nat) : State :=
  let k := s.core c
  let ls := k.l2 ++ k.vc ++ k.sb
  let s := s.setCore c (ls.foldl (fun k l => k.dropLine l.la) { k with l1d := [] })
  ls.foldl (fun s l => s.release c l) s

/-- The walk that precedes RET or OFF also empties the L1I, the line buffer and the loop buffer, and with them the
locked windows (R354). -/
def State.walkAllArrays (s : State) (c : Nat) : State :=
  (s.walkRelease c).modCore c (fun k => { k with
    lost := (k.l1i.filter (·.locked)).foldl (fun a l => insNat a l.la) k.lost
    l1i := [], lineBuf := [], loopBuf := none, resv := none })

/-- WBALL: every M line is written back and stays valid in E (R153). -/
def State.walkClean (s : State) (c : Nat) : State :=
  let k := s.core c
  let ms := (k.l2 ++ k.vc).filter (fun l => l.st == .m)
  let toE (l : CLine) : CLine := if l.st == .m then { l with st := .e } else l
  let s := s.setCore c { k with l2 := k.l2.map toE, vc := k.vc.map toE }
  ms.foldl (fun s l => s.slcFill l.la l.td l.ks l.data true l.poison l.stream) s

/-- CACHE_WALK_COMPLETE: a disabling walk or a walk of WBALL ends (R151 to R153). -/
def execCacheWalkComplete (c : Nat) (s : State) : Host.Outcome State Fault Refusal :=
  .next (
    if !s.up || !s.corePresent c then s
    else
      match (s.core c).walk with
      | some .disable =>
        (s.walkRelease c).modCore c (fun k => { k with
          cleaning := false, walk := none, l2en := k.reEnable, reEnable := false, resv := none })
      | some .wball => (s.walkClean c).modCore c (fun k => { k with cleaning := false, walk := none })
      | _ => s)

/-! ### Metered windows (R116, R117, R140) -/

/-- The lines of the data window and of the code window. -/
def Core.dataLines (k : Core) : List Nat :=
  (List.range (1024 * fld k.mdpa 0 4)).map (fun i => fld k.mdpa 16 36 * 1024 + i)
def Core.codeLines (k : Core) : List Nat :=
  (List.range (256 * fld k.mcpa 0 2)).map (fun i => fld k.mcpa 14 38 * 256 + i)

/-- The directory entry of a locked line is pinned while its set has fewer than twelve (R140). -/
def State.pin (s : State) (la : Nat) : State :=
  let b := s.home la
  match (s.block b).dirFind la with
  | none => s
  | some e =>
    if 12 ≤ ((s.block b).dir.filter (fun d => d.pinned && homeSet d.la == homeSet la)).length then s
    else s.putDir b { e with pinned := true }

def State.unpin (s : State) (la : Nat) : State :=
  let b := s.home la
  match (s.block b).dirFind la with
  | none => s
  | some e => s.putDir b { e with pinned := false }

/-- A line of the data window is fetched exclusive and locked in a window way (R116, R117). -/
def State.lockData (s : State) (c la : Nat) : State :=
  let s := s.acquire c la (s.core c).td 0 true false
  let k := s.core c
  match k.l2Find la with
  | none => s
  | some l =>
    if l.locked then s.modCore c (fun k => { k with lost := k.lost.filter (· != la) })
    else
      let taken := (k.l2.filter (fun x => x.locked && x.la % 1024 == la % 1024)).map (·.way)
      let elig := (s.windowWays c).filter (fun w => !taken.contains w)
      let k := { k with l2 := k.l2.filter (fun x => x.la != la), lost := k.lost.filter (· != la) }
      if elig.isEmpty then s
      else ((s.setCore c k).l2Install c { l with locked := true } elig).pin la

/-- A line of the code window is fetched and locked in the L1I (R116, R117). -/
def State.lockCode (s : State) (c la : Nat) : State :=
  let (_, s) := s.loadLine c la (s.core c).td 0 false
  (s.modCore c (fun k => { k with
    l1i := l1Fill k.l1i la (List.range (fld k.mcpa 0 2)) true, lost := k.lost.filter (· != la) })).pin la

/-- The lines of a window are unlocked; they stay as ordinary lines (R117). -/
def State.unlockWindow (s : State) (c : Nat) (data : Bool) : State :=
  let k := s.core c
  let las := if data then (k.l2.filter (·.locked)).map (·.la) else (k.l1i.filter (·.locked)).map (·.la)
  let k : Core := if data then { k with l2 := k.l2.map (fun l => { l with locked := false }) }
    else { k with l1i := k.l1i.map (fun l => { l with locked := false }) }
  let own := if data then k.dataLines else k.codeLines
  las.foldl State.unpin (s.setCore c { k with lost := k.lost.filter (fun la => !own.contains la) })

/-- WINDOW_LOCK_COMPLETE: every line of a window is loaded and LOCKED becomes 1 (R117). -/
def execWindowLockComplete (c : Nat) (data : Bool) (s : State) : Host.Outcome State Fault Refusal :=
  .next (s.orWait (
    let k := s.core c
    let las := if data then k.dataLines else k.codeLines
    if !s.coreLive c || !s.boot.handed || las.isEmpty || !k.l2en || k.walk.isSome
      || !(las.all (fun la => inDram (64 * la) && s.dramOk (64 * la))) then s
    else if data then
      (las.foldl (fun s la => s.lockData c la) s).modCore c (fun k => { k with mdpa := setFld k.mdpa 5 1 1 })
    else
      (las.foldl (fun s la => s.lockCode c la) s).modCore c (fun k => { k with mcpa := setFld k.mcpa 2 1 1 })))

/-! ### Prefetch (R131 to R135) -/

/-- A line is fetched into the side buffer, unless the core holds it or it may not be prefetched (R133). -/
def State.prefetch (s : State) (c la td ks : Nat) (excl stream : Bool) : State :=
  if !s.mayRequest c la || ((s.core c).copy la).isSome || (s.core c).meter then s
  else s.request { HReq.reset with kind := if excl then .rdx else .rds, core := c, la, td, ks, stream } true

/-- The lines that a confirmed tracker wants, nearest first (R134). -/
def Tracker.wants (t : Tracker) (dist : Nat) : List Nat :=
  if !t.conf then []
  else
    ((List.range dist).map (fun (i : Nat) => (t.last : Int) + t.dir * ((i : Int) + 1))).filterMap
      (fun l => if 0 ≤ l ∧ l.toNat / 64 = t.last / 64 then some l.toNat else none)

/-- The direction in which a miss on a line goes on with a tracker's run (R134). -/
def Tracker.expects (t : Tracker) (la : Nat) : Option Int :=
  if t.dir ≠ 0 then (if (la : Int) = t.last + t.dir then some t.dir else none)
  else if la = t.last + 1 then some 1
  else if la + 1 = t.last then some (-1)
  else none

/-- A tracker after a miss that it expected; `limit` lines mark its stream (R134). -/
def Tracker.advance (t : Tracker) (la : Nat) (dir : Int) (limit td ks : Nat) (store : Bool) : Tracker :=
  { last := la, dir, hits := t.hits + 1, conf := t.conf || decide (2 ≤ t.hits + 1), store, td, ks
    stream := t.stream || (decide (limit ≠ 0) && decide (limit ≤ t.hits + 2)) }

/-- An L1D miss trains the stream detector (R134). -/
def Core.trainStream (k : Core) (la td ks : Nat) (store : Bool) : Core :=
  if k.meter || !k.pfctl.getLsbD 0 then k
  else
    match k.trackers.find? (fun t => (t.expects la).isSome) with
    | some t =>
      { k with trackers :=
        t.advance la ((t.expects la).getD 0) (16 * fld k.pfctl 8 4) td ks store :: k.trackers.filter (fun u => u != t) }
    | none => { k with trackers := ({ Tracker.reset with last := la, store, td, ks } :: k.trackers).take 16 }

/-- STREAM_PREFETCH: confirmed trackers fetch the lines ahead of demand that the core does not hold (R133, R134). -/
def execStreamPrefetch (c : Nat) (s : State) : Host.Outcome State Fault Refusal :=
  .next (s.orWait (
    let k := s.core c
    if !s.coreLive c || !k.pfctl.getLsbD 0 || k.meter then s
    else
      k.trackers.foldl (fun s t =>
        (t.wants (fld k.pfctl 1 4)).foldl (fun s la => s.prefetch c la t.td t.ks t.store t.stream) s) s))

/-- SIDE_BUFFER_ENTRY_EXPIRE: an unused entry is dropped with EVN (R133). -/
def execSideBufferEntryExpire (c la : Nat) (s : State) : Host.Outcome State Fault Refusal :=
  .next (
    match (s.core c).sbFind la with
    | some l =>
      if !s.up || !s.corePresent c then s
      else (s.modCore c (fun k => { k with sb := k.sb.filter (fun x => x.la != la) })).release c l
    | none => s)

end Sys2Proof.Machine
end

