-- ==== Sys2Proof/Machine/Power.lean ====
section
/-! DEFINITION. Power domains: requests, transitions, wakes, pads, and telemetry (R350 to R365). -/

namespace Sys2Proof.Machine

/-- The held posts of a core that comes ON enter its pending bits (R53, R355). -/
def State.deliverAllHeld (s : State) (c : Nat) : State :=
  let own (l : List (Nat × W64)) : List Nat := (l.filter (fun e => routePend e.2 && decide (routeCore e.2 = c))).map (·.1)
  let s := (own s.route).foldl (fun s i => s.deliverHeld false i) s
  (own s.mroute).foldl (fun s i => s.deliverHeld true i) s

/-- The index names a unit of this part (R350). -/
def State.domPresent (s : State) (i : Nat) : Bool :=
  if i < 256 then s.corePresent i
  else if i < 384 then s.blockPresent (i - 256)
  else if i < 392 then true
  else if i < 408 then s.chanPresent (i - 392)
  else decide (i ≤ 416)

/-- A core leaves ON: its long operations complete, it slips if it is bound, and its walk begins (R354, R356). -/
def State.leaveOn (s : State) (c : Nat) (kind : WalkKind) : State :=
  (((s.modCore c (fun k => k.completeWhere (fun _ => true))).slipCore c 2)).modCore c (fun k => { k with walk := some kind })

/-- A domain starts on its way to a state (R351, R362). -/
def State.beginDom (s : State) (i dest cause : Nat) : State :=
  let d := s.dom i
  if d.st = dest then s
  else
    let s := s.modDom i (fun d => { d with st := 3, dest, src := d.st, cause, viaWfe := false, wakeReq := false })
    if i < 256 ∧ d.st = 0 then s.leaveOn i (if dest = 1 then .ret else .off) else s

/-- A request for a state: carried out when the domain is between none, else it waits (R351). -/
def State.requestDom (s : State) (i dest : Nat) : State :=
  if (s.dom i).st = 3 then s.modDom i (fun d => { d with queue := d.queue ++ [dest] })
  else s.beginDom i dest 1

/-- The next request of a domain that has arrived, or the wake that arose on the way (R351, R362). -/
def State.nextDom (s : State) (i : Nat) : State :=
  let d := s.dom i
  if d.wakeReq ∧ d.st = 1 then
    s.modDom i (fun d => { d with st := 3, dest := 0, src := 1, wakeReq := false })
  else
    match d.queue with
    | [] => s
    | q :: rest => (s.modDom i (fun d => { d with queue := rest })).beginDom i q 1

/-- A core arrives in RET, OFF or ON; on its return it takes the region's core patch (R354 to R356, R366, R379). -/
def State.arriveCore (s : State) (c : Nat) : State :=
  let d := s.dom c
  let patch := (SMap.get Img.reset (s.region (coreRegion c)).fw 4).build
  if d.dest = 0 then
    let s := s.modDom c (fun d => { d with st := 0, wake := d.cause })
    let s :=
      if d.src = 1 then
        s.modCore c (fun k => let k := k.brk 6 k.pc; { k with woke := true, patch })
      else s.setCore c { Core.reset with patch }
    s.deliverAllHeld c
  else if d.dest = 1 then
    let s := if (s.core c).walk.isSome then s.walkAllArrays c else s
    (s.modCore c (fun k => { k with walk := none, retcnt := satAdd 32 k.retcnt })).modDom c (fun d => { d with st := 1 })
  else
    let s := if (s.core c).walk.isSome then s.walkAllArrays c else s
    (s.setCore c Core.reset).modDom c (fun d => { d with st := 2 })

/-- The outstanding requests of a stack that goes OFF end as Unsupported Request, and its links and port state are
lost (R350, R358, R362). -/
def State.stackOff (s : State) (r : Nat) : State :=
  let s := (List.range 4).foldl (fun s f =>
    ((s.port r f).reqs).foldl (fun s e => (s.dropReq r f e.1).reqError r f e.1 e.2 []) s) s
  s.modRegion r (fun x => { x with ports := [], stackIdle := 0 })

/-- A domain other than a core arrives (R350, R360, R361). -/
def State.arriveUnit (s : State) (i : Nat) : State :=
  let d := s.dom i
  let pads := decide (392 ≤ i)
  let s :=
    if d.dest = 0 then
      s.modDom i (fun d => { d with st := 0, wake := d.cause, held := d.held || (pads && decide (d.src = 2)) })
    else s.modDom i (fun e => { e with st := d.dest })
  if 384 ≤ i ∧ i < 392 then
    let r := i - 384
    if d.dest = 0 then
      if d.src = 2 then s.modFn r (fun x => { Fn.reset with ucode := x.ucode }) else s.modFn r (fun x => { x with pm := 0 })
    else if d.dest = 1 then s.modFn r (fun x => { x with pm := 3 })
    else s.modFn r (fun x => { Fn.reset with pm := 3, ucode := x.ucode })
  else if 392 ≤ i ∧ i < 408 then
    if d.dest = 0 then s.modChan (i - 392) (fun c => { c with st := if c.st = 7 then 4 else c.st })
    else if d.dest = 1 then s.modChan (i - 392) (fun c => { c with st := if c.st = 4 then 7 else c.st, rows := [] })
    else s
  else if 408 ≤ i ∧ i < 416 then
    if d.dest = 2 then s.stackOff (i - 408) else s
  else s

/-! ### Meanings -/

/-- RET_ENTRY_COMPLETE: the walk of a core on its way to RET ends; a wake that arose meanwhile leaves it ON (R354). -/
def execRetEntryComplete (c : Nat) (s : State) : Host.Outcome State Fault Refusal :=
  .next (
    let d := s.dom c
    if !s.up || decide (256 ≤ c) || decide (d.st ≠ 3) || decide (d.dest ≠ 1) then s
    else if d.wakeReq then
      (((s.walkAllArrays c).modCore c (fun k => { k with walk := none })).modDom c
        (fun d => { d with st := 0, wakeReq := false, viaWfe := false })).deliverAllHeld c
    else (s.arriveCore c).nextDom c)

/-- CORE_WAKE: a core in RET that a WFE put there returns for a held post or a message (R355). -/
def execCoreWake (c : Nat) (s : State) : Host.Outcome State Fault Refusal :=
  .next (
    let d := s.dom c
    let held := s.route.any (fun e => routePend e.2 && decide (routeCore e.2 = c))
      || s.mroute.any (fun e => routePend e.2 && decide (routeCore e.2 = c))
    if !s.up || decide (256 ≤ c) || decide (d.st ≠ 1) || !d.viaWfe then s
    else if held then s.wakeCore c 2
    else if !(s.mailbox c).isEmpty then s.wakeCore c 3
    else s)

/-- POWER_TRANSITION_COMPLETE: a domain finishes its transition; the entry of a core into RET ends with its walk, by
its own command (R362). -/
def execPowerTransitionComplete (i : Nat) (s : State) : Host.Outcome State Fault Refusal :=
  .next (
    let d := s.dom i
    if !s.up || !s.domPresent i || decide (d.st ≠ 3) then s
    else if i < 256 then
      if d.dest = 1 ∧ (s.core i).walk.isSome then s else (s.arriveCore i).nextDom i
    else if i < 384 then s
    else (s.arriveUnit i).nextDom i)

/-- A write of 1 to PADHOLD_REL releases the pads of a domain that is ON (R361). -/
def State.releasePads (s : State) (i : Nat) : State :=
  let d := s.dom i
  if d.st ≠ 0 ∨ d.held = false then s
  else
    let s := s.modDom i (fun d => { d with held := false })
    if 408 ≤ i ∧ i < 416 then
      (List.range 4).foldl (fun s f =>
        if s.portPresent (i - 408) f then s.modPort (i - 408) f (fun p => { p with perst := false }) else s) s
    else s

/-- PADHOLD_REL (R361). -/
def execPadholdRel (i : Nat) (s : State) : Host.Outcome State Fault Refusal :=
  .next (if !s.up || !s.domPresent i then s else s.releasePads i)

/-- Every link of a stack is in L1.2 or down (R358). -/
def State.stackQuiet (s : State) (r : Nat) : Bool :=
  (List.range 4).all (fun f => !s.portPresent r f || !(s.port r f).up || (s.port r f).inL12)

/-- STACK_IDLE_RET: a stack whose links have been quiet for the ticks of object 0x2210 enters RET (R358). -/
def execStackIdleRet (n : Nat) (s : State) : Host.Outcome State Fault Refusal :=
  .next (
    let lim := s.settingN 0x2210 (n + 1) 0
    if !s.up || decide (8 ≤ n) || decide ((s.dom (408 + n)).st ≠ 0) || decide (lim = 0)
      || decide ((s.region n).stackIdle < lim) || !s.stackQuiet n then s
    else s.beginDom (408 + n) 1 0)

/-- STACK_WAKE: link activity or CLKREQ# (5) or an outbound request (6) wakes a stack in RET (R358). -/
def execStackWake (n cause : Nat) (s : State) : Host.Outcome State Fault Refusal :=
  .next (if !s.up || decide (8 ≤ n) || !(decide (cause = 5) || decide (cause = 6)) then s
    else s.wakeDom (408 + n) cause)

/-- DAYBREAK: a Daybreak frame, or with object 0x2220 any bus activity, wakes the CAN FD responder from RET or
OFF (R359). -/
def execDaybreak (frame : Bool) (s : State) : Host.Outcome State Fault Refusal :=
  .next (
    let d := s.dom 416
    if !s.pins.aon || s.scan || (!frame && decide (s.settingN 0x2220 1 0 = 0)) then s
    else if d.st = 2 then s.beginDom 416 0 (if frame then 7 else 8)
    else s.wakeDom 416 (if frame then 7 else 8))

/-- TELEMETRY_SAMPLE: the sampled power, temperatures and voltages; the warning source is posted once per crossing
upward (R365). -/
def execTelemetrySample (power : Nat) (temp : Int) (regs : List (Nat × Int × Nat)) (s : State) :
    Host.Outcome State Fault Refusal :=
  .next (
    if !s.up then s
    else
      let idx := List.range regs.length
      let at' (r : Nat) : Nat × Int × Nat := regs.getD r (0, 0, 0)
      let above := decide (s.setting 0x2300 3 100000 ≤ temp)
      let was := s.pins.above
      let s := { s with pins := { s.pins with
        power, temp, above
        regPower := idx.map (fun r => (r, (at' r).1)), regTemp := idx.map (fun r => (r, (at' r).2.1))
        regMv := idx.map (fun r => (r, (at' r).2.2)) } }
      if above && !was then s.post 3202 else s)

end Sys2Proof.Machine
end

