-- ==== Sys2Proof/Machine/RsCode.lean ====
section
/-! DEFINITION. The code of a memory channel: RS(40,32) over GF(2^16), its decoder with erasures, and the poison
word (R259 to R265). -/

namespace Sys2Proof.Machine

/-! ### GF(2^16) (R260) -/

/-- Product of two symbols: `n` bits of `b` are left. -/
def gf16Step (a : Nat) : Nat → Nat → Nat → Nat
  | 0, _, acc => acc
  | n + 1, b, acc =>
    let d := 2 * acc
    let d := if d.testBit 16 then d ^^^ 0x1100B else d
    gf16Step a n b (if b.testBit n then d ^^^ a else d)

/-- The product of two symbols (R260). -/
def gf16Mul (a b : Nat) : Nat := gf16Step a 16 b 0

/-- α to a power (R260). -/
def alphaPow : Nat → Nat
  | 0 => 1
  | n + 1 => gf16Mul 2 (alphaPow n)

/-- `n` squarings give the inverse: the product of the powers 2, 4, ..., 2^15. -/
def gf16InvStep : Nat → Nat → Nat → Nat
  | 0, _, acc => acc
  | n + 1, sq, acc => gf16InvStep n (gf16Mul sq sq) (gf16Mul acc (gf16Mul sq sq))

def gf16Inv (a : Nat) : Nat := gf16InvStep 15 a 1

/-! ### Codewords (R259, R260) -/

/-- The exponent of x at a codeword position: data symbol s at x^(s+8), check symbol p(j) at x^j. -/
def posExp (p : Nat) : Nat := if p < 32 then p + 8 else p - 32

/-- The syndromes of a word of 40 symbols, by position. -/
def syndromes (w : List Nat) : List Nat :=
  (List.range 8).map (fun j =>
    (List.range 40).foldl (fun a p =>
      let s := w.getD p 0
      if s = 0 then a else a ^^^ gf16Mul s (alphaPow (j * posExp p))) 0)

/-- g(x), least power first (R260). -/
def genPoly : List Nat :=
  (List.range 8).foldl (fun g i =>
    let a := alphaPow i
    List.zipWith (· ^^^ ·) (0 :: g) (g.map (gf16Mul a) ++ [0])) [1]

/-- The eight check symbols of 32 data symbols: the remainder of division by g. -/
def checkSyms (data : List Nat) : List Nat :=
  let g := genPoly.take 8
  data.reverse.foldl (fun r d =>
    let top := r.getD 7 0 ^^^ d
    List.zipWith (· ^^^ ·) (0 :: r.take 7) (g.map (gf16Mul top))) (List.replicate 8 0)

/-- The 32 data symbols of a ciphertext line (R259). -/
def lineSyms (l : Line) : List Nat := (List.range 32).map (fun s => fld l (16 * s) 16)

/-- The line of 32 data symbols. -/
def symsLine (d : List Nat) : Line := BitVec.ofNat 512 ((d.take 32).foldr (fun s a => s + 65536 * a) 0)

/-- The codeword of a ciphertext line. -/
def encodeLine (l : Line) : List Nat := lineSyms l ++ checkSyms (lineSyms l)

/-- The word stored for a poisoned line, W_P (R265). -/
def poisonWord : List Nat :=
  List.replicate 32 0 ++ [0x3A5C, 0xC3A5, 0x5C3A, 0xA53C, 0x3CA5, 0xCA53, 0x53CA, 0xAC35]

/-- A word with errors: each names a position and what is added to its symbol. -/
def addErrors (w : List Nat) (errs : List (Nat × Nat)) : List Nat :=
  errs.foldl (fun w e => w.modify e.1 (· ^^^ (e.2 % 65536))) w

/-! ### Decoding (R262 to R265) -/

/-- Solves a square linear system whose rows end with the right side; none where it is singular. -/
def gauss16 : Nat → List (List Nat) → Option (List Nat)
  | 0, _ => some []
  | n + 1, rows =>
    match rows.find? (fun r => r.headD 0 != 0) with
    | none => none
    | some p =>
      let q := p.map (gf16Mul (gf16Inv (p.headD 0)))
      let rest := (rows.eraseIdx (rows.findIdx (fun r => r.headD 0 != 0))).map (fun r =>
        (List.zipWith (fun a b => a ^^^ gf16Mul (r.headD 0) b) r q).tail)
      match gauss16 n rest with
      | none => none
      | some xs =>
        some ((List.zipWith gf16Mul q.tail xs).foldl (· ^^^ ·) (q.getLastD 0) :: xs)

/-- The error values at given positions that explain the first syndromes. -/
def errorValues (pos : List Nat) (s : List Nat) : Option (List Nat) :=
  let n := pos.length
  gauss16 n ((List.range n).map (fun j => pos.map (fun p => alphaPow (j * posExp p)) ++ [s.getD j 0]))

/-- The erasure locator, least power first. -/
def eraseLocator (ers : List Nat) : List Nat :=
  ers.foldl (fun g p =>
    let a := alphaPow (posExp p)
    List.zipWith (· ^^^ ·) (g ++ [0]) (0 :: g.map (gf16Mul a))) [1]

/-- Syndromes with the erasures taken out. -/
def forneySyn (loc s : List Nat) : List Nat :=
  (List.range 8).map (fun k =>
    (List.range (k + 1)).foldl (fun a i => a ^^^ gf16Mul (loc.getD i 0) (s.getD (k - i) 0)) 0)

/-- The positions of exactly `v` errors outside the erasures, as their locator gives them. -/
def errorPositions (ers : List Nat) (t : List Nat) (v : Nat) : Option (List Nat) :=
  let e := ers.length
  if v = 0 then some []
  else
    match gauss16 v ((List.range v).map (fun j =>
        (List.range v).map (fun i => t.getD (e + v + j - 1 - i) 0) ++ [t.getD (e + v + j) 0])) with
    | none => none
    | some lam =>
      let root (p : Nat) : Bool :=
        let x := gf16Inv (alphaPow (posExp p))
        let xs := lam.foldl (fun (a : Nat × Nat) l => (a.1 ^^^ gf16Mul l a.2, gf16Mul a.2 x)) (1, x)
        decide (xs.1 = 0)
      let ps := (List.range 40).filter (fun p => !ers.contains p && root p)
      if ps.length = v then some ps else none

/-- Tries `v` unknown errors: the corrected word and the positions corrected. -/
def tryCorrect (w ers s t : List Nat) (v : Nat) : Option (List Nat × List Nat) :=
  match errorPositions ers t v with
  | none => none
  | some ps =>
    let all := ers ++ ps
    match errorValues all s with
    | none => none
    | some vals =>
      if (vals.drop ers.length).contains 0 then none
      else
        let w' := addErrors w (all.zip vals)
        if (syndromes w').all (· == 0) then some (w', ps) else none

/-- What a read of a word gives: clean or corrected data with the positions corrected, poison, or uncorrectable. -/
inductive Decoded where
  | ok (data : List Nat) (pos : List Nat)
  | poison
  | bad
  deriving DecidableEq, Repr

/-- The decoder with `t` unknown errors outside the erased positions (R262, R263, R265): the test for poison comes
first. -/
def decodeWord (w ers : List Nat) (t : Nat) : Decoded :=
  let diff := ((List.range 40).filter (fun p => !ers.contains p && w.getD p 0 != poisonWord.getD p 0)).length
  if diff ≤ t then .poison
  else
    let s := syndromes w
    let f := forneySyn (eraseLocator ers) s
    match (List.range (t + 1)).findSome? (fun v => tryCorrect w ers s f v) with
    | some (w', ps) => .ok (w'.take 32) ps
    | none => .bad

end Sys2Proof.Machine
end

