-- ==== Sys2Proof/Machine/Channel.lean ====
section
/-! DEFINITION. The memory channels: where a line lies, reads with their errors, counters and marks, queues and the
scheduler, refresh, calibration, retrains, training and fill, scrub, row repair, and the key engine
(R223, R236 to R282). -/

namespace Sys2Proof.Machine

/-! ### Where a line lies (R240, R241) -/

/-- A location in a channel. -/
structure DLoc where
  sub : Nat
  bg : Nat
  col : Nat
  bank : Nat
  rank : Nat
  row : Nat
  deriving DecidableEq, Repr

/-- log2 of the logical ranks (R241). -/
def Chan.rho (c : Chan) : Nat := if c.ranks = 0 then 0 else if c.ranks = 1 then 1 else if c.ranks ≤ 3 then 2 else 3

/-- The location of a channel-local line address (R241). -/
def Chan.loc (c : Chan) (cla : Nat) : DLoc :=
  let row := bits cla (13 + c.rho) (27 - c.rho)
  { sub := bits cla 0 1, bg := bits cla 1 3 ^^^ bits row 0 3, col := bits cla 4 7, bank := bits cla 11 2 ^^^ bits row 3 2
    rank := bits cla 13 c.rho, row }

/-- The channel-local line address of a location (R241). -/
def Chan.claOf (c : Chan) (l : DLoc) : Nat :=
  l.sub + 2 * (l.bg ^^^ bits l.row 0 3) + 16 * l.col + 2048 * (l.bank ^^^ bits l.row 3 2) + 8192 * l.rank
    + 2 ^ (13 + c.rho) * l.row

/-- The number of a bank within its channel: subchannel, logical rank, bank group, bank (R268). -/
def DLoc.bankNo (l : DLoc) : Nat := ((l.sub * 8 + l.rank) * 8 + l.bg) * 4 + l.bank

/-- The location of a line in its channel (R240, R241). -/
def State.locOf (s : State) (la : Nat) : DLoc := (s.chan (s.chanOf (64 * la))).loc ((s.interleave (64 * la)).2 / 64)

/-- The line at a channel-local line address (R240). -/
def State.lineAt (s : State) (ch cla : Nat) : Nat := s.uninterleave (s.chan ch).pos (64 * cla) / 64

/-- The record of a channel, with the SYND of R282. -/
def State.chanRecord (s : State) (ch cls typ : Nat) (td addr : Option Nat) (l : DLoc) (dev flag mask : Nat) : State :=
  s.record (recAt (srcId 5 (ch / 2) 0 0 ch) 2 cls typ td addr
    ([l.rank, l.sub, dev, l.bg, l.bank, l.row % 256, l.row / 256 % 256, l.row / 65536 % 2 + 2 * flag]
      ++ (natLe 5 mask).map (·.toNat)) 0)

/-- The record of a channel's link or training, with the SYND of R258. -/
def State.linkRecord (s : State) (ch cls typ slot sub : Nat) (addr : Option Nat) : State :=
  s.record (recAt (srcId 5 (ch / 2) 0 0 ch) 2 cls typ none addr [slot, sub, (s.chan ch).speed] 0)

/-! ### Marks (R262, R263, R270 to R273) -/

def devCorr (s : State) : Bool := s.devcorr

/-- The marks of a channel as words. -/
def Chan.marks (c : Chan) : List W64 := [c.mark0, c.mark1].filter (fun m => m.getLsbD 0)

def markSub (m : W64) : Nat := fld m 1 1
def markRank (m : W64) : Nat := fld m 2 3
def markDev (m : W64) : Nat := fld m 5 4

/-- Devices marked in a subchannel and rank, while whole-device correction is in force (R262, R263). -/
def State.marked (s : State) (ch : Nat) (l : DLoc) : List Nat :=
  if devCorr s then ((s.chan ch).marks.filter (fun m => markSub m == l.sub && markRank m == l.rank)).map markDev else []

/-- Unknown symbol errors that a read of this location corrects (R262, R263). -/
def State.capability (s : State) (ch : Nat) (l : DLoc) : Nat :=
  if !devCorr s then 2 else match (s.marked ch l).length with | 0 => 4 | 1 => 2 | _ => 0

def erasedOf (devs : List Nat) : List Nat := (devs.map (fun d => (List.range 4).map (fun k => 4 * d + k))).flatten

/-- A mark with its fields. -/
def mkMark (sub rank dev : Nat) : W64 := BitVec.ofNat 64 (1 + 2 * sub + 4 * rank + 32 * dev)

/-- Why a mark is refused (R272). -/
def State.markRefused (s : State) (ch : Nat) (sub rank dev : Nat) : Bool :=
  let c := s.chan ch
  !devCorr s || decide (2 ≤ c.marks.length) || c.marks.contains (mkMark sub rank dev) || decide (c.ranks < rank)
    || decide (9 < dev)

/-- A mark is added in the first free register (R270, R271). -/
def State.addMark (s : State) (ch sub rank dev : Nat) : State :=
  let m := mkMark sub rank dev
  (s.modChan ch (fun c => if c.mark0.getLsbD 0 then { c with mark1 := m } else { c with mark0 := m })).chanRecord ch 1 0x0512
    none none { sub, rank, bg := 0, col := 0, bank := 0, row := 0 } dev 0 0

/-! ### Counting (R268, R269) -/

/-- One correction in a plain leaky bucket: the new count, and whether it overflowed. -/
def bucketAdd (m : List (Nat × Nat)) (key depth : Nat) : List (Nat × Nat) × Bool :=
  let n := SMap.get 0 m key + 1
  if depth < n then (SMap.set m key 0, true) else (SMap.set m key n, false)

/-- The sources that a channel posts: bucket overflows, and records of class 2 (R269). -/
def srcOverflow (ch : Nat) : Nat := 384 * (ch / 2) + 260 + ch % 2
def srcClass2 (ch : Nat) : Nat := 384 * (ch / 2) + 262 + ch % 2

/-- A proposal is held where none is held yet (R269). -/
def State.propose (s : State) (ch : Nat) (w : Nat) : State :=
  s.modChan ch (fun c => if c.prop.getLsbD 0 then c else { c with prop := BitVec.ofNat 64 w })

def posMask (ps : List Nat) : Nat := ps.foldl (fun a p => a ||| 2 ^ p) 0

/-- A corrected line: its devices' and its bank's buckets, the counter, and what an overflow does (R268, R269, R272). -/
def State.countCorrected (s : State) (ch : Nat) (l : DLoc) (ps : List Nat) : State :=
  let s := s.modChan ch (fun c => { c with ce := satAdd 32 c.ce })
  let devs := (List.range 10).filter (fun d => ps.any (fun p => p / 4 == d))
  let full := decide (2 ≤ (s.marked ch l).length)
  let margin (s : State) : State := if full then s.chanRecord ch 1 0x0513 none none l 0xFF 1 (posMask ps) else s
  let s := margin s
  let s := devs.foldl (fun s d =>
    let (b, ovf) := bucketAdd (s.chan ch).devBkt (l.sub * 80 + l.rank * 10 + d) (s.settingN 0x3100 1 64)
    let s := s.modChan ch (fun c => { c with devBkt := b })
    if ovf then
      margin (((s.chanRecord ch 1 0x0510 none none l d 0 (posMask ps)).post (srcOverflow ch)).propose ch
        (1 + 4 * l.sub + 8 * l.rank + 64 * d))
    else s) s
  let (b, ovf) := bucketAdd (s.chan ch).bankBkt l.bankNo (s.settingN 0x3101 1 256)
  let s := s.modChan ch (fun c => { c with bankBkt := b })
  if ovf then
    margin (((s.chanRecord ch 1 0x0511 none none l 0xFF 0 (posMask ps)).post (srcOverflow ch)).propose ch
      (3 + 4 * l.sub + 8 * l.rank + 1024 * l.bg + 8192 * l.bank + 32768 * l.row))
  else s

/-! ### Reads with errors (R259 to R266) -/

/-- What one read of the cells gives: the plaintext under the key of its own line, poison, or nothing; and the
positions corrected. -/
inductive CellRead where
  | ok (cipher : Line) (pos : List Nat)
  | poison
  | bad
  deriving DecidableEq, Repr

/-- The ciphertext that a line of DRAM holds (R250, R260). -/
def State.cipherOf (s : State) (la : Nat) : Line := xtsEncrypt (s.lineKeyOf la) la (s.dramLine la).1

/-- A read of a line whose symbols are in error as `errs` says (R262 to R265). -/
def State.cellRead (s : State) (ch la : Nat) (errs : List (Nat × Nat)) : CellRead :=
  let p := (s.dramLine la).2
  let ers := erasedOf (s.marked ch (s.locOf la))
  if errs.isEmpty && decide (ers.length < 8) then (if p then .poison else .ok (s.cipherOf la) [])
  else
    let w := addErrors (if p then poisonWord else encodeLine (s.cipherOf la)) errs
    match decodeWord w ers (s.capability ch (s.locOf la)) with
    | .ok d ps => .ok (symsLine d) ps
    | .poison => .poison
    | .bad => .bad

/-- A line is declared uncorrectable: W_P is stored, and a record of class 2 names it (R264, R266, R269). Which positions
the record marks is open (log 15). -/
def State.declareBad (s : State) (ch la : Nat) (td : Option Nat) : State :=
  let l := s.locOf la
  let s := s.dramStore la (s.lineKeyOf la) 0 true
  let (i, s) := (s.modChan ch (fun c => { c with ue := satAdd 32 c.ue })).draw
  (s.chanRecord ch 2 0x0514 td (some (64 * la)) l 0xFF 0 (fld (Config.freeWord i) 0 40)).post (srcClass2 ch)

/-- Data of a demand read reaches the home, which holds the line from then on, unless it holds it already
(R138, R266). -/
def State.deliverRead (s : State) (q : MReq) (d : Line) (poison : Bool) : State :=
  if ((s.block (s.home q.la)).slcFind q.la).isSome then s else s.slcFill q.la q.td q.ks d false poison false

/-- A demand read of the cells: the line is delivered, or read once more (R246, R262, R264, R266). `again` says that
this is the second read. -/
def State.demandRead (s : State) (ch : Nat) (q : MReq) (errs : List (Nat × Nat)) (again : Bool) : State :=
  match (s.chan ch).wrq.find? (fun w => w.la == q.la) with
  | some w => s.deliverRead q (xtsCross w.key (s.keyOf q.td q.ks) q.la w.data) w.poison
  | none =>
    match s.cellRead ch q.la errs with
    | .ok ct ps =>
      let s := if ps.isEmpty then s else s.countCorrected ch (s.locOf q.la) ps
      s.deliverRead q (xtsDecrypt (s.keyOf q.td q.ks) q.la ct) false
    | .poison => s.deliverRead q 0 true
    | .bad =>
      if again then (s.declareBad ch q.la (some q.td)).deliverRead q 0 true
      else s.modChan ch (fun c => { c with reread := some (q, errs) })

/-- A scrub read: a correction is counted and rewritten unless a write of the line is queued; an uncorrectable line is
poisoned (R276). -/
def State.scrubCell (s : State) (ch la : Nat) (errs : List (Nat × Nat)) (again : Bool) : State :=
  match s.cellRead ch la errs with
  | .ok ct ps =>
    if ps.isEmpty then s
    else
      let s := s.countCorrected ch (s.locOf la) ps
      if (s.chan ch).wrq.any (fun w => w.la == la) then s
      else
        let key := s.lineKeyOf la
        s.modChan ch (fun c => { c with wrq := c.wrq ++
          [{ MReq.reset with wr := true, la, scrub := true, key, data := xtsDecrypt key la ct }] })
  | .poison => s
  | .bad =>
    if again then s.declareBad ch la none
    else s.modChan ch (fun c => { c with reread := some ({ MReq.reset with la, scrub := true }, errs) })

/-- Lines of a channel's used range (R253, R274). -/
def State.usedLines (s : State) : Nat := s.capacity / s.nchan / 64

/-- The next scrub read of a pass; the last ends it (R274). -/
def State.scrubNext (s : State) (ch : Nat) (errs : List (Nat × Nat)) : State :=
  let c := s.chan ch
  if !c.scrubRun || decide (c.st ≠ 4) || c.reread.isSome then s
  else
    let la := s.lineAt ch c.done
    let s := s.modChan ch (fun c =>
      let n := c.done + 1
      if s.usedLines ≤ n then { c with scrubRun := false, done := n, passes := satAdd 32 c.passes } else { c with done := n })
    s.scrubCell ch la errs false

/-! ### Queues and the scheduler (R222 to R224, R245, R246) -/

/-- The channel takes requests and can hold them. -/
def Chan.accepts (c : Chan) : Bool := [4, 5, 6, 7].contains c.st

/-- The channel can issue a command to a bank now (R218, R244, R255, R279). -/
def Chan.bankFree (c : Chan) (b : Nat) : Bool :=
  decide (c.st = 4) && !c.refresh.contains b && !c.held.contains b

/-- Nominal slots of a window (R223). -/
def Chan.slotCount (c : Chan) : Nat := match c.speed with | 0 => 120 | 1 => 80 | _ => 60

/-- The guarantee of a domain in a window (R223). -/
def State.guarantee (s : State) (ch td : Nat) : Nat := s.settingN 0x3400 (td + 1) 0 * (s.chan ch).slotCount / 256

def State.subOf (s : State) (la : Nat) : Nat := (s.locOf la).sub

/-- Lines that the schedule of a running pass requires by now (R275). -/
def State.scrubDue (s : State) (ch : Nat) : Nat :=
  let c := s.chan ch
  s.usedLines * (s.noon.tick - c.scrubStart - c.scrubSkip) / c.scrubP

def State.scrubLags (s : State) (ch : Nat) : Bool := (s.chan ch).scrubRun && decide ((s.chan ch).done < s.scrubDue ch)

/-- Requests of a channel that may issue: reads, and where a drain is in progress or no read waits, writes; a write
never passes an older read of its line (R246). -/
def State.eligible (s : State) (ch : Nat) : List MReq :=
  let c := s.chan ch
  let free (q : MReq) : Bool := c.bankFree (s.locOf q.la).bankNo
  let drain (sub : Nat) : Bool := if sub = 0 then c.drain0 else c.drain1
  c.rdq.filter (fun q => free q && !drain (s.subOf q.la))
    ++ c.wrq.filter (fun q => free q && !c.rdq.any (fun r => r.la == q.la)
        && (drain (s.subOf q.la) || !c.rdq.any (fun r => s.subOf r.la == s.subOf q.la)))

/-- The domain that the rotation grants among requests (R218). -/
def grantDomain (p : Nat) (qs : List MReq) : Option Nat :=
  ((List.range 64).map (fun i => (p + i) % 64)).find? (fun d => qs.any (fun q => q.td == d))

/-- Within one domain: reads first, then a request to an open row unless the oldest has been passed four times, then
the oldest (R246). -/
def State.domainPick (s : State) (ch : Nat) (qs : List MReq) : Option MReq :=
  let c := s.chan ch
  let rd := qs.filter (fun q => !q.wr)
  let kind := if rd.isEmpty then qs else rd
  let isOpen (q : MReq) : Bool := let l := s.locOf q.la; c.rows.any (fun e => e.1 == l.bankNo && e.2 == l.row)
  match kind with
  | [] => none
  | o :: _ => if 4 ≤ o.passed then some o else some ((kind.find? isOpen).getD o)

/-- The state of the write drains after a change of the queues (R246). -/
def State.setDrains (s : State) (ch : Nat) : State :=
  let c := s.chan ch
  let next (sub : Nat) (old : Bool) : Bool :=
    let w := (c.wrq.filter (fun q => s.subOf q.la == sub)).length
    let r := (c.rdq.filter (fun q => s.subOf q.la == sub)).length
    if w ≤ 16 then false else if 48 ≤ w ∨ r = 0 then true else old
  s.modChan ch (fun c => { c with drain0 := next 0 c.drain0, drain1 := next 1 c.drain1 })

/-- A request issues: it leaves its queue, its bank's row opens, and the DRAM is read or written. -/
def State.issueReq (s : State) (ch : Nat) (q : MReq) : State :=
  let l := s.locOf q.la
  let c := s.chan ch
  let pass (x : MReq) : MReq := if x.td = q.td then { x with passed := min 7 (x.passed + 1) } else x
  let take (l : List MReq) : List MReq :=
    ((l.takeWhile (· != q)).map pass) ++ (l.dropWhile (· != q)).drop 1
  let c := if q.wr then { c with wrq := take c.wrq } else { c with rdq := take c.rdq }
  let c := { c with rows := SMap.set c.rows l.bankNo l.row, served := SMap.set c.served q.td (SMap.get 0 c.served q.td + 1)
                    ptr := (q.td + 1) % 64 }
  let s := (s.modChan ch (fun _ => c)).setDrains ch
  if q.wr then s.dramStore q.la q.key q.data q.poison else s.demandRead ch q [] false

/-- One command slot: the first tier that holds an eligible request (R223, R224). -/
def State.slot (s : State) (ch : Nat) : State :=
  let c := s.chan ch
  if c.st ≠ 4 then s
  else
    let s := s.modChan ch (fun c =>
      let n := (c.slots + 1) % 64
      { c with slots := n, owed := if n = 0 ∧ s.scrubLags ch = true then c.owed + 1 else c.owed })
    let c := s.chan ch
    if 0 < c.owed ∧ c.scrubRun = true then
      (s.modChan ch (fun c => { c with owed := c.owed - 1 })).scrubNext ch []
    else
      let qs := s.eligible ch
      let t3 := qs.filter (fun q => decide (SMap.get 0 c.served q.td < s.guarantee ch q.td))
      let tier := if t3.isEmpty then qs else t3
      match grantDomain c.ptr tier with
      | some d =>
        match s.domainPick ch (tier.filter (fun q => q.td == d)) with
        | some q => s.issueReq ch q
        | none => s
      | none => if c.scrubRun then s.scrubNext ch [] else s

/-! ### Training and the fill (R236 to R239, R253, R273, R278) -/

/-- A DIMM type of R236. -/
def Dimm.supported (d : Dimm) : Bool :=
  d.rdimm && [(32, 0, 1), (64, 0, 2), (64, 2, 1), (96, 1, 2), (128, 2, 2), (256, 2, 4)].contains (d.cap, d.dens, d.ranks)

/-- The DIMMs that a channel uses (R237). -/
def Chan.used (c : Chan) : Option (Dimm × Bool) :=
  match c.slot0 with
  | none => none
  | some d0 =>
    if !d0.supported then none
    else
      match c.slot1 with
      | none => some (d0, false)
      | some d1 => some (d0, decide (d1.supported = true ∧ d1.cap = d0.cap ∧ d1.dens = d0.dens ∧ d1.speed = d0.speed ∧ d1.ranks = d0.ranks))

/-- The records of DIMMs that are not used (R237). -/
def State.dimmRecords (s : State) (ch : Nat) : State :=
  let c := s.chan ch
  let s := match c.slot0 with
    | some d => if d.supported then s else s.linkRecord ch 1 0x0505 0 0 none
    | none => s
  match c.slot1, c.used with
  | some _, some (_, true) => s
  | some _, _ => s.linkRecord ch 1 0x0505 1 0 none
  | none, _ => s

/-- The serial in a slot; 0 for an empty one. -/
def Chan.serial (c : Chan) (slot : Nat) : Nat :=
  ((if slot = 0 then c.slot0 else c.slot1).map (·.serial)).getD 0

/-- The slot that holds a logical rank (R241). -/
def Chan.slotOfRank (c : Chan) (rank : Nat) : Nat :=
  match c.used with
  | some (d, _) => if rank < d.ranks then 0 else 1
  | none => 0

/-- Marks are restored where their DIMM is still fitted; the others are dropped (R273). Marks staged away are
cleared. -/
def State.restoreMarks (s : State) (ch : Nat) : State :=
  let one (s : State) (i : Nat) : State :=
    let m := if i = 0 then (s.chan ch).mark0 else (s.chan ch).mark1
    let put (s : State) : State := s.modChan ch (fun c => if i = 0 then { c with mark0 := 0 } else { c with mark1 := 0 })
    let slot := (s.chan ch).slotOfRank (markRank m)
    if !m.getLsbD 0 then s
    else if s.mram.markOff.contains (ch, i) then put s
    else if SMap.get ((s.chan ch).serial slot) s.mram.serials (2 * ch + slot) ≠ (s.chan ch).serial slot then
      (put s).chanRecord ch 1 0x0519 none none { sub := markSub m, rank := markRank m, bg := 0, col := 0, bank := 0, row := 0 }
        (markDev m) 0 0
    else s
  let s := one (one s 0) 1
  { s with mram := { s.mram with markOff := s.mram.markOff.filter (fun e => e.1 != ch) } }

def rowLoc (e : W64) : DLoc :=
  { sub := fld e 1 1, rank := fld e 2 3, bg := fld e 5 3, bank := fld e 8 2, row := fld e 10 17, col := 0 }

/-- The row-remap table is applied: one entry a bank; entries of changed DIMMs are dropped; a device may report no
free resource (R278). -/
def State.applyRows (s : State) (ch : Nat) : State :=
  let del := (s.mram.rowDel.filter (fun e => e.1 == ch)).map (·.2)
  let old := SMap.get [] s.mram.rows ch
  let kept := ((List.range old.length).filter (fun i => !del.contains i)).map (fun i => old.getD i 0)
  let step (acc : List W64 × State) (e : W64) : List W64 × State :=
    let (done, s) := acc
    let l := rowLoc e
    let slot := (s.chan ch).slotOfRank l.rank
    if SMap.get ((s.chan ch).serial slot) s.mram.serials (2 * ch + slot) ≠ (s.chan ch).serial slot then
      (done, s.chanRecord ch 1 0x0519 none none l 0xFF 0 0)
    else if done.any (fun o => o.getLsbD 37 && decide ((rowLoc o).bankNo = l.bankNo)) then
      (done ++ [setFld (setFld e 37 1 0) 38 1 1], s)
    else
      let (i, s) := s.draw
      if Config.freeChoice i then (done ++ [setFld (setFld e 37 1 0) 38 1 1], s.chanRecord ch 1 0x0518 none none l 0xFF 0 0)
      else (done ++ [setFld (setFld e 37 1 1) 38 1 0], s)
  let (rows, s) := kept.foldl step ([], s)
  { s with mram := { s.mram with
      rows := SMap.set s.mram.rows ch rows, rowDel := s.mram.rowDel.filter (fun e => e.1 != ch)
      serials := SMap.set (SMap.set s.mram.serials (2 * ch) ((s.chan ch).serial 0)) (2 * ch + 1) ((s.chan ch).serial 1) } }

/-- Installed capacity, channels in use, positions and excess, from the channels that are trained (R239). -/
def State.layOut (s : State) : State :=
  let used := s.chansUsed
  let n := used.length
  let m := used.foldl (fun a c => min a (s.chan c).cap) (if n = 0 then 0 else 2 ^ 20)
  let s := { s with nchan := n, capacity := n * m * 2 ^ 30 }
  (List.range n).foldl (fun s p =>
    s.modChan (used.getD p 0) (fun c => { c with pos := p, excess := decide (m < c.cap) })) s

/-- One fallback record for each speed below the fastest that the channel may try (R238). -/
def State.fallbacks (s : State) (ch : Nat) : Nat → Nat → State
  | 0, _ => s
  | n + 1, speed => ((s.modChan ch (fun c => { c with speed := min 2 speed })).linkRecord ch 1 0x0504 0 0 none).fallbacks ch n (speed + 1)

/-! ### Meanings: reads and writes -/

/-- MEM_READ: a read that cannot issue yet waits in the read queue; a merge entry of its line closes first
(R244 to R246, R248, R262 to R266). A fenced channel answers poison. -/
def execMemRead (ch la td ks : Nat) (errs : List (Nat × Nat)) (s : State) : Host.Outcome State Fault Refusal :=
  .next (
    if !s.up || !s.boot.handed || !inDram (64 * la) || !s.dramOk (64 * la) || decide (s.chanOf (64 * la) ≠ ch) then s
    else
      let q : MReq := { MReq.reset with la, td, ks }
      if (s.chan ch).st = 8 then s.deliverRead q 0 true
      else
        let s := (s.chanTouch ch).mergeClose ch la
        let c := s.chan ch
        if c.bankFree (s.locOf la).bankNo && c.reread.isNone then s.demandRead ch q errs false
        else if !c.accepts || decide (64 ≤ (c.rdq.filter (fun r => s.subOf r.la == s.subOf la)).length) then s
        else (s.modChan ch (fun c => { c with rdq := c.rdq ++ [q] })).setDrains ch)

/-- DRAM_REREAD: the second read of a line that failed to decode (R264). -/
def execDramReread (ch : Nat) (errs : List (Nat × Nat)) (s : State) : Host.Outcome State Fault Refusal :=
  .next (
    match (s.chan ch).reread with
    | none => s
    | some (q, _) =>
      if !s.up || decide ((s.chan ch).st ≠ 4) then s
      else
        let s := s.modChan ch (fun c => { c with reread := none })
        if q.scrub then s.scrubCell ch q.la errs true else s.demandRead ch q errs true)

/-- MEM_WRITE: a full-line write enters the write queue: it replaces a queued write of its line, and frees its merge
entry (R245, R246, R248). A fenced channel discards it. -/
def execMemWrite (ch la td ks : Nat) (data : BitVec 512) (poison : Bool) (s : State) : Host.Outcome State Fault Refusal :=
  .next (
    if !s.up || !s.boot.handed || !inDram (64 * la) || !s.dramOk (64 * la) || decide (s.chanOf (64 * la) ≠ ch)
      || decide ((s.chan ch).st = 8) then s
    else
      let s' := s.chanTouch ch
      let c := s'.chan ch
      let q : MReq := { MReq.reset with wr := true, la, td, ks, data, poison, key := s.keyOf td ks }
      if !c.accepts then s
      else if c.wrq.any (fun w => w.la == la) then
        s'.modChan ch (fun c => { c with
          merge := c.merge.filter (fun m => m.la != la), wrq := c.wrq.map (fun w => if w.la == la then { q with passed := w.passed } else w) })
      else if 64 ≤ (c.wrq.filter (fun w => s.subOf w.la == s.subOf la)).length then s
      else (s'.modChan ch (fun c => { c with merge := c.merge.filter (fun m => m.la != la), wrq := c.wrq ++ [q] })).setDrains ch)

/-- PARTIAL_WRITE (R248). -/
def execPartialWrite (ch pa td ks : Nat) (bytes : List (BitVec 8)) (s : State) : Host.Outcome State Fault Refusal :=
  .next (if !s.up || !s.boot.handed || !inDram pa || !s.dramOk pa || decide (s.chanOf pa ≠ ch) || bytes.isEmpty
      || decide (64 < pa % 64 + bytes.length) then s
    else s.memPartial (pa / 64) td ks (pa % 64) bytes)

/-- MERGE_ENTRY_CLOSE: a full entry is written; any other reads its line, with the errors given, merges and writes;
over an uncorrectable line the result is poison (R248, R249). -/
def execMergeEntryClose (ch la : Nat) (errs : List (Nat × Nat)) (s : State) : Host.Outcome State Fault Refusal :=
  .next (
    if !s.up then s
    else
      match (s.chan ch).merge.find? (fun m => m.la == la) with
      | none => s
      | some m =>
        if m.mask.toNat = 2 ^ 64 - 1 ∨ errs.isEmpty ∨ (s.chan ch).wrq.any (fun w => w.la == la) then s.mergeClose ch la
        else
          match s.cellRead ch la errs with
          | .ok ct ps =>
            let s := if ps.isEmpty then s else s.countCorrected ch (s.locOf la) ps
            let d := xtsDecrypt (s.keyOf m.td m.ks) la ct
            (s.modChan ch (fun c => { c with merge := c.merge.filter (fun m => m.la != la) })).memWrite la m.td m.ks
              (lineMask d m.data m.mask.toNat) false
          | .poison => s.mergeClose ch la
          | .bad => (s.declareBad ch la (some m.td)).mergeClose ch la)

/-- COMMAND_SLOT (R223, R224, R246). -/
def execCommandSlot (ch : Nat) (s : State) : Host.Outcome State Fault Refusal :=
  .next (if !s.up || !s.chanPresent ch then s else s.slot ch)

/-- ROW_IDLE_CLOSE (R246). -/
def execRowIdleClose (ch bank : Nat) (s : State) : Host.Outcome State Fault Refusal :=
  .next (if !s.up || !s.chanPresent ch then s else s.modChan ch (fun c => { c with rows := SMap.del c.rows bank }))

/-- REFRESH: a bank is refreshed: its row closes and it is ineligible until the tick ends (R244, log 20). -/
def execRefreshBank (ch bank : Nat) (s : State) : Host.Outcome State Fault Refusal :=
  .next (if !s.up || !s.chanPresent ch || decide ((s.chan ch).st ≠ 4) then s
    else s.modChan ch (fun c => { c with rows := SMap.del c.rows bank, refresh := insNat c.refresh bank }))

/-! ### Meanings: calibration, retrain, RET -/

/-- Ticks since the calibration window of a channel was due (R244). -/
def State.calPhase (s : State) (ch : Nat) : Nat :=
  let p := s.settingN 0x3020 1 10000
  (s.noon.tick + p - ch * p / 16 % p) % p

/-- CALIBRATION_WINDOW_OPEN (R244, R255). -/
def execCalibrationWindowOpen (ch : Nat) (s : State) : Host.Outcome State Fault Refusal :=
  .next (if !s.up || !s.chanPresent ch || decide ((s.chan ch).st ≠ 4) || decide (s.calPhase ch ≠ 0) then s
    else s.modChan ch (fun c => { c with st := 5 }))

/-- CALIBRATION_WINDOW_CLOSE: 8 tk after its opening (R244). -/
def execCalibrationWindowClose (ch : Nat) (s : State) : Host.Outcome State Fault Refusal :=
  .next (if !s.up || decide ((s.chan ch).st ≠ 5) || decide (s.calPhase ch < 8) then s
    else s.modChan ch (fun c => { c with st := 4 }))

/-- A retrain starts; while the region's Morning controller does not run the request is held (R229, R256, R379). -/
def State.startRetrain (s : State) (ch : Nat) : State :=
  if !(s.region (ch / 2)).morning then
    s.modRegion (ch / 2) (fun x => { x with mwork := if x.mwork.contains (1, ch) then x.mwork else x.mwork ++ [(1, ch)] })
  else if (s.chan ch).st = 4 ∨ (s.chan ch).st = 5 then
    s.modChan ch (fun c => { c with st := 6, retry := false, rows := [] })
  else s

/-- The Morning controller of a region runs again, and the work held meanwhile is carried out in order
(R229, R379). -/
def State.morningBack (s : State) (r : Nat) : State :=
  let w := (s.region r).mwork
  (w.map (·.2)).foldl (fun s ch => s.startRetrain ch) (s.modRegion r (fun x => { x with morning := true, mwork := [] }))

/-- WRITE_CRC_ERROR: the commands are repeated and the link bucket counts; an overflow starts a retrain. In the fill, a
write that fails after four repeats is stored poisoned (R243, R254). -/
def execWriteCrcError (ch la : Nat) (s : State) : Host.Outcome State Fault Refusal :=
  .next (
    let c := s.chan ch
    if !s.noon.run || s.stopped || !s.chanPresent ch then s
    else if c.st = 3 then
      if c.crcTries < 4 then s.modChan ch (fun c => { c with crcTries := c.crcTries + 1 })
      else
        ((s.modChan ch (fun c => { c with crcTries := 0 })).dramStore la s.keys.null 0 true).linkRecord ch 2 0x0506 0
          (s.subOf la) (some (64 * la)) |>.post (srcClass2 ch)
    else if c.accepts then
      let (b, ovf) := c.link.add s.noon.tick (s.settingN 0x3050 1 16) (s.settingN 0x3050 3 864000000000)
      let s := s.modChan ch (fun c => { c with link := b })
      if ovf then (s.linkRecord ch 1 0x0501 0 (s.subOf la) none).startRetrain ch else s
    else s)

/-- RETRAIN (R256). -/
def execRetrainChan (ch : Nat) (s : State) : Host.Outcome State Fault Refusal :=
  .next (if !s.up || !s.chanPresent ch then s else s.startRetrain ch)

/-- A channel is fenced (R230, R255). -/
def State.fenceChan (s : State) (ch : Nat) : State :=
  s.modChan ch (fun c => { c with st := 8, rdq := [], wrq := [], merge := [], reread := none, rows := [], scrubRun := false })

/-- RETRAIN_COMPLETE: success, one repeat at the next lower speed, or the fence (R256). -/
def execRetrainComplete (ch : Nat) (ok : Bool) (s : State) : Host.Outcome State Fault Refusal :=
  .next (
    let c := s.chan ch
    if !s.up || decide (c.st ≠ 6) then s
    else if ok then (s.modChan ch (fun c => { c with st := 4, retry := false })).linkRecord ch 1 0x0502 0 0 none
    else if c.retry || decide (2 ≤ c.speed) then (s.fenceChan ch).linkRecord ch 3 0x0503 0 0 none
    else s.modChan ch (fun c => { c with retry := true, speed := c.speed + 1 }))

/-- Nothing waits in a channel. -/
def Chan.empty (c : Chan) : Bool := c.rdq.isEmpty && c.wrq.isEmpty && c.merge.isEmpty && c.reread.isNone

/-- CHANNEL_IDLE_RET: an idle channel, or one with a Slate request, enters RET once it holds nothing (R257). -/
def execChannelIdleRet (ch : Nat) (s : State) : Host.Outcome State Fault Refusal :=
  .next (
    let c := s.chan ch
    let lim := s.settingN 0x3010 7 0
    if !s.up || decide (c.st ≠ 4) || !c.empty || !(c.retReq || (decide (0 < lim) && decide (lim ≤ c.idle))) then s
    else
      (s.modChan ch (fun c => { c with st := 7, retReq := false, rows := [] })).modDom (392 + ch) (fun d => { d with st := 1 }))

/-- CHANNEL_WAKE: a request wakes a channel in RET (R257). -/
def execChannelWake (ch : Nat) (s : State) : Host.Outcome State Fault Refusal :=
  .next (if !s.up || !s.chanPresent ch then s else s.chanTouch ch)

/-! ### Meanings: start -/

/-- TRAINING: a channel whose DIMMs are supported trains at `speed` or slower as its cap and its DIMMs say; 3 and more
fail (R237, R238, R242, R273, R278). -/
def execTrainChan (ch speed : Nat) (s : State) : Host.Outcome State Fault Refusal :=
  .next (
    let c := s.chan ch
    if !s.noon.run || s.stopped || !s.chanPresent ch || decide (s.boot.phase ≠ 3) || !(decide (c.st = 0) || decide (c.st = 2)) then s
    else
      let s := s.dimmRecords ch
      match c.used with
      | none => s.modChan ch (fun c => { c with st := 1 })
      | some (d, two) =>
        let first := max (s.settingN 0x3010 1 0) d.speed
        let got := max first speed
        let s := s.fallbacks ch (min got 3 - first) first
        if 3 ≤ got then s.modChan ch (fun c => { c with st := 1, speed := 2 })
        else
          let n := if two then 2 else 1
          let s := s.modChan ch (fun c => { c with
            st := 3, speed := got, dpc2 := two, ranks := n * d.ranks - 1, dens := d.dens, cap := n * d.cap })
          (((s.restoreMarks ch).applyRows ch).layOut))

/-- FILL_COMPLETE: every channel is trained or unused, and Midnight has written every line under the null key
(R253, R254). -/
def execFillComplete (s : State) : Host.Outcome State Fault Refusal :=
  .next (
    let chs := (List.range 16).filter s.chanPresent
    if !s.noon.run || s.stopped || s.boot.filled || decide (s.boot.phase ≠ 3) || s.chansUsed.isEmpty
      || chs.any (fun c => (s.chan c).st == 0 || (s.chan c).st == 2) then s
    else
      let lines := s.usedLines
      let s := chs.foldl (fun s c => s.modChan c (fun x =>
        if x.st = 3 then { x with st := 4, filled := lines, crcTries := 0 } else x)) s
      { s with boot := { s.boot with filled := true }, dram := [], fillKey := s.keys.null
               lineKey := s.lineKey.filter (fun e => s.poison.contains e.1) })

/-! ### Meanings: scrub, marks, row repair -/

/-- SCRUB_PASS_START: the first pass at the first boundary, the next when the pass has ended and P ticks after its start
(R274). -/
def execScrubPassStart (ch : Nat) (s : State) : Host.Outcome State Fault Refusal :=
  .next (
    let c := s.chan ch
    if !s.up || !s.boot.handed || decide (c.st ≠ 4) || c.scrubRun || decide (s.usedLines = 0)
      || (c.scrubbed && decide (s.noon.tick < c.scrubStart + c.scrubP)) then s
    else s.modChan ch (fun c => { c with
      scrubRun := true, scrubbed := true, done := 0, scrubStart := s.noon.tick, scrubSkip := 0
      scrubP := s.settingN 0x3200 1 864000000000 }))

/-- SCRUB_READ (R276). -/
def execScrubRead (ch : Nat) (errs : List (Nat × Nat)) (s : State) : Host.Outcome State Fault Refusal :=
  .next (if !s.up || !s.chanPresent ch then s else s.scrubNext ch errs)

/-- DEVICE_BANK_BUCKET_LEAK: at a multiple of its LEAK every bucket of a kind loses 1 (R268). -/
def execDeviceBankBucketLeak (ch : Nat) (s : State) : Host.Outcome State Fault Refusal :=
  .next (
    let drop (m : List (Nat × Nat)) : List (Nat × Nat) := (m.map (fun e => (e.1, e.2 - 1))).filter (fun e => e.2 != 0)
    if !s.up || !s.chanPresent ch then s
    else
      s.modChan ch (fun c => { c with
        devBkt := if s.noon.tick % s.settingN 0x3100 2 10000000 = 0 then drop c.devBkt else c.devBkt
        bankBkt := if s.noon.tick % s.settingN 0x3101 2 10000000 = 0 then drop c.bankBkt else c.bankBkt }))

/-- MARK_CONFIRM: the Morning controller confirms a proposal to mark a device, or refuses it (R270 to R272). -/
def execMarkConfirm (ch : Nat) (s : State) : Host.Outcome State Fault Refusal :=
  .next (
    let p := (s.chan ch).prop
    if !s.up || !s.chanPresent ch || !(s.region (ch / 2)).morning || decide (s.settingN 0x3110 1 1 ≠ 1) || !p.getLsbD 0 || p.getLsbD 1 then s
    else
      let sub := fld p 2 1
      let rank := fld p 3 3
      let dev := fld p 6 4
      if s.markRefused ch sub rank dev then
        s.chanRecord ch 1 0x0513 none none { sub, rank, bg := 0, col := 0, bank := 0, row := 0 } dev 0 0
      else (s.addMark ch sub rank dev).modChan ch (fun c => { c with prop := setFld c.prop 0 1 0 }))

/-- PROPOSAL_REJECT (R270). -/
def execProposalReject (ch : Nat) (s : State) : Host.Outcome State Fault Refusal :=
  .next (if !s.up || !s.chanPresent ch then s else s.modChan ch (fun c => { c with prop := setFld c.prop 0 1 0 }))

/-- ROW_REPAIR_LIVE: the row is buffered and corrected, repaired and written back; lines of `bad`, by their column, were
uncorrectable and are poison. `ok` says that every device had a free resource (R278, R279). -/
def execRowRepairLive (ch : Nat) (ok : Bool) (bad : List Nat) (s : State) : Host.Outcome State Fault Refusal :=
  .next (
    match (s.chan ch).sppr with
    | none => s
    | some e =>
      if !s.up || !(s.region (ch / 2)).morning then s
      else
        let l := rowLoc e
        let s := s.modChan ch (fun c => { c with sppr := none, held := c.held.filter (· != l.bankNo) })
        let s := (bad.filter (· < 128)).foldl (fun s i =>
          let cla := (s.chan ch).claOf { l with col := i }
          if cla < s.usedLines then
            let la := s.lineAt ch cla
            s.dramStore la (s.lineKeyOf la) 0 true
          else s) s
        let rows := (SMap.get [] s.mram.rows ch).map (fun x =>
          if rowLoc x = l ∧ x.getLsbD 0 = true then (if ok then setFld x 37 1 1 else setFld x 38 1 1) else x)
        ({ s with mram := { s.mram with rows := SMap.set s.mram.rows ch rows } }).chanRecord ch 1 0x0518 none none l 0xFF 0 0)

/-! ### Meanings: the key engine (R250 to R252) -/

/-- The 512 bits of KEY_DATA. -/
def Keys.pair (k : Keys) : W512 :=
  BitVec.ofNat 512 ((List.range 8).foldr (fun i a => (SMap.get 0 k.data i).toNat + 2 ^ 64 * a) 0)

/-- A key command begins; KEY_DATA is cleared after every command (R252). -/
def State.keyCommand (s : State) (op : Nat) : State :=
  if s.keys.busy then s
  else
    let slot := 4 * s.keys.td + s.keys.sel
    let clr (k : Keys) : Keys := { k with data := [], op := op }
    match op with
    | 1 =>
      let p := s.keys.pair
      if fld p 0 256 = fld p 256 256 then { s with keys := { clr s.keys with err := true } }
      else { s with keys := { clr s.keys with busy := true, next := some (slot, p) } }
    | 2 =>
      let (i, s) := s.draw
      { s with keys := { clr s.keys with busy := true, next := some (slot, Config.randomKey i) } }
    | 3 => { s with keys := { clr s.keys with busy := true, next := some (slot, s.keys.null) } }
    | _ => { s with keys := clr s.keys }

/-- KEY_LOAD (R252). -/
def execKeyLoad (s : State) : Host.Outcome State Fault Refusal := .next (if s.up then s.keyCommand 1 else s)

/-- KEY_GENERATE (R252). -/
def execKeyGenerate (s : State) : Host.Outcome State Fault Refusal := .next (if s.up then s.keyCommand 2 else s)

/-- KEY_NULL (R252). -/
def execKeyNull (s : State) : Host.Outcome State Fault Refusal := .next (if s.up then s.keyCommand 3 else s)

/-- KEY_COMMAND_COMPLETE: every channel holds the new key; what entered a channel before keeps the old one, so the merge
entries of the slot are written under it first (R252). -/
def execKeyCommandComplete (s : State) : Host.Outcome State Fault Refusal :=
  .next (
    match s.keys.next with
    | none => s
    | some (slot, key) =>
      if !s.up then s
      else
        let s := (List.range 16).foldl (fun s ch =>
          (((s.chan ch).merge.filter (fun m => 4 * m.td + m.ks == slot)).map (·.la)).foldl (fun s la => s.mergeClose ch la) s) s
        { s with keys := { s.keys with busy := false, next := none, slots := SMap.set s.keys.slots slot key } })

end Sys2Proof.Machine
end

