-- ==== Sys2Proof/Machine/Escalate.lean ====
section
/-! DEFINITION. Event routers and error logs as commands, errors of the mesh and the die links, containment, chip-level
corrections and the chip-fatal stop (R51 to R53, R216, R217, R225 to R235). -/

namespace Sys2Proof.Machine

/-! ### Containment (R229, R230) -/

/-- A core is stopped: it issues nothing, its pending bits go, its arrays are written back, and it slips (R230). -/
def State.stopCore (s : State) (c : Nat) : State :=
  if (s.core c).run = .stopped then s
  else
    let s := (s.slipCore c 3).walkAllArrays c
    s.modCore c (fun k => { k with run := .stopped, pend := [], longs := [], resv := none })

/-- The slice of a block is emptied: dirty lines reach memory, every copy that the directory tracks is recalled, and
every request that waited is answered (R129). -/
def State.emptySlice (s : State) (b : Nat) : State :=
  let s := ((s.block b).dir.map (·.la)).foldl
    (fun s la => (s.settle la ((s.block b).queue.length + 2)).recall la) s
  let s := ((s.block b).slc.filter (·.dirty)).foldl (fun s l => s.memWrite l.la l.td l.ks l.data l.poison) s
  s.modBlock b (fun x => { x with slc := [], dir := [], queue := [] })

/-- A block is fenced (R230). -/
def State.fenceBlock (s : State) (b : Nat) : State :=
  if (s.block b).fenced then s
  else
    let s := ((s.stopCore (2 * b)).stopCore (2 * b + 1)).emptySlice b
    s.modBlock b (fun x => { x with fenced := true })

/-- An I/O translation unit is fenced: its stack and its region's Cobalt function freeze with it (R230, R339). -/
def State.fenceIotu (s : State) (r : Nat) : State :=
  let s := s.modIotu r (fun u => { u with fenced := true })
  let s := (List.range 4).foldl (fun s f => if s.portPresent r f then s.dpcEnter r f 8 [] else s) s
  s.contain r 2 8 0xFF

/-! ### The chip-fatal stop (R235) -/

/-- The writes that a channel has accepted are completed and its DRAM goes to self-refresh. -/
def State.parkChan (s : State) (ch : Nat) : State :=
  if !(s.chan ch).accepts then s
  else
    let s := ((s.chan ch).wrq).foldl (fun s q => s.dramStore q.la q.key q.data q.poison) s
    let s := ((s.chan ch).merge.map (·.la)).foldl (fun s la => s.mergeClose ch la) s
    let s := ((s.chan ch).wrq).foldl (fun s q => s.dramStore q.la q.key q.data q.poison) s
    s.modChan ch (fun c => { c with st := 7, rdq := [], wrq := [], merge := [], reread := none, rows := [] })

/-- The ordinary stores that cores have retired are carried on. -/
def State.carryStores (s : State) : State :=
  s.allCores.foldl (fun s c =>
    let s := (((s.core c).sq).filter (fun e => e.tord.isNone)).foldl (fun s e => s.writeStore c e) s
    s.modCore c (fun k => { k with sq := [] })) s

/-- A running LBIST run of a unit ends (R411): PASS or FAIL after PAT_TARGET patterns, else INCOMPLETE with its cause;
a result other than PASS is recorded (R412). -/
def State.lbEnd (s : State) (r u pat : Nat) (sig : W64) (cause : Nat) : State :=
  let key := 19 * r + u
  let l := SMap.get Lb.reset s.lbist key
  if l.status ≠ 1 then s
  else
    let target := if u < 18 then 65536 else 16384
    let done := decide (cause = 0) && decide (pat = target)
    let st := if done then (if sig = SMap.get 0 s.fuses.lbistExp key then 2 else 3) else 4
    let s := { s with lbist := SMap.set s.lbist key { status := st, done, cause, pat := pat % 2 ^ 32, sig } }
    let synd := [u, st, cause, 0, 0, 0, 0, 0] ++ (natLe 8 sig.toNat).map (·.toNat)
    if st = 3 then s.record (recAt (srcId 10 r 0 0 0) 2 3 0x0A01 none none synd 0)
    else if st = 4 then s.record (recAt (srcId 10 r 0 0 0) 2 0 0x0A02 none none synd 0)
    else s

/-- The running LBIST runs end for a common cause, with counts and signatures that the model does not know (R411). -/
def State.lbEndAll (s : State) (cause : Nat) : State :=
  ((s.lbist.filter (fun e => e.2.status == 1)).map (·.1)).foldl (fun s key =>
    let (i, s) := s.draw
    let w := Config.freeWord i
    s.lbEnd (key / 19) (key % 19) (fld w 0 32) (w.extractLsb' 64 64) cause) s

/-- A chip-fatal stop: the tick freezes, every unit stops, DRAM and PCI Express are parked, and the record of class 4
goes to the chip log and to MRAM (R235, R233). -/
def State.chipFatal (s : State) (src typ : Nat) (synd : List Nat) : State :=
  if s.stopped then s
  else
    let s := { s with noon := { s.noon with run := false }, stopped := true }
    let s := s.carryStores
    let s := (List.range 16).foldl (fun s ch => s.parkChan ch) s
    let s := (List.range 8).foldl (fun s r => (List.range 4).foldl (fun s f =>
      if s.portPresent r f then s.modPort r f (fun p => { p with up := false, perst := true, reqs := [], quar := [] })
      else s) s) s
    let s := s.modDom 416 (fun d => { d with st := 0, dest := 0, held := false, queue := [] })
    let r := s.mkRec (recAt src 3 4 typ none none synd 0)
    let e : Rec := { r with seq := s.chipLog.seq, ovf := s.chipLog.ovf.contains r.src }
    let s := s.logRecord 8 e
    s.modBoot (fun b => { b with fatal := true, fatalRec := some e })

/-! ### Chip-level corrections (R234) -/

/-- The correction classes now active (R233, R234; log 44). -/
def State.corrActive (s : State) : Nat :=
  let now := s.noon.tick
  let recent (t : Option Nat) : Bool := match t with | some t => decide (now ≤ t + 1) | none => false
  bit (recent s.replayT || (List.range 8).any (fun r => !(s.region r).retrain.isEmpty)) + 2 * bit (recent s.treeT)

/-! ### Meanings: routers -/

/-- ROUTER_POST: a source posts (R52, R53). -/
def execRouterPost (src : Nat) (s : State) : Host.Outcome State Fault Refusal :=
  .next (if !s.up || decide (4096 ≤ src) then s else s.post src)

/-- MSI_MESSAGE: a write to the message window (R51, R52). -/
def execMsiMessage (td rid off : Nat) (bytes : List (BitVec 8)) (s : State) : Host.Outcome State Fault Refusal :=
  .next (if !s.up then s else s.message td rid off bytes)

/-- HELD_POST_DELIVERY (R53). -/
def execHeldPostDelivery (msg : Bool) (i : Nat) (s : State) : Host.Outcome State Fault Refusal :=
  .next (if !s.up then s else s.deliverHeld msg i)

/-- ROUTE_WRITE: software rewrites an entry (R51, R53). -/
def execRouteWrite (msg : Bool) (i : Nat) (v : BitVec 64) (s : State) : Host.Outcome State Fault Refusal :=
  .next (if !s.up || decide ((if msg then 32768 else 4096) ≤ i) then s else s.writeRoute msg i v)

/-! ### Meanings: logs -/

/-- LOG_RECORD_WRITE: a record reaches a log (R231, R232). -/
def execLogRecordWrite (log : Nat) (r : RecIn) (s : State) : Host.Outcome State Fault Refusal :=
  .next (if !s.noon.run || decide (8 < log) then s else s.logRecord log (s.mkRec r))

/-- HST's read pointer moves within its unread span (R231). -/
def Log.htailWrite (g : Log) (size p : Nat) : Log :=
  let d := ringDist size g.htail p
  if p < size ∧ d ≤ g.count then { g with htail := p, count := g.count - d } else g

/-- LOG_HTAIL_WRITE (R231, R232). -/
def execLogHtailWrite (log p : Nat) (s : State) : Host.Outcome State Fault Refusal :=
  .next (if !s.up || decide (8 < log) then s else s.modLog log (fun g => g.htailWrite (logSize log) p))

/-- FLD's read pointer moves within its unread span; none where the value lies outside it (R231, R233). -/
def Log.fldWrite (g : Log) (size p : Nat) : Option Log :=
  let d := ringDist size g.fld p
  if p < size ∧ d ≤ g.fldCount then some { g with fld := p, fldCount := g.fldCount - d } else none

/-- LOG_FLD_POINTER_WRITE: a write-now of subindex 2 of a log's object on FLD (R231, R233). -/
def execLogFldPointerWrite (log p : Nat) (s : State) : Host.Outcome State Fault Refusal :=
  .next (if !s.pins.resetN || s.scan || decide (8 < log) then s
    else
      match (s.log log).fldWrite (logSize log) p with
      | some g => s.modLog log (fun _ => g)
      | none => s)

/-! ### Meanings: mesh and die links (R216, R217) -/

def countOnes (n w : Nat) : Nat := ((List.range n).filter (fun i => w.testBit i)).length

/-- MESH_FLIT_ERROR: one flit of an on-die link (R216). What a poisoned flit carried takes the poison mark where that
data is used (log 45). -/
def execMeshFlitError (b input : Nat) (e : FlitErr) (td : Nat) (s : State) : Host.Outcome State Fault Refusal :=
  .next (
    let src := srcId 3 (b / 16) (b % 16) 0 input
    let synd := (Config.recordSynd 3).map (·.toNat)
    if !s.up || !s.blockPresent b || decide (5 < input) then s
    else
      match e with
      | .single => s.record (recAt src 0 1 (openType 3 0) none none synd 0)
      | .headerOne => s.record (recAt src 0 1 (openType 3 1) none none synd 0)
      | .dataDouble => s.record (recAt src 0 2 0x0301 (some td) none synd 0)
      | .headerBoth => s.chipFatal src 0x0302 synd)

def srcLink (r link : Nat) : Nat := srcId 4 r 0 0 link

/-- DIE_LINK_FLIT_RECEIVE: a good flit ends a run of failed replays; a bad one asks for a replay, which its bucket
counts, and sixteen in a row start a retrain (R217, R234). -/
def execDieLinkFlitReceive (r link : Nat) (ok : Bool) (s : State) : Host.Outcome State Fault Refusal :=
  .next (
    let x := s.region r
    if !s.up || decide (8 ≤ r) || decide (16 ≤ link) || x.retrain.contains link then s
    else if ok then s.modRegion r (fun x => { x with replays := SMap.del x.replays link })
    else
      let (bk, ovf) := (SMap.get Bucket.reset x.links link).add s.noon.tick (s.settingN 0x7102 1 32) (s.settingN 0x7102 3 864000000000)
      let n := SMap.get 0 x.replays link + 1
      let s := { s with replayT := some s.noon.tick }
      let s := s.modRegion r (fun x => { x with
        links := SMap.set x.links link bk
        replays := if 16 ≤ n then SMap.del x.replays link else SMap.set x.replays link n
        retrain := if 16 ≤ n then insNat x.retrain link else x.retrain })
      if ovf then s.record (recAt (srcLink r link) 2 1 0x0401 none none ((Config.recordSynd 4).map (·.toNat)) 0) else s)

/-- LINK_RETRAIN_COMPLETE: up to two failed lanes go to the spares; more, or a retrain that does not complete, is
chip-fatal (R217). -/
def execLinkRetrainComplete (r link : Nat) (failed : Nat) (done : Bool) (s : State) : Host.Outcome State Fault Refusal :=
  .next (
    let x := s.region r
    let free := (Config.recordSynd 4).map (·.toNat)
    let synd := (free ++ List.replicate 5 0).take 5 ++ [failed % 256, failed / 256 % 256]
    if !s.up || !x.retrain.contains link then s
    else if done && decide (countOnes 64 failed ≤ 2) then
      (s.modRegion r (fun x => { x with
        retrain := x.retrain.filter (· != link), spares := SMap.set x.spares link (countOnes 64 failed) })).record
        (recAt (srcLink r link) 2 1 0x0402 none none synd 0)
    else s.chipFatal (srcLink r link) 0x0403 synd)

/-- A bucket loses 1, down to 0 (R147). -/
def Bucket.leak (b : Bucket) : Bucket := { b with count := b.count - 1 }

def leakAt (m : List (Nat × Bucket)) (k : Nat) : List (Nat × Bucket) :=
  if m.any (fun e => e.1 == k) then SMap.set m k (SMap.get Bucket.reset m k).leak else m

/-- LEAKY_BUCKET_LEAK: LEAK ticks have passed for one bucket (R147, R217, R243, R340). -/
def execLeakyBucketLeak (b : BucketId) (s : State) : Host.Outcome State Fault Refusal :=
  .next (
    if !s.up then s
    else
      match b with
      | .l2 c w => s.modBlock (coreBlock c) (fun x => { x with l2bkt := leakAt x.l2bkt (16 * (c % 2) + w) })
      | .slc b w => s.modBlock b (fun x => { x with slcbkt := leakAt x.slcbkt w })
      | .die r l => s.modRegion r (fun x => { x with links := leakAt x.links l })
      | .mem ch => s.modChan ch (fun c => { c with link := c.link.leak })
      | .port r f => if s.portPresent r f then s.modPort r f (fun p => { p with bkt := p.bkt.leak }) else s)

/-! ### Meanings: loss of state (R229, R234, R235) -/

/-- The lines that a set of a slice or its directory holds (R229, log 46). -/
def Block.setLines (x : Block) (set : Nat) : List (Nat × Nat × Nat) :=
  let a := (x.slc.filter (fun l => homeSet l.la == set)).map (fun l => (l.la, l.td, l.ks))
  let d := (x.dir.filter (fun e => homeSet e.la == set && !(a.any (fun y => y.1 == e.la)))).map (fun e => (e.la, 0, 0))
  a ++ d

/-- The record of contained loss of a unit whose TYPE the specification does not name (log 15). -/
def State.lossRecord (s : State) (kind src lvl clvl : Nat) (td : Option Nat) : State :=
  s.record { src, lvl, clvl, cls := 3, typ := openType kind 2, td, addr := none, synd := [], prog := 0 }

/-- STATE_ERROR_DETECTED: an uncorrectable loss of state is contained at the lowest level that can (R229, R230). -/
def execStateErrorDetected (e : StateErr) (s : State) : Host.Outcome State Fault Refusal :=
  .next (
    if !s.up then s
    else
      match e with
      | .coreState c =>
        if s.corePresent c then ((s.stopCore c).lossRecord 0 (srcCore c) 0 1 (some (s.core c).td)) else s
      | .l2Tag c =>
        if s.corePresent c then ((s.stopCore c).lossRecord 0 (srcCore c) 0 1 (some (s.core c).td)) else s
      | .dirSet b set =>
        if !s.blockPresent b then s
        else
          let s := ((s.block b).setLines (set % 4096)).foldl (fun s (la, td, ks) => s.poisonLine la td ks) s
          s.record { src := srcId 1 (b / 16) (b % 16) 0 0xFF, lvl := 0, clvl := 1, cls := 2, typ := openType 1 1,
                     td := none, addr := none, synd := [], prog := 0 }
      | .action b i domOk =>
        match (s.block b).acts[i]? with
        | none => s
        | some a =>
          let k := a.key
          let synd := if domOk then [0, k.slot, k.block, k.core] ++ (natLe 4 k.seq).map (·.toNat) ++ (natLe 8 k.tick).map (·.toNat)
            else []
          let td := if domOk then some a.td else none
          (s.delAct b k).record
            { src := srcAgent b, lvl := 0, clvl := 1, cls := 3, typ := 0x0204, td, addr := none, synd, prog := progNone }
      | .blockControl b =>
        if !s.blockPresent b then s
        else (s.fenceBlock b).lossRecord 1 (srcId 1 (b / 16) (b % 16) 0 0xFF) 1 2 none
      | .channel ch =>
        if !s.chanPresent ch then s
        else (s.fenceChan ch).lossRecord 5 (srcId 5 (ch / 2) 0 0 ch) 2 2 none
      | .port r f => if decide (r < 8) && s.portPresent r f then s.dpcEnter r f 8 [] else s
      | .function r => if r < 8 then s.contain r 1 7 0xFF else s
      | .iotu r => if r < 8 then (s.fenceIotu r).lossRecord 8 (srcId 8 r 0 0 0) 2 2 none else s
      | .morning r =>
        if r < 8 then
          (s.modRegion r (fun x => { x with morning := false })).lossRecord 10 (srcId 10 r 0 0 0) 2 3 none
        else s
      | .stopRouting b => s.chipFatal (srcId 3 (b / 16) (b % 16) 0 0) (openType 3 2) []
      | .treeCopies n =>
        if n = 0 then s
        else if n = 1 then
          ({ s with treeT := some s.noon.tick }).record (recAt (srcId 11 0 0 0 0) 3 1 (openType 11 0) none none [] 0)
        else s.chipFatal (srcId 11 0 0 0 0) (openType 11 1) []
      | .mram w fixed =>
        s.record (recAt (srcId 12 0 0 0 1) 3 (if fixed then 1 else 3) (if fixed then 0x0C05 else 0x0C06) none none
          ((natLe 4 w).map (·.toNat)) 0))

/-- MORNING_RESTART_COMPLETE: Dawn has reloaded the controller, which takes up the work held meanwhile (R229). -/
def execMorningRestartComplete (r : Nat) (s : State) : Host.Outcome State Fault Refusal :=
  .next (if !s.up || decide (8 ≤ r) || (s.region r).morning || s.boot.lacks then s else s.morningBack r)

/-- CHIP_FATAL_STOP: an error that no level contains (R235). -/
def execChipFatalStop (src typ : Nat) (s : State) : Host.Outcome State Fault Refusal :=
  .next (if !s.up then s else s.chipFatal src typ [])

/-- PLL_LOSS_OF_LOCK: chip-fatal; running LBIST runs end with cause 4, and the CAN FD controller runs from REFCLK
(R22, R235, R364, R411). -/
def execPllLossOfLock (s : State) : Host.Outcome State Fault Refusal :=
  .next (if !s.up then s
    else ((s.lbEndAll 4).modSlate (fun x => { x with canPll := false })).chipFatal (srcId 11 0 0 0 0) (openType 11 2) [])

end Sys2Proof.Machine
end

