-- ==== Sys2Proof/Machine/Dict.lean ====
section
/-! DEFINITION. The Slate object dictionary: which objects exist, their types and rights, and the value each holds
(R387 to R390 and the object tables of every chapter). -/

namespace Sys2Proof.Machine

/-! ### Registers and images that objects read -/

/-- A record as its 64 bytes (R226). -/
def Rec.bytes (r : Rec) : List Byte :=
  natLe 8 r.tick ++ natLe 8 r.wall
    ++ natLe 8 (match r.addr with | some a => a % 2 ^ 52 + 2 ^ 63 | none => 0)
    ++ natLe 4 r.src ++ [BitVec.ofNat 8 (r.lvl + 4 * r.clvl + 16 * r.cls)]
    ++ [BitVec.ofNat 8 ((match r.td with | some d => d % 64 + 64 | none => 0) + 128 * bit r.ovf)]
    ++ natLe 2 r.typ ++ natLe 4 r.seq ++ natLe 4 0
    ++ ((r.synd ++ List.replicate 16 0).take 16).map (fun v => BitVec.ofNat 8 v) ++ natLe 8 r.prog

/-- A log slot as its 64 bytes; a slot never written reads 0. -/
def Log.slotBytes (g : Log) (i : Nat) : List Byte := (g.slot i).elim (List.replicate 64 0) Rec.bytes

/-- MC_STAT (R258). -/
def State.mcStat (s : State) (ch : Nat) : Nat :=
  let c := s.chan ch
  c.st + 16 * c.speed + 64 * bit c.dpc2 + 128 * c.ranks + 1024 * c.dens + 4096 * c.marks.length + 16384 * bit c.excess
    + 32768 * c.pos

/-- MC_SCRUB (R281). -/
def State.mcScrub (s : State) (ch : Nat) : Nat :=
  let c := s.chan ch
  c.done + 2 ^ 36 * bit (s.scrubLags ch) + 2 ^ 37 * bit c.scrubRun

/-- BOOT_STAT (R374). -/
def Boot.stat (b : Boot) : Nat :=
  b.phase + 8 * bit b.filled + 16 * bit b.handed + 32 * bit b.locked + 64 * bit b.recov + 128 * b.slot

/-- The row-remap table of a channel as a BLOB (R277). -/
def State.rowBlob (s : State) (ch : Nat) : List Byte :=
  let es := SMap.get [] s.mram.rows ch
  natLe 4 (SMap.get 0 s.mram.serials (2 * ch)) ++ natLe 4 (SMap.get 0 s.mram.serials (2 * ch + 1))
    ++ natLe 1 es.length ++ natLe 7 0 ++ (es.map (fun e => natLe 8 e.toNat)).flatten

/-- Dies, blocks and cores of the part in ASCII (R3, R407). -/
def partName : Part → List Nat
  | .vt9256 => [0x56, 0x54, 0x39, 0x32, 0x35, 0x36]
  | .vt9192 => [0x56, 0x54, 0x39, 0x31, 0x39, 0x32]
  | .vt9160 => [0x56, 0x54, 0x39, 0x31, 0x36, 0x30]

def strOf (l : List Nat) : SVal := .b (l.map (fun v => BitVec.ofNat 8 v))

/-! ### Types and rights (R388, R390) -/

/-- Types of objects. -/
inductive OTy where
  | u8 | u16 | u32 | u64 | i32 | bool | str | blob | tick
  deriving DecidableEq, Repr

/-- The type code (R388). -/
def OTy.code : OTy → Nat
  | .u8 => 1 | .u16 => 2 | .u32 => 3 | .u64 => 4 | .i32 => 5 | .bool => 6 | .str => 7 | .blob => 8 | .tick => 9

/-- The size of a fixed-size type; none for STR and BLOB (R388). -/
def OTy.size : OTy → Option Nat
  | .u8 => some 1 | .u16 => some 2 | .u32 => some 4 | .u64 => some 8 | .i32 => some 4 | .bool => some 1
  | .str => none | .blob => none | .tick => some 8

/-- An object: its type, the ports that may write it now and stage it, whether it persists, and its default
(ports: 0 SVC, 1 FLD, 2 HST, 3 DBG). -/
structure Obj where
  ty : OTy
  w : List Nat
  st : List Nat
  pers : Bool
  dflt : Int
  deriving DecidableEq, Repr

/-- An object that no port writes or stages. -/
def ro (ty : OTy) : Obj := { ty, w := [], st := [], pers := false, dflt := 0 }
/-- A volatile object that ports stage. -/
def rws (ty : OTy) (st : List Nat) (dflt : Int) : Obj := { ty, w := [], st, pers := false, dflt }
/-- A persistent object that ports stage. -/
def rwp (ty : OTy) (st : List Nat) (dflt : Int) : Obj := { ty, w := [], st, pers := true, dflt }
/-- An object that ports write now. -/
def wn (ty : OTy) (w : List Nat) : Obj := { ty, w, st := [], pers := false, dflt := 0 }
/-- A read-only persistent object. -/
def rop (ty : OTy) : Obj := { ro ty with pers := true }

/-- `sub` lies in 1 to `n`. -/
def subIn (sub n : Nat) : Bool := decide (1 ≤ sub) && decide (sub ≤ n)

/-- Bucket parameters: DEPTH, LEAK and, with three subindices, WINDOW (R147). -/
def bucketObj (sub depth n : Nat) : Option Obj :=
  if sub = 1 then some (rws .u16 [1, 2] depth)
  else if sub = 2 then some (rws .tick [1, 2] 10000000)
  else if sub = 3 ∧ n = 3 then some (rws .tick [1, 2] 864000000000)
  else none

/-- Identity and Slate's own objects (R407, R408). -/
def obj1 (idx sub : Nat) : Option Obj :=
  match idx with
  | 0x1000 =>
    match sub with
    | 1 => some (rop .str) | 2 => some (rop .str) | 3 => some (rop .u8) | 4 => some (rop .u16) | 5 => some (rop .u8)
    | 6 => some (rop .u16) | 7 => some (rop .u16) | 8 => some (rop .u64) | 9 => some (ro .u8) | 10 => some (rop .u16)
    | _ => none
  | 0x1F10 => if subIn sub 4 then some (ro .u64) else none
  | 0x1F11 => if subIn sub 4 then some (ro .tick) else none
  | 0x1F12 => if subIn sub 4 then some (ro .u16) else none
  | 0x1F13 => if sub = 1 then some (ro .u8) else none
  | 0x1F14 => if subIn sub 4 then some (ro .u32) else none
  | 0x1F20 => if sub = 1 then some (rwp .u8 [1] 0) else none
  | _ => none

/-- Clocks and power (R23, R365, R428). -/
def State.obj2 (s : State) (idx sub : Nat) : Option Obj :=
  match idx with
  | 0x2100 => if s.blockPresent sub then some (rwp .u8 [1, 2] 0) else none
  | 0x2200 => if subIn sub 128 then some (rws .u8 [1, 2] 0) else none
  | 0x2201 => if subIn sub 128 then some (rws .u8 [1, 2] 0) else none
  | 0x2202 => if subIn sub 128 then some (ro .u8) else none
  | 0x2203 => if subIn sub 8 then some (rws .u8 [1, 2] 0) else none
  | 0x2204 => if subIn sub 16 then some (rws .u8 [1, 2] 0) else none
  | 0x2205 => if subIn sub 8 then some (rws .u8 [1, 2] 0) else none
  | 0x2206 => if sub = 1 then some (rws .u8 [1, 2] 0) else none
  | 0x2210 => if subIn sub 8 then some (rws .u32 [1, 2] 0) else none
  | 0x2220 => if sub = 1 then some (rws .bool [1] 0) else none
  | 0x2300 =>
    match sub with
    | 1 => some (ro .u32) | 2 => some (ro .i32) | 3 => some (rws .i32 [1] 100000) | _ => none
  | 0x2320 => if sub = 1 then some (ro .u16) else none
  | _ =>
    if 0x2310 ≤ idx ∧ idx < 0x2318 then
      match sub with
      | 1 => some (ro .u32) | 2 => some (ro .i32) | 3 => some (ro .u32) | _ => none
    else none

/-- Memory and integrity (R222, R243, R244, R258, R268, and the table after R281). -/
def obj3 (idx sub : Nat) : Option Obj :=
  match idx with
  | 0x3000 => if subIn sub 16 then some (ro .u32) else none
  | 0x3010 =>
    match sub with
    | 1 => some (rwp .u8 [1] 0) | 2 => some (rwp .u8 [1] 0) | 4 => some (ro .u64) | 5 => some (ro .u8)
    | 6 => some (ro .u8) | 7 => some (rws .u32 [1, 2] 0) | _ => none
  | 0x3020 => if sub = 1 then some (rws .u32 [1] 10000) else none
  | 0x3030 => if subIn sub 16 then some (ro .u64) else none
  | 0x3050 => bucketObj sub 16 3
  | 0x3060 => if subIn sub 16 then some (wn .bool [1]) else none
  | 0x3100 => bucketObj sub 64 2
  | 0x3101 => bucketObj sub 256 2
  | 0x3110 => if subIn sub 2 then some (rwp .bool [1] 1) else none
  | 0x3200 => if sub = 1 then some (rwp .tick [1] 864000000000) else none
  | 0x3210 => if subIn sub 16 then some (ro .u64) else none
  | 0x3400 => if subIn sub 64 then some (rws .u16 [1, 2] 0) else none
  | _ =>
    if 0x3120 ≤ idx ∧ idx < 0x3130 then
      match sub with
      | 1 => some (rwp .u32 [1] 0) | 2 => some (rwp .u32 [1] 0) | 3 => some (ro .u32) | 4 => some (wn .bool [1])
      | _ => none
    else if 0x3300 ≤ idx ∧ idx < 0x3310 then
      match sub with
      | 1 => some (rop .blob) | 2 => some (rws .u64 [1] 0) | 3 => some (rws .u8 [1] 0) | _ => none
    else none

/-- Blocks and sparing (R280, R281, R417, R418). -/
def obj4 (idx sub : Nat) : Option Obj :=
  match idx with
  | 0x4110 => if subIn sub 3 then some (rws .u8 [1, 2] 0) else none
  | 0x4300 => if sub = 1 then some (rop .blob) else if sub = 2 then some (rws .u16 [1] 0) else none
  | _ =>
    if 0x4100 ≤ idx ∧ idx < 0x4108 then (if subIn sub 18 then some (rop .u8) else none)
    else if 0x4120 ≤ idx ∧ idx < 0x4128 then (if sub = 1 then some (ro .u8) else none)
    else none

/-- Noon (R199). -/
def obj5 (idx sub : Nat) : Option Obj :=
  match idx with
  | 0x5000 => match sub with | 1 => some (ro .tick) | 2 => some (ro .u64) | 3 => some (ro .u64) | _ => none
  | 0x5100 =>
    match sub with
    | 1 => some (rws .u64 [1, 2] 0) | 2 => some (rws .bool [1, 2] 0) | 3 => some (ro .u64) | 4 => some (ro .i32)
    | 5 => some (ro .i32) | 6 => some (ro .bool) | 7 => some (ro .u32) | _ => none
  | 0x5200 =>
    match sub with
    | 1 => some (rws .u8 [1, 2] 0) | 2 => some (rws .u8 [1, 2] 0) | 3 => some (rws .tick [1, 2] 0) | 4 => some (ro .bool)
    | _ => none
  | _ => none

/-- Cobalt and PCI Express (R319, R328, R329, R340). -/
def obj6 (idx sub : Nat) : Option Obj :=
  match idx with
  | 0x6010 => if subIn sub 8 then some (ro .u32) else none
  | 0x6030 => bucketObj sub 64 3
  | 0x6100 => if subIn sub 8 then some (rwp .u8 [1] 0) else none
  | 0x6110 => if subIn sub 32 then some (rws .u8 [1, 2] 0) else none
  | _ => if 0x6200 ≤ idx ∧ idx < 0x6208 then (if subIn sub 16 then some (ro .u32) else none) else none

/-- Logs and buckets (R147, R217, R233). -/
def obj7 (idx sub : Nat) : Option Obj :=
  match idx with
  | 0x7010 => if subIn sub 9 then some (ro .u64) else none
  | 0x7020 => if sub = 1 then some (rwp .bool [1] 0) else if sub = 2 then some (rop .blob) else none
  | 0x7030 => if sub = 1 then some (ro .u8) else none
  | 0x7100 => bucketObj sub 32 3
  | 0x7101 => bucketObj sub 32 3
  | 0x7102 => bucketObj sub 32 3
  | _ =>
    if 0x7000 ≤ idx ∧ idx ≤ 0x7008 then
      match sub with
      | 1 => some (ro .u16) | 2 => some (wn .u16 [1]) | 3 => some (ro .u16) | 4 => some (ro .u32) | 5 => some (ro .blob)
      | _ => none
    else none

/-- Boot, firmware and Vesper (R368, R372, R375, R378 to R386). -/
def obj8 (idx sub : Nat) : Option Obj :=
  match idx with
  | 0x8000 => match sub with | 1 => some (ro .u8) | 2 => some (rop .u64) | 3 => some (ro .u8) | 4 => some (ro .bool) | _ => none
  | 0x8021 => if subIn sub 8 then some (ro .u32) else none
  | 0x8022 => if subIn sub 8 then some (ro .u32) else none
  | 0x8023 => if subIn sub 8 then some (ro .u32) else none
  | 0x8024 => if subIn sub 8 then some (ro .u32) else none
  | 0x8025 => if sub = 1 then some (ro .u32) else none
  | 0x8100 => if subIn sub 5 then some (rop .u32) else none
  | 0x8101 => if subIn sub 5 then some (rws .u32 [1] 0) else none
  | 0x8110 => if subIn sub 4 then some (rwp .bool [1] 0) else none
  | 0x8200 =>
    match sub with
    | 1 => some (wn .u8 [0]) | 2 => some (wn .blob [0]) | 3 => some (wn .blob [0]) | 4 => some (ro .u8)
    | 5 => some (wn .bool [0]) | _ => none
  | 0x8210 => match sub with | 1 => some (ro .u8) | 2 => some (ro .u16) | 3 => some (ro .u8) | _ => none
  | 0x8300 => if subIn sub 3 then some (ro .blob) else none
  | 0x8310 => if sub = 1 then some (wn .blob [1, 2]) else if sub = 2 then some (ro .blob) else none
  | 0x8320 => match sub with | 1 => some (ro .u16) | 2 => some (wn .u16 [1, 2]) | 3 => some (ro .blob) | _ => none
  | 0x8400 => if subIn sub 2 then some (rws .u8 [1, 2] 0) else none
  | 0x8401 => if subIn sub 2 then some (ro .u8) else none
  | 0x8410 => match sub with | 1 => some (wn .u64 [2]) | 2 => some (wn .bool [2]) | 3 => some (ro .u8) | _ => none
  | _ => none

/-- Test (R435). -/
def obj9 (idx sub : Nat) : Option Obj :=
  match idx with
  | 0x9000 => if sub = 1 then some (rwp .bool [1, 3] 0) else none
  | 0x9018 => match sub with
    | 1 => some (wn .u8 [1, 3]) | 2 => some (wn .u8 [1, 3]) | 3 => some (wn .bool [1, 3]) | 4 => some (wn .bool [1, 3])
    | _ => none
  | 0x9020 => if sub = 1 then some (rop .u8) else none
  | _ => none

/-- The object of a pair; none where it is absent (R387). -/
def State.obj (s : State) (idx sub : Nat) : Option Obj :=
  match idx / 0x1000 with
  | 1 => obj1 idx sub
  | 2 => s.obj2 idx sub
  | 3 => obj3 idx sub
  | 4 => obj4 idx sub
  | 5 => obj5 idx sub
  | 6 => obj6 idx sub
  | 7 => obj7 idx sub
  | 8 => obj8 idx sub
  | 9 => obj9 idx sub
  | _ => none

/-- A port may read an object: every object on FLD, HST and DBG, object 0x8200 alone on SVC (R390). -/
def mayRead (port idx : Nat) : Bool := decide (port ≠ 0) || decide (idx = 0x8200)

/-! ### Values in force (R389, R390) -/

def sn (v : Nat) : SVal := .n v
def sb (b : Bool) : SVal := .n (bit b)

def State.val1 (s : State) (idx sub : Nat) : SVal :=
  let st (p : Nat) : Stage := SMap.get Stage.reset s.slate.stages p
  match idx with
  | 0x1000 =>
    match sub with
    | 1 => strOf (partName s.part)
    | 2 => strOf (partName s.part ++ [0x2D, 0x41 + s.fuses.stepL, 0x30 + s.fuses.stepD, 0x2D, 0x4C, 0x47])
    | 3 => sn s.revision
    | 4 => sn (Config.deviceId s.part)
    | 5 => sn s.perRegion
    | 6 => sn (2 * Config.nBlocks s.part)
    | 7 => sn (2 ^ Config.nChans s.part - 1)
    | 8 => sn s.fuses.serial.toNat
    | 9 => sn s.slate.node
    | _ => sn 1
  | 0x1F10 => sn (st (sub - 1)).result.toNat
  | 0x1F11 => sn (st (sub - 1)).lastT
  | 0x1F12 => sn ((st (sub - 1)).ents.length + 32768 * bit (st (sub - 1)).stale)
  | 0x1F13 => sn s.slate.pends.length
  | 0x1F14 => sn (st (sub - 1)).bad
  | _ => .n (s.setting idx sub 0)

/-- The state of a domain as a request would name it. -/
def Pwr.asked (d : Pwr) : Nat := if d.st = 3 then d.dest else d.st

def State.val2 (s : State) (idx sub : Nat) (dflt : Int) : SVal :=
  match idx with
  | 0x2202 => sn (s.dom (256 + sub - 1)).asked
  | 0x2300 =>
    match sub with
    | 1 => sn s.pins.power
    | 2 => .n s.pins.temp
    | _ => .n (s.setting idx sub dflt)
  | 0x2320 => sn s.pins.rails
  | _ =>
    if 0x2310 ≤ idx ∧ idx < 0x2318 then
      match sub with
      | 1 => sn (SMap.get 0 s.pins.regPower (idx - 0x2310))
      | 2 => .n (SMap.get 0 s.pins.regTemp (idx - 0x2310))
      | _ => sn (SMap.get 0 s.pins.regMv (idx - 0x2310))
    else .n (s.setting idx sub dflt)

def State.val3 (s : State) (idx sub : Nat) (dflt : Int) : SVal :=
  match idx with
  | 0x3000 => sn (s.mcStat (sub - 1))
  | 0x3010 =>
    match sub with
    | 4 => sn s.capacity
    | 5 => sn s.gran
    | 6 => sn s.nchan
    | _ => .n (s.setting idx sub dflt)
  | 0x3030 => sn (s.chan (sub - 1)).filled
  | 0x3060 => sn 0
  | 0x3210 => sn (s.mcScrub (sub - 1))
  | _ =>
    if 0x3120 ≤ idx ∧ idx < 0x3130 then
      let c := s.chan (idx - 0x3120)
      match sub with
      | 1 => sn (fld c.mark0 0 32)
      | 2 => sn (fld c.mark1 0 32)
      | 3 => sn (fld c.prop 0 32)
      | _ => sn 0
    else if 0x3300 ≤ idx ∧ idx < 0x3310 then (if sub = 1 then .b (s.rowBlob (idx - 0x3300)) else sn 0)
    else .n (s.setting idx sub dflt)

def State.val4 (s : State) (idx sub : Nat) : SVal :=
  match idx with
  | 0x4300 => if sub = 1 then .b ((s.mram.supp.map (fun e => natLe 8 e.toNat)).flatten) else sn 0
  | 0x4110 => sn 0
  | _ =>
    if 0x4100 ≤ idx ∧ idx < 0x4108 then sn (s.mapByte (idx - 0x4100) (sub - 1))
    else sn (s.spares (idx - 0x4120))

def State.val5 (s : State) (idx sub : Nat) : SVal :=
  let w := s.noon
  match idx with
  | 0x5000 => match sub with | 1 => sn w.tick | 2 => sn w.strcnt | _ => sn w.strq
  | 0x5100 =>
    match sub with
    | 1 => sn w.wall
    | 3 => sn w.cap
    | 4 => .n w.e
    | 5 => .n w.trim
    | 6 => sb w.lost
    | 7 => sn w.glitch
    | _ => .n (s.setting idx sub 0)
  | _ => if sub = 4 then sb w.conflict else .n (s.setting idx sub 0)

def State.val6 (s : State) (idx sub : Nat) (dflt : Int) : SVal :=
  if idx = 0x6010 then sn (s.region (sub - 1)).lateCto
  else if 0x6200 ≤ idx then
    let p := s.port (idx - 0x6200) ((sub - 1) / 4)
    match (sub - 1) % 4 with
    | 0 => sn p.cnt1
    | 1 => sn p.cnt2
    | 2 => sn p.cnt3
    | _ => sn p.cnt4
  else .n (s.setting idx sub dflt)

/-- The records from FLD's read pointer up to HEAD (R233). -/
def Log.fldBlob (g : Log) (size : Nat) : List Byte :=
  ((List.range g.fldCount).map (fun i => g.slotBytes ((g.fld + i) % size))).flatten

def State.val7 (s : State) (idx sub : Nat) (dflt : Int) : SVal :=
  match idx with
  | 0x7010 => sn (if sub = 9 then s.chipDrops else (s.region (sub - 1)).drops)
  | 0x7020 => if sub = 1 then sb s.boot.fatal else .b (s.boot.fatalRec.elim [] Rec.bytes)
  | 0x7030 => sn s.corrActive
  | _ =>
    if idx ≤ 0x7008 then
      let g := s.log (idx - 0x7000)
      match sub with
      | 1 => sn g.head
      | 2 => sn g.fld
      | 3 => sn g.htail
      | 4 => sn g.lost
      | _ => .b (g.fldBlob (logSize (idx - 0x7000)))
    else .n (s.setting idx sub dflt)

/-- Up to sixteen records of the Vesper ring from an index (R384); a slot never written reads as nothing. -/
def Boot.vesperRead (b : Boot) (first : Nat) : List Byte :=
  ((List.range 16).map (fun i => SMap.get [] b.vesper ((first + i) % 7168))).flatten

/-- The index of the newest Vesper record (R384). -/
def Boot.vesperNew (b : Boot) : Nat := (b.vesperN + 7167) % 7168

def State.val8 (s : State) (idx sub : Nat) : SVal :=
  let b := s.boot
  match idx with
  | 0x8000 => match sub with | 1 => sn b.phase | 2 => sn b.counter | 3 => sn (b.stat % 256) | _ => sb b.lacks
  | 0x8025 => sn (b.monitor.elim 0 (·.svn))
  | 0x8100 => sn (SMap.get 0 b.floors sub)
  | 0x8101 => sn 0
  | 0x8110 => sb (b.revoked.testBit (sub - 1))
  | 0x8200 =>
    match sub with
    | 1 => sn (b.sess.getD 0)
    | 4 => sn b.sessRes
    | 5 => sn 0
    | _ => .b []
  | 0x8210 => match sub with | 1 => sn b.rejCode | 2 => sn b.rejComp | _ => sn b.rejSrc
  | 0x8300 =>
    match sub with
    | 1 => .b (4 :: (List.range 96).map (Config.identityByte 1))
    | 2 => .b ((List.range 1952).map (Config.identityByte 2))
    | _ => .b ((List.range Config.certLen).map (Config.identityByte 3))
  | 0x8310 => if sub = 1 then .b [] else .b b.nonceOut
  | 0x8320 => match sub with | 1 => sn b.vesperNew | 2 => sn b.vesperRd | _ => .b (b.vesperRead b.vesperRd)
  | 0x8400 => .n (s.setting idx sub 0)
  | 0x8401 => if sub = 1 then sb b.liveRun else sn b.liveRes
  | 0x8410 => match sub with | 1 => sn b.placeDst | 3 => sn b.placeRes | _ => sn 0
  | _ => sn (SMap.get Img.reset (s.region (sub - 1)).fw (idx - 0x8020)).svn

def State.val9 (s : State) (idx sub : Nat) : SVal :=
  match idx with
  | 0x9018 => match sub with | 1 => sn s.lbistSel.1 | 2 => sn s.lbistSel.2 | _ => sn 0
  | 0x9020 => sn s.boot.scanKinds
  | _ => .n (s.setting idx sub 0)

/-- The value of an object. -/
def State.value (s : State) (idx sub : Nat) (o : Obj) : SVal :=
  match idx / 0x1000 with
  | 1 => s.val1 idx sub
  | 2 => s.val2 idx sub o.dflt
  | 3 => s.val3 idx sub o.dflt
  | 4 => s.val4 idx sub
  | 5 => s.val5 idx sub
  | 6 => s.val6 idx sub o.dflt
  | 7 => s.val7 idx sub o.dflt
  | 8 => s.val8 idx sub
  | _ => s.val9 idx sub

/-- A value as bytes (R388). -/
def SVal.bytes (v : SVal) (ty : OTy) : List Byte :=
  match v with
  | .n i => natLe (ty.size.getD 0) (toTwos 64 i)
  | .b l => l

/-- The value that bytes of a fixed-size type spell (R388). -/
def OTy.parse (ty : OTy) (bs : List Byte) : SVal :=
  match ty with
  | .i32 => .n (sInt 32 (leNat bs))
  | .str => .b bs
  | .blob => .b bs
  | _ => .n (leNat bs)

def SVal.num (v : SVal) : Int := match v with | .n i => i | .b _ => 0
def SVal.nat (v : SVal) : Nat := v.num.toNat

/-- A value that its type admits: a BOOL is 0 or 1, a STR has at most 255 printable characters (R388). -/
def OTy.admits (ty : OTy) (v : SVal) : Bool :=
  match ty, v with
  | .bool, .n i => decide (i = 0) || decide (i = 1)
  | .str, .b l => decide (l.length ≤ 255) && l.all (fun c => decide (0x20 ≤ c.toNat) && decide (c.toNat ≤ 0x7E))
  | _, _ => true

/-! ### The configuration digest (R381) -/

/-- The indices that hold persistent objects, ascending. -/
def persIdx : List Nat :=
  [0x1000, 0x1F20, 0x2100, 0x3010, 0x3110] ++ (List.range 16).map (0x3120 + ·) ++ [0x3200] ++ (List.range 16).map (0x3300 + ·)
    ++ (List.range 8).map (0x4100 + ·) ++ [0x4300, 0x6100, 0x7020, 0x8000, 0x8100, 0x8110, 0x9000, 0x9020]

/-- Every persistent object in ascending order: index, subindex, type code, length, value (R381). -/
def State.configImage (s : State) : List Byte :=
  (persIdx.map (fun idx => ((List.range 256).map (fun sub =>
    match s.obj idx sub with
    | some o =>
      if o.pers then
        let v := (s.value idx sub o).bytes o.ty
        natLe 2 idx ++ natLe 1 sub ++ natLe 1 o.ty.code ++ natLe 4 v.length ++ v
      else []
    | none => [])).flatten)).flatten

end Sys2Proof.Machine
end

