-- ==== Sys2Proof/Machine/Boot.lean ====
section
/-! DEFINITION. Dawn: resets and starts, images and slots, the phases of a start, image delivery, live restarts, monitor
placement, zeroization and the Vesper record (R366 to R386, R415, R416, R427 to R429). -/

namespace Sys2Proof.Machine

/-! ### Reset and start (R12, R353, R370, R389, R429) -/

/-- What a reset keeps of a channel: its DIMMs and the marks held in MRAM (R273). -/
def Chan.kept (c : Chan) : Chan := { Chan.reset with slot0 := c.slot0, slot1 := c.slot1, mark0 := c.mark0, mark1 := c.mark1 }

/-- What a reset keeps of Dawn: its MRAM and fuses (R383). -/
def Boot.kept (b : Boot) : Boot :=
  { Boot.reset with
    counter := b.counter, floors := b.floors, scanFlag := b.scanFlag, scanKinds := b.scanKinds, vesper := b.vesper
    vesperN := b.vesperN, revoked := b.revoked, fatal := b.fatal, fatalRec := b.fatalRec }

/-- The state that RESET_N low leaves: everything volatile at reset, the always-on domain, MRAM, fuses and flash kept;
the supplement entries to be removed go now (R281, R429). -/
def State.resetKeep (s : State) : State :=
  { State.reset with
    pending := s.pending, free := s.free, fuses := s.fuses, flash := s.flash, out := s.out
    mram := { s.mram with
      supp := ((List.range s.mram.supp.length).filter (fun i => !s.mram.suppDel.contains i)).map (fun i => s.mram.supp.getD i 0)
      suppDel := [] }
    pins := { s.pins with resetN := false, noonOut := false, above := false }
    chans := (List.range 16).map (fun c => (c, (s.chan c).kept))
    noon := { Noon.reset with
      wall := s.noon.wall, wfrac := s.noon.wfrac, slew := s.noon.slew, slewN := s.noon.slewN, refs := s.noon.refs
      ppsAt := s.noon.ppsAt, ppsAny := s.noon.ppsAny }
    boot := s.boot.kept
    slate := { Slate.reset with pers := s.slate.pers } }

/-- A start begins: phase 0, the straps are sampled, the boot counter rises, the stacks take their bifurcation, and the
field responder is ON; whole-device correction is as its object says (R263, R328, R353, R370, R399). -/
def State.begin (s : State) : State :=
  let s : State := { s with
    pins := { s.pins with resetN := true }
    slate := { s.slate with node := s.pins.straps % 16 }
    boot := { s.boot with counter := s.boot.counter + 1, waitRel := false, fatalAtStart := s.boot.fatal } }
  let s := (List.range 8).foldl (fun s r => s.modRegion r (fun x => { x with bifurc := s.settingN 0x6100 (r + 1) 0 })) s
  let s := { s with gran := if s.settingN 0x3010 2 0 = 1 then 12 else 8, devcorr := decide (s.settingN 0x3110 2 1 = 1) }
  s.modDom 416 (fun d => { d with st := 0 })

/-! ### Images (R366 to R369) -/

/-- Bytes of the boot flash: the memory holds their complement (log 8). -/
def State.flashBytes (s : State) (off n : Nat) : List Byte := (s.flash.read off n).map (fun b => ~~~b)
def State.flashWrite (s : State) (off : Nat) (bs : List Byte) : State :=
  { s with flash := s.flash.write off (bs.map (fun b => ~~~b)) }

def byteAt (bs : List Byte) (i : Nat) : Nat := (bs.getD i 0).toNat
def natAt (bs : List Byte) (i n : Nat) : Nat := leNat ((bs.drop i).take n)

/-- The fields of a header (R368). -/
def imgOf (hdr : List Byte) (src : Nat) : Img :=
  { comp := natAt hdr 6 2, svn := natAt hdr 0x0C 4, build := natAt hdr 0x10 8, keyidx := byteAt hdr 9
    live := (byteAt hdr 0x0A).testBit 0, hash := (hdr.drop 0x20).take 48, len := natAt hdr 0x18 8, src, hdr }

/-- The largest body of a component (R366). -/
def maxBody : Nat → Nat
  | 1 => 0x80000 | 2 => 0x80000 | 3 => 0x40000 | 4 => 0x10000 | 5 => 0x300000 | _ => 0

def partBit : Part → Nat
  | .vt9256 => 0 | .vt9192 => 1 | .vt9160 => 2

/-- Checks 1 to 10 of a header; 0 where all pass. `want` is the component that a directory entry names (R369). -/
def State.checkHdr (s : State) (hdr : List Byte) (want : Option Nat) : Nat :=
  let comp := natAt hdr 6 2
  let flags := natAt hdr 0x0A 2
  let zero (o n : Nat) : Bool := ((hdr.drop o).take n).all (· == 0)
  if (hdr.take 4).map (·.toNat) ≠ [0x56, 0x4E, 0x54, 0x52] then 1
  else if natAt hdr 4 2 ≠ 1 then 2
  else if 8 ≤ byteAt hdr 8 ∨ 2 ≤ flags ∨ !zero 0x50 176 ∨ !zero 0xE4D 435 then 3
  else if comp = 0 ∨ 5 < comp ∨ (want.isSome ∧ want ≠ some comp) then 4
  else if !(byteAt hdr 8).testBit (partBit s.part) then 5
  else if 3 < byteAt hdr 9 ∨ s.boot.revoked.testBit (byteAt hdr 9) then 6
  else if natAt hdr 0x18 8 = 0 ∨ maxBody comp < natAt hdr 0x18 8 then 7
  else if natAt hdr 0x0C 4 < SMap.get 0 s.boot.floors comp then 8
  else if !Config.signatureValid hdr 0 then 9
  else if !Config.signatureValid hdr 1 then 10
  else 0

def slotBase (slot : Nat) : Nat := 0x2000000 * slot

/-- The directory of a slot: its sequence number and its entries; none where it is invalid (R367). -/
def State.directory (s : State) (slot : Nat) : Option (Nat × List (Nat × Nat)) :=
  let d := s.flashBytes (slotBase slot) 96
  let n := natAt d 6 2
  let es := (List.range n).map (fun i => (natAt d (0x10 + 16 * i) 2, natAt d (0x14 + 16 * i) 4))
  let count (k : Nat) : Nat := (es.filter (fun e => e.1 == k)).length
  if (d.take 4).map (·.toNat) = [0x45, 0x43, 0x58, 0x42] ∧ natAt d 4 2 = 1 ∧ (n = 4 ∨ n = 5)
      ∧ [1, 2, 3, 5].all (fun k => count k == 1) = true ∧ count 4 ≤ 1 then
    some (natAt d 8 8, es)
  else none

/-- The header of a component in a slot, if the slot's directory names it. -/
def State.slotHdr (s : State) (slot comp : Nat) : Option (Nat × List Byte) :=
  match s.directory slot with
  | none => none
  | some (_, es) => (es.find? (fun e => e.1 == comp)).map (fun e => (e.2, s.flashBytes (slotBase slot + e.2) 4096))

/-- The body of an image in a slot. -/
def State.slotBody (s : State) (slot off len : Nat) : List Byte := s.flashBytes (slotBase slot + off + 4096) len

/-- The checks of one image of a slot: 0 and the image where it is accepted (R369). `live` asks for FLAGS.LIVE
first. -/
def State.checkImage (s : State) (slot comp : Nat) (live : Bool) : Nat × Option Img :=
  match s.slotHdr slot comp with
  | none => (4, none)
  | some (off, hdr) =>
    let im := imgOf hdr slot
    if live && !im.live then (13, none)
    else
      match s.checkHdr hdr (some comp) with
      | 0 =>
        if 0x2000000 < off + 4096 + im.len then (12, none)
        else if sha384 (s.slotBody slot off im.len) = im.hash then (0, some im) else (11, none)
      | code => (code, none)

/-- A rejection: object 0x8210 and a record of TYPE 0x0C01 (R369, R385). -/
def State.rejectImage (s : State) (code comp src : Nat) : State :=
  (s.modBoot (fun b => { b with rejCode := code, rejComp := comp, rejSrc := src })).record
    (recAt (srcId 12 0 0 0 0) 3 0 0x0C01 none none [code, comp % 256, comp / 256 % 256, src] 0)

/-- Every image of a slot is checked in the order of its directory; the first rejection ends it (R369, R371). -/
def State.checkSlot (s : State) (slot : Nat) : Option (List Img) × State :=
  match s.directory slot with
  | none => (none, s)
  | some (_, es) =>
    let rec go (s : State) : List (Nat × Nat) → List Img → Option (List Img) × State
      | [], acc => (some acc, s)
      | (comp, _) :: t, acc =>
        match s.checkImage slot comp false with
        | (0, some im) => go s t (acc ++ [im])
        | (code, _) => (none, s.rejectImage code comp slot)
    go s es []

/-- Slots are tried in order until every image of one is accepted (R371). -/
def State.trySlots (s : State) : List Nat → Option (Nat × List Img) × State
  | [] => (none, s)
  | slot :: t =>
    match s.checkSlot slot with
    | (some imgs, s) => (some (slot, imgs), s)
    | (none, s) => s.trySlots t

/-- The slots that may be used, the one tried first in front: the valid ones by falling sequence number, A first
where they are equal (R371). -/
def State.slotOrder (s : State) : List Nat :=
  match s.directory 0, s.directory 1 with
  | none, none => []
  | some _, none => [0]
  | none, some _ => [1]
  | some (a, _), some (b, _) => if a < b then [1, 0] else [0, 1]

/-- The monitor body is written to the boot SRAM (R366). -/
def State.placeMonitor (s : State) (im : Img) (body : List Byte) : State :=
  { s with sram := s.sram.write 0 body, boot := { s.boot with monitor := some im } }

/-- The image of a component among some. -/
def imgFind (l : List Img) (k : Nat) : Option Img := l.find? (fun i => i.comp == k)

/-- An image set takes an image in place of the one of the same component. -/
def imgPut (l : List Img) (im : Img) : List Img := l.filter (fun i => i.comp != im.comp) ++ [im]

/-- Phase 3 begins with the images of the start: every Morning controller and the boot core run (R353, R370, R373). -/
def State.bringUp (s : State) (imgs : List Img) : State :=
  let store := imgs.filter (fun i => i.comp != 5)
  let s := s.modBoot (fun b => { b with phase := 3, store })
  let s := (List.range 8).foldl (fun s r => s.modRegion r (fun x => { x with
    morning := true, spareOn := decide (r = 0) && decide (s.perRegion < 12)
    fw := (store.filter (fun i => i.comp != 3)).map (fun i => (i.comp, i)) })) s
  let s := s.setCore 0 { Core.reset with patch := (SMap.get Img.reset (s.region 0).fw 4).build }
  s.modDom 0 (fun d => { d with st := 0 })

/-! ### The Vesper record (R381, R382) -/

/-- `n` bytes of a signature over a message; `alg` tells ECDSA (0) from ML-DSA (1) (log 16). -/
def sigBytes (alg n : Nat) (m : List Byte) : List Byte :=
  (Config.signature (BitVec.ofNat 8 alg :: m) ++ List.replicate n 0).take n

/-- The entry of a component in a record: 60 bytes, zero for an absent image. -/
def imgEntry : Option Img → List Byte
  | none => List.replicate 60 0
  | some i => natLe 4 i.svn ++ natLe 8 i.build ++ (i.hash ++ List.replicate 48 0).take 48

/-- The newest record of the ring, or none. -/
def Boot.vesperHead (b : Boot) : Option (List Byte) :=
  if b.vesperN = 0 then none else some (SMap.get [] b.vesper b.vesperNew)

/-- A record is appended to the ring; the scan flags that it carries are cleared (R381, R382, R415). -/
def State.vesper (s : State) (typ region : Nat) (entries : List (List Byte)) : State :=
  let b := s.boot
  let flags := bit b.scanFlag + 2 * bit b.recov + 4 * bit b.slotB + 8 * bit b.fatalAtStart
  let body := natLe 8 b.counter ++ natLe 8 s.noon.wall ++ natLe 1 (typ + 16) ++ natLe 1 region ++ natLe 1 flags
    ++ natLe 1 b.lbistRes ++ entries.flatten ++ sha384 s.configImage
    ++ (match b.vesperHead with | some h => sha384 h | none => List.replicate 48 0)
  s.modBoot (fun b => { b with
    vesper := SMap.set b.vesper (b.vesperN % 7168) (body ++ sigBytes 0 96 body), vesperN := b.vesperN + 1
    scanFlag := false, scanKinds := 0 })

/-- The entries of the images in force in a region and the monitor (R381). -/
def State.regionEntries (s : State) (r : Nat) : List (List Byte) :=
  let fw := (s.region r).fw
  (List.range 4).map (fun i => imgEntry ((fw.find? (fun e => e.1 == i + 1)).map (·.2))) ++ [imgEntry s.boot.monitor]

/-! ### Zeroization (R415, R416) -/

/-- The images of components 1 to 4 that some unit uses: those in force in a region, each once. -/
def State.imagesInUse (s : State) : List Img :=
  (List.range 8).foldl (fun acc r => (s.region r).fw.foldl (fun acc e => if acc.contains e.2 then acc else acc ++ [e.2]) acc) []

/-- Dawn reads the images in use again, each from a slot that holds an equal header (R366). -/
def State.reloadStore (s : State) : State :=
  let has (im : Img) (slot : Nat) : Bool :=
    match s.slotHdr slot im.comp with
    | some (_, h) => decide (h = im.hdr) && (s.checkImage slot im.comp false).1 == 0
    | none => false
  let found := s.imagesInUse.filter (fun im => if im.src = 2 then has im 0 || has im 1 else has im im.src)
  s.modBoot (fun b => { b with store := found, lacks := decide (found.length < s.imagesInUse.length) })

/-- Zeroization for a scan of kind `kind` (bit of object 0x9020): the flag is set, the secrets are overwritten, and after
phase 1 they are made anew, with which all memory decrypts to unrelated data (R251, R415, R416). -/
def State.zeroize (s : State) (kind : Nat) : State :=
  let kinds := s.boot.scanKinds ||| 2 ^ kind
  let s : State := { s with
    boot := { s.boot with scanFlag := true, scanKinds := kinds, store := [], keyDerived := false, zeroized := true }
    keys := { s.keys with data := [], slots := [], null := 0, busy := false, next := none } }
  let s : State :=
    if s.boot.phase ≤ 1 then s
    else
      let (i, s) := s.draw
      ({ s with keys := { s.keys with null := Config.randomKey i }
                boot := { s.boot with keyDerived := true } }).reloadStore
  s.record (recAt (srcId 12 0 0 0 0) 3 0 0x0C09 none none [kinds] 0)

/-! ### Phases -/

/-- Roles of a physical position (R417). -/
def State.role (s : State) (r p : Nat) : Nat := s.mapByte r p / 32

def State.setMap (s : State) (r p v : Nat) : State :=
  { s with mram := { s.mram with map := SMap.set s.mram.map (18 * r + p) v } }

/-- LBIST of every unit starts, after zeroization; a failed position will be tested again (R413, R415, R420). -/
def State.lbistAtStart (s : State) : State :=
  let s := s.zeroize 0
  (List.range 8).foldl (fun s r => (List.range 19).foldl (fun s u =>
    if u < 18 ∧ s.role r u = 4 then s
    else
      let s := { s with lbist := SMap.set s.lbist (19 * r + u) { Lb.reset with status := 1 } }
      if u < 18 ∧ s.role r u = 3 then s.setMap r u (64 + 31) else s) s) s

/-- PLL_LOCK: phase 1 begins with NOON_TICK at 0; the shared logic of the positions in service and the stacks come ON
(R174, R353, R370). -/
def execPllLock (s : State) : Host.Outcome State Fault Refusal :=
  .next (
    if !s.pins.aon || !s.pins.resetN || !s.pins.refclk || s.stopped || s.scan || s.noon.run || decide (s.boot.phase ≠ 0)
      || decide (s.pins.rails ≠ 127) then s
    else
      let s : State := { s with
        noon := { s.noon with run := true, tick := 0, k := 0, ordered := false, early := [], strcnt := 0, strq := 0,
                              strlast := 0, rootT := 0, lockRefs := s.noon.refs }
        boot := { s.boot with phase := 1 } }
      let s := s.allBlocks.foldl (fun s b => if s.physOf b = 31 then s else s.modDom (256 + b) (fun d => { d with st := 0 })) s
      let s := (List.range 8).foldl (fun s r => s.modDom (408 + r) (fun d => { d with st := 0 })) s
      if s.settingN 0x9000 1 0 = 1 then s.lbistAtStart else s)

/-- The LBIST byte of the start record (R381, R412). -/
def State.lbistByte (s : State) : Nat :=
  let sts := s.lbist.map (fun e => e.2.status)
  let bad := (sts.filter (fun x => x == 3 || x == 4)).length
  if sts.isEmpty then 0
  else (if sts.contains 3 then 2 else if sts.contains 4 then 3 else 1) + 4 * min bad 63

/-- SLOT_SELECTION: the identity key and the null key are made, then the slots are tried; without a usable one Dawn enters
recovery (R251, R370, R371, R377). -/
def execSlotSelection (s : State) : Host.Outcome State Fault Refusal :=
  .next (
    if !s.up || decide (s.boot.phase ≠ 1) || s.lbist.any (fun e => e.2.status == 1) then s
    else
      let (i, s) := s.draw
      let s : State := { s with
        keys := { s.keys with null := Config.randomKey i, slots := [] }
        boot := { s.boot with phase := 2, keyDerived := true, lbistRes := s.lbistByte } }
      match s.trySlots s.slotOrder with
      | (none, s) =>
        (s.modBoot (fun b => { b with phase := 7 })).record (recAt (srcId 12 0 0 0 0) 3 0 0x0C03 none none [7] 0)
      | (some (slot, imgs), s) =>
        let s := s.modBoot (fun b => { b with slot })
        let s : State :=
          match s.directory slot, s.directory (1 - slot) with
          | some (q, _), some (o, _) =>
            if q < o then
              (s.modBoot (fun b => { b with slotB := true })).record
                (recAt (srcId 12 0 0 0 0) 3 0 0x0C02 none none ((natLe 8 o).map (·.toNat)) 0)
            else s
          | _, _ => s
        let s : State :=
          match imgFind imgs 5, s.slotHdr slot 5 with
          | some im, some (off, _) => s.placeMonitor im (s.slotBody slot off im.len)
          | _, _ => s
        s.bringUp imgs)

/-- PHASE_OVERRUN (R370). -/
def execPhaseOverrun (s : State) : Host.Outcome State Fault Refusal :=
  .next (if !s.pins.resetN || s.stopped || s.scan || decide (s.boot.phase = 5) || decide (s.boot.phase = 7) then s
    else s.record (recAt (srcId 12 0 0 0 0) 3 3 0x0C03 none none [s.boot.phase] 0))

/-- HANDOVER: SLC-as-RAM is copied to DRAM under the null key and the slices leave RAM mode (R128, R373). -/
def State.handover (s : State) : State :=
  if !s.up || decide (s.boot.phase ≠ 3) || !s.boot.filled || s.boot.handed then s
  else
    let s := s.walkClean 0
    let key := s.keyOf 0 0
    let keys := s.lineKey.filter (fun e => 524288 ≤ e.1)
    let s : State := { s with
      dram := s.slcRam.filter (fun e => e.1 < 0x2000000) ++ s.dram.filter (fun e => 0x2000000 ≤ e.1)
      lineKey := if key = s.fillKey then keys else (List.range 524288).map (fun l => (l, key)) ++ keys
      poison := s.poison.filter (524288 ≤ ·), slcRam := [], boot := { s.boot with handed := true } }
    s.modRegion 0 (fun x => { x with spareOn := false })

def execHandover (s : State) : Host.Outcome State Fault Refusal := .next s.handover

/-- RELEASE: phase 4 begins; the stacks' ports leave PERST#, and every block takes its clock (R23, R353, R373). -/
def State.releasePhase (s : State) : State :=
  if !s.up || decide (s.boot.phase ≠ 3) || !s.boot.handed then s
  else
    let s := s.modBoot (fun b => { b with phase := 4 })
    let s := (List.range 8).foldl (fun s r => (List.range 4).foldl (fun s f =>
      if s.portPresent r f then s.modPort r f (fun p => { p with perst := false }) else s) s) s
    if s.settingN 0x2100 0 0 = 2 then s else s.modCore 0 (fun k => k.brk 5 k.pc)

def execReleaseBoot (s : State) : Host.Outcome State Fault Refusal := .next s.releasePhase

/-- The boot lock takes effect (R374). -/
def State.bootLock (s : State) : State := s.modBoot (fun b => { b with locked := true, lockW := true })

/-- LOCK (R373, R374). -/
def execLockBoot (s : State) : Host.Outcome State Fault Refusal :=
  .next (if !s.up || decide (s.boot.phase ≠ 5) then s else s.bootLock)

/-- BOOT_LOCK_TIMEOUT (R374). -/
def execBootLockTimeout (s : State) : Host.Outcome State Fault Refusal :=
  .next (if !s.up || decide (s.boot.phase ≠ 5) || decide (s.noon.tick < s.boot.phase5 + 600000000) then s
    else s.modBoot (fun b => { b with locked := true }))

/-- RELEASE_COMPLETE: microcode and patches are placed, the start record is written, and the application cores and the
Cobalt functions are released (R353, R370, R373, R381). -/
def execReleaseComplete (s : State) : Host.Outcome State Fault Refusal :=
  .next (
    if !s.up || decide (s.boot.phase ≠ 4) || s.boot.lacks then s
    else
      let s := (List.range 8).foldl (fun s r =>
        match imgFind s.boot.store 3 with
        | some im =>
          ((s.modRegion r (fun x => { x with fw := SMap.set x.fw 3 im, fn := { Fn.reset with ucode := im.build } })).modDom (384 + r)
            (fun d => { d with st := 0 }))
        | none => s) s
      let s := s.vesper 1 0xFF (s.regionEntries 0)
      let s := s.allCores.foldl (fun s c =>
        if c = 0 then s
        else
          (s.setCore c { Core.reset with patch := (SMap.get Img.reset (s.region (coreRegion c)).fw 4).build }).modDom c
            (fun d => { d with st := 0 })) s
      s.modBoot (fun b => { b with phase := 5, phase5 := s.noon.tick }))

/-- START: RESET_N is released; the device takes the release once PWRGOOD is high and REFCLK runs (R370, R427, R428). -/
def execStartDevice (s : State) : Host.Outcome State Fault Refusal :=
  .next (
    if !s.pins.aon || s.pins.resetN || s.boot.waitRel then s
    else if s.pins.pwrgood && s.pins.refclk then s.begin
    else s.modBoot (fun b => { b with waitRel := true }))

/-! ### Image delivery (R375 to R377) -/

/-- The service port takes image delivery: in recovery and in phase 5 (R370). -/
def State.svcOpen (s : State) : Bool :=
  s.pins.resetN && !s.stopped && !s.scan && (decide (s.boot.phase = 7) || decide (s.boot.phase = 5))

def State.sessResult (s : State) (code : Nat) : State := s.modBoot (fun b => { b with sessRes := code })

/-- A write of DEST opens a session and ends any earlier one; DEST 1 needs recovery or an image that the store lacks
(R375). The code is that of R369. -/
def State.sessionOpen (s : State) (dest : Nat) : Nat × State :=
  if dest = 1 ∧ s.boot.phase ≠ 7 ∧ s.boot.lacks = false then (14, s.sessResult 14)
  else
    (0, s.modBoot (fun b => { b with sess := some dest, sessImgs := [], sessHdr := none, sessRes := 0, flashOff := 4096, dirList := [] }))

/-- The slot that this start does not use (R376). -/
def State.inactiveSlot (s : State) : Nat :=
  if s.boot.recov then
    match s.directory 0, s.directory 1 with
    | some (a, _), some (b, _) => if b < a then 1 else 0
    | some _, none => 1
    | _, _ => 0
  else 1 - s.boot.slot

/-- An image that the store awaits (R366). -/
def State.awaited (s : State) (im : Img) : Bool :=
  s.imagesInUse.any (fun u => decide (u.hdr = im.hdr) && !s.boot.store.any (fun x => decide (x.hdr = im.hdr)))

/-- A header is delivered: checks 1 to 10; with DEST 0 the directory of the inactive slot becomes invalid with the first
accepted header (R369, R375, R376). -/
def State.sessionHeader (s : State) (hdr : List Byte) : Nat × State :=
  match s.boot.sess with
  | none => (14, s.sessResult 14)
  | some dest =>
    let comp := natAt hdr 6 2
    if hdr.length ≠ 4096 then (12, (s.sessResult 12).rejectImage 12 comp 2)
    else
      let im := imgOf hdr 2
      if dest = 1 ∧ s.boot.phase ≠ 7 ∧ s.awaited im = false then (14, s.sessResult 14)
      else
        match s.checkHdr hdr none with
        | 0 =>
          let s := if dest = 0 then s.flashWrite (slotBase s.inactiveSlot) [0, 0, 0, 0] else s
          (0, s.modBoot (fun b => { b with sessHdr := some im, sessRes := 0 }))
        | code => (code, (s.sessResult code).rejectImage code comp 2)

/-- A body is delivered for the header accepted last: written to the inactive slot, or placed (R375 to R377). -/
def State.sessionBody (s : State) (body : List Byte) : Nat × State :=
  match s.boot.sess, s.boot.sessHdr with
  | some dest, some im =>
    let fail (code : Nat) : Nat × State :=
      (code, ((s.modBoot (fun b => { b with sessHdr := none })).sessResult code).rejectImage code im.comp 2)
    let off := s.boot.flashOff
    if body.length ≠ im.len then fail 12
    else if sha384 body ≠ im.hash then fail 11
    else if dest = 0 then
      if 0x2000000 < off + 4096 + im.len then fail 12
      else
        let s := s.flashWrite (slotBase s.inactiveSlot + off) (im.hdr ++ body)
        (0, s.modBoot (fun b => { b with
          sessHdr := none, sessRes := 0, sessImgs := imgPut b.sessImgs im
          dirList := b.dirList.filter (fun e => e.1 != im.comp) ++ [(im.comp, off)]
          flashOff := off + 4096 + (im.len + 4095) / 4096 * 4096 }))
    else
      let s := s.modBoot (fun b => { b with sessHdr := none, sessRes := 0, sessImgs := imgPut b.sessImgs im })
      if s.boot.phase = 7 then (0, if im.comp = 5 then s.placeMonitor im body else s)
      else
        let s := s.modBoot (fun b => { b with store := b.store ++ [im] })
        (0, s.modBoot (fun b => { b with
          lacks := s.imagesInUse.any (fun u => !b.store.any (fun x => decide (x.hdr = u.hdr))) }))
  | _, _ => (14, s.sessResult 14)

/-- The required components are all there (R366). -/
def complete (l : List Img) : Bool := [1, 2, 3, 5].all (fun k => (imgFind l k).isSome)

/-- The directory of a slot (R367). -/
def dirBytes (seq : Nat) (es : List (Nat × Nat)) : List Byte :=
  [0x45, 0x43, 0x58, 0x42] ++ natLe 2 1 ++ natLe 2 es.length ++ natLe 8 seq
    ++ (es.map (fun e => natLe 2 e.1 ++ natLe 2 0 ++ natLe 4 e.2 ++ natLe 8 0)).flatten

/-- Finalize (DEST 0) writes the directory; continue (DEST 1) resumes the start at phase 3 (R375 to R377). -/
def State.finalizeSession (s : State) : Nat × State :=
  match s.boot.sess with
  | none => (14, s.sessResult 14)
  | some 0 =>
    if s.boot.liveRun || !s.boot.liveImgs.isEmpty then (14, s.sessResult 14)
    else if !complete s.boot.sessImgs then (15, s.sessResult 15)
    else
      let slot := s.inactiveSlot
      let seq := match s.directory (1 - slot) with | some (q, _) => q + 1 | none => 1
      let d := dirBytes seq s.boot.dirList
      let s := s.flashWrite (slotBase slot) (d ++ List.replicate (4096 - d.length) 0)
      (0, s.modBoot (fun b => { b with sess := none, sessImgs := [], sessHdr := none, sessRes := 0 }))
  | some _ =>
    if s.boot.phase ≠ 7 then (14, s.sessResult 14)
    else if !complete s.boot.sessImgs then (15, s.sessResult 15)
    else
      let imgs := s.boot.sessImgs
      let s := s.modBoot (fun b => { b with sess := none, sessImgs := [], sessHdr := none, sessRes := 0, recov := true })
      (0, s.bringUp imgs)

/-- IMAGE_SESSION_OPEN (R375). -/
def execImageSessionOpen (dest : Nat) (s : State) : Host.Outcome State Fault Refusal :=
  .next (if !s.svcOpen || decide (1 < dest) then s else (s.sessionOpen dest).2)

/-- IMAGE_HEADER (R369, R375). -/
def execImageHeader (hdr : List (BitVec 8)) (s : State) : Host.Outcome State Fault Refusal :=
  .next (if !s.svcOpen then s else (s.sessionHeader hdr).2)

/-- IMAGE_BODY (R369, R375). -/
def execImageBody (body : List (BitVec 8)) (s : State) : Host.Outcome State Fault Refusal :=
  .next (if !s.svcOpen then s else (s.sessionBody body).2)

/-- FINALIZE (R375 to R377). -/
def execFinalizeImg (s : State) : Host.Outcome State Fault Refusal :=
  .next (if !s.svcOpen then s else s.finalizeSession.2)

/-! ### Live restart and monitor placement (R378 to R380) -/

/-- The valid slot with the highest sequence number (R378, R380). -/
def State.bestSlot (s : State) : Option Nat := s.slotOrder.head?

/-- The components that a mask names (R378). -/
def maskComps (m : Nat) : List Nat := ((List.range 4).filter (fun i => m.testBit i)).map (· + 1)

/-- The images of a live restart: the first rejection's code and component, or the images (R369, R378). -/
def State.liveImages (s : State) (slot : Nat) : List Nat → Except (Nat × Nat) (List Img)
  | [] => .ok []
  | k :: t =>
    match s.checkImage slot k true with
    | (0, some im) =>
      match s.liveImages slot t with
      | .ok l => .ok (im :: l)
      | .error e => .error e
    | (code, _) => .error (code, k)

/-- A third version of a component would be needed in the store (R378). -/
def State.thirdVersion (s : State) (r : Nat) (im : Img) : Bool :=
  let inForce := (s.region r).fw.find? (fun e => e.1 == im.comp)
  s.imagesInUse.any (fun u => decide (u.comp = im.comp) && decide (u ≠ im) &&
    (match inForce with | some e => decide (e.2 ≠ u) | none => true))

/-- The restart begins at the boundary into its commit tick (R379). -/
def State.liveBegin (s : State) : State :=
  let b := s.boot
  if b.liveImgs.isEmpty || b.liveRun then s
  else
    let s := s.modBoot (fun b => { b with liveRun := true })
    s.modRegion b.liveReg (fun x => { x with
      morning := x.morning && decide (b.liveMask % 4 = 0), fn := { x.fn with holdUcode := x.fn.holdUcode || b.liveMask.testBit 2 } })

/-- The images that no unit uses any more leave the store (R379). -/
def State.trimStore (s : State) : State :=
  s.modBoot (fun b => { b with store := b.store.filter (fun i => s.imagesInUse.contains i) })

/-- LIVE_RESTART_COMPLETE: the new images are in force, the pipes of the complex having emptied; a Vesper record of type 2,
source 3,204 and a record follow (R379). -/
def execLiveRestartComplete (s : State) : Host.Outcome State Fault Refusal :=
  .next (
    let b := s.boot
    let r := b.liveReg
    if !s.up || !b.liveRun || b.lacks || (b.liveMask.testBit 2 && (s.fn r).insts.any (fun e => e.2.pipe)) then s
    else
      let s := s.modRegion r (fun x => { x with
        fw := b.liveImgs.foldl (fun m i => SMap.set m i.comp i) x.fw
        fn := { x.fn with holdUcode := false, ucode := match imgFind b.liveImgs 3 with | some i => i.build | none => x.fn.ucode } })
      let s := if b.liveMask % 4 = 0 then s else s.morningBack r
      let s := s.vesper 2 r (s.regionEntries r)
      let s := s.modBoot (fun b => { b with liveRun := false, liveRes := 0, liveImgs := [], store := b.liveImgs.foldl (fun l i => l ++ [i]) b.store })
      ((s.trimStore.post 3204).record (recAt (srcId 12 0 0 0 0) 3 0 0x0C04 none none [2, r, b.liveMask] 0)))

/-- The monitor image is checked and written to its destination in TD0 with key selector 0 (R380). -/
def State.placeNow (s : State) : Nat × State :=
  let b := s.boot
  let dst := b.placeDst
  if b.liveRun || !b.liveImgs.isEmpty || decide (dst % 4096 ≠ 0) || !inDram dst || !b.handed || decide (s.capacity ≤ dst) then (14, s)
  else
    match s.bestSlot with
    | none => (14, s)
    | some slot =>
      match s.checkImage slot 5 true, s.slotHdr slot 5 with
      | (0, some im), some (off, _) =>
        if s.capacity < dst + im.len then (14, s)
        else
          let s := s.memStore dst 0 0 (s.slotBody slot off im.len) false
          let s := s.vesper 3 0xFF (List.replicate 4 (List.replicate 60 0) ++ [imgEntry (some im)])
          (0, s.record (recAt (srcId 12 0 0 0 0) 3 0 0x0C04 none none [3, 0xFF, 0] 0))
      | (code, _), _ => (code, s.rejectImage code 5 slot)

/-- MONITOR_PLACEMENT: Dawn carries out the placement that was requested (R380). -/
def execMonitorPlacement (s : State) : Host.Outcome State Fault Refusal :=
  .next (s.orWait (
    if !s.up || !s.boot.monPend then s
    else
      let (code, s) := s.placeNow
      s.modBoot (fun b => { b with monPend := false, placeRes := code })))

/-! ### Attestation (R382) -/

/-- The chain head signed over a nonce: its hash, the nonce, the boot counter and the signature (R382). -/
def State.signNonce (s : State) (nonce : List Byte) : State :=
  let head := match s.boot.vesperHead with | some h => sha384 h | none => List.replicate 48 0
  let m := head ++ nonce ++ natLe 8 s.boot.counter
  s.modBoot (fun b => { b with nonce := nonce, nonceOut := m ++ sigBytes 1 3309 m })

/-- NONCE_SIGN: a write-now of a 32-byte nonce on FLD or HST (R382). -/
def execNonceSign (port : Nat) (nonce : List (BitVec 8)) (s : State) : Host.Outcome State Fault Refusal :=
  .next (if !s.pins.resetN || s.scan || !(decide (port = 1) || decide (port = 2)) || decide (nonce.length ≠ 32)
      || !s.boot.keyDerived then s
    else s.signNonce nonce)

end Sys2Proof.Machine
end

