-- ==== Sys2Proof/Machine/Test.lean ====
section
/-! DEFINITION. LBIST, the test access port and block sparing (R410 to R420). -/

namespace Sys2Proof.Machine

/-! ### LBIST on demand (R411, R413) -/

/-- A unit on which LBIST on demand may run: a position that is spare, under test or failed (R413). -/
def State.lbistable (s : State) (r u : Nat) : Bool :=
  decide (r < 8) && decide (u < 18) && decide (1 ≤ s.role r u) && decide (s.role r u ≤ 3)
    && decide ((SMap.get Lb.reset s.lbist (19 * r + u)).status ≠ 1)

/-- A run starts after zeroization; none for any other unit (R413, R415). -/
def State.lbistStart (s : State) (r u : Nat) : Option State :=
  if s.lbistable r u then
    let s := s.zeroize 1
    some { s with lbist := SMap.set s.lbist (19 * r + u) { Lb.reset with status := 1 } }
  else none

/-- A run is cut short; how far it came is not known to the model (R411). -/
def State.lbistCut (s : State) (r u cause : Nat) : State :=
  let (i, s) := s.draw
  let w := Config.freeWord i
  s.lbEnd r u (fld w 0 32) (w.extractLsb' 64 64) cause

/-- LBIST registers can be reached: Dawn and the Morning controllers run. -/
def State.testOpen (s : State) : Bool := s.pins.resetN && !s.stopped && !s.scan && decide (1 ≤ s.boot.phase)

/-- LBIST_DEMAND_START (R413). -/
def execLbistDemandStart (r u : Nat) (s : State) : Host.Outcome State Fault Refusal :=
  .next (if !s.testOpen then s else (s.lbistStart r u).getD s)

/-- LBIST_ABORT (R411, R435). -/
def execLbistAbort (r u : Nat) (s : State) : Host.Outcome State Fault Refusal :=
  .next (if !s.testOpen || decide (8 ≤ r) || decide (19 ≤ u) then s else s.lbistCut r u 3)

/-- LBIST_PATTERN_TIMEOUT (R411). -/
def execLbistPatternTimeout (r u : Nat) (s : State) : Host.Outcome State Fault Refusal :=
  .next (if !s.testOpen || decide (8 ≤ r) || decide (19 ≤ u) then s else s.lbistCut r u 5)

/-- LBIST_RUN_END (R411, R412). -/
def execLbistRunEnd (r u pat : Nat) (sig : BitVec 64) (cause : Nat) (s : State) : Host.Outcome State Fault Refusal :=
  .next (if !s.testOpen || decide (8 ≤ r) || decide (19 ≤ u) || decide (5 < cause) then s else s.lbEnd r u pat sig cause)

/-! ### Block sparing (R417 to R420) -/

/-- The spare with the lowest position (R419). -/
def State.firstSpare (s : State) (r : Nat) : Option Nat := (List.range 18).find? (fun p => decide (s.role r p = 1))

/-- Another operation of the region stands in the way of sparing (R418). -/
def State.regionBusy (s : State) (r : Nat) : Bool :=
  (s.region r).sparing.isSome || ((s.boot.liveRun || !s.boot.liveImgs.isEmpty) && decide (s.boot.liveReg = r))
    || decide ((s.chan (2 * r)).st = 6) || decide ((s.chan (2 * r + 1)).st = 6)

/-- A core is OFF or stopped by containment (R418). -/
def State.coreVacated (s : State) (c : Nat) : Bool :=
  decide ((s.dom c).st = 2) || decide ((s.core c).run = .stopped)

/-- The commit check of a replacement (R418). -/
def State.replaceOk (s : State) (r b : Nat) : Bool :=
  decide (r < 8) && s.blockPresent (16 * r + b) && decide (b < 16) && s.coreVacated (32 * r + 2 * b)
    && s.coreVacated (32 * r + 2 * b + 1) && (s.firstSpare r).isSome && !s.regionBusy r

/-- A replacement begins: the spare is under test and the slice is emptied; the block's home share is held from now on
(R129, R419). -/
def State.replaceBegin (s : State) (r b : Nat) : State :=
  match s.firstSpare r with
  | none => s
  | some p =>
    let g := 16 * r + b
    let old := s.physOf g
    let s := if (s.block g).fenced then s else s.emptySlice g
    (s.setMap r p (64 + 31)).modRegion r (fun x => { x with sparing := some (b, p, old) })

/-- Requests that were held for a home reach it in order (R129, R230). -/
def State.releaseHeld (s : State) (g : Nat) : State :=
  let q := (s.block g).held
  q.foldl (fun s x => s.homeRequest x false) (s.modBlock g (fun x => { x with held := [] }))

/-- BLOCK_REPLACEMENT_COMPLETE: first the move of the Noon state begins, which holds a boundary under condition (g); then
the spare takes the logical ID with what moved, and the old position is tested (R192, R419; log 47). -/
def execBlockReplacementComplete (r : Nat) (s : State) : Host.Outcome State Fault Refusal :=
  .next (
    match (s.region r).sparing with
    | none => s
    | some (b, p, old) =>
      let g := 16 * r + b
      if !s.up || decide (8 ≤ r) then s
      else if !(s.block g).moving then s.modBlock g (fun x => { x with moving := true })
      else
        let s := s.setMap r p b
        let s := if old < 18 then s.setMap r old (64 + 31) else s
        let s := s.modRegion r (fun x => { x with sparing := none })
        let s := s.modBlock g (fun x => { x with moving := false, fenced := false, l2bkt := [], slcbkt := [] })
        let s := [2 * g, 2 * g + 1].foldl (fun s c => (s.setCore c Core.reset).modDom c (fun _ => Pwr.reset)) s
        let s := (s.modDom (256 + g) (fun d => { d with st := 0 })).releaseHeld g
        s.record (recAt (srcId 10 r 0 0 0) 2 0 0x0A03 none none ((Config.recordSynd 10).map (·.toNat)) 0))

/-- BLOCK_TEST_END: a position under test becomes a spare, with the repairs that the test made, or failed
(R281, R420). -/
def execBlockTestEnd (r p : Nat) (ok : Bool) (repairs : List (BitVec 64)) (s : State) : Host.Outcome State Fault Refusal :=
  .next (
    if !s.testOpen || decide (8 ≤ r) || decide (18 ≤ p) || decide (s.role r p ≠ 2)
      || (match (s.region r).sparing with | some (_, q, _) => decide (q = p) | none => false) then s
    else if ok then
      let s := s.setMap r p (32 + 31)
      { s with mram := { s.mram with supp := (s.mram.supp ++ repairs).take 4096 } }
    else
      (s.setMap r p (96 + 31)).record (recAt (srcId 10 r 0 0 0) 2 3 0x0A04 none none ((Config.recordSynd 10).map (·.toNat)) 0))

/-! ### The test access port (R414) -/

/-- IDCODE (R414). -/
def State.idcode (s : State) : Nat :=
  2 ^ 28 * (s.fuses.stepL % 16) + 4096 * Config.deviceId s.part + 2 * 0x3D5 + 1

/-- IDCODE: the register is selected and shifted out. -/
def execIdcodeTap (s : State) : Host.Outcome State Fault Refusal :=
  .next (if !s.pins.aon then s
    else ({ s with slate := { s.slate with ir := 1 } }).emit (.tdo (natLe 4 s.idcode)))

/-- CLEAR with 1 at Update-DR: zeroization, and no chain is enabled (R414, R415). -/
def execClearTap (s : State) : Host.Outcome State Fault Refusal :=
  .next (if !s.pins.aon || s.scan then s
    else (s.zeroize 3).modSlate (fun x => { x with ir := 3 }))

/-- SCAN: zeroization, then the chains are connected and the device is out of operation (R414, R415). -/
def execScanTap (s : State) : Host.Outcome State Fault Refusal :=
  .next (if !s.pins.aon || s.scan then s
    else { (s.zeroize 2).modSlate (fun x => { x with ir := 4 }) with scan := true })

/-- BYPASS, by its own value or any unlisted one (R414). -/
def execBypassTap (ir : BitVec 8) (s : State) : Host.Outcome State Fault Refusal :=
  .next (if !s.pins.aon || [1, 2, 3, 4].contains ir.toNat then s
    else s.modSlate (fun x => { x with ir := ir.toNat }))

end Sys2Proof.Machine
end

