-- ==== Sys2Proof/Machine/Commit.lean ====
section
/-! DEFINITION. Stage sets and commits of Slate: the commit check, acceptance, and what each object of a commit does at
its boundary (R402 to R406). -/

namespace Sys2Proof.Machine

def State.stage (s : State) (p : Nat) : Stage := SMap.get Stage.reset s.slate.stages p

def State.modStage (s : State) (p : Nat) (f : Stage → Stage) : State :=
  s.modSlate (fun x => { x with stages := SMap.set x.stages p (f (s.stage p)) })

/-- The entry of a pair in a set of values. -/
def entOf (es : List (Nat × SVal)) (key : Nat) : Option SVal := (es.find? (fun e => e.1 == key)).map (·.2)

def overlay (base es : List (Nat × SVal)) : List (Nat × SVal) := es.foldl (fun m e => SMap.set m e.1 e.2) base

/-- The accepted commits not yet applied, in tick order, then a stage set (R404). -/
def State.combined (s : State) (es : List (Nat × SVal)) : List (Nat × SVal) :=
  overlay (s.slate.pends.foldl (fun m p => overlay m p.ents) []) es

/-- The value of a pair in the combined configuration. -/
def State.looked (s : State) (comb : List (Nat × SVal)) (idx sub : Nat) : SVal :=
  match entOf comb (256 * idx + sub) with
  | some v => v
  | none => match s.obj idx sub with | some o => s.value idx sub o | none => .n 0

/-- The lowest staged pair of an index. -/
def lowestOf (es : List (Nat × SVal)) (idx : Nat) : Option Nat := (es.find? (fun e => e.1 / 256 == idx)).map (·.1)

/-! ### The commit check (R404) -/

/-- A value lies outside those that its object accepts. -/
def rangeBad (idx sub : Nat) (v : Int) : Bool :=
  if idx = 0x1F20 ∨ idx = 0x2100 ∨ (0x2200 ≤ idx ∧ idx ≤ 0x2206) ∨ idx = 0x6100 then decide (2 < v)
  else if idx = 0x3010 then decide ((sub = 1 ∧ 2 < v) ∨ (sub = 2 ∧ 1 < v))
  else if idx = 0x3020 then decide (v < 1000) || decide (1000000 < v)
  else if idx = 0x3200 then decide (v < 36000000000) || decide (6048000000000 < v)
  else if idx = 0x3400 then decide (256 < v)
  else if idx = 0x5200 then decide ((sub = 1 ∧ 2 < v) ∨ (sub = 2 ∧ 24 < v))
  else if idx = 0x6110 then decide (3 < v)
  else if idx = 0x7020 then decide (v ≠ 0)
  else if idx = 0x4110 then decide ((sub = 1 ∧ 7 < v) ∨ (sub = 3 ∧ (v = 0 ∨ 2 < v)))
  else if idx = 0x8400 then decide ((sub = 1 ∧ 7 < v) ∨ (sub = 2 ∧ (v = 0 ∨ 15 < v)))
  else false

/-- A mark as a MC_MARK register would hold it: its V, SUB, RANK and DEV bits. -/
def markWord (v : Nat) : W64 := BitVec.ofNat 64 (v % 512)

/-- The marks that other pending and staged entries add to a channel. -/
def State.withMarks (s : State) (es : List (Nat × SVal)) (ch : Nat) : State :=
  ((es.filter (fun e => e.1 / 256 == 0x3120 + ch && (e.1 % 256 == 1 || e.1 % 256 == 2))).filter (fun e => e.2.nat % 2 == 1)).foldl
    (fun s e => s.modChan ch (fun c => if c.mark0.getLsbD 0 then { c with mark1 := markWord e.2.nat }
                                       else { c with mark0 := markWord e.2.nat })) s

/-- Rows of a rank of each device density (R236, R241). -/
def rowsOf : Nat → Nat
  | 0 => 65536 | 1 => 98304 | _ => 131072

/-- The commit check of a row entry (R279): 1 for an absent rank or row, 3 for a full table or a duplicate. -/
def State.rowCheck (s : State) (ch : Nat) (e : W64) : Nat :=
  let c := s.chan ch
  let rows := SMap.get [] s.mram.rows ch ++
    ((s.slate.pends.map (fun p => (entOf p.ents (256 * (0x3300 + ch) + 2)).map (fun v => BitVec.ofNat 64 v.nat))).filterMap id)
  let l := rowLoc e
  if c.ranks < l.rank ∨ rowsOf c.dens ≤ l.row then 1
  else if 64 ≤ rows.length ∨ rows.any (fun x => rowLoc x == l) = true then 3
  else 0

/-- The commit check of a power request (R351). -/
def State.powerCheck (s : State) (idx sub v : Nat) : Nat :=
  if idx = 0x2200 ∨ idx = 0x2201 then (if s.corePresent (128 * (idx - 0x2200) + sub - 1) then 0 else 3)
  else if idx = 0x2203 then
    (if v ≠ 0 ∧ (s.fn (sub - 1)).insts.any (fun e => decide (e.2.st ≠ 0)) = true then 3 else 0)
  else if idx = 0x2204 then
    (if (s.chansUsed.contains (sub - 1)) then (if v = 2 then 3 else 0) else (if v = 2 then 0 else 3))
  else if idx = 0x2205 then (if v = 1 ∧ s.stackQuiet (sub - 1) = false then 3 else 0)
  else 0

/-- The commit check of a live restart: a reason, the rejection of an image if that is the reason, and the images that
it holds (R378). -/
def State.liveCheck (s : State) (g t r m : Nat) : Nat × Option (Nat × Nat × Nat) × List Img :=
  let b := s.boot
  let busy := b.liveRun || !b.liveImgs.isEmpty || b.monPend || s.regionBusy r
    || s.lbist.any (fun e => e.1 / 19 == r && e.2.status == 1)
  if b.phase ≠ 5 ∨ busy = true ∨ b.lacks = true then (3, none, [])
  else if t < g + 1000000 then (9, none, [])
  else
    match s.bestSlot with
    | none => (1, none, [])
    | some slot =>
      if (maskComps m).any (fun k => (s.slotHdr slot k).isNone) then (1, none, [])
      else
        match s.liveImages slot (maskComps m) with
        | .error (code, k) => (5, some (code, k, slot), [])
        | .ok l => if l.any (fun im => s.thirdVersion r im) then (3, none, []) else (0, none, l)

/-- The commit check of a firmware or key object (R368, R372). -/
def State.bootCheck (s : State) (es comb : List (Nat × SVal)) (idx sub v : Nat) : Nat :=
  if idx = 0x8101 then
    let pend := s.slate.pends.foldl (fun m p => max m ((entOf p.ents (256 * 0x8101 + sub)).elim 0 (·.nat))) (SMap.get 0 s.boot.floors sub)
    let svns := if sub = 5 then [s.boot.monitor.elim 0 (·.svn)] else (List.range 8).map (fun r => (SMap.get Img.reset (s.region r).fw sub).svn)
    if s.boot.phase ≠ 5 then 3
    else if v ≤ pend ∨ svns.any (fun x => decide (x < v)) = true then 6
    else 0
  else
    let used := s.imagesInUse ++ s.boot.monitor.toList
    if v = 1 ∧ used.any (fun i => i.keyidx == sub - 1) = true then 7
    else if lowestOf es 0x8110 = some (256 * 0x8110 + sub) ∧ v = 1 ∧
        (List.range 4).all (fun k => (s.looked comb 0x8110 (k + 1)).nat == 1) = true then 7
    else 0

/-- The check of one staged pair: the reason of its failure, 0 where it passes (R404). -/
def State.checkPair (s : State) (g t : Nat) (es comb : List (Nat × SVal)) (key : Nat) (v : SVal) : Nat :=
  let idx := key / 256
  let sub := key % 256
  let lowest := decide (lowestOf es idx = some key)
  let has (i : Nat) : Bool := (entOf es (256 * idx + i)).isSome
  if rangeBad idx sub v.num then 1
  else if idx = 0x3400 then
    (if lowest && decide (256 < ((List.range 64).map (fun d => (s.looked comb 0x3400 (d + 1)).nat)).sum) then 2 else 0)
  else if 0x2200 ≤ idx ∧ idx ≤ 0x2206 then s.powerCheck idx sub v.nat
  else if 0x3120 ≤ idx ∧ idx < 0x3130 then
    let ch := idx - 0x3120
    let m := markWord v.nat
    let pend := (s.slate.pends.map (·.ents)).flatten ++ es.filter (fun e => decide (e.1 < key))
    (if v.nat % 2 = 1 ∧ (s.withMarks pend ch).markRefused ch (markSub m) (markRank m) (markDev m) = true then 4 else 0)
  else if 0x3300 ≤ idx ∧ idx < 0x3310 ∧ sub = 2 then s.rowCheck (idx - 0x3300) (BitVec.ofNat 64 v.nat)
  else if idx = 0x4110 then
    (if !lowest then 0
     else if !(has 1 && has 2 && has 3) then 8
     else
       let r := (s.looked es 0x4110 1).nat
       let b := (s.looked es 0x4110 2).nat
       if (s.looked es 0x4110 3).nat = 1 then
         (if b < 16 ∧ s.blockPresent (16 * r + b) = true then (if s.replaceOk r b then 0 else 3) else 1)
       else if 18 ≤ b then 1
       else if s.role r b = 3 then 0 else 3)
  else if idx = 0x8101 ∨ idx = 0x8110 then s.bootCheck es comb idx sub v.nat
  else if idx = 0x8400 then
    (if !lowest then 0
     else if !(has 1 && has 2) then 8
     else (s.liveCheck g t (s.looked es 0x8400 1).nat (s.looked es 0x8400 2).nat).1)
  else 0

/-- The first failure of a stage set, in ascending order: pair and reason. -/
def State.commitCheck (s : State) (g t : Nat) (es : List (Nat × SVal)) : Option (Nat × Nat) :=
  let comb := s.combined es
  (es.map (fun e => (e.1, s.checkPair g t es comb e.1 e.2))).find? (fun e => e.2 != 0)

/-- What a failed check leaves behind: the record of a refused mark (R272), the rejection of an image (R369, R378). -/
def State.checkFailed (s : State) (g t : Nat) (es : List (Nat × SVal)) (key reason : Nat) : State :=
  let idx := key / 256
  if reason = 4 then
    let m := markWord ((entOf es key).elim 0 (·.nat))
    s.chanRecord (idx - 0x3120) 1 0x0513 none none { sub := markSub m, rank := markRank m, bg := 0, col := 0, bank := 0, row := 0 }
      (markDev m) 0 0
  else if reason = 5 then
    match (s.liveCheck g t (s.looked es 0x8400 1).nat (s.looked es 0x8400 2).nat).2.1 with
    | some (code, k, slot) => (s.modBoot (fun b => { b with liveRes := code })).rejectImage code k slot
    | none => s
  else s

/-! ### Acceptance (R405) -/

/-- A set becomes a pending commit; other ports lose the same pairs and their sets are stale. -/
def State.acceptCommit (s : State) (port t g : Nat) (es : List (Nat × SVal)) : State :=
  let s := s.modSlate (fun x => { x with pends := x.pends ++ [{ tick := t, port, ents := es }] })
  let s := (([1, 2, 3] : List Nat).filter (· != port)).foldl (fun s p =>
    let st : Stage := s.stage p
    let kept := st.ents.filter (fun e => (entOf es e.1).isNone)
    if kept.length = st.ents.length then s else s.modStage p (fun st => { st with ents := kept, stale := true })) s
  let s := s.modStage port (fun st => { st with ents := [], lastT := t })
  match entOf es (256 * 0x8400 + 1), entOf es (256 * 0x8400 + 2) with
  | some r, some m =>
    s.modBoot (fun b => { b with liveReg := r.nat, liveMask := m.nat, liveImgs := (s.liveCheck g t r.nat m.nat).2.2 })
  | _, _ => s

/-- COMMIT (R403): the result code, the commit tick, and the failure. -/
def State.commitNow (s : State) (port t : Nat) : Nat × Nat × Nat × Nat × State :=
  let st := s.stage port
  let g := s.noon.tick
  if st.ents.isEmpty then (0x1B, 0, 0, 0, s.modStage port (fun st => { st with stale := false }))
  else if st.stale then (0x15, 0, 0, 0, s.modStage port (fun st => { st with stale := false, ents := [] }))
  else if s.boot.phase = 0 then (0x1E, 0, 0, 0, s)
  else if 8 ≤ s.slate.pends.length then (0x18, 0, 0, 0, s)
  else
    let tick := if t = 0 then g + 100000 else t
    if (t ≠ 0 ∧ (t < g + 100000 ∨ g + 2 ^ 32 < t)) ∨ s.slate.pends.any (fun p => decide (tick < p.tick)) = true then (0x17, 0, 0, 0, s)
    else
      match s.commitCheck g tick st.ents with
      | some (key, reason) => (0x16, 0, key, reason, s.checkFailed g tick st.ents key reason)
      | none => (0, tick, 0, 0, s.acceptCommit port tick g st.ents)

/-! ### Application (R406) -/

/-- The agent that an object of a commit concerns: a block, an I/O stop agent (128 + region), or none. -/
def concerns (key : Nat) : Option Nat :=
  let idx := key / 256
  let sub := key % 256
  if idx = 0x2100 then some sub
  else if idx = 0x2200 then some ((sub - 1) / 2)
  else if idx = 0x2201 then some (64 + (sub - 1) / 2)
  else if idx = 0x2203 ∨ idx = 0x2205 ∨ idx = 0x2210 ∨ idx = 0x6100 then some (128 + (sub - 1))
  else if idx = 0x2204 then some (128 + (sub - 1) / 2)
  else if 0x3120 ≤ idx ∧ idx < 0x3130 then some (128 + (idx - 0x3120) / 2)
  else if 0x3300 ≤ idx ∧ idx < 0x3310 then some (128 + (idx - 0x3300) / 2)
  else if idx = 0x6110 then some (128 + (sub - 1) / 4)
  else none

/-- mc that an agent takes to apply a commit (R179, R406). -/
def commitCost (a : Nat) (p : Pend) : Nat :=
  2 + (p.ents.filter (fun e => concerns e.1 == some a)).length

/-- Objects whose value stands in the dictionary itself; the others name state that lies elsewhere. -/
def isSetting (idx sub : Nat) : Bool :=
  !(decide (idx = 0x7020) || decide (idx = 0x8101) || decide (idx = 0x8110) || decide (idx = 0x4110) || decide (idx = 0x4300)
    || (decide (0x3120 ≤ idx) && decide (idx < 0x3130)) || (decide (0x3300 ≤ idx) && decide (idx < 0x3310))
    || (decide (idx = 0x5100) && decide (sub = 1)))

/-- A committed value of a power object (R351, R352, R257). -/
def State.powerApply (s : State) (idx sub v : Nat) : State :=
  let i := sub - 1
  if idx = 0x2200 then s.requestDom i v
  else if idx = 0x2201 then s.requestDom (128 + i) v
  else if idx = 0x2203 then s.requestDom (384 + i) v
  else if idx = 0x2204 then
    if v = 1 then s.modChan i (fun c => if c.st = 4 ∨ c.st = 5 ∨ c.st = 6 then { c with retReq := true } else c)
    else if v = 0 then
      let s := s.modChan i (fun c => { c with retReq := false })
      if (s.chan i).st = 7 then (s.modChan i (fun c => { c with st := 4 })).modDom (392 + i) (fun d => { d with st := 0, wake := 1 })
      else s
    else s
  else if idx = 0x2205 then s.requestDom (408 + i) v
  else if idx = 0x2206 then s.requestDom 416 v
  else s

/-- A row entry is added; with bit 63 its bank is held for a live repair (R279). -/
def State.rowApply (s : State) (ch : Nat) (w : W64) : State :=
  let e : W64 := setFld w 39 25 0
  let rows := SMap.get [] s.mram.rows ch
  let c := s.chan ch
  let serials := SMap.set (SMap.set s.mram.serials (2 * ch) (c.serial 0)) (2 * ch + 1) (c.serial 1)
  let s : State := { s with mram := { s.mram with rows := SMap.set s.mram.rows ch (rows ++ [e]), serials } }
  if w.getLsbD 63 ∧ c.sppr.isNone then
    s.modChan ch (fun c => { c with sppr := some e, held := c.held ++ [(rowLoc e).bankNo] })
  else s

/-- The effect of one committed value beside its being held (the rules of each object). -/
def State.applyOne (s : State) (es : List (Nat × SVal)) (key : Nat) (v : SVal) : State :=
  let idx := key / 256
  let sub := key % 256
  let n := v.nat
  if idx = 0x2100 then
    if s.settingN 0x2100 sub 0 = n then s
    else [2 * sub, 2 * sub + 1].foldl (fun s c => if s.on c then s.modCore c (fun k => k.brk 5 k.pc) else s) s
  else if 0x2200 ≤ idx ∧ idx ≤ 0x2206 then s.powerApply idx sub n
  else if 0x3120 ≤ idx ∧ idx < 0x3130 then
    let ch := idx - 0x3120
    if n % 2 = 1 then
      let m := markWord n
      let c := s.chan ch
      let s := s.addMark ch (markSub m) (markRank m) (markDev m)
      { s with mram := { s.mram with serials := SMap.set (SMap.set s.mram.serials (2 * ch) (c.serial 0)) (2 * ch + 1) (c.serial 1) } }
    else { s with mram := { s.mram with markOff := s.mram.markOff ++ [(ch, sub - 1)] } }
  else if 0x3300 ≤ idx ∧ idx < 0x3310 then
    if sub = 2 then s.rowApply (idx - 0x3300) (BitVec.ofNat 64 n)
    else { s with mram := { s.mram with rowDel := s.mram.rowDel ++ [(idx - 0x3300, n)] } }
  else if idx = 0x4110 then
    if sub ≠ 1 then s
    else
      let b := (s.looked es 0x4110 2).nat
      if (s.looked es 0x4110 3).nat = 1 then s.replaceBegin n b
      else if s.role n b = 3 then s.setMap n b (64 + 31) else s
  else if idx = 0x4300 then { s with mram := { s.mram with suppDel := s.mram.suppDel ++ [n] } }
  else if idx = 0x5100 ∧ sub = 1 then s.modNoon (fun w => { w with wall := n })
  else if idx = 0x5200 ∧ sub = 1 then
    s.modNoon (fun w => if n ≠ 0 ∧ w.trace = true then { w with trace := false, conflict := true } else w)
  else if idx = 0x7020 then s.modBoot (fun b => { b with fatal := false })
  else if idx = 0x8101 then s.modBoot (fun b => { b with floors := SMap.set b.floors sub (max n (SMap.get 0 b.floors sub)) })
  else if idx = 0x8110 then s.modBoot (fun b => { b with revoked := if n = 1 then b.revoked ||| 2 ^ (sub - 1) else b.revoked })
  else if idx = 0x8400 then (if sub = 1 then s.liveBegin else s)
  else s

/-- A value takes its place among the settings (R389, R406). -/
def State.holdOne (s : State) (key : Nat) (v : SVal) : State :=
  if !isSetting (key / 256) (key % 256) then s
  else
    match s.obj (key / 256) (key % 256) with
    | some o =>
      if o.pers then s.modSlate (fun x => { x with pers := SMap.set x.pers key v })
      else s.modSlate (fun x => { x with vals := SMap.set x.vals key v })
    | none => s

/-- A commit is applied at the boundary into its tick; a floor raise is followed by a Vesper record (R372, R406). -/
def State.applyCommit (s : State) (p : Pend) : State :=
  let s := p.ents.foldl (fun s e => (s.applyOne p.ents e.1 e.2).holdOne e.1 e.2) s
  if p.ents.any (fun e => e.1 / 256 == 0x8101) then
    s.vesper 4 0xFF ((List.range 5).map (fun k => natLe 4 (SMap.get 0 s.boot.floors (k + 1)) ++ List.replicate 56 0))
  else s

/-- The commits due at a tick, in order of acceptance, and those that remain. -/
def State.applyCommits (s : State) (tick : Nat) : State :=
  let due := s.slate.pends.filter (fun p => decide (p.tick ≤ tick))
  let s := s.modSlate (fun x => { x with pends := x.pends.filter (fun p => decide (tick < p.tick)) })
  due.foldl (fun s p => s.applyCommit p) s

end Sys2Proof.Machine
end

