-- ==== Sys2Proof/Machine/Slate.lean ====
section
/-! DEFINITION. The Slate message, its operations, and the transports of the four ports (R387 to R401, R409, R414). -/

namespace Sys2Proof.Machine

/-! ### Operations on one object (R394 to R396, R402) -/

/-- An answer: RESULT and DATA. -/
abbrev Ans := Nat × List Byte

/-- The segment size Z (R393, R414). -/
def segMax (port : Nat) : Nat := if port = 1 then 56 else 4096

/-- READ (R394, R395). -/
def State.slateReadObj (s : State) (port idx sub : Nat) (o : Obj) (data : List Byte) : Ans × State :=
  match o.ty.size with
  | some _ => if data.isEmpty then ((0, (s.value idx sub o).bytes o.ty), s) else ((0x1C, []), s)
  | none =>
    if data.length ≠ 4 then ((0x1C, []), s)
    else
      let off := leNat data
      let key := 256 * idx + sub
      let st : Stage := s.stage port
      if off ≠ 0 ∧ (st.snapKey ≠ some key ∨ st.snap.length < off) then ((0x19, []), s)
      else
        let snap := if off = 0 then (s.value idx sub o).bytes o.ty else st.snap
        let part := (snap.drop off).take (segMax port - 4)
        let held := decide (off + part.length < snap.length)
        ((0, natLe 4 snap.length ++ part),
          s.modStage port (fun st => { st with snapKey := if held then some key else none, snap := if held then snap else [] }))

/-- Bytes that a stage set occupies. -/
def State.stageBytes (s : State) (es : List (Nat × SVal)) : Nat :=
  (es.map (fun e =>
    match s.obj (e.1 / 256) (e.1 % 256) with
    | some o => (e.2.bytes o.ty).length
    | none => 0)).sum

/-- STAGE of a whole value (R402). -/
def State.stageNow (s : State) (port idx sub : Nat) (v : SVal) : Ans × State :=
  let es := SMap.set (s.stage port).ents (256 * idx + sub) v
  if 256 < es.length ∨ 16384 < s.stageBytes es then ((0x18, []), s)
  else ((0, []), s.modStage port (fun st => { st with ents := es }))

/-- The answer of an operation on object 0x8200 (R369, R397). -/
def imageAns (c : Nat × State) : Ans × State := if c.1 = 0 then ((0, []), c.2) else ((0x1F, [BitVec.ofNat 8 c.1]), c.2)

def SVal.raw : SVal → List Byte
  | .b l => l
  | .n _ => []

/-- A write-now of a whole value (R256, R270, R233, R375, R380, R382, R384, R435). -/
def State.writeNow (s : State) (idx sub : Nat) (v : SVal) : Ans × State :=
  let n := v.nat
  let done (s : State) : Ans × State := ((0, []), s)
  let bad : Ans × State := ((0x13, []), s)
  let state : Ans × State := ((0x1E, []), s)
  if idx = 0x3060 then done (if n = 1 then s.startRetrain (sub - 1) else s)
  else if 0x3120 ≤ idx ∧ idx < 0x3130 then
    done (if n = 1 then s.modChan (idx - 0x3120) (fun c => { c with prop := setFld c.prop 0 1 0 }) else s)
  else if 0x7000 ≤ idx ∧ idx ≤ 0x7008 then
    match (s.log (idx - 0x7000)).fldWrite (logSize (idx - 0x7000)) n with
    | some g => done (s.modLog (idx - 0x7000) (fun _ => g))
    | none => bad
  else if idx = 0x8200 then
    if !s.svcOpen then state
    else if sub = 1 then (if 1 < n then bad else imageAns (s.sessionOpen n))
    else if sub = 2 then imageAns (s.sessionHeader v.raw)
    else if sub = 3 then imageAns (s.sessionBody v.raw)
    else if n = 1 then imageAns s.finalizeSession
    else done s
  else if idx = 0x8310 then
    if v.raw.length ≠ 32 then bad else if !s.boot.keyDerived then state else done (s.signNonce v.raw)
  else if idx = 0x8320 then (if 7168 ≤ n then bad else done (s.modBoot (fun b => { b with vesperRd := n })))
  else if idx = 0x8410 then
    if sub = 1 then done (s.modBoot (fun b => { b with placeDst := n }))
    else done (if n = 1 then s.modBoot (fun b => { b with monPend := true }) else s)
  else if idx = 0x9018 then
    if sub = 1 then (if 7 < n then bad else done { s with lbistSel := (n, s.lbistSel.2) })
    else if sub = 2 then (if 18 < n then bad else done { s with lbistSel := (s.lbistSel.1, n) })
    else if n = 0 then done s
    else if sub = 3 then
      match (if s.testOpen then s.lbistStart s.lbistSel.1 s.lbistSel.2 else none) with
      | some s => done s
      | none => state
    else done (if s.testOpen then s.lbistCut s.lbistSel.1 s.lbistSel.2 3 else s)
  else done s

/-- A whole value arrives by WRITE or STAGE (R388, R394). -/
def State.takeValue (s : State) (port op idx sub : Nat) (o : Obj) (v : SVal) : Ans × State :=
  if !o.ty.admits v then ((0x13, []), s)
  else if op = 2 then s.writeNow idx sub v
  else s.stageNow port idx sub v

/-- The largest TOTAL of an object (R396). -/
def totalMax (idx sub : Nat) : Nat := if idx = 0x8200 ∧ (sub = 2 ∨ sub = 3) then 0x300000 else 65536

/-- WRITE and STAGE (R394, R396). -/
def State.slateWriteObj (s : State) (port op idx sub : Nat) (o : Obj) (data : List Byte) : Ans × State :=
  match o.ty.size with
  | some n => if data.length ≠ n then ((0x12, []), s) else s.takeValue port op idx sub o (o.ty.parse data)
  | none =>
    if data.length < 8 then ((0x1C, []), s)
    else
      let total := leNat (data.take 4)
      let off := leNat ((data.drop 4).take 4)
      let seg := data.drop 8
      let key := 256 * idx + sub
      let st : Stage := s.stage port
      let clear (s : State) : State := s.modStage port (fun st => { st with wbuf := none, wdata := [] })
      if off ≠ 0 ∧ (st.wbuf ≠ some (op, key, total) ∨ st.wdata.length ≠ off) then ((0x1A, []), clear s)
      else if off = 0 ∧ totalMax idx sub < total then ((0x13, []), clear s)
      else if total < off + seg.length then ((0x1A, []), clear s)
      else
        let whole := (if off = 0 then [] else st.wdata) ++ seg
        if off + seg.length = total then (clear s).takeValue port op idx sub o (o.ty.parse whole)
        else ((0, []), s.modStage port (fun st => { st with wbuf := some (op, key, total), wdata := whole }))

/-! ### The message (R390 to R394, R397) -/

/-- A message answered MALFORMED or NAKed is counted and recorded (R400, R408, R409). -/
def State.slateBad (s : State) (port : Nat) (msg : List Byte) : State :=
  (s.modStage port (fun st => { st with bad := satAdd 32 st.bad })).record
    (recAt (srcId 12 0 0 0 (if port = 0 then 3 else if port = 1 then 4 else 0)) 3 0 0x0C07 none none
      (port :: (msg.take 15).map (·.toNat)) 0)

/-- The request breaks the layout of R393, or its OP is not listed, or a COMMIT or DISCARD names an object (R394). -/
def slateMalformed (port : Nat) (msg : List Byte) : Bool :=
  decide (msg.length < 8) || decide (msg.length ≠ 8 + natAt msg 6 2) || decide (segMax port < natAt msg 6 2)
    || decide (byteAt msg 5 ≠ 0)

def slateNoOp (msg : List Byte) : Bool :=
  let op := byteAt msg 0
  decide (op = 0) || decide (5 < op) || (decide (4 ≤ op) && (decide (natAt msg 2 2 ≠ 0) || decide (byteAt msg 4 ≠ 0)))

/-- A port holds write and stage rights at all (R390, R391). -/
def State.mayChange (s : State) (port : Nat) : Bool := decide (port = 1) || decide (port = 2) || (decide (port = 3) && s.boot.zeroized)

/-- The port has the right that an operation needs on an object (R390, R391). -/
def State.hasRight (s : State) (port op idx : Nat) (o : Obj) : Bool :=
  if op = 1 then mayRead port idx
  else (if op = 2 then o.w.contains port else o.st.contains port) && (decide (port ≠ 3) || s.boot.zeroized)

/-- The latest commit result of a port (R404). -/
def State.commitResult (s : State) (port key reason code : Nat) : State :=
  s.modStage port (fun st => { st with
    result := BitVec.ofNat 64 (key / 256 + 2 ^ 16 * (key % 256) + 2 ^ 24 * reason + 2 ^ 32 * code) })

/-- The answer to a well-formed message (R394). -/
def State.slateAnswer (s : State) (port : Nat) (msg : List Byte) : Ans × State :=
  let op := byteAt msg 0
  let idx := natAt msg 2 2
  let sub := byteAt msg 4
  let data := msg.drop 8
  if op = 4 then
    if !s.mayChange port then ((0x11, []), s.commitResult port 0 0 0x11)
    else if data.length ≠ 8 then ((0x1C, []), s)
    else
      let (code, tick, key, reason, s) := s.commitNow port (leNat data)
      ((code, if code = 0 then natLe 8 tick else []), s.commitResult port key reason code)
  else if op = 5 then
    if !s.mayChange port then ((0x11, []), s)
    else if !data.isEmpty then ((0x1C, []), s)
    else ((0, []), s.modStage port (fun st => { st with ents := [], stale := false }))
  else
    match s.obj idx sub with
    | none => ((0x10, []), s)
    | some o =>
      if !s.hasRight port op idx o then ((0x11, []), s)
      else if op = 1 then s.slateReadObj port idx sub o data
      else s.slateWriteObj port op idx sub o data

/-- One message is handled in full: its response (R221, R392, R393). -/
def State.slateHandle (s : State) (port td : Nat) (msg : List Byte) : List Byte × State :=
  let s := s.modSlate (fun x => { x with ptr := (port + 1) % 4 })
  let a : Ans × State :=
    if port = 2 ∧ td ≠ 0 then ((0x1D, []), s)
    else if slateMalformed port msg || slateNoOp msg then ((0x1C, []), s)
    else s.slateAnswer port msg
  let s := if a.1.1 = 0x1C then a.2.slateBad port msg else a.2
  ([BitVec.ofNat 8 (byteAt msg 0 ||| 0x80), BitVec.ofNat 8 (byteAt msg 1), BitVec.ofNat 8 (byteAt msg 2), BitVec.ofNat 8 (byteAt msg 3),
    BitVec.ofNat 8 (byteAt msg 4), BitVec.ofNat 8 a.1.1] ++ natLe 2 a.1.2.length ++ a.1.2, s)

/-! ### Transports (R398 to R401, R414) -/

/-- A port can be reached: the service and debug ports and the responder with the device's management powered, the mailbox
from the release of the boot core (R353, R370, R399, R401). -/
def State.portUp (s : State) (port : Nat) : Bool :=
  s.pins.aon && s.pins.resetN && !s.scan &&
    (match port with
    | 0 => !s.stopped
    | 1 => decide ((s.dom 416).st = 0) && !(s.dom 416).held && !s.slate.busOff
    | 2 => s.up && decide (3 ≤ s.boot.phase) && decide (s.boot.phase ≤ 5)
    | _ => decide (port = 3))

/-- A NAK of the service port (R400). -/
def State.svcRefuse (s : State) (bytes : List Byte) : State :=
  (s.slateBad 0 bytes).modSlate (fun x => { x with svcNak := true })

/-- A message written to the service port (R400). -/
def State.svcMessage (s : State) (msg : List Byte) : State :=
  if s.slate.svcRdy || slateMalformed 0 msg then s.svcRefuse msg
  else
    let (rsp, s) := s.slateHandle 0 0 msg
    s.modSlate (fun x => { x with svcRdy := true, svcRsp := rsp })

/-- The service port's status byte (R400); BUSY is never seen, as a message is handled in one step. -/
def State.svcStatus (s : State) : Byte := BitVec.ofNat 8 (2 * bit s.slate.svcRdy + 4 * bit s.slate.svcNak)

/-- A response read of `n` bytes; RDY clears when all of the response was read (R400). -/
def State.svcRead (s : State) (n : Nat) : State :=
  let rsp := s.slate.svcRsp
  let s := s.emit (.spi (rsp.take n ++ List.replicate (n - rsp.length) 0))
  if s.slate.svcRdy ∧ rsp.length ≤ n then s.modSlate (fun x => { x with svcRdy := false, svcRsp := [] }) else s

/-- The data lengths of an FD frame. -/
def dlcLen (n : Nat) : Nat := ([0, 1, 2, 3, 4, 5, 6, 7, 8, 12, 16, 20, 24, 32, 48, 64].find? (fun l => n ≤ l)).getD 64

/-- The Daybreak frame is no message, and other identifiers are ignored (R399). -/
def State.fieldAddressed (s : State) (f : CanFrame) : Bool :=
  decide (f.ident = 0x6A0 + s.slate.node) && !f.extended && !f.remote

/-- The framing of a field request holds (R399). -/
def fieldFramed (f : CanFrame) : Bool :=
  f.fd && decide (8 ≤ f.data.length) && decide (8 + natAt f.data 6 2 ≤ f.data.length) && decide (f.data.length = dlcLen (8 + natAt f.data 6 2))

/-- A frame is received without error: the receive error counter falls (ISO 11898-1; from above 127 to a value of 119 to
127, which is a free value). -/
def State.canReceived (s : State) : State :=
  let r := s.slate.recv
  if r ≤ 127 then s.modSlate (fun x => { x with recv := r - 1 })
  else
    let (i, s) := s.draw
    s.modSlate (fun x => { x with recv := 119 + (Config.freeWord i).toNat % 9 })

/-- A request frame and its response (R399). -/
def State.fieldRequest (s : State) (f : CanFrame) : State :=
  if !s.fieldAddressed f then s
  else
    let s := s.canReceived
    let msg := if fieldFramed f then f.data.take (8 + natAt f.data 6 2) else f.data
    let (rsp, s) :=
      if fieldFramed f then s.slateHandle 1 0 msg
      else
        ([BitVec.ofNat 8 (byteAt msg 0 ||| 0x80), BitVec.ofNat 8 (byteAt msg 1), BitVec.ofNat 8 (byteAt msg 2),
          BitVec.ofNat 8 (byteAt msg 3), BitVec.ofNat 8 (byteAt msg 4), 0x1C, 0, 0],
         (s.modSlate (fun x => { x with ptr := 2 })).slateBad 1 msg)
    let s := s.emit (.can { ident := 0x6B0 + s.slate.node, extended := false, remote := false, fd := true, brs := f.brs,
                            data := rsp ++ List.replicate (dlcLen rsp.length - rsp.length) 0 })
    s.modSlate (fun x => { x with tec := x.tec - 1 })

/-- SL_HCTL.GO: the message of SL_HREQ is handled and its response completed (R401). -/
def State.hostMessage (s : State) (td : Nat) (msg : List Byte) : State :=
  let (rsp, s) := s.slateHandle 2 td msg
  let s := s.modSlate (fun x => { x with hrsp := rsp, hdone := true })
  if s.slate.nen then s.post 3205 else s

/-- The message that SL_HREQ holds: its first 8 + LEN bytes. -/
def State.hostBuffer (s : State) : List Byte :=
  let hdr := s.slate.hreq.read 0 8
  s.slate.hreq.read 0 (8 + min 4096 (natAt hdr 6 2))

/-- A request on the debug port (R414). -/
def State.dbgMessage (s : State) (msg : List Byte) : State :=
  if s.slate.dbgRdy then (s.slateBad 3 msg).modSlate (fun x => { x with dbgNak := true })
  else
    let (rsp, s) := s.slateHandle 3 0 msg
    s.modSlate (fun x => { x with dbgRdy := true, dbgRsp := rsp })

/-- A message on a port, by that port's transport. -/
def State.slatePort (s : State) (port : Nat) (msg : List Byte) : State :=
  match port with
  | 0 => s.svcMessage msg
  | 1 => s.fieldRequest { ident := 0x6A0 + s.slate.node, extended := false, remote := false, fd := true, brs := true,
                          data := msg ++ List.replicate (dlcLen msg.length - msg.length) 0 }
  | 2 => s.hostMessage 0 msg
  | _ => s.dbgMessage msg

/-- A request with the layout of R393. -/
def slateMsg (op seq idx sub : Nat) (data : List Byte) : List Byte :=
  [BitVec.ofNat 8 op, BitVec.ofNat 8 seq] ++ natLe 2 idx ++ [BitVec.ofNat 8 sub, 0] ++ natLe 2 data.length ++ data

/-! ### Meanings: messages -/

/-- A request reaches a port, if the port can be reached. -/
def State.slateSend (s : State) (port : Nat) (msg : List Byte) : State := if s.portUp port then s.slatePort port msg else s

/-- SLATE_READ (R394). -/
def execSlateRead (port seq idx sub : Nat) (data : List (BitVec 8)) (s : State) : Host.Outcome State Fault Refusal :=
  .next (s.slateSend port (slateMsg 1 seq idx sub data))

/-- SLATE_WRITE (R394). -/
def execSlateWrite (port seq idx sub : Nat) (data : List (BitVec 8)) (s : State) : Host.Outcome State Fault Refusal :=
  .next (s.slateSend port (slateMsg 2 seq idx sub data))

/-- SLATE_STAGE (R402). -/
def execSlateStage (port seq idx sub : Nat) (data : List (BitVec 8)) (s : State) : Host.Outcome State Fault Refusal :=
  .next (s.slateSend port (slateMsg 3 seq idx sub data))

/-- SLATE_COMMIT (R403). -/
def execSlateCommit (port seq : Nat) (data : List (BitVec 8)) (s : State) : Host.Outcome State Fault Refusal :=
  .next (s.slateSend port (slateMsg 4 seq 0 0 data))

/-- SLATE_DISCARD (R402). -/
def execSlateDiscard (port seq : Nat) (data : List (BitVec 8)) (s : State) : Host.Outcome State Fault Refusal :=
  .next (s.slateSend port (slateMsg 5 seq 0 0 data))

/-- SNAPSHOT_TIMEOUT (R395). -/
def execSnapshotTimeout (port : Nat) (s : State) : Host.Outcome State Fault Refusal :=
  .next (if decide (4 ≤ port) then s else s.modStage port (fun st => { st with snapKey := none, snap := [] }))

/-- WRITE_BUFFER_TIMEOUT (R396). -/
def execWriteBufferTimeout (port : Nat) (s : State) : Host.Outcome State Fault Refusal :=
  .next (if decide (4 ≤ port) then s else s.modStage port (fun st => { st with wbuf := none, wdata := [] }))

/-! ### Meanings: the service port (R400) -/

/-- SPI_READ_STATUS: the status byte is shifted out, and NAK clears. -/
def execSpiReadStatus (s : State) : Host.Outcome State Fault Refusal :=
  .next (if !s.portUp 0 then s else (s.emit (.spi [s.svcStatus])).modSlate (fun x => { x with svcNak := false }))

/-- SPI_WRITE_MESSAGE. -/
def execSpiWriteMessage (msg : List (BitVec 8)) (s : State) : Host.Outcome State Fault Refusal :=
  .next (if !s.portUp 0 then s else s.svcMessage msg)

/-- SPI_WRITE_MESSAGE_QUAD: the same message on four lines. -/
def execSpiWriteMessageQuad (msg : List (BitVec 8)) (s : State) : Host.Outcome State Fault Refusal :=
  .next (if !s.portUp 0 then s else s.svcMessage msg)

/-- SPI_READ_RESPONSE: `n` bytes are read. -/
def execSpiReadResponse (n : Nat) (s : State) : Host.Outcome State Fault Refusal :=
  .next (if !s.portUp 0 then s else s.svcRead n)

/-- SPI_READ_RESPONSE_QUAD: the same bytes on four lines. -/
def execSpiReadResponseQuad (n : Nat) (s : State) : Host.Outcome State Fault Refusal :=
  .next (if !s.portUp 0 then s else s.svcRead n)

/-- SPI_TRANSACTION_NAK: a transaction that is refused for its opcode, its byte boundary, or a write while a response
waits. -/
def execSpiTransactionNak (opcode : Nat) (bytes : List (BitVec 8)) (s : State) : Host.Outcome State Fault Refusal :=
  .next (if !s.portUp 0 then s else s.svcRefuse (BitVec.ofNat 8 opcode :: bytes))

/-! ### Meanings: the field port (R364, R399) -/

/-- FIELD_FRAME. -/
def execFieldFrame (f : CanFrame) (s : State) : Host.Outcome State Fault Refusal :=
  .next (if !s.portUp 1 then s else s.fieldRequest f)

/-- BUS_ERROR: an error counter rises; above 255 the transmit counter takes the node off the bus. -/
def execBusError (tx : Bool) (inc : Nat) (s : State) : Host.Outcome State Fault Refusal :=
  .next (if !s.portUp 1 || !(decide (inc = 1) || decide (inc = 8)) then s
    else if tx then
      s.modSlate (fun x => { x with tec := x.tec + inc, busOff := decide (256 ≤ x.tec + inc) })
    else s.modSlate (fun x => { x with recv := x.recv + inc }))

/-- BUS_OFF_RECOVERY: the node returns with its counters cleared, and a record says what they had reached (R399, R409). -/
def execBusOffRecovery (s : State) : Host.Outcome State Fault Refusal :=
  .next (if !s.pins.aon || !s.pins.resetN || s.scan || decide ((s.dom 416).st ≠ 0) || !s.slate.busOff then s
    else
      let t := s.slate.tec
      (s.modSlate (fun x => { x with busOff := false, tec := 0, recv := 0 })).record
        (recAt (srcId 12 0 0 0 4) 3 0 0x0C08 none none [t % 256, t / 256 % 256, s.slate.node] 0))

/-- CAN_FD_CLOCK_SWITCH: with the root PLL locked, the controller runs from its division (R364). -/
def execCanFdClockSwitch (s : State) : Host.Outcome State Fault Refusal :=
  .next (if !s.up then s else s.modSlate (fun x => { x with canPll := true }))

/-! ### Meanings: the host mailbox (R401) and the debug scan (R414) -/

/-- HOST_MAILBOX_GO: a write of 1 to SL_HCTL.GO by a requester of domain `td`. -/
def execHostMailboxGo (td : Nat) (s : State) : Host.Outcome State Fault Refusal :=
  .next (if !s.portUp 2 then s else s.hostMessage td s.hostBuffer)

/-- The status byte of the debug scan. -/
def State.dbgStatus (s : State) : Byte := BitVec.ofNat 8 (2 * bit s.slate.dbgRdy + 4 * bit s.slate.dbgNak)

/-- SLATE: one scan of `bits` bits shifts out status and response while it shifts bytes in, and is judged at
Update-DR. -/
def execSlateTap (bytes : List (BitVec 8)) (bits : Nat) (s : State) : Host.Outcome State Fault Refusal :=
  .next (
    if !s.portUp 3 then s
    else
      let whole := s.dbgStatus :: (if s.slate.dbgRdy then s.slate.dbgRsp else [])
      let n := bits / 8
      let s : State := (s.emit (.tdo (whole.take n ++ List.replicate (n - whole.length) 0))).modSlate (fun x => { x with ir := 2 })
      let s := if 8 ≤ bits then s.modSlate (fun x => { x with dbgNak := false }) else s
      let busy := s.slate.dbgRdy
      let s := if busy ∧ whole.length ≤ n then s.modSlate (fun x => { x with dbgRdy := false, dbgRsp := [] }) else s
      let msg := bytes.take n
      if msg.isEmpty ∨ byteAt msg 0 = 0 then s else s.dbgMessage msg)

end Sys2Proof.Machine
end

