-- ==== Sys2Proof/Machine/Electrical.lean ====
section
/-! DEFINITION. Supplies, PWRGOOD, RESET_N and the thermal trip (R425 to R430). -/

namespace Sys2Proof.Machine

/-- PWRGOOD high releases a start that was held for it (R428). -/
def State.pwrgoodUp (s : State) : State :=
  let s : State := { s with pins := { s.pins with pwrgood := true } }
  if s.boot.waitRel && s.pins.refclk then s.begin else s

/-- RESET_N_ASSERT: every domain but the always-on domain is reset; a release that is still held is withdrawn (R429). -/
def execResetNAssert (s : State) : Host.Outcome State Fault Refusal :=
  .next (if !s.pins.aon then s else s.resetKeep)

/-- POWER_ON: the always-on logic is powered, with WALL 0 and RESET_N low (R197, R427). -/
def execPowerOn (s : State) : Host.Outcome State Fault Refusal :=
  .next (
    if s.pins.aon then s
    else
      let s := s.resetKeep
      { s with
        noon := Noon.reset
        pins := { Pins.reset with straps := s.pins.straps, refclk := s.pins.refclk } })

/-- POWER_REMOVED: all that is volatile is lost, and THERMTRIP_N is released (R430). -/
def execPowerRemoved (s : State) : Host.Outcome State Fault Refusal :=
  .next (
    if !s.pins.aon then s
    else
      let s := s.resetKeep
      { s with
        noon := Noon.reset
        pins := { Pins.reset with aon := false, rails := 0, straps := s.pins.straps, refclk := s.pins.refclk } })

/-- RAIL_RANGE_CHANGE: one bit of object 0x2320; with every bit 1 the board drives PWRGOOD high (R427, R428; log 4). -/
def execRailRangeChange (b : Nat) (inRange : Bool) (s : State) : Host.Outcome State Fault Refusal :=
  .next (
    if !s.pins.aon || decide (7 ≤ b) then s
    else
      let s : State := { s with pins := { s.pins with rails := setBits s.pins.rails b 1 (bit inRange) } }
      if s.pins.rails = 127 ∧ s.pins.pwrgood = false then s.pwrgoodUp else s)

/-- THERMAL_TRIP: a die temperature, in millidegrees, of 115 °C or more (R430). -/
def execThermalTrip (die : Int) (s : State) : Host.Outcome State Fault Refusal :=
  .next (
    if !s.pins.aon || decide (die < 115000) then s
    else ({ s with pins := { s.pins with trip := true } }).chipFatal (srcId 12 0 0 0 0) 0x0C0A [])

/-- PWRGOOD_LOSS: with RESET_N high, the chip-fatal stop (R430). -/
def execPwrgoodLoss (s : State) : Host.Outcome State Fault Refusal :=
  .next (
    if !s.pins.aon || !s.pins.pwrgood then s
    else
      let s : State := { s with pins := { s.pins with pwrgood := false } }
      if s.pins.resetN then s.chipFatal (srcId 12 0 0 0 0) 0x0C0B [] else s)

end Sys2Proof.Machine
end

