-- ==== Sys2Proof/Machine/Tick.lean ====
section
/-! DEFINITION. The boundary: application of commits, TO stores and actions in Noon order, re-send rounds, the hold limit
(R174 to R196). -/

namespace Sys2Proof.Machine

/-- A change at a boundary (R177): an action with the block that holds it, or the bytes that one TO store wrote to one
line. -/
inductive Change where
  | act (b : Nat) (a : NAct)
  | to (la : Nat) (key : NKey) (td ks mask : Nat) (d : Line) (bad : Bool)
  deriving DecidableEq, Repr

def Change.key : Change → NKey
  | .act _ a => a.key
  | .to _ k _ _ _ _ _ => k

/-- Due tick and key, for the order of application; TO stores are due at the tick that begins. -/
def Change.lt (now : Nat) (x y : Change) : Bool :=
  let due : Change → Nat
    | .act _ a => a.due
    | .to .. => now
  decide (due x < due y) || (decide (due x = due y) && x.key.lt y.key)

/-- The granules that one TO store staged in one line are one change (R180, R187). -/
def addStaged (l : List Change) (p : PubEnt) : List Change :=
  let la := p.gran / 2
  let m := p.mask.toNat <<< (32 * (p.gran % 2))
  let d : Line := BitVec.ofNat 512 (p.data.toNat <<< (256 * (p.gran % 2)))
  if l.any (fun c => match c with | .to la' k .. => la' == la && k == p.key | _ => false) then
    l.map (fun c => match c with
      | .to la' k td ks mask d' bad =>
        if la' = la ∧ k = p.key then .to la k td ks (mask ||| m) (lineMask d' d m) (bad || p.bad) else c
      | _ => c)
  else l ++ [.to la p.key p.td p.ks m d p.bad]

/-- mc that a change takes; the TO stores of a line take theirs together (R179). -/
def actCost : ActBody → Nat
  | .mail .. => 2
  | .store .. => 2
  | .merge .. => 4
  | .cstart .. => 2
  | .event _ => 1

/-- A refused CSTART (R190, R324, R345, R346). -/
def State.cstartRefuse (s : State) (r i typ td tail code : Nat) : State :=
  s.cobRecord r i 0 typ (some td) [code, 0, tail % 256, tail / 256 % 256] 0

/-- A CSTART at its boundary (R190, R324, R344 to R346). -/
def State.cstart (s : State) (r i td tail p : Nat) : State :=
  let x := s.inst r i
  if !s.fnOn r then (s.cstartRefuse r i 0x0708 td tail 1).pmeEvent r
  else if (s.fn r).frozen then s.cstartRefuse r i 0x0708 td tail 2
  else if x.td ≠ td then s.cstartRefuse r i 0x0705 td tail 1
  else
    match x.judge tail with
    | 0 => s.tailWrite r i tail p
    | j => (s.tailWrite r i tail p).cstartRefuse r i 0x0705 td tail (if j = 3 then 2 else if j = 2 then 3 else 4)

/-- One action is applied; a message for a full mailbox stays in its entry (R170, R187 to R190). -/
def State.applyAct (s : State) (b : Nat) (a : NAct) : State :=
  match a.body with
  | .mail core d =>
    match s.putMail core a.td a.key d with
    | some s => s.delAct b a.key
    | none => s
  | .store pa ks m d => (s.changeLine 2 (pa / 64) a.td ks a.key m.toNat d).delAct b a.key
  | .merge pa c clr => (s.mergeLine pa a.td a.key c clr).delAct b a.key
  | .cstart r i tail p => (s.cstart r i a.td tail p).delAct b a.key
  | .event n => (s.postFrom false (3584 + n) a.td 0xFFFF).delAct b a.key

/-- One change is applied; a staged store that holds a parity error poisons its line first (R146, R187, R202). -/
def State.applyChange (s : State) : Change → State
  | .act b a => s.applyAct b a
  | .to la key td ks mask d bad =>
    let s := if bad then s.poisonLine la td ks else s
    s.changeLine 1 la td ks key mask d

/-- The kept actions that an agent applies at the boundary into `now` (R186). -/
def State.dueKept (s : State) (a now : Nat) : List Change :=
  ((s.buffer a).filter (fun x => decide (x.2.due ≤ now))).map (fun x => .act x.1 x.2)

/-- What a block's agent or an I/O stop agent applies, in order: commits excepted (R177). -/
def State.dueChanges (s : State) (a now : Nat) : List Change :=
  let staged := if a < 128 then (s.block a).staging.foldl addStaged [] else []
  sortBy (Change.lt now) (staged ++ s.dueKept a now)

/-- mc of an agent's changes (R179). -/
def changesCost (l : List Change) : Nat :=
  let lines := l.foldl (fun acc c => match c with | .to la .. => insNat acc la | _ => acc) []
  2 * lines.length + (l.map (fun c => match c with | .act _ a => actCost a.body | _ => 0)).sum

/-- An agent applies its changes at the boundary into `now`; `commits` is the time of the commits before them. A fenced
block keeps its staged stores and actions until it is replaced (R192, R230). -/
def State.applyAgent (s : State) (a now commits : Nat) : State :=
  if a < 128 ∧ (s.block a).fenced = true then s
  else
    let l := s.dueChanges a now
    let s := l.foldl State.applyChange s
    let cost := commits + changesCost l
    if a < 128 then s.modBlock a (fun x => { x with staging := [], applyEnd := cost })
    else s.modRegion (a - 128) (fun x => { x with iosEnd := cost })

/-- The root applies the EVENTs that are due, kept or brought back, in order (R186, R189). -/
def State.applyRoot (s : State) (now : Nat) : State :=
  let l := s.allActs.filter (fun x => x.2.reg && decide (x.2.due ≤ now) && decide (s.applier x.2.body = rootAgent))
  (sortBy (fun x y => x.2.lt y.2) l).foldl (fun s x => s.applyAct x.1 x.2) s

/-- The lines of registered actions that are due at the next boundary lose their private copies (R178). -/
def State.preChangeNext (s : State) : State :=
  ((s.allActs.filter (fun x => x.2.reg && decide (x.2.due = s.noon.tick + 1))).filterMap (fun x => actLine x.2.body)).foldl
    (fun s la => if (s.block (s.home la)).fenced then s else s.preChange la) s

/-- The timers that the boundary meets (R195). -/
def State.meetTimers (s : State) : State :=
  s.allCores.foldl (fun s c =>
    let k := s.core c
    if k.timerArmed && decide (k.ntcmp.toNat ≤ s.noon.tick) then s.setCore c { k with timerArmed := false, timerDue := true } else s) s

/-- NOON_OUT at a boundary (R199). -/
def State.driveOut (s : State) : State :=
  let t := s.noon.tick
  let on := match s.settingN 0x5200 1 0 with
    | 1 => decide (t % 2 ^ (s.settingN 0x5200 2 0) = 0)
    | 2 => decide (t = s.settingN 0x5200 3 0)
    | _ => false
  { s with pins := { s.pins with noonOut := on } }

/-- A channel at a boundary: its bandwidth window, refreshes, idle time and the ticks that do not count in its pass
(R223, R244, R257, R275). -/
def Chan.atTick (c : Chan) : Chan :=
  { c with
    served := [], refresh := [], idle := c.idle + 1
    scrubSkip := if c.scrubRun && (decide (c.st = 6) || decide (c.st = 7) || decide (c.st = 8)) then c.scrubSkip + 1 else c.scrubSkip }

/-- A stack at a boundary: its idle links may enter L1.2, and the ticks in which all are in L1.2 or down are counted
(R331, R358). -/
def State.stackTick (s : State) (r : Nat) : State :=
  let s := (List.range 4).foldl (fun s f =>
    let p := s.port r f
    if s.portPresent r f && p.up && !p.inL12 && p.reqs.isEmpty then
      let (i, s) := s.draw
      if Config.freeChoice i then s.modPort r f (fun p => { p with inL12 := true }) else s
    else s) s
  let quiet := s.stackQuiet r
  s.modRegion r (fun x => { x with stackIdle := if quiet then x.stackIdle + 1 else 0 })

/-- The stretch registers of a boundary that was stretched (R196). -/
def State.countStretch (s : State) : State :=
  if s.noon.k = 0 then s
  else
    let (w, s) := s.stretchWord
    s.modNoon (fun n => { n with strcnt := (n.strcnt + 1) % 2 ^ 64, strq := (n.strq + n.k) % 2 ^ 64, strlast := w })

/-- Time passes to the boundary: 240 + 30k mc, in root periods and in REFCLK periods (R175, R197). -/
def State.passTick (s : State) : State :=
  let rootT := s.noon.rootT + 120 * (8 + s.noon.k)
  let refs := s.noon.lockRefs + rootT / 96
  (s.modNoon (fun n => { n with rootT := rootT })).passRefs (refs - s.noon.refs)

/-- Every agent's report and every count of the tick that ends is cleared (R176, R201, R434). -/
def State.newTick (s : State) : State :=
  let s := s.modNoon (fun n => { n with tick := n.tick + 1, k := 0, ordered := false, early := [] })
  let s := s.allBlocks.foldl (fun s b => s.modBlock b (fun x => { x with reported := false, missed := 0, pubCount := 0, applyEnd := 0 })) s
  (List.range 8).foldl (fun s r => s.modRegion r (fun x => { x with iosReported := false, iosMissed := 0, iosEnd := 0 })) s

/-- The boundary (R174 to R177). -/
def State.boundary (s : State) : State :=
  let s := s.countStretch.passTick.newTick
  let t := s.noon.tick
  let due := s.slate.pends.filter (fun p => decide (p.tick ≤ t))
  let cost (a : Nat) : Nat := (due.map (commitCost a)).sum
  let s := s.applyCommits t
  let s := s.modNoon (fun n => { n with twWall := n.wall })
  let s := s.allAgents.foldl (fun s a => s.applyAgent a t (cost a)) s
  let s := (s.applyRoot t).preChangeNext.meetTimers.driveOut
  let s := (List.range 16).foldl (fun s ch => if s.chanPresent ch then s.modChan ch Chan.atTick else s) s
  (List.range 8).foldl State.stackTick s

/-- TICK_BOUNDARY: the boundary that the root has ordered. -/
def execTickBoundary (s : State) : Host.Outcome State Fault Refusal :=
  .next (s.orWait (if !s.up || !s.noon.ordered then s else s.boundary))

/-- ACTION_RESEND_ROUND: an agent that returned an action due now brings back every action that it returned, keeps the 64
lowest and applies those that are due (R186). -/
def State.resend (s : State) (a : Nat) : State :=
  let back := s.allActs.filter (fun x => x.2.reg && !x.2.kept && decide (s.applier x.2.body = a))
  let dist := ((back.filter (fun x => decide (x.2.due ≤ s.noon.tick))).map (fun x => agentTransit a x.1)).foldl max 0
  let s := back.foldl (fun s x => s.modAct x.1 x.2.key (fun y => { y with kept := true })) s
  let s := ((s.buffer a).drop 64).foldl (fun s x => s.modAct x.1 x.2.key (fun y => { y with kept := false })) s
  let l := sortBy (Change.lt s.noon.tick) (s.dueKept a s.noon.tick)
  let s := l.foldl State.applyChange s
  let cost := 2 * dist + 3 * back.length + changesCost l
  if a < 128 then s.modBlock a (fun x => { x with applyEnd := x.applyEnd + cost })
  else s.modRegion (a - 128) (fun x => { x with iosEnd := x.iosEnd + cost })

def execActionResendRound (a : Nat) (s : State) : Host.Outcome State Fault Refusal :=
  .next (s.orWait (
    if !s.up || !s.allAgents.contains a || !s.returnedDue a || (decide (a < 128) && (s.block a).fenced) then s else s.resend a))

/-- HOLD_LIMIT_SLIP: a boundary held for more than HOLD ticks because of a domain's bound cores or P-started instances
proceeds without them (R194). -/
def execHoldLimitSlip (td : Nat) (s : State) : Host.Outcome State Fault Refusal :=
  .next (
    if !s.up || decide (64 ≤ td) || s.noon.ordered || decide (30 * s.noon.k ≤ 240 * s.quotaHold td) then s
    else
      let s := (s.allCores.filter (fun c => decide ((s.core c).tdid = td) && s.holds c)).foldl (fun s c => s.slipCore c 1) s
      (List.range 8).foldl (fun s r =>
        (((s.fn r).insts.filter (fun e => decide (e.2.td = td) && s.instHolds e.2))).foldl (fun s e =>
          match e.2.hold with
          | some (tail, _) =>
            (s.modInst r e.1 (fun x => { x with hold := none })).record
              (recAt (srcAgent (128 + r)) 2 0 0x0202 (some td) none
                ([e.1, 0, tail % 256, tail / 256 % 256, 0, 0, 0, 0] ++ (natLe 8 (s.noon.tick + 1)).map (·.toNat)) 0)
          | none => s) s) s)

end Sys2Proof.Machine
end

