-- ==== Sys2Proof/Machine/Mmio.lean ====
section
/-! DEFINITION. Device space as a core sees it: the register spaces of the regions and of the chip, the internal endpoint
window, configuration space and PCI Express memory space (R10, R11, R24 to R29, R431 and the register tables). -/

namespace Sys2Proof.Machine

/-! ### Reads: the 8-byte aligned registers of each unit -/

/-- LOG_STAT, LOG_HTAIL, LOG_LOST, LOG_CTL and the slots of a log (R232). -/
def Log.reg (g : Log) (size o : Nat) : Nat :=
  if o = 0 then
    let full := match g.slot g.head with | some r => g.protects size g.head r | none => false
    g.head + 2048 * g.count + 4194304 * bit full
  else if o = 8 then g.htail
  else if o = 16 then g.lost
  else if o = 24 then bit g.nany + 2 * bit g.nsev + 4 * bit g.nfull + 8 * bit g.fldgate
  else if 0x10000 ≤ o ∧ o < 0x10000 + 64 * size then
    leNat ((g.slotBytes ((o - 0x10000) / 64)).drop (o % 64) |>.take 8)
  else 0

/-- The registers of a channel's controller (R258, R282). -/
def State.mcReg (s : State) (ch o : Nat) : Nat :=
  let c := s.chan ch
  if !s.chanPresent ch then 0
  else
    match o with
    | 0x00 => s.mcStat ch
    | 0x08 => c.rdq.length + 256 * c.wrq.length + 65536 * c.merge.length
    | 0x20 => s.mcScrub ch
    | 0x28 => c.passes
    | 0x30 => c.ce + 2 ^ 32 * c.ue
    | 0x40 => c.mark0.toNat
    | 0x48 => c.mark1.toNat
    | 0x50 => c.prop.toNat
    | _ => 0

/-- IOT_CTL, IOT_EQB, IOT_EQP (R301). -/
def Iotu.reg (u : Iotu) (o : Nat) : Nat :=
  match o with
  | 0x00 => u.ctl.toNat
  | 0x08 => u.eqb.toNat
  | 0x10 => u.head + 65536 * u.tail + 2 ^ 32 * u.lost
  | _ => 0

/-- The LBIST registers of a unit (R413). -/
def State.lbReg (s : State) (r u o : Nat) : Nat :=
  let l := SMap.get Lb.reset s.lbist (19 * r + u)
  match o with
  | 0x00 => l.status + 8 * bit l.done + 16 * l.cause
  | 0x08 => l.pat + 2 ^ 32 * (if u < 18 then 65536 else 16384)
  | 0x10 => l.sig.toNat
  | 0x18 => (SMap.get 0 s.fuses.lbistExp (19 * r + u)).toNat
  | _ => 0

/-- SLC_WAYRET (R149, R150). -/
def State.slcWayret (s : State) (b : Nat) : Nat :=
  let ws := s.retiredWays 3 b 0
  (List.range 12).foldl (fun a w => a + bit (ws.contains w) * 2 ^ w) 0 + 4096 * min 3 ws.length
    + 16384 * bit (s.mram.slcfull.contains (18 * (b / 16) + s.physOf b))

/-- A register of a region's space (R26). -/
def State.regionReg (s : State) (r off : Nat) : Nat :=
  let u := off / 2 ^ 24
  let o := off % 2 ^ 24
  if u < 16 then (if o = 0x800000 ∧ s.blockPresent (16 * r + u) = true then s.slcWayret (16 * r + u) else 0)
  else
    match u with
    | 0x10 => if o < 3072 then (s.routeEntry false (384 * r + o / 8)).toNat else 0
    | 0x11 => (s.log r).reg 256 o
    | 0x12 => s.mcReg (2 * r) o
    | 0x13 => s.mcReg (2 * r + 1) o
    | 0x14 => (s.iotu r).reg o
    | 0x15 =>
      if 0x100000 ≤ o ∧ o < 0x100000 + 19 * 0x40 then s.lbReg r ((o - 0x100000) / 0x40) (o % 0x40) else 0
    | _ => 0

/-- The Noon root's registers (R185, R196). -/
def State.noonReg (s : State) (o : Nat) : Nat :=
  if o < 0x200 then (s.quota (o / 8)).toNat
  else
    match o with
    | 0x200 => s.noon.tick
    | 0x208 => s.noon.twWall
    | 0x210 => s.noon.strcnt
    | 0x218 => s.noon.strq
    | 0x220 => s.noon.strlast.toNat
    | _ => 0

/-- PWR_DOM (R365). -/
def State.pwrReg (s : State) (i : Nat) : Nat :=
  if 416 < i then 0
  else
    let d := s.dom i
    d.st + 4 * bit d.held + 16 * bit (!s.domPresent i) + 256 * d.wake

/-- The key engine and the shootdown registers as they read (R252, R294). -/
def Keys.reg (k : Keys) (o : Nat) : Nat :=
  if o = 0x40 then k.sel + 4 * k.td + 256 * k.op else if o = 0x48 then bit k.busy + 2 * bit k.err else 0

def Sd.reg (d : Sd) (o : Nat) : Nat :=
  if o = 0 then d.va.toNat
  else if o = 8 then d.scope + 4 * d.regime + 16 * d.td + 1024 * bit d.io + 4096 * bit d.busy + 8192 * bit d.atsto
  else 0

/-- The host mailbox (R401). -/
def Slate.reg (x : Slate) (o : Nat) : Nat :=
  if o = 0 then 2 * bit x.nen
  else if o = 8 then 2 * bit x.hdone
  else if 0x1000 ≤ o ∧ o < 0x2008 then leNat (x.hreq.read (o - 0x1000) 8)
  else if 0x3000 ≤ o ∧ o < 0x4008 then leNat ((x.hrsp.drop (o - 0x3000)).take 8)
  else 0

/-- A register of the chip register space (R431). -/
def State.chipReg (s : State) (off : Nat) : Nat :=
  let o := off % 2 ^ 24
  match off / 2 ^ 24 with
  | 0x01 =>
    if o < 8192 then (s.routeEntry false (3072 + o / 8)).toNat
    else if 0x100000 ≤ o ∧ o < 0x140000 then (s.routeEntry true ((o - 0x100000) / 8)).toNat
    else 0
  | 0x03 => if o < 512 then SMap.get 0xFFF s.waymask (o / 8) else 0
  | 0x04 => if o < 512 then (SMap.get 0 s.ambmp (o / 8)).toNat else 0
  | 0x05 => s.noonReg o
  | 0x06 => s.chipLog.reg 1024 o
  | 0x07 => s.keys.reg o
  | 0x08 => s.sd.reg o
  | 0x09 => s.pwrReg (o / 8)
  | 0x0A => if o = 0 then s.boot.stat else if o = 8 then 4 * bit s.boot.lockW else 0
  | 0x0B => s.slate.reg o
  | _ => 0

/-- Bytes read from the register spaces. -/
def State.spaceBytes (s : State) (pa n : Nat) : List Byte :=
  (List.range n).map (fun j =>
    let a := pa + j
    let w := if inRegion a then s.regionReg ((a - 0xA000000000000) / 2 ^ 32) (a % 2 ^ 32 / 8 * 8) else s.chipReg ((a - 0xA000800000000) / 8 * 8)
    BitVec.ofNat 8 (bits w (8 * (a % 8)) 8))

/-- Bytes read from BAR0 of a function (R308, R342). -/
def State.bar0Bytes (s : State) (r off n : Nat) : List Byte :=
  (List.range n).map (fun j => BitVec.ofNat 8 (fld (s.bar0Read r ((off + j) / 8 * 8)) (8 * ((off + j) % 8)) 8))

/-! ### Writes: the covered bytes of one register (R10, R27) -/

/-- LOG_HTAIL and LOG_CTL (R232). -/
def State.logRegWrite (s : State) (l o : Nat) (v : W64) (m : Nat) : State :=
  let g := s.log l
  if o = 8 then s.modLog l (fun g => g.htailWrite (logSize l) (fld (mergeW (BitVec.ofNat 64 g.htail) v m) 0 11))
  else if o = 24 ∧ m.testBit 0 = true then
    s.modLog l (fun _ => { g with nany := v.getLsbD 0, nsev := v.getLsbD 1, nfull := v.getLsbD 2, fldgate := v.getLsbD 3 })
  else s

/-- IOT_CTL, IOT_EQB, IOT_EQP.TAIL, IOT_PRGR (R301). -/
def State.iotRegWrite (s : State) (r o : Nat) (v : W64) (m : Nat) : State :=
  let u := s.iotu r
  match o with
  | 0x00 =>
    let w := mergeW u.ctl v m
    s.modIotu r (fun u => { u with ctl := BitVec.ofNat 64 (fld w 0 1 + 2 ^ 21 * fld w 21 31) })
  | 0x08 => s.eqbWrite r (mergeW u.eqb v m)
  | 0x10 =>
    let t := fld (mergeW (BitVec.ofNat 64 (65536 * u.tail)) v m) 16 12
    if t < u.size ∧ (m.testBit 2 || m.testBit 3) = true then s.modIotu r (fun u => { u with tail := t }) else s
  | 0x18 => s.prgrWrite r (mergeW 0 v m)
  | _ => s

/-- A write of a register of a region's space (R26). -/
def State.regionWrite (s : State) (r off : Nat) (v : W64) (m : Nat) : State :=
  let u := off / 2 ^ 24
  let o := off % 2 ^ 24
  match u with
  | 0x10 => if o < 3072 then s.writeRoute false (384 * r + o / 8) (mergeW (s.routeEntry false (384 * r + o / 8)) v m) else s
  | 0x11 => s.logRegWrite r o v m
  | 0x12 => if o = 0x10 ∧ v.getLsbD 0 = true ∧ s.chanPresent (2 * r) = true then s.startRetrain (2 * r) else s
  | 0x13 => if o = 0x10 ∧ v.getLsbD 0 = true ∧ s.chanPresent (2 * r + 1) = true then s.startRetrain (2 * r + 1) else s
  | 0x14 => s.iotRegWrite r o v m
  | _ => s

/-- NOON_QUOTA: an ENT above 64 leaves the field (R185). -/
def State.quotaWrite (s : State) (d : Nat) (w : W64) : State :=
  let ent := if 64 < fld w 0 7 then s.quotaEnt d else fld w 0 7
  s.modNoon (fun n => { n with quota := SMap.set n.quota d (BitVec.ofNat 64 (ent + 128 * fld w 7 13)) })

/-- KEY_DATA, KEY_CMD, KEY_STAT (R252). -/
def State.keyWrite (s : State) (o : Nat) (v : W64) (m : Nat) : State :=
  let k := s.keys
  if o < 0x40 then { s with keys := { k with data := SMap.set k.data (o / 8) (mergeW (SMap.get 0 k.data (o / 8)) v m) } }
  else if o = 0x40 then
    let w := mergeW (BitVec.ofNat 64 (k.reg 0x40)) v m
    let s : State := { s with keys := { k with sel := fld w 0 2, td := fld w 2 6, op := fld w 8 2 } }
    if v.getLsbD 10 then s.keyCommand (fld w 8 2) else s
  else if o = 0x48 ∧ v.getLsbD 1 = true then { s with keys := { k with err := false } }
  else s

/-- TLB_SD_VA, TLB_SD_CMD (R294): GO acts on the fields as written. -/
def State.sdWrite (s : State) (o : Nat) (v : W64) (m : Nat) : State :=
  let d := s.sd
  if o = 0 then { s with sd := { d with va := BitVec.ofNat 64 (4096 * fld (mergeW d.va v m) 12 52) } }
  else if o = 8 then
    let w := mergeW (BitVec.ofNat 64 (d.reg 8)) v m
    let scope := if fld w 0 2 = 3 then d.scope else fld w 0 2
    let s : State := { s with sd := { d with
      scope, regime := fld w 2 2, td := fld w 4 6, io := w.getLsbD 10, atsto := d.atsto && !v.getLsbD 13 } }
    if v.getLsbD 11 then s.sdGo else s
  else s

/-- The host mailbox: SL_HCTL, SL_HSTAT, SL_HREQ (R401). -/
def State.mailboxWrite (s : State) (td o : Nat) (v : W64) (m : Nat) : State :=
  if o = 0 then
    if m.testBit 0 then
      let s := s.modSlate (fun x => { x with nen := v.getLsbD 1 })
      if v.getLsbD 0 && s.portUp 2 then s.hostMessage td s.hostBuffer else s
    else s
  else if o = 8 then (if v.getLsbD 1 then s.modSlate (fun x => { x with hdone := false }) else s)
  else if 0x1000 ≤ o ∧ o < 0x2008 then
    (List.range 8).foldl (fun s j =>
      if m.testBit j then s.modSlate (fun x => { x with hreq := x.hreq.put (o - 0x1000 + j) (v.extractLsb' (8 * j) 8) }) else s) s
  else s

/-- BOOT_CTL (R373, R374). -/
def State.bootWrite (s : State) (v : W64) : State :=
  let s := if v.getLsbD 0 then s.handover else s
  let s := if v.getLsbD 1 then s.releasePhase else s
  if v.getLsbD 2 then s.bootLock else s

/-- A write of a register of the chip register space, by a requester of domain `td` (R431). -/
def State.chipWrite (s : State) (td off : Nat) (v : W64) (m : Nat) : State :=
  let o := off % 2 ^ 24
  match off / 2 ^ 24 with
  | 0x01 =>
    if o < 8192 then s.writeRoute false (3072 + o / 8) (mergeW (s.routeEntry false (3072 + o / 8)) v m)
    else if 0x100000 ≤ o ∧ o < 0x140000 then
      s.writeRoute true ((o - 0x100000) / 8) (mergeW (s.routeEntry true ((o - 0x100000) / 8)) v m)
    else s
  | 0x03 =>
    if o < 512 then
      { s with waymask := SMap.set s.waymask (o / 8) (fld (mergeW (BitVec.ofNat 64 (SMap.get 0xFFF s.waymask (o / 8))) v m) 0 12) }
    else s
  | 0x04 =>
    if o < 512 then
      let w := mergeW (SMap.get 0 s.ambmp (o / 8)) v m
      { s with ambmp := SMap.set s.ambmp (o / 8) (BitVec.ofNat 64 (fld w 0 1 + 64 * fld w 6 58)) }
    else s
  | 0x05 => if o < 0x200 then s.quotaWrite (o / 8) (mergeW (s.quota (o / 8)) v m) else s
  | 0x06 => s.logRegWrite 8 o v m
  | 0x07 => s.keyWrite o v m
  | 0x08 => s.sdWrite o v m
  | 0x09 => if v.getLsbD 3 && s.domPresent (o / 8) then s.releasePads (o / 8) else s
  | 0x0A => if o = 8 then s.bootWrite v else s
  | 0x0B => s.mailboxWrite td o v m
  | _ => s

/-- Bytes written to the register spaces; the message window takes messages (R51). -/
def State.spaceWrite (s : State) (td pa : Nat) (bs : List Byte) : State :=
  if inMsgWindow pa then s.message td 0xFFFF (pa % 2 ^ 24) bs
  else if inRegion pa then
    (regParts (pa % 2 ^ 32) bs).foldl (fun s e => s.regionWrite ((pa - 0xA000000000000) / 2 ^ 32) e.1 e.2.1 e.2.2) s
  else (regParts (pa - 0xA000800000000) bs).foldl (fun s e => s.chipWrite td e.1 e.2.1 e.2.2) s

/-! ### Accesses of a core -/

/-- What a device access of a core comes to: an ACCESS_FAULT with its SUB, or as for a link. -/
inductive DevAcc where
  | fault (sub : Nat)
  | link (l : LinkAcc)
  deriving DecidableEq, Repr

/-- A device-space load of `q.size` bytes (R27, R28, R29, R342, R344). -/
def State.devRead (s : State) (q : PReq) (pa : Nat) : DevAcc :=
  if inPcie pa then .link (s.linkRead q pa)
  else if inEcam pa then
    if (ecamBdf pa).1 = 0 then .link (.done s (s.bus0Read pa q.size)) else .link (s.linkRead q pa)
  else if inEndpoint pa then
    match s.bar0Of pa with
    | none => .fault 2
    | some r =>
      let off := pa - (s.fn r).bar0.toNat
      if 0x400000 ≤ off ∧ off < 0x440000 then
        .fault 2
      else if !s.fnOn r then .fault 2
      else .link (.done s (s.bar0Bytes r off q.size))
  else if inMsgWindow pa then .link (.done s (List.replicate q.size 0))
  else .link (.done s (s.spaceBytes pa q.size))

/-- A device-space store (R27, R28, R29, R321, R342, R344). -/
def State.devWrite (s : State) (q : PReq) (pa : Nat) (bs : List Byte) : DevAcc :=
  if inPcie pa then .link (s.linkWrite q pa bs)
  else if inEcam pa then
    if (ecamBdf pa).1 = 0 then .link (.done (s.bus0Write pa bs) []) else .link (s.linkWrite q pa bs)
  else if inEndpoint pa then
    match s.endpointWrite q.td pa bs [] with
    | (true, _) => .fault 2
    | (false, s) => .link (.done s [])
  else .link (.done (s.spaceWrite q.td pa bs) [])

/-- A request of a core. -/
def coreReq (c td pa n : Nat) (rd : PDest) (met : Nat) : PReq :=
  { PReq.reset with who := c, td, pa, size := n, rd, met }

/-! ### Meanings -/

/-- REGISTER_WRITE: a write to a register, of the register spaces, of BAR0 of a function or of the configuration space of
bus 0 (R10, R11, R27). -/
def execRegisterWrite (td pa : Nat) (bytes : List (BitVec 8)) (s : State) : Host.Outcome State Fault Refusal :=
  .next (s.orWait (
    if !s.up || bytes.isEmpty || decide (8 < bytes.length) then s
    else if inRegion pa || inChip pa then s.spaceWrite td pa bytes
    else if inEcam pa && decide ((ecamBdf pa).1 = 0) then s.bus0Write pa bytes
    else if inEndpoint pa then (s.endpointWrite td pa bytes []).2
    else s))

end Sys2Proof.Machine
end

