-- ==== Sys2Proof/Machine/Operands.lean ====
section
/-! DEFINITION. The data accesses of a core: their division at line boundaries, the metered windows, the checks that come
before any effect, the store queue, and the reading and writing of ordinary memory, tick-ordered pages and device
space (R27, R28, R71 to R73, R87, R101, R116 to R119, R200 to R203, R283 to R291). -/

namespace Sys2Proof.Machine

/-! ### Halves and their checks (R43, R71, R72) -/

/-- What an access may do in device space: access it, nothing (ACCESS_FAULT), or pass it by without an effect (R27, R69,
R82, R91, R183). -/
inductive DevUse where
  | allow | refuse | ignore
  deriving DecidableEq, Repr

/-- A part of an access within one line that has translated and passed its checks. -/
structure Half where
  va : Nat
  n : Nat
  acc : CoreAcc
  /-- the translation whose leaves take A and D; none in a metered window -/
  x : Option Xlat
  deriving DecidableEq, Repr

/-- The parts of an access at line boundaries; addresses wrap modulo 2^64 (R62, R71). -/
def vaPieces (va n : Nat) : List (Nat × Nat) :=
  (linePieces (n / 64 + 2) va n).map (fun p => (p.1 % 2 ^ 64, p.2))

/-- ATOMIC_ALIGN (R34, R41). -/
def alignExc (va : Nat) : Exc := { mkExc 7 with addr := BitVec.ofNat 64 va }

/-- A device answers an access with an ACCESS_FAULT (R28): its SUB, 0 for none. -/
def State.devRefusal (s : State) (c : Nat) (wr : Bool) (pa n : Nat) : Nat :=
  let q := coreReq c (s.core c).td pa n .none 0
  match (if wr then s.devWrite q pa (List.replicate n 0) else s.devRead q pa) with
  | .fault sub => sub
  | .link _ => 0

/-- A store or an exclusive to a line outside a TO page that stage 1 or stage 2 marks TO is refused (R69, R288). -/
def toRefusal (a : Acc) (x : Xlat) (va : W64) : Option Exc :=
  if !a.atomic then none
  else if x.to1 then some (excOf (xf 4 x.lvl1 0) { a with kind := 1 } va)
  else if x.to2 then some (excOf { xf 4 x.lvl2 1 with gpa := x.gpa } { a with kind := 1 } va)
  else none

/-- The lower-numbered of two events (R43). -/
def firstExc (a b : Option Exc) : Option Exc :=
  match a, b with
  | some e, some f => if f.num < e.num then some f else some e
  | none, b => b
  | a, none => a

/-- The refusals of a translated address: a TO page (R69), device space through another memory type or for an access
that may not use it (R27, R69, R82, R183), a reserved address (R28). -/
def State.refusal (s : State) (c : Nat) (a : Acc) (use : DevUse) (va n : Nat) (x : Xlat) : Option Exc :=
  let va64 := BitVec.ofNat 64 va
  let sub :=
    if inDevice x.pa then
      match use with
      | .ignore => 0
      | .refuse => 1
      | .allow => if a.atomic || !x.dev then 1 else s.devRefusal c a.w x.pa n
    else s.paFault x.pa
  firstExc (toRefusal a x va64) (if sub = 0 then none else some (accessFault sub va64))

/-- The translation and the checks of one half: the data window of a metered core first (R116, R118), then the regime of
the core (R283). Nothing takes effect but a break and what a table read does (R119, R290). -/
def State.checkHalf (s : State) (c : Nat) (a : Acc) (use : DevUse) (va n : Nat) : Except Exc Half × State :=
  let k := s.core c
  let va64 := BitVec.ofNat 64 va
  match k.dataWindow va with
  | some pa =>
    if a.w && !k.mdpa.getLsbD 4 then (.error (excOf (xf 2 0 0) { a with kind := 1 } va64), s)
    else if inDevice pa && decide (use ≠ .ignore) then (.error (accessFault 1 va64), s)
    else if s.paFault pa ≠ 0 then (.error (accessFault (s.paFault pa) va64), s)
    else (.ok { va, n, acc := { pa, ks := 0, dev := false, tord := false, win := true }, x := none }, s)
  | none =>
    let s := s.modCore c (fun k => k.brk 1 k.pc)
    if k.guest && decide (k.lvl.num ≤ 1) && !k.hgatp.getLsbD 0 then
      (.error (excOf { xf 7 0 1 with gpa := va % 2 ^ 48 } a va64), s)
    else
      match s.lookup (some c) 0 (k.regime false) a va with
      | (.error f, s) =>
        (.error (excOf f a va64), match f.poison with | some pa => s.poisonRecord c k.td pa | none => s)
      | (.ok x, s) =>
        match s.refusal c a use va n x with
        | some e => (.error e, s)
        | none =>
          (.ok { va, n, x := some x, acc :=
            { pa := x.pa, ks := x.ks, dev := inDevice x.pa, win := false
              tord := inDram x.pa && s.boot.handed && (x.to1 || x.to2) } }, s)

/-- The halves of an access, all translated and checked before any takes effect; of two that fail, the lower one's event
is taken (R72). -/
def State.checkPieces (s : State) (c : Nat) (a : Acc) (use : DevUse) :
    List (Nat × Nat) → Except Exc (List Half) × State
  | [] => (.ok [], s)
  | p :: t =>
    match s.checkHalf c a use p.1 p.2 with
    | (.error e, s) => (.error e, s)
    | (.ok h, s) =>
      match s.checkPieces c a use t with
      | (.error e, s) => (.error e, s)
      | (.ok l, s) => (.ok (h :: l), s)

/-- The event of a failed check. -/
def excOfCheck {α : Type} : Except Exc α → Option Exc
  | .error e => some e
  | .ok _ => none

/-- The check of an access of `n` bytes; one that must be aligned to `al` raises ATOMIC_ALIGN unless an event of lower
number is raised (R43, R68, R69). -/
def State.checkAccess (s : State) (c : Nat) (a : Acc) (use : DevUse) (va n al : Nat) : Except Exc (List Half) × State :=
  let (r, s) := s.checkPieces c a use (vaPieces va n)
  if va % al = 0 then (r, s)
  else
    match firstExc (some (alignExc va)) (excOfCheck r) with
    | some e => (.error e, s)
    | none => (r, s)

/-- The leaves that the halves used take A and D, and the translations enter the TLB (R290, R292). -/
def State.commitHalves (s : State) (c : Nat) (a : Acc) (hs : List Half) : State :=
  let g := (s.core c).regime false
  hs.foldl (fun s h => match h.x with | some x => s.commitXlat (some c) 0 g a h.va x | none => s) s

/-! ### The store queue (R87, R101, R151, R201) -/

/-- Cacheable DRAM: homed by R126, not SLC-as-RAM (R127, R128). -/
def State.homed (s : State) (pa : Nat) : Bool := inDram pa && s.boot.handed

/-- An access to a line would allocate it during a disabling walk and stalls (R151). -/
def State.walkStalls (s : State) (c la : Nat) : Bool :=
  let k := s.core c
  k.l2en && decide (k.walk = some .disable) && (k.copy la).isNone && !s.linePending la

/-- The line lies in the data window, or in the code window (R116). -/
def Core.ownWindow (k : Core) (data : Bool) (la : Nat) : Bool :=
  let base := if data then fld k.mdpa 16 36 * 1024 else fld k.mcpa 14 38 * 256
  let n := if data then 1024 * fld k.mdpa 0 4 else 256 * fld k.mcpa 0 2
  decide (base ≤ la) && decide (la < base + n)

/-- A lost line of the data window is fetched and locked again on its next use, and that use is a break (R118). -/
def State.relock (s : State) (c la : Nat) : State :=
  let k := s.core c
  if k.lost.contains la && k.ownWindow true la && k.meter then
    (s.modCore c (fun k => k.brk 3 k.pc)).lockData c la
  else s

/-- A demand access that misses the L1D trains the stream detector (R134). -/
def State.trainMiss (s : State) (c la td ks : Nat) (store : Bool) : State :=
  let k := s.core c
  if k.l2en && !(k.l1d.any (fun l => l.la == la)) then s.setCore c (k.trainStream la td ks store) else s

/-- The store queue gives up its oldest store: false where it cannot yet, which a full publish budget makes a break of
cause 7 (R101, R119, R151, R201). -/
def State.drainOne (s : State) (c : Nat) : Bool × State :=
  match (s.core c).sq with
  | [] => (true, s)
  | e :: rest =>
    match e.tord with
    | none =>
      if s.homed e.pa && s.walkStalls c (e.pa / 64) then (false, s)
      else
        let s := s.setCore c { s.core c with sq := rest }
        (true, (if s.homed e.pa then s.relock c (e.pa / 64) else s).writeStore c e)
    | some key =>
      let es := (s.core c).toGroup
      match s.publish c key es with
      | none => (false, s.modCore c (fun k => k.brk 7 k.pc))
      | some s => (true, s.modCore c (fun k => { k with sq := k.sq.drop es.length }))

/-- The store queue gives up stores, oldest first, while it holds one that `p` selects; `n` bounds their number. -/
def State.drainWhile (s : State) (c : Nat) (p : SqEntry → Bool) : Nat → Bool × State
  | 0 => (true, s)
  | n + 1 =>
    if !(s.core c).sq.any p then (true, s)
    else
      match s.drainOne c with
      | (false, s) => (false, s)
      | (true, s) => s.drainWhile c p n

/-- The store queue empties: false where a TO store waits for the budget of the tick. -/
def State.drainAll (s : State) (c : Nat) : Bool × State := s.drainWhile c (fun _ => true) (s.core c).sq.length

/-- Two byte ranges overlap. -/
def overlaps (a n b m : Nat) : Bool := decide (a < b + m) && decide (b < a + n)

/-! ### Reading -/

/-- What an access comes to: its bytes, an event, or a wait (log 2). -/
inductive Got where
  | ok (bs : List Byte) (s : State)
  | exc (s : State) (e : Exc)
  | stay (s : State)
  deriving DecidableEq, Repr

/-- POISON_USE for data that a core consumes (R41, R229, R267). -/
def State.usePoison (s : State) (c td pa prog : Nat) : Got := .exc (s.poisonProg c td pa prog) (mkExc 17)

/-- A half of ordinary memory, without the store queue: its line through the core's arrays or, on a TO page, as R203
says; a wait where the access stalls. -/
def State.readLine (s : State) (c td : Nat) (h : Half) : Option (List Byte × Bool) × State :=
  let pa := h.acc.pa
  let la := pa / 64
  if !s.homed pa then
    let (r, s) := s.readPa pa h.n td h.acc.ks
    (some r, s)
  else if h.acc.tord then
    if s.ownUnacked c pa h.n then (none, s)
    else if s.ownPublished c la then
      let ((d, p), s) := s.crd la td h.acc.ks
      (some (lineBytes (s.ownStaged c la d) (pa % 64) h.n, p), s)
    else if s.walkStalls c la then (none, s)
    else
      let ((d, p), s) := s.loadLine c la td h.acc.ks true
      (some (lineBytes d (pa % 64) h.n, p), s)
  else if s.walkStalls c la then (none, s)
  else
    let s := if h.acc.win then s.relock c la else s.trainMiss c la td h.acc.ks false
    let ((d, p), s) := s.loadLine c la td h.acc.ks false
    (some (lineBytes d (pa % 64) h.n, p), s)

/-- A half of a load of ordinary memory: forwarded whole from the youngest queued store that overlaps it, or read once
every queued store that overlaps it has been written (R101). -/
def State.readHalf (s : State) (c td prog : Nat) (h : Half) : Got :=
  let pa := h.acc.pa
  let ov (e : SqEntry) : Bool := overlaps e.pa e.bytes.length pa h.n
  let fetch (s : State) : Got :=
    match s.readLine c td h with
    | (none, s) => .stay s
    | (some (bs, p), s) => if p then s.usePoison c td pa prog else .ok bs s
  match (s.core c).sq.reverse.find? ov with
  | none => fetch s
  | some e =>
    if e.pa ≤ pa ∧ pa + h.n ≤ e.pa + e.bytes.length then .ok ((e.bytes.drop (pa - e.pa)).take h.n) s
    else
      match s.drainWhile c ov (s.core c).sq.length with
      | (false, s) => .stay s
      | (true, s) => fetch s

/-- The bytes of halves in order. `skip` bytes of them were read before the instruction waited for a device; `last` names
the register that the completion of the last half writes, where nothing follows it (R73, log 2). -/
def gather (c td met prog : Nat) (last : Option PDest) : List Half → Nat → List Byte → State → Got
  | [], _, acc, s => .ok acc s
  | h :: t, skip, acc, s =>
    if h.n ≤ skip then gather c td met prog last t (skip - h.n) acc s
    else if h.acc.dev then
      let s := if acc.isEmpty then s else s.modCore c (fun k => { k with half := some acc })
      let direct := t.isEmpty && last.isSome
      match s.devRead { coreReq c td h.acc.pa h.n (last.getD .none) met with more := !direct } h.acc.pa with
      | .fault sub => .exc s (accessFault sub (BitVec.ofNat 64 h.va))
      | .link (.wait s) => .stay s
      | .link (.done s bs) => gather c td met prog last t 0 (acc ++ bs) s
      | .link (.sent s) => .stay s
    else
      match s.readHalf c td prog h with
      | .ok bs s => gather c td met prog last t 0 (acc ++ bs) s
      | .exc s e => .exc s e
      | .stay s => .stay s

/-- The bytes of checked halves of a load; leaves take A first (R290). -/
def State.loadHalves (s : State) (c met prog : Nat) (a : Acc) (last : Option PDest) (hs : List Half) : Got :=
  let s := s.commitHalves c a hs
  let got := (s.core c).half.getD []
  gather c (s.core c).td met prog last hs got.length got s

/-- A load: checked, read, and its bytes given to `dst` (R62, R68). -/
def State.loadTo (s : State) (c met : Nat) (a : Acc) (use : DevUse) (va n al : Nat) (dst : PDest) : Done :=
  match s.checkAccess c a use va n al with
  | (.error e, s) => .exc s e
  | (.ok hs, s) =>
    match s.loadHalves c met 0 a (some dst) hs with
    | .ok bs s => .ok (s.modCore c (fun k => k.putDest dst bs))
    | .exc s e => .exc s e
    | .stay s => .stay s

/-! ### Writing -/

/-- A store of ordinary memory enters the store queue at its retirement and is checked against fetched instructions
(R87, R101). -/
def State.pushStore (s : State) (c td : Nat) (h : Half) (bs : List Byte) (zero : Bool) (key : Option NKey) : State :=
  let s := s.modCore c (fun k => { k with sq := k.sq ++ [{ pa := h.acc.pa, bytes := bs, td, ks := h.acc.ks, zero, tord := key,
                                                           pc := k.pc + 4, old := false }] })
  let s := if h.acc.win then s.relock c (h.acc.pa / 64)
    else if s.homed h.acc.pa && key.isNone then s.trainMiss c (h.acc.pa / 64) td h.acc.ks true else s
  s.flushFetch c h.acc.pa

/-- The key of the TO parts of a store: one per instruction (R180). -/
def State.toKey (s : State) (c : Nat) (tord : Bool) (key : Option NKey) : Option NKey × State :=
  if !tord then (none, s)
  else
    match key with
    | some k => (some k, s)
    | none =>
      let (k, s) := s.noonKey c (s.core c).toslot
      (some k, s)

/-- The halves of a store take effect in order; `skip` bytes did before the instruction waited for a device, and `past` is
what the instruction keeps if it waits again. `fin` says that it ends with its last half (R72, R73, log 2). -/
def scatter (c td met : Nat) (zero fin : Bool) : List Half → Nat → List Byte → List Byte → Option NKey → State → Got
  | [], _, _, _, _, s => .ok [] s
  | h :: t, skip, past, bs, key, s =>
    let now := bs.take h.n
    if h.n ≤ skip then scatter c td met zero fin t (skip - h.n) (past ++ now) (bs.drop h.n) key s
    else if h.acc.dev then
      let s := if past.isEmpty then s else s.modCore c (fun k => { k with half := some past })
      match s.devWrite { coreReq c td h.acc.pa h.n .none met with more := !(t.isEmpty && fin) } h.acc.pa now with
      | .fault sub => .exc s (accessFault sub (BitVec.ofNat 64 h.va))
      | .link (.wait s) => .stay s
      | .link (.done s _) => scatter c td met zero fin t 0 (past ++ now) (bs.drop h.n) key s
      | .link (.sent s) => .stay s
    else
      let (k, s) := s.toKey c h.acc.tord key
      scatter c td met zero fin t 0 (past ++ now) (bs.drop h.n) (if h.acc.tord then k else key) (s.pushStore c td h now zero k)

/-- The checked halves of a store are performed: a TO part waits while the agent of the block has reported (R434), and the
queue of 96 entries makes room (R97). `past` is what the instruction has read, `key` the key that it has already. -/
def State.storeHalves (s : State) (c met : Nat) (a : Acc) (zero fin : Bool) (past : List Byte) (key : Option NKey)
    (hs : List Half) (bs : List Byte) : Got :=
  if hs.any (fun h => h.acc.tord) && s.noonHeld c then .stay (s.modCore c (fun k => k.brk 7 k.pc))
  else
    let excess := (s.core c).sq.length + hs.length - 96
    match (if excess = 0 then (true, s) else s.drainWhile c (fun _ => true) excess) with
    | (false, s) => .stay s
    | (true, s) =>
      let s := s.commitHalves c a hs
      scatter c (s.core c).td met zero fin hs (((s.core c).half.getD []).length - past.length) past bs key s

/-- A store of `bs` (R62, R68). -/
def State.storeFrom (s : State) (c met : Nat) (a : Acc) (use : DevUse) (va al : Nat) (zero : Bool) (bs : List Byte) : Done :=
  match s.checkAccess c a use va bs.length al with
  | (.error e, s) => .exc s e
  | (.ok hs, s) =>
    match s.storeHalves c met a zero true [] none hs bs with
    | .ok _ s => .ok s
    | .exc s e => .exc s e
    | .stay s => .stay s

/-- The effective address of format RI (R57, R68). -/
def effAddr (base : W64) (imm : BitVec 16) : Nat := (base + imm.signExtend 64).toNat

end Sys2Proof.Machine
end

