-- ==== Sys2Proof/Machine/LoadStore.lean ====
section
/-! DEFINITION. Loads and stores of format RI (R68). -/

namespace Sys2Proof.Machine

/-- A load of `n` bytes to a G register; `al` is the alignment it requires (R68). -/
def State.loadG (s : State) (c : Nat) (rd ra : Reg) (imm : BitVec 16) (n al : Nat) (sgn : Bool) : State :=
  s.issue c 14 false [.g ra] [.g rd] (fun s =>
    s.loadTo c 14 accLoad .allow (effAddr (s.core c).g[ra] imm) n al (.g rd n sgn))

/-- A store of the low `n` bytes of a G register (R68). -/
def State.storeG (s : State) (c : Nat) (rd ra : Reg) (imm : BitVec 16) (n al : Nat) : State :=
  s.issue c 2 false [.g ra, .g rd] [] (fun s =>
    s.storeFrom c 2 accStore .allow (effAddr (s.core c).g[ra] imm) al false (natLe n (s.core c).g[rd].toNat))

/-- LDB (R68). -/
def execLdb (c : Nat) (rd ra : Reg) (imm : BitVec 16) (s : State) : Host.Outcome State Fault Refusal :=
  .next (s.loadG c rd ra imm 1 1 true)

/-- LDBU (R68). -/
def execLdbu (c : Nat) (rd ra : Reg) (imm : BitVec 16) (s : State) : Host.Outcome State Fault Refusal :=
  .next (s.loadG c rd ra imm 1 1 false)

/-- LDH (R68). -/
def execLdh (c : Nat) (rd ra : Reg) (imm : BitVec 16) (s : State) : Host.Outcome State Fault Refusal :=
  .next (s.loadG c rd ra imm 2 1 true)

/-- LDHU (R68). -/
def execLdhu (c : Nat) (rd ra : Reg) (imm : BitVec 16) (s : State) : Host.Outcome State Fault Refusal :=
  .next (s.loadG c rd ra imm 2 1 false)

/-- LDW (R68). -/
def execLdw (c : Nat) (rd ra : Reg) (imm : BitVec 16) (s : State) : Host.Outcome State Fault Refusal :=
  .next (s.loadG c rd ra imm 4 1 true)

/-- LDWU (R68). -/
def execLdwu (c : Nat) (rd ra : Reg) (imm : BitVec 16) (s : State) : Host.Outcome State Fault Refusal :=
  .next (s.loadG c rd ra imm 4 1 false)

/-- LDD (R68). -/
def execLdd (c : Nat) (rd ra : Reg) (imm : BitVec 16) (s : State) : Host.Outcome State Fault Refusal :=
  .next (s.loadG c rd ra imm 8 1 false)

/-- LDP: the register pair G[rd], G[rd+1]; an odd rd raises ILLEGAL (R68). -/
def execLdp (c : Nat) (rd ra : Reg) (imm : BitVec 16) (s : State) : Host.Outcome State Fault Refusal :=
  .next (s.issue c 14 false [.g ra] [.g rd, .g (rd + 1)] (fun s =>
    if rd.val % 2 = 1 then .exc s illegal
    else s.loadTo c 14 accLoad .allow (effAddr (s.core c).g[ra] imm) 16 1 (.pair rd (rd + 1))))

/-- LDA: load-acquire of an aligned doubleword; accesses being performed in program order, the ordering adds nothing
(R56, R68, log 9). -/
def execLda (c : Nat) (rd ra : Reg) (imm : BitVec 16) (s : State) : Host.Outcome State Fault Refusal :=
  .next (s.loadG c rd ra imm 8 8 false)

/-- STB (R68). -/
def execStb (c : Nat) (rd ra : Reg) (imm : BitVec 16) (s : State) : Host.Outcome State Fault Refusal :=
  .next (s.storeG c rd ra imm 1 1)

/-- STH (R68). -/
def execSth (c : Nat) (rd ra : Reg) (imm : BitVec 16) (s : State) : Host.Outcome State Fault Refusal :=
  .next (s.storeG c rd ra imm 2 1)

/-- STW (R68). -/
def execStw (c : Nat) (rd ra : Reg) (imm : BitVec 16) (s : State) : Host.Outcome State Fault Refusal :=
  .next (s.storeG c rd ra imm 4 1)

/-- STD (R68). -/
def execStd (c : Nat) (rd ra : Reg) (imm : BitVec 16) (s : State) : Host.Outcome State Fault Refusal :=
  .next (s.storeG c rd ra imm 8 1)

/-- STP: the register pair G[rd], G[rd+1]; an odd rd raises ILLEGAL (R68). -/
def execStp (c : Nat) (rd ra : Reg) (imm : BitVec 16) (s : State) : Host.Outcome State Fault Refusal :=
  .next (s.issue c 2 false [.g ra, .g rd, .g (rd + 1)] [] (fun s =>
    if rd.val % 2 = 1 then .exc s illegal
    else
      let k := s.core c
      s.storeFrom c 2 accStore .allow (effAddr k.g[ra] imm) 1 false (natLe 8 k.g[rd].toNat ++ natLe 8 k.g[rd + 1].toNat)))

/-- STL: store-release of an aligned doubleword; the store queue is in program order (R56, R68, R101, log 9). -/
def execStl (c : Nat) (rd ra : Reg) (imm : BitVec 16) (s : State) : Host.Outcome State Fault Refusal :=
  .next (s.storeG c rd ra imm 8 8)

/-- VLD: V[rd] takes 32 bytes (R68). -/
def execVld (c : Nat) (rd ra : Reg) (imm : BitVec 16) (s : State) : Host.Outcome State Fault Refusal :=
  .next (s.issue c 14 false [.g ra] [.v rd] (fun s =>
    s.loadTo c 14 accLoad .allow (effAddr (s.core c).g[ra] imm) 32 1 (.v rd)))

/-- VST: 32 bytes take V[rd] (R68). -/
def execVst (c : Nat) (rd ra : Reg) (imm : BitVec 16) (s : State) : Host.Outcome State Fault Refusal :=
  .next (s.issue c 2 false [.g ra, .v rd] [] (fun s =>
    let k := s.core c
    s.storeFrom c 2 accStore .allow (effAddr k.g[ra] imm) 1 false (natLe 32 k.v[rd].toNat)))

end Sys2Proof.Machine
end

