-- ==== Sys2Proof/Machine/Atomic.lean ====
section
/-! DEFINITION. Atomic and exclusive instructions (R69, R70, R152). -/

namespace Sys2Proof.Machine

/-- The operand size: FN[7] selects 4 or 8 bytes (R69). -/
def atomSize (dw : Bool) : Nat := if dw then 8 else 4

/-- The checks of a read-modify-write: it needs R, then W; a missing R is a load's fault, the lower number (R43, R69,
R289). -/
def State.checkRmw (s : State) (c va n : Nat) : Except Exc (List Half) × State :=
  match s.checkAccess c accLdx .refuse va n n with
  | (.error e, s) => (.error e, s)
  | (.ok _, s) => s.checkAccess c accRmw .refuse va n n

/-- A write of a line by an atomic or exclusive, performed at once (R69, R152), and its check against fetched instructions
(R87). -/
def State.writeLine (s : State) (c : Nat) (h : Half) (bs : List Byte) : State :=
  let td := (s.core c).td
  let e : SqEntry := { SqEntry.reset with pa := h.acc.pa, bytes := bs, td, ks := h.acc.ks }
  (s.writeStore c e).flushFetch c h.acc.pa

/-- The line of an atomic is taken exclusive first, where the caches are enabled (R69). -/
def State.ownLine (s : State) (c : Nat) (h : Half) : State :=
  let la := h.acc.pa / 64
  if s.homed h.acc.pa && (s.core c).l2en && !s.linePending la then s.acquire c la (s.core c).td h.acc.ks true false else s

/-- A read-modify-write as one atomic step: rd takes the old value, memory `f old`, where f gives one (R69). Older stores
are written first (R100, log 10). -/
def State.atomic (s : State) (c : Nat) (dw : Bool) (rd ra : Reg) (reads : List LDest) (f : Core → Nat → Option Nat) : State :=
  s.issue c 18 false (.g ra :: reads) [.g rd] (fun s =>
    let n := atomSize dw
    match s.checkRmw c (s.core c).g[ra].toNat n with
    | (.error e, s) => .exc s e
    | (.ok hs, s) =>
      match s.drainAll c with
      | (false, s) => .stay s
      | (true, s) =>
        match hs with
        | [h] =>
          if s.homed h.acc.pa && s.walkStalls c (h.acc.pa / 64) then .stay s
          else
            let s := (s.commitHalves c accRmw hs).ownLine c h
            match s.readHalf c (s.core c).td 0 h with
            | .exc s e => .exc s e
            | .stay s => .stay s
            | .ok bs s =>
              let old := leNat bs
              let s := match f (s.core c) old with
                | some v => s.writeLine c h (natLe n v)
                | none => s
              .ok (s.modCore c (fun k => { k with g := k.g.set rd (BitVec.ofNat 64 old) }))
        | _ => .ok s)

/-- The AM operations with the operand rb (R69). -/
def State.amOp (s : State) (c : Nat) (dw : Bool) (rd ra rb : Reg) (f : Nat → Nat → Nat) : State :=
  s.atomic c dw rd ra [.g rb] (fun k old => some (f old (fld k.g[rb] 0 (8 * atomSize dw))))

/-- LDX: rd takes the value and the line is reserved while the core holds it; with its caches disabled nothing is
reserved (R69, R70, R152). -/
def execLdx (c : Nat) (aq rl dw : Bool) (rd ra : Reg) (s : State) : Host.Outcome State Fault Refusal :=
  .next (let _ := (aq, rl)
    s.issue c 14 false [.g ra] [.g rd] (fun s =>
    let n := atomSize dw
    match s.checkAccess c accLdx .refuse (s.core c).g[ra].toNat n n with
    | (.error e, s) => .exc s e
    | (.ok hs, s) =>
      match s.drainAll c with
      | (false, s) => .stay s
      | (true, s) =>
        match hs with
        | [h] =>
          match s.loadHalves c 14 0 accLdx none hs with
          | .exc s e => .exc s e
          | .stay s => .stay s
          | .ok bs s =>
            let la := h.acc.pa / 64
            let k := s.core c
            let held := k.l2en && (!s.homed h.acc.pa || (k.copy la).isSome)
            .ok (s.setCore c { k with g := k.g.set rd (BitVec.ofNat 64 (leNat bs)), resv := if held then some la else none })
        | _ => .ok s))

/-- STX: stores rb and rd ← 0 where the reservation covers the line, else rd ← 1; the reservation is cleared. A faulting
address raises its event either way (R69, R70). -/
def execStx (c : Nat) (aq rl dw : Bool) (rd ra rb : Reg) (s : State) : Host.Outcome State Fault Refusal :=
  .next (let _ := (aq, rl)
    s.issue c 16 false [.g ra, .g rb] [.g rd] (fun s =>
    let n := atomSize dw
    match s.checkAccess c accStx .refuse (s.core c).g[ra].toNat n n with
    | (.error e, s) => .exc s e
    | (.ok hs, s) =>
      match s.drainAll c with
      | (false, s) => .stay s
      | (true, s) =>
        match hs with
        | [h] =>
          let k := s.core c
          let ok := k.l2en && decide (k.resv = some (h.acc.pa / 64))
          let s := if ok then (s.commitHalves c accStx hs).writeLine c h (natLe n k.g[rb].toNat) else s
          .ok (s.modCore c (fun k => { k with resv := none, g := k.g.set rd (flag (!ok)) }))
        | _ => .ok s))

/-- SWP: rd ← mem[ra]; mem[ra] ← rb (R69). -/
def execSwp (c : Nat) (aq rl dw : Bool) (rd ra rb : Reg) (s : State) : Host.Outcome State Fault Refusal :=
  .next (let _ := (aq, rl); s.amOp c dw rd ra rb (fun _ b => b))

/-- CAS: mem[ra] ← rb where it holds the old rd; rd takes what it held (R69). -/
def execCas (c : Nat) (aq rl dw : Bool) (rd ra rb : Reg) (s : State) : Host.Outcome State Fault Refusal :=
  .next (let _ := (aq, rl)
    s.atomic c dw rd ra [.g rb, .g rd] (fun k old =>
      if old = fld k.g[rd] 0 (8 * atomSize dw) then some (fld k.g[rb] 0 (8 * atomSize dw)) else none))

/-- AMADD (R69). -/
def execAmadd (c : Nat) (aq rl dw : Bool) (rd ra rb : Reg) (s : State) : Host.Outcome State Fault Refusal :=
  .next (let _ := (aq, rl); s.amOp c dw rd ra rb (fun a b => a + b))

/-- AMAND (R69). -/
def execAmand (c : Nat) (aq rl dw : Bool) (rd ra rb : Reg) (s : State) : Host.Outcome State Fault Refusal :=
  .next (let _ := (aq, rl); s.amOp c dw rd ra rb (fun a b => a &&& b))

/-- AMOR (R69). -/
def execAmor (c : Nat) (aq rl dw : Bool) (rd ra rb : Reg) (s : State) : Host.Outcome State Fault Refusal :=
  .next (let _ := (aq, rl); s.amOp c dw rd ra rb (fun a b => a ||| b))

/-- AMXOR (R69). -/
def execAmxor (c : Nat) (aq rl dw : Bool) (rd ra rb : Reg) (s : State) : Host.Outcome State Fault Refusal :=
  .next (let _ := (aq, rl); s.amOp c dw rd ra rb (fun a b => a ^^^ b))

/-- AMMAX, signed (R69). -/
def execAmmax (c : Nat) (aq rl dw : Bool) (rd ra rb : Reg) (s : State) : Host.Outcome State Fault Refusal :=
  .next (let _ := (aq, rl)
    s.amOp c dw rd ra rb (fun a b => if sInt (8 * atomSize dw) a < sInt (8 * atomSize dw) b then b else a))

/-- AMMIN, signed (R69). -/
def execAmmin (c : Nat) (aq rl dw : Bool) (rd ra rb : Reg) (s : State) : Host.Outcome State Fault Refusal :=
  .next (let _ := (aq, rl)
    s.amOp c dw rd ra rb (fun a b => if sInt (8 * atomSize dw) b < sInt (8 * atomSize dw) a then b else a))

end Sys2Proof.Machine
end

