-- ==== Sys2Proof/Machine/String.lean ====
section
/-! DEFINITION. The string and block instructions, one step a command, and SHA3F (R74 to R77, R80, R81). -/

namespace Sys2Proof.Machine

/-- Bytes from an address up to the next line boundary, at most `n` (R74). -/
def stepLen (d n : Nat) : Nat := min n (64 - d % 64)

/-- An MCPY goes downward (R76). -/
def mcpyDown (d a n : Nat) : Bool := decide (a < d) && decide (d < a + n)

/-- The lowest address of a downward step (R76). -/
def downBase (d n : Nat) : Nat := max d ((d + n - 1) / 64 * 64)

/-- PROG of a string instruction: the bytes that are certainly done (R228). -/
def Core.strProg (k : Core) : Nat := 1 <<< 62 + k.strDone

/-- Met of `steps` further steps (R74): 6 once, 16 a step. -/
def Core.strMet (k : Core) (steps : Nat) : Nat := (if k.strDone = 0 then 6 else 0) + 16 * steps

/-- A step raises an event: the count is that of the whole range (R61, R75). -/
def strFail (c d n : Nat) (s : State) (e : Exc) : Done :=
  let met := (s.core c).strMet ((d + n - 1) / 64 - d / 64 + 1)
  .stay ((s.raise c e).cycles c met)

/-- A step has taken effect: the registers follow it, and the instruction retires after its last (R75). -/
def strStep (c len : Nat) (again : Bool) (f : Core → Core) (s : State) : Done :=
  let met := (s.core c).strMet 1
  let s := s.modCore c (fun k => { f k with half := none, strDone := k.strDone + len })
  if again then .stay (s.cycles c met) else .stay (s.retire c met false ((s.core c).pc + 4))

/-- The destination bytes of one step; its TO parts share the key of the instruction in this tick (R180, R201). -/
def State.strStore (s : State) (c : Nat) (past : List Byte) (hs : List Half) (bs : List Byte) : Got :=
  if !hs.any (fun h => h.acc.tord) then s.storeHalves c 0 accStore false false past none hs bs
  else if s.noonHeld c then .stay (s.modCore c (fun k => k.brk 7 k.pc))
  else
    let (key, s) :=
      match (s.core c).strKey with
      | some k => if k.tick = s.noon.tick then (k, s) else s.noonKey c (s.core c).toslot
      | none => s.noonKey c (s.core c).toslot
    (s.modCore c (fun k => { k with strKey := some key })).storeHalves c 0 accStore false false past (some key) hs bs

/-- The outcome of a step's stores. -/
def strAfter (c d n len : Nat) (again : Bool) (f : Core → Core) : Got → Done
  | .ok _ s => strStep c len again f s
  | .exc s e => strFail c d n s e
  | .stay s => .stay s

/-- MCPY: one step; forward, rd and ra rise and rb falls; downward, only rb falls (R74 to R76). -/
def execMcpy (c : Nat) (rd ra rb : Reg) (s : State) : Host.Outcome State Fault Refusal :=
  .next (s.issue c 6 false [.g rd, .g ra, .g rb] [] (fun s =>
    let k := s.core c
    let d := k.g[rd].toNat
    let a := k.g[ra].toNat
    let n := k.g[rb].toNat
    if n = 0 then .ok s
    else
      let down := mcpyDown d a n
      let lo := if down then downBase d n else d
      let len := if down then d + n - lo else stepLen d n
      let (rl, s) := s.checkPieces c accLoad .allow (vaPieces (a + (lo - d)) len)
      let (rs, s) := s.checkPieces c accStore .allow (vaPieces lo len)
      match rl, rs with
      | .ok hl, .ok hs =>
        match s.loadHalves c 0 (s.core c).strProg accLoad none hl with
        | .exc s e => strFail c d n s e
        | .stay s => .stay s
        | .ok got s =>
          strAfter c d n len (decide (len < n)) (fun k =>
            let up : Core := if down then k
              else { k with g := (k.g.set rd (BitVec.ofNat 64 (d + len))).set ra (BitVec.ofNat 64 (a + len)) }
            { up with g := up.g.set rb (BitVec.ofNat 64 (n - len)) }) (s.strStore c (got.take len) hs (got.take len))
      | rl, rs =>
        match firstExc (excOfCheck rl) (excOfCheck rs) with
        | some e => strFail c d n s e
        | none => .stay s))

/-- MSET: one step of ra[7:0]; ra is unchanged (R74, R75). -/
def execMset (c : Nat) (rd ra rb : Reg) (s : State) : Host.Outcome State Fault Refusal :=
  .next (s.issue c 6 false [.g rd, .g ra, .g rb] [] (fun s =>
    let k := s.core c
    let d := k.g[rd].toNat
    let n := k.g[rb].toNat
    if n = 0 then .ok s
    else
      let len := stepLen d n
      match s.checkPieces c accStore .allow (vaPieces d len) with
      | (.error e, s) => strFail c d n s e
      | (.ok hs, s) =>
        strAfter c d n len (decide (len < n)) (fun k =>
          { k with g := (k.g.set rd (BitVec.ofNat 64 (d + len))).set rb (BitVec.ofNat 64 (n - len)) })
          (s.strStore c [] hs (List.replicate len (BitVec.ofNat 8 k.g[ra].toNat)))))

/-- MCMP: one step; it ends at the first byte that differs, with rd and ra at that byte (R74, R75, R77). -/
def execMcmp (c : Nat) (rd ra rb : Reg) (s : State) : Host.Outcome State Fault Refusal :=
  .next (s.issue c 6 false [.g rd, .g ra, .g rb] [] (fun s =>
    let k := s.core c
    let d := k.g[rd].toNat
    let a := k.g[ra].toNat
    let n := k.g[rb].toNat
    if n = 0 then .ok s
    else
      let len := stepLen d n
      let (r1, s) := s.checkPieces c accLoad .allow (vaPieces d len)
      let (r2, s) := s.checkPieces c accLoad .allow (vaPieces a len)
      match r1, r2 with
      | .ok h1, .ok h2 =>
        match s.loadHalves c 0 (s.core c).strProg accLoad none (h1 ++ h2) with
        | .exc s e => strFail c d n s e
        | .stay s => .stay s
        | .ok bs s =>
          let x := bs.take len
          let y := bs.drop len
          let same := ((List.range len).find? (fun i => x.getD i 0 != y.getD i 0)).getD len
          strStep c len (decide (same = len) && decide (len < n)) (fun k =>
            let g := (k.g.set rd (BitVec.ofNat 64 (d + same))).set ra (BitVec.ofNat 64 (a + same))
            { k with g := g.set rb (BitVec.ofNat 64 (n - same)) }) s
      | r1, r2 =>
        match firstExc (excOfCheck r1) (excOfCheck r2) with
        | some e => strFail c d n s e
        | none => .stay s))

/-- SHA3F, a long operation: Keccak-f[1600] on the 200-byte state at G[ga], which must be 8-byte aligned; the whole state
is read before any of it is written, and a fault leaves it unchanged (R80, R81). -/
def execSha3f (c : Nat) (ga : Reg) (s : State) : Host.Outcome State Fault Refusal :=
  .next (s.issue c 40 false [.g ga] [] (fun s =>
    let va := (s.core c).g[ga].toNat
    let (rl, s) := s.checkPieces c accLoad .allow (vaPieces va 200)
    let (rs, s) := s.checkPieces c accStore .allow (vaPieces va 200)
    let fail (s : State) (e : Exc) : Done := longDone c .none .none 0 (some e) s
    match rl, rs, decide (va % 8 = 0) with
    | .ok hl, .ok hs, true =>
      match s.loadHalves c 0 0 accLoad none hl with
      | .exc s e => fail s e
      | .stay s => .stay s
      | .ok got s =>
        let old := got.take 200
        match s.storeHalves c 0 accStore false false old none hs (keccakBytes (keccakF (keccakLanes old))) with
        | .exc s e => fail s e
        | .stay s => .stay s
        | .ok _ s => longDone c .none .none 0 none s
    | rl, rs, al =>
      match firstExc (firstExc (excOfCheck rl) (excOfCheck rs)) (if al then none else some (alignExc va)) with
      | some e => fail s e
      | none => .stay s))

end Sys2Proof.Machine
end

