-- ==== Sys2Proof/Machine/AmberMem.lean ====
section
/-! DEFINITION. The Amber instructions that access memory, and merges (R155, R158, R161, R162, R167 to R170, R183). -/

namespace Sys2Proof.Machine

/-- AQLD: lane L of vd takes the quantity at G[ga] (R155, R162). -/
def execAqld (c : Nat) (l : Bool) (vd ga : Reg) (s : State) : Host.Outcome State Fault Refusal :=
  .next (s.issue c 14 false [.g ga, .v vd] [.v vd] (fun s =>
    s.loadTo c 14 accLoad .refuse (s.core c).g[ga].toNat 16 1 (.lane vd l)))

/-- AQST: the quantity at G[ga] takes lane L of vd (R155, R162). -/
def execAqst (c : Nat) (l : Bool) (vd ga : Reg) (s : State) : Host.Outcome State Fault Refusal :=
  .next (s.issue c 2 false [.g ga, .v vd] [] (fun s =>
    let k := s.core c
    s.storeFrom c 2 accStore .refuse k.g[ga].toNat 1 false (natLe 16 (laneOf k.v[vd] l).toNat)))

/-- ASAV: saves Ax to G[ga] in the image of R158, with merge count 0 (R158, R162). -/
def execAsav (c : Nat) (x : Fin 8) (ga : Reg) (s : State) : Host.Outcome State Fault Refusal :=
  .next (s.issue c 6 false [.a x, .g ga] [] (fun s =>
    let k := s.core c
    s.storeFrom c 6 accStore .refuse k.g[ga].toNat 1 false (accImage k.acc[x] 0)))

/-- ARST: restores Ax from G[ga]; an invalid image traps with IMAGE and leaves Ax (R158, R161, R162). -/
def execArst (c : Nat) (x : Fin 8) (ga : Reg) (s : State) : Host.Outcome State Fault Refusal :=
  .next (s.issue c 14 false [.g ga] [.a x] (fun s =>
    match s.checkAccess c accLoad .refuse (s.core c).g[ga].toNat 64 1 with
    | (.error e, s) => .exc s e
    | (.ok hs, s) =>
      match s.loadHalves c 14 0 accLoad none hs with
      | .exc s e => .exc s e
      | .stay s => .stay s
      | .ok bs s =>
        match imageAcc bs with
        | none => .exc s (amberTrap 7 x false)
        | some a => .ok (s.modCore c (fun k => { k with acc := k.acc.set x a }))))

/-- AMB_MP of a domain (R167). -/
def State.mergeReg (s : State) (td : Nat) : W64 := SMap.get 0 s.ambmp td

/-- AMRG: the descriptor at G[ga] is read and checked, and the merge of Ax is posted as a Noon action, or refused
(R168, R169, R183, R184); it waits while the block's agent has reported (R434). -/
def execAmrg (c : Nat) (x : Fin 8) (ga : Reg) (s : State) : Host.Outcome State Fault Refusal :=
  .next (s.issue c 8 false [.a x, .g ga] [] (fun s =>
    if s.noonHeld c then noonWait c s
    else
      match s.checkAccess c accLoad .refuse (s.core c).g[ga].toNat 16 1 with
      | (.error e, s) => .exc s e
      | (.ok hs, s) =>
        match s.loadHalves c 8 progNone accLoad none hs with
        | .exc s e => .exc s e
        | .stay s => .stay s
        | .ok bs s =>
          let w (o n : Nat) : Nat := leNat ((bs.drop o).take n)
          let td := (s.core c).td
          let mp := s.mergeReg td
          let pa := 64 * fld mp 6 46 + 64 * (w 8 2 % 4096)
          let body : ActBody := .merge pa (s.core c).acc[x] ((w 0x0B 1).testBit 0)
          if 4096 ≤ w 8 2 ∨ 63 < w 0x0A 1 ∨ 1 < w 0x0B 1 ∨ w 0x0C 4 ≠ 0 then noonRefuse c 2 s
          else if mp.getLsbD 0 = false ∨ fld mp 52 12 < w 8 2 ∨ inDram pa = false ∨ s.dramOk (pa + 63) = false then noonRefuse c 3 s
          else
            let code := s.postRefusal c (w 0 8) td body
            if code ≠ 0 then noonRefuse c code s
            else .ok (s.postAct c (w 0x0A 1) (w 0 8) td body)))

end Sys2Proof.Machine
end

