-- ==== Sys2Proof/Machine/NoonInstr.lean ====
section
/-! DEFINITION. NPOST, NRECV and NWAIT (R92, R93, R181 to R184, R188, R193, R434). -/

namespace Sys2Proof.Machine

/-- The fields of a 64-byte action entry (R181). -/
structure PostEntry where
  due : Nat
  kind : Nat
  slot : Nat
  target : Nat
  f1 : Nat
  f2 : Nat
  f3 : Nat
  /-- the reserved bytes are all 0 -/
  clean : Bool
  deriving DecidableEq, Repr

/-- The entry that 64 bytes hold (R181). -/
def postEntry (bs : List Byte) : PostEntry :=
  let w (o n : Nat) : Nat := leNat ((bs.drop o).take n)
  { due := w 0 8, kind := w 8 1, slot := w 9 1, target := w 0x0C 4, f1 := w 0x10 8, f2 := w 0x18 8, f3 := w 0x20 8
    clean := decide (w 0x0A 2 = 0) && decide (w 0x28 24 = 0) }

/-- Refusal codes 1 and 2 of an entry, else 0 (R182, R183). -/
def State.entryRefusal (s : State) (e : PostEntry) : Nat :=
  let ok : Bool :=
    match e.kind with
    | 1 => s.corePresent e.target && decide (e.f1 % 64 = 0) && decide (e.f2 = 0) && decide (e.f3 = 0)
    | 2 => decide (e.target = 0) && decide (e.f1 % 64 = 0) && decide (e.f2 ≠ 0) && decide (e.f3 % 64 = 0)
    | 4 => decide (e.target < 512) && decide (e.f3 = 0)
        && (decide (e.f2 = 0) || (decide (e.due + 1 ≤ e.f2) && decide (e.f2 ≤ e.due + 65536)))
    | _ => decide (e.target < 512) && decide (e.f1 = 0) && decide (e.f2 = 0) && decide (e.f3 = 0)
  if e.kind ≠ 1 ∧ e.kind ≠ 2 ∧ e.kind ≠ 4 ∧ e.kind ≠ 5 then 1
  else if !e.clean || decide (63 < e.slot) || !ok then 2
  else 0

/-- The captured body of an entry, from the data read and the destination (R182, R184). -/
def actBodyOf (e : PostEntry) (data : List Byte) (dst : Option CoreAcc) : ActBody :=
  match e.kind with
  | 1 => .mail e.target (bytesLine data)
  | 2 => .store ((dst.map (·.pa)).getD 0) ((dst.map (·.ks)).getD 0) (BitVec.ofNat 64 e.f2) (bytesLine data)
  | 4 => .cstart (e.target % 8) (e.target / 8) (e.f1 % 65536) e.f2
  | _ => .event e.target

/-- The accesses that an entry names: the destination of a STORE, and the data of a MAIL or STORE; of two events the lower
number is raised (R43, R183). -/
def State.entryData (s : State) (c : Nat) (e : PostEntry) : Except Exc (List Half × Got) × State :=
  if e.kind = 1 ∨ e.kind = 2 then
    let (rd, s) := if e.kind = 2 then s.checkAccess c accStore .refuse e.f1 64 1 else (.ok [], s)
    let (rs, s) := s.checkAccess c accLoad .refuse (if e.kind = 2 then e.f3 else e.f1) 64 1
    match rd, rs with
    | .ok hd, .ok hs => (.ok (hd, s.loadHalves c 8 progNone accLoad none hs), s)
    | rd, rs =>
      match firstExc (excOfCheck rd) (excOfCheck rs) with
      | some x => (.error x, s)
      | none => (.ok ([], .stay s), s)
  else (.ok ([], .ok [] s), s)

/-- NPOST: the entry at G[ra] is read and checked, and the action takes its place in the block's table, or is refused, in
the order of R183; it waits while the block's agent has reported (R181 to R184, R434). -/
def execNpost (c : Nat) (ra : Reg) (s : State) : Host.Outcome State Fault Refusal :=
  .next (s.issue c 8 false [.g ra] [] (fun s =>
    if s.noonHeld c then noonWait c s
    else
      match s.checkAccess c accLoad .allow (s.core c).g[ra].toNat 64 64 with
      | (.error e, s) => .exc s e
      | (.ok hs, s) =>
        match s.loadHalves c 8 progNone accLoad none hs with
        | .exc s e => .exc s e
        | .stay s => .stay s
        | .ok bs s =>
          let s := s.modCore c (fun k => { k with half := none })
          let e := postEntry bs
          let early := s.entryRefusal e
          if early ≠ 0 then noonRefuse c early s
          else
            match s.entryData c e with
            | (.error x, s) => .exc s x
            | (.ok (_, .exc s x), _) => .exc s x
            | (.ok (_, .stay s), _) => .stay s
            | (.ok (hd, .ok data s), _) =>
              let td := (s.core c).td
              let body := actBodyOf e data ((hd.head?).map (·.acc))
              let code := s.postRefusal c e.due td body
              if code ≠ 0 then noonRefuse c code s
              else .ok ((s.commitHalves c accStore hd).postAct c e.slot e.due td body)))

/-- The first message of a domain leaves a core's mailbox (R188). -/
def State.takeMail (s : State) (c td : Nat) : State :=
  s.setMailbox c ((s.mailbox c).eraseIdx ((s.mailbox c).findIdx (fun m => m.td == td)))

/-- NRECV: the oldest message of the core's domain is stored at ra and leaves the mailbox; an event of the store keeps it
there; a parity error loses it (R93, R146, R188). -/
def execNrecv (c : Nat) (rd ra : Reg) (s : State) : Host.Outcome State Fault Refusal :=
  .next (s.issue c 20 false [.g ra] [.g rd] (fun s =>
    let va := (s.core c).g[ra].toNat
    let td := (s.core c).td
    match (s.mailbox c).find? (fun m => m.td == td) with
    | none =>
      if va % 64 ≠ 0 then .exc s (alignExc va)
      else .ok (s.modCore c (fun k => { k with g := k.g.set rd 0 }))
    | some m =>
      match s.checkAccess c accStore .allow va 64 64 with
      | (.error e, s) => .exc s e
      | (.ok hs, s) =>
        if m.bad then
          .exc ((s.takeMail c td).record
            (recAt (srcAgent (coreBlock c)) 1 3 (openType 2 2) (some td) none [m.block, m.core] 0)) (mkExc 17)
        else
          match s.storeHalves c 20 accStore false false [] none hs (lineBytes m.data 0 64) with
          | .exc s e => .exc s e
          | .stay s => .stay s
          | .ok _ s => .ok ((s.takeMail c td).modCore c (fun k => { k with g := k.g.set rd 1 }))))

/-- A core's older TO stores are acknowledged and its older posts registered (R193). -/
def State.noonQuiet (s : State) (c : Nat) : Bool :=
  let x := s.block (coreBlock c)
  !(s.core c).sq.any (fun e => e.tord.isSome) && !x.pub.any (fun p => decide (p.key.core = c % 2))
    && !x.acts.any (fun a => decide (a.key.core = c % 2) && !a.reg)

/-- NWAIT: waits until NOON_TICK is at least G[ra]; a bound core that waits closes every tick below it, once its older
Noon work is done (R92, R193). -/
def execNwait (c : Nat) (ra : Reg) (s : State) : Host.Outcome State Fault Refusal :=
  .next (s.issueAs c 2 .nwait false [.g ra] [] (fun s =>
    let t := (s.core c).g[ra].toNat
    if t ≤ s.noon.tick then .ok (s.modCore c (fun k => { k with run := .run }))
    else if (s.core c).bind && s.noonQuiet c then
      .stay (s.modCore c (fun k =>
        { k.completeWhere (fun _ => true) with run := .nwait, closedTo := max k.closedTo t }))
    else .stay (s.modCore c (fun k => { k with run := .nwait }))))

end Sys2Proof.Machine
end

