-- ==== Sys2Proof/Machine/Csr.lean ====
section
/-! DEFINITION. Control registers and the instructions that access them (R33 to R35, R40, R89, R113 to R119, R135, R150,
R153, R154, R193 to R195, R291, R356). -/

namespace Sys2Proof.Machine

/-! ### Reading (R33, R34) -/

/-- Every line of a window is in place and locked (R116, R118, R150, R354). -/
def Core.windowLocked (k : Core) (data : Bool) : Bool :=
  (if data then k.mdpa.getLsbD 5 else k.mcpa.getLsbD 2) && !k.lost.any (fun la => k.ownWindow data la)

/-- EN as software reads it: 0 from the write that disables the caches (R151, R152). -/
def Core.l2enRead (k : Core) : Bool := k.l2en && (decide (k.walk ≠ some .disable) || k.reEnable)

/-- L2_WAYRET (R149, R150). -/
def State.l2Wayret (s : State) (c : Nat) : Nat :=
  let ws := s.retiredWays 2 (coreBlock c) (c % 2)
  ws.foldl (fun a w => a ||| 2 ^ w) 0 + 65536 * min 4 ws.length
    + 524288 * bit (s.mram.l2full.contains (2 * (18 * (c / 32) + s.physOf (coreBlock c)) + c % 2))

/-- An event register of a level, by its offset within the level's numbers (R34, R291). -/
def bankCsr (b : EvBank) (gpa : Bool) : Nat → Option W64
  | 0x04 => some b.base
  | 0x05 => some b.frame
  | 0x06 => some b.lim
  | 0x40 => some b.cause
  | 0x43 => some b.addr
  | 0x44 => some b.finfo
  | 0x45 => if gpa then some b.gpa else none
  | _ => none

/-- The value of a control register; none for a number that no chapter defines (R33, R34). -/
def State.csrRead (s : State) (c n : Nat) : Option W64 :=
  let k := s.core c
  let w (v : Nat) : Option W64 := some (BitVec.ofNat 64 v)
  match n with
  | 0x010 => w k.lc.toNat
  | 0x011 => some k.ls
  | 0x012 => some k.le
  | 0x020 => some k.fpcsr
  | 0x030 => some k.amscl
  | 0x040 => w (bit k.bind + 2 * bit k.slip + 256 * k.toslot)
  | 0x100 => some k.status
  | 0x180 => some k.satp
  | 0x1C0 => some k.pfctl
  | 0x1D0 => some k.ntcmp
  | 0x202 => some k.hdeleg
  | 0x280 => some k.hgatp
  | 0x288 => some k.hatp
  | 0x2A0 => w k.tdid
  | 0x302 => some k.mdeleg
  | 0x6C0 => w (bit k.bpoff + 2 * bit k.longop + 4 * bit k.meter + 8 * bit k.mbreak)
  | 0x6C1 => some k.mcva
  | 0x6C2 => some (setFld k.mcpa 2 1 (bit (k.windowLocked false)))
  | 0x6C3 => some k.mdva
  | 0x6C4 => some (setFld k.mdpa 5 1 (bit (k.windowLocked true)))
  | 0x6C5 => w k.mcause
  | 0x6C6 => some k.mbpc
  | 0x6C8 => some k.wpctl
  | 0x6D0 => w (bit k.l2enRead + 2 * bit k.cleaning)
  | 0x6D1 => w (bit k.retwfe + 2 * bit k.woke + 65536 * k.retcnt)
  | 0xC00 => some k.cycle
  | 0xC01 => some k.instret
  | 0xC02 => w s.noon.tick
  | 0xC03 => w s.noon.wall
  | 0xC05 => w (k.rsn + 16 * s.mailCount c k.td)
  | 0xC10 => some k.amtrap
  | 0xD00 => w c
  | 0xEC0 => w (s.l2Wayret c)
  | _ =>
    if n / 256 = 1 then bankCsr k.bankS false (n % 256)
    else if n / 256 = 2 then bankCsr k.bankH true (n % 256)
    else if n / 256 = 3 then bankCsr k.bankM true (n % 256)
    else none

/-- An access of a level to a number that does not exist or that it may not access raises ILLEGAL (R33). -/
def State.csrIllegal (s : State) (c n : Nat) : Bool :=
  decide ((s.core c).lvl.num < n / 256 % 4) || (s.csrRead c n).isNone

/-! ### Writing (R10, R33, R89) -/

/-- The register with the bits of `m` taken from `v`. -/
def bitMerge (old v m : W64) : W64 := (old &&& ~~~m) ||| (v &&& m)

/-- Writes to these registers are serializing (R89). -/
def csrSerial (n : Nat) : Bool := [0x6C0, 0x2A0, 0x6C8, 0x040, 0x6D0, 0x180, 0x280, 0x288].contains n

/-- The predictor state is cleared (R54, R109). -/
def Core.bpFlush (k : Core) : Core := { k with dirTab := [], btb := [], ras := [], ghist := 0 }

/-- The bits of an event register that software writes (R34). -/
def bankRw : Nat → W64
  | 0x04 => 0xFFFFFFFFFE000
  | 0x05 => 0xFFFFFFFFFFFC0
  | 0x06 => 0xFFFFFFFFFFFC0
  | _ => 0

/-- A write of an event register (R34). -/
def EvBank.write (b : EvBank) (o : Nat) (v m : W64) : EvBank :=
  let m := m &&& bankRw o
  match o with
  | 0x04 => { b with base := bitMerge b.base v m }
  | 0x05 => { b with frame := bitMerge b.frame v m }
  | 0x06 => { b with lim := bitMerge b.lim v m }
  | _ => b

/-- A field that keeps its value where the new one is not allowed. -/
def keepField (old new : W64) (lo len : Nat) (ok : Nat → Bool) : W64 :=
  if ok (fld new lo len) then new else setFld new lo len (fld old lo len)

/-- NOON_CTL: a write of 1 to BIND is ignored while BINDEN of the core's domain is 0; a core that binds holds the boundary
out of the current tick (R193, R194). -/
def State.noonCtlWrite (s : State) (c : Nat) (v m : W64) : State :=
  s.modCore c (fun k =>
    let want := if m.getLsbD 0 then v.getLsbD 0 else k.bind
    let set := want && !k.bind && s.bindEn k.td
    { k with
      bind := (want && k.bind) || set
      closedTo := if set then s.noon.tick else k.closedTo
      slip := k.slip && !(m.getLsbD 1 && v.getLsbD 1)
      toslot := fld (bitMerge (BitVec.ofNat 64 (256 * k.toslot)) v m) 8 6 })

/-- TDID: a change of TD unbinds the core, and with SWFLUSH clears its predictors, side buffer and L1D (R40, R113, R114,
R194). -/
def State.tdidWrite (s : State) (c : Nat) (v m : W64) : State :=
  let k := s.core c
  let td := fld (bitMerge (BitVec.ofNat 64 k.tdid) v m) 0 6
  if td = k.tdid then s
  else
    let s := s.setCore c { k with tdid := td, bind := false }
    if k.wpctl.getLsbD 3 then
      k.sb.foldl (fun s l => s.release c l) (s.setCore c { ({ k with tdid := td, bind := false } : Core).bpFlush with sb := [], l1d := [] })
    else s

/-- CORE_CTL: BPOFF is 1 while METER is; clearing METER_BREAK clears the recorded cause (R34, R115, R119). -/
def Core.coreCtlWrite (k : Core) (v m : W64) : Core :=
  let old : W64 := BitVec.ofNat 64 (bit k.bpoff + 2 * bit k.longop + 4 * bit k.meter)
  let w := bitMerge old v m
  let clr := m.getLsbD 3 && v.getLsbD 3
  { k with bpoff := w.getLsbD 0 || w.getLsbD 2, longop := w.getLsbD 1, meter := w.getLsbD 2
           mbreak := k.mbreak && !clr, mcause := if clr then 0 else k.mcause }

/-- METER_CPA and METER_DPA: the window is unlocked, and where NWAYS is not 0 the new range starts loading, its LOCKED bit
0 until it is in place (R116, R117). -/
def State.windowWrite (s : State) (c : Nat) (data : Bool) (v m : W64) : State :=
  let k := s.core c
  if k.meter then s
  else
    let old := if data then k.mdpa else k.mcpa
    let w := bitMerge old v (m &&& (if data then 0xFFFFFFFFF001F else 0xFFFFFFFFFC003))
    let w := if data then keepField old w 0 4 (fun n => decide (n ≤ 8)) else keepField old w 0 2 (fun n => decide (n ≤ 2))
    let w := if data then setFld w 5 1 0 else setFld w 2 1 0
    (s.unlockWindow c data).modCore c (fun k => if data then { k with mdpa := w } else { k with mcpa := w })

/-- L2_CTL: EN = 0 starts the disabling walk, unless a data window is set; EN = 1 in its course enables the caches after it;
WBALL starts a walk of its own (R151 to R153). Enabling empties the L1I first (R124). -/
def State.l2CtlWrite (s : State) (c : Nat) (v m : W64) : State :=
  let k := s.core c
  let dis := decide (k.walk = some .disable)
  let s :=
    if !m.getLsbD 0 then s
    else if v.getLsbD 0 then
      if dis then s.setCore c { k with reEnable := true }
      else if k.l2en then s
      else
        (k.l1i.foldl (fun s l => s.homeEvn c l.la) (s.setCore c { k with
          l2en := true, l1i := [], lost := (k.l1i.filter (·.locked)).foldl (fun a l => insNat a l.la) k.lost }))
    else if fld k.mdpa 0 4 ≠ 0 then s
    else if dis then s.setCore c { k with reEnable := false }
    else if k.l2en then s.setCore c { k with walk := some .disable, cleaning := true, reEnable := false }
    else s
  let k := s.core c
  if m.getLsbD 2 && v.getLsbD 2 && k.l2en && k.walk.isNone then s.setCore c { k with walk := some .wball, cleaning := true }
  else s

/-- A write of the bits `m` of a control register with `v` (R10, R33, R89); a number that is read-only, and a bit that is,
keep their value. -/
def State.csrWrite (s : State) (c n : Nat) (v m : W64) : State :=
  if m = 0 then s
  else
    let k := s.core c
    match n with
    | 0x010 => s.setCore c { k with lc := (bitMerge (k.lc.setWidth 64) v m).setWidth 32, loopBuf := none }
    | 0x011 => s.setCore c { k with ls := bitMerge k.ls v m, loopBuf := none }
    | 0x012 => s.setCore c { k with le := bitMerge k.le v m, loopBuf := none }
    | 0x020 =>
      s.setCore c { k with fpcsr := keepField k.fpcsr (bitMerge k.fpcsr v (m &&& 0x1FFF)) 5 3 (fun r => decide (r ≤ 4)) }
    | 0x030 =>
      let w := bitMerge k.amscl v (m &&& 0x13F3F3F)
      let ok (x : Nat) : Bool := decide (x ≤ 38)
      s.setCore c { k with amscl := keepField k.amscl (keepField k.amscl (keepField k.amscl w 0 6 ok) 8 6 ok) 16 6 ok }
    | 0x040 => s.noonCtlWrite c v m
    | 0x100 =>
      let w := bitMerge k.status v m
      s.setCore c { k with ie := w.getLsbD 2, sum := w.getLsbD 4, evlvl := fld w 8 3 }
    | 0x180 => s.setCore c { k with satp := bitMerge k.satp v (m &&& 0xFFFFFFFFFFFFF007) }
    | 0x1C0 =>
      let w := keepField k.pfctl (bitMerge k.pfctl v (m &&& 0x1F1F)) 1 4 (fun d => decide (d ≠ 0))
      s.setCore c { k with pfctl := w, trackers := if w.getLsbD 0 then k.trackers else [] }
    | 0x1D0 => s.setCore c { k with ntcmp := bitMerge k.ntcmp v m, timerArmed := true }
    | 0x202 => s.setCore c { k with hdeleg := bitMerge k.hdeleg v (m &&& 0xFFFE39FF) }
    | 0x280 => s.setCore c { k with hgatp := bitMerge k.hgatp v (m &&& 0xFFFFFFFFFF001) }
    | 0x288 => s.setCore c { k with hatp := bitMerge k.hatp v (m &&& 0xFFFFFFFFFF001) }
    | 0x2A0 => s.tdidWrite c v m
    | 0x302 => s.setCore c { k with mdeleg := bitMerge k.mdeleg v (m &&& 0xFFFE7BFF) }
    | 0x6C0 => s.setCore c (k.coreCtlWrite v m)
    | 0x6C1 => if k.meter then s else s.setCore c { k with mcva := bitMerge k.mcva v (m &&& 0xFFFFFFFFFFFFC000) }
    | 0x6C2 => s.windowWrite c false v m
    | 0x6C3 => if k.meter then s else s.setCore c { k with mdva := bitMerge k.mdva v (m &&& 0xFFFFFFFFFFFF0000) }
    | 0x6C4 => s.windowWrite c true v m
    | 0x6C8 => s.setCore c { k with wpctl := bitMerge k.wpctl v (m &&& 0x1F) }
    | 0x6D0 => s.l2CtlWrite c v m
    | 0x6D1 =>
      s.setCore c { k with retwfe := if m.getLsbD 0 then v.getLsbD 0 else k.retwfe, woke := k.woke && !(m.getLsbD 1 && v.getLsbD 1) }
    | _ =>
      if n / 256 = 1 then s.setCore c { k with bankS := k.bankS.write (n % 256) v m }
      else if n / 256 = 2 then s.setCore c { k with bankH := k.bankH.write (n % 256) v m }
      else if n / 256 = 3 then s.setCore c { k with bankM := k.bankM.write (n % 256) v m }
      else s

/-- A write that waits: a bind while the block's agent has reported (R434), and METER set before its windows are locked
(R117). -/
def State.csrHeld (s : State) (c n : Nat) (v m : W64) : Bool :=
  let k := s.core c
  (decide (n = 0x040) && m.getLsbD 0 && v.getLsbD 0 && !k.bind && s.bindEn k.td && s.noonHeld c)
    || (decide (n = 0x6C0) && m.getLsbD 2 && v.getLsbD 2 && !k.meter
      && ((decide (fld k.mcpa 0 2 ≠ 0) && !k.windowLocked false) || (decide (fld k.mdpa 0 4 ≠ 0) && !k.windowLocked true)))

/-- Met of a write (R89): 4 for the serializing registers, 44 where a change of TD clears, else 2. -/
def Core.csrMet (k : Core) (n : Nat) (v m : W64) : Nat :=
  if !csrSerial n then 2
  else if n = 0x2A0 ∧ k.wpctl.getLsbD 3 = true ∧ fld (bitMerge (BitVec.ofNat 64 k.tdid) v m) 0 6 ≠ k.tdid then 44
  else 4

/-! ### Meanings -/

/-- CSRW, CSRS and CSRC: `rd` takes the value before the write; `vm` gives the value and the bits that ra writes (R89). The
cycles of the write pass in the mode in force before it. -/
def State.csrChange (s : State) (c : Nat) (rd : Option Reg) (ra : Reg) (csr : BitVec 12) (vm : W64 → W64 × W64) : State :=
  let n := csr.toNat
  let (v0, m0) := vm (s.core c).g[ra]
  s.issue c ((s.core c).csrMet n v0 m0) (csrSerial n) [.g ra] (match rd with | some r => [.g r] | none => []) (fun s =>
    if s.csrIllegal c n then .exc s illegal
    else
      let (v, m) := vm (s.core c).g[ra]
      if s.csrHeld c n v m then .stay (s.modCore c (fun k => k.brk 7 k.pc))
      else
        let old := (s.csrRead c n).getD 0
        let s := (s.cycles c ((s.core c).csrMet n v m)).csrWrite c n v m
        let s := match rd with
          | some r => s.modCore c (fun k => { k with g := k.g.set r old })
          | none => s
        .stay (s.retireNow c false ((s.core c).pc + 4)))

/-- CSRR: rd ← CSR (R33, R89). -/
def execCsrr (c : Nat) (rd : Reg) (csr : BitVec 12) (s : State) : Host.Outcome State Fault Refusal :=
  .next (s.issue c 2 false [] [.g rd] (fun s =>
    if s.csrIllegal c csr.toNat then .exc s illegal
    else .ok (s.modCore c (fun k => { k with g := k.g.set rd ((s.csrRead c csr.toNat).getD 0) }))))

/-- CSRW: every bit of the CSR takes ra (R89). -/
def execCsrw (c : Nat) (ra : Reg) (csr : BitVec 12) (s : State) : Host.Outcome State Fault Refusal :=
  .next (s.csrChange c none ra csr (fun a => (a, BitVec.allOnes 64)))

/-- CSRS: 1 is written to the bits that are 1 in ra; rd takes the value before (R89). -/
def execCsrs (c : Nat) (rd ra : Reg) (csr : BitVec 12) (s : State) : Host.Outcome State Fault Refusal :=
  .next (s.csrChange c (some rd) ra csr (fun a => (a, a)))

/-- CSRC: 0 is written to the bits that are 1 in ra; rd takes the value before (R89). -/
def execCsrc (c : Nat) (rd ra : Reg) (csr : BitVec 12) (s : State) : Host.Outcome State Fault Refusal :=
  .next (s.csrChange c (some rd) ra csr (fun a => (0, a)))

end Sys2Proof.Machine
end

