-- ==== Sys2Proof/Machine/System.lean ====
section
/-! DEFINITION. Calls, the return, waits, barriers, random bits and undefined encodings (R37, R38, R47, R54, R58, R90, R92,
R109, R120, R121, R354). -/

namespace Sys2Proof.Machine

/-! ### The return (R38, R47, R121) -/

/-- The first frame byte lies below the frame pointer of a level; its fields (R45). -/
def frameWord (bs : List Byte) (o : Nat) : Nat := leNat ((bs.drop o).take 8)

/-- The breaks of a frame read: outside the data window, or of a lost line of it (R119). -/
def Core.frameBreaks (k : Core) (ls : List CoreAcc) : Core :=
  if !ls.all (·.win) then k.brk 4 k.pc
  else if ls.any (fun l => k.lost.contains (l.pa / 64)) then k.brk 3 k.pc else k

/-- ERET chains: the frame stays, CAUSE and EVLVL take the new event and PC its table entry (R47, R121). -/
def State.chain (s : State) (c n key : Nat) : State :=
  let k := s.core c
  let b := k.bank k.lvl
  let k := { k.setBank k.lvl { b with cause := causeWord n 0 true } with
    evlvl := n / 32, resv := none, loopBuf := none, pend := k.pend.filter (· != key) }
  ((s.setCore c k).retireNow c false (b.base + BitVec.ofNat 64 (32 * n))).cycles c 6

/-- ERET returns: STATUS, G0 to G15 and PC come from the frame, and FRAME rises by 192 (R38, R47). -/
def State.unwind (s : State) (c : Nat) (bs : List Byte) : State :=
  let k := s.core c
  let b := k.bank k.lvl
  let g := (List.range 16).foldl (fun (g : Vector W64 32) i =>
    if h : i < 32 then g.set i (BitVec.ofNat 64 (frameWord bs (0x20 + 8 * i))) h else g) k.g
  let k := { (k.setBank k.lvl { b with frame := b.frame + 192 }).restoreStatus (frameWord bs 8) with g := g, resv := none }
  ((s.setCore c k).retireNow c false (BitVec.ofNat 64 (frameWord bs 0))).cycles c 8

/-- ERET: reads the frame of its level, then chains or returns (R38, R46, R47). -/
def execEret (c : Nat) (s : State) : Host.Outcome State Fault Refusal :=
  .next (s.issue c 8 true [] [] (atLeast c .s (fun s =>
    let k := s.core c
    let l := k.lvl
    match s.drainAll c with
    | (false, s) => .stay s
    | (true, s) =>
      match s.frameLines c l accLoad (k.bank l).frame.toNat with
      | (.error e, s) =>
        if l = .m then .stay (s.stopAtM c) else .stay ((s.takeEvent c e false l.up k.pc).cycles c 8)
      | (.ok ls, s) =>
        if ls.any (fun a => s.homed a.pa && s.walkStalls c (a.pa / 64)) then .stay s
        else
          let ((bs, bad), s) := (s.modCore c (fun k => k.frameBreaks ls)).readFrame c (k.tdAt l) ls
          match bad with
          | some pa => .exc (s.poisonRecord c (k.tdAt l) pa) (mkExc 17)
          | none =>
            let w := frameWord bs 8
            if l.num < w % 4 then .exc s illegal
            else
              match (s.core c).chainPick l w with
              | some key => .stay (s.chain c (key % 256) key)
              | none => .stay (s.unwind c bs))))

/-! ### Calls (R37) -/

/-- A call raises its event unless it names a level at or below the current one (R37). -/
def State.callTo (s : State) (c : Nat) (l : Lvl) (num : Nat) : State :=
  s.issue c 1 false [] [] (fun s => if l.num ≤ (s.core c).lvl.num then .exc s illegal else .call s (mkExc num))

/-- CALLS raises CALL_S (R37, R41). -/
def execCalls (c : Nat) (s : State) : Host.Outcome State Fault Refusal := .next (s.callTo c .s 8)

/-- CALLH raises CALL_H (R37, R41). -/
def execCallh (c : Nat) (s : State) : Host.Outcome State Fault Refusal := .next (s.callTo c .h 9)

/-- CALLM raises CALL_M (R37, R41). -/
def execCallm (c : Nat) (s : State) : Host.Outcome State Fault Refusal := .next (s.callTo c .m 10)

/-- BRK raises BREAK; the frame names the next instruction (R41, R45). -/
def execBrk (c : Nat) (s : State) : Host.Outcome State Fault Refusal :=
  .next (s.issue c 1 false [] [] (fun s => .call s (mkExc 3)))

/-! ### Waiting (R92, R354) -/

/-- A WFE need not wait: a pending bit is set, or a message is there (R92). -/
def State.wfeReady (s : State) (c : Nat) : Bool := !(s.core c).pend.isEmpty || !(s.mailbox c).isEmpty

/-- WFE: waits for a pending bit or a message; with RETWFE = 1 a wait takes the core to RET (R92, R354). -/
def execWfe (c : Nat) (s : State) : Host.Outcome State Fault Refusal :=
  .next (s.issueAs c 2 .wfe false [] [] (fun s =>
    if s.wfeReady c then .ok (s.modCore c (fun k => { k with run := .run }))
    else
      let s := s.modCore c (fun k => { k with run := .wfe })
      if (s.core c).retwfe then
        .stay ((s.modDom c (fun d => { d with st := 3, dest := 1, src := 0, viaWfe := true, wakeReq := false })).leaveOn c .ret)
      else .stay s))

/-! ### Barriers (R54, R109) -/

/-- The store queue holds an ordinary store. -/
def Core.plainQueued (k : Core) : Bool := k.sq.any (fun e => e.tord.isNone)

/-- FENCE m: with SL older stores are performed before younger loads; the other orders hold already, loads being performed
in program order and stores leaving the queue in it. TO stores keep their tick (R54, R55, R101, log 9, 10). -/
def execFence (c : Nat) (m : BitVec 4) (s : State) : Host.Outcome State Fault Refusal :=
  .next (s.issue c 1 false [] [] (fun s =>
    if m.getLsbD 1 then
      let (_, s) := s.drainWhile c (fun e => e.tord.isNone) (s.core c).sq.length
      if (s.core c).plainQueued then .stay s else .ok s
    else .ok s))

/-- SYNC: the store queue is drained to the home slices: TO stores are published and acknowledged too (R54, R201). -/
def execSync (c : Nat) (s : State) : Host.Outcome State Fault Refusal :=
  .next (s.issue c 2 true [] [] (fun s =>
    let (_, s) := s.drainAll c
    if !(s.core c).sq.isEmpty || (s.block (coreBlock c)).pub.any (fun p => decide (p.key.core = c % 2)) then .stay s else .ok s))

/-- LBAR: every older long operation completes, or IMPRECISE is taken (R54, R105). -/
def execLbar (c : Nat) (s : State) : Host.Outcome State Fault Refusal := .next (s.issue c 1 true [] [] .ok)

/-- IFENCE: older stores complete, and fetched instructions are discarded (R54, R55). -/
def execIfence (c : Nat) (s : State) : Host.Outcome State Fault Refusal :=
  .next (s.issue c 6 false [] [] (fun s =>
    match s.drainAll c with
    | (false, s) => .stay s
    | (true, s) => .ok (s.modCore c (fun k => { k with lineBuf := [], loopBuf := none }))))

/-- BPBAR: no effect on state where instructions are taken one at a time (R54, R109). -/
def execBpbar (c : Nat) (s : State) : Host.Outcome State Fault Refusal := .next (s.issue c 1 false [] [] .ok)

/-- BPFLUSH clears the predictor state (R54, R109). -/
def execBpflush (c : Nat) (s : State) : Host.Outcome State Fault Refusal :=
  .next (s.compute c 16 [] [] Core.bpFlush)

/-! ### Random bits and undefined encodings (R58, R90) -/

/-- RAND: rd ← 64 random bits and ra ← 1, or 0 and 0 where none are ready; which, and the bits, are open (R90, log 17). -/
def execRand (c : Nat) (rd ra : Reg) (s : State) : Host.Outcome State Fault Refusal :=
  .next (s.issue c 200 false [] [.g rd, .g ra] (fun s =>
    let (i, s) := s.draw
    let ok := Config.randomReady i
    .ok (s.modCore c (fun k => { k with g := (k.g.set rd (if ok then Config.random i else 0)).set ra (flag ok) }))))

/-- UNDEFINED_ENCODING: a word that the tables do not list raises ILLEGAL (R58); a listed word is another command's. The
tables give such a word no count (log 24). -/
def execUndefinedEncoding (c : Nat) (w : BitVec 32) (s : State) : Host.Outcome State Fault Refusal :=
  .next (
    if listed w then s
    else
      s.issue c 0 false [] [] (fun s =>
        let (i, s) := s.draw
        .exc (s.modCore c (fun k =>
          if k.meter then { k with cycle := k.cycle + BitVec.ofNat 64 (Config.freeCycles i) } else k)) illegal))

end Sys2Proof.Machine
end

