-- ==== Sys2Proof/Machine/CacheOps.lean ====
section
/-! DEFINITION. Cache maintenance, prefetch hints and the TLB instructions of a core (R91, R118, R124, R133, R135, R293). -/

namespace Sys2Proof.Machine

/-! ### Cache maintenance (R91) -/

/-- The check of a line named by ra: device space is passed by (R91). -/
def State.checkLine (s : State) (c : Nat) (a : Acc) (va : Nat) : Except Exc Half × State := s.checkHalf c a .ignore va 1

/-- An instruction on the line of ra, translated as `a`: queued stores to the line are written first, and `f` acts on the
line, unless it lies in device space (R91). -/
def State.lineOp (s : State) (c : Nat) (a : Acc) (ra : Reg) (f : State → Nat → State) : Done :=
  match s.checkLine c a (s.core c).g[ra].toNat with
  | (.error e, s) => .exc s e
  | (.ok h, s) =>
    if h.acc.dev then .ok s
    else
      match s.drainWhile c (fun e => decide (e.pa / 64 = h.acc.pa / 64)) (s.core c).sq.length with
      | (false, s) => .stay s
      | (true, s) => .ok (f (s.commitHalves c a [h]) (h.acc.pa / 64))

/-- A dirty copy is written back and stays clean (R91). -/
def State.cleanLine (s : State) (c la : Nat) : State :=
  let k := s.core c
  match k.copy la with
  | some l =>
    if l.st = Mesi.m then
      let toE (x : CLine) : CLine := if x.la == la then { x with st := .e } else x
      (s.setCore c { k with l2 := k.l2.map toE, vc := k.vc.map toE }).slcFill la l.td l.ks l.data true l.poison l.stream
    else s
  | none => s

/-- A line leaves the core's arrays, with or without its dirty data; the home drops the core as a holder (R91, R124). -/
def State.flushLine (s : State) (c la : Nat) (wb : Bool) : State :=
  let k := s.core c
  let s1 := s.setCore c (k.dropLine la)
  match k.copy la with
  | some l => if wb then s1.release c l else s1.homeEvn c la
  | none => if k.l1i.any (fun l => l.la == la) then s1.homeEvn c la else s1

/-- DCCLEAN (R91). -/
def execDcclean (c : Nat) (ra : Reg) (s : State) : Host.Outcome State Fault Refusal :=
  .next (s.issue c 14 false [.g ra] [] (fun s => s.lineOp c accLoad ra (fun s la => s.cleanLine c la)))

/-- DCFLUSH (R91). -/
def execDcflush (c : Nat) (ra : Reg) (s : State) : Host.Outcome State Fault Refusal :=
  .next (s.issue c 14 false [.g ra] [] (fun s => s.lineOp c accLoad ra (fun s la => s.flushLine c la true)))

/-- DCINV: without write-back, but as DCFLUSH while GUEST = 1; at S and above (R90, R91). -/
def execDcinv (c : Nat) (ra : Reg) (s : State) : Host.Outcome State Fault Refusal :=
  .next (s.issue c 14 false [.g ra] [] (atLeast c .s (fun s =>
    s.lineOp c accStore ra (fun s la => s.flushLine c la (s.core c).guest))))

/-- DCZERO: a store of 64 zero bytes to the line of ra, on a TO page a TO store; device space raises ACCESS_FAULT with
SUB 1 (R91, R200). -/
def execDczero (c : Nat) (ra : Reg) (s : State) : Host.Outcome State Fault Refusal :=
  .next (s.issue c 14 false [.g ra] [] (fun s =>
    match s.checkHalf c accStore .refuse (s.core c).g[ra].toNat 1 with
    | (.error e, s) => .exc s e
    | (.ok h, s) =>
      let line : Half := { h with n := 64, acc := { h.acc with pa := h.acc.pa / 64 * 64 } }
      match s.storeHalves c 14 accStore true true [] none [line] (List.replicate 64 0) with
      | .ok _ s => .ok s
      | .exc s e => .exc s e
      | .stay s => .stay s))

/-- ICINV: the line leaves the L1I and the line buffer; a locked line of the code window is lost (R91, R118). -/
def execIcinv (c : Nat) (ra : Reg) (s : State) : Host.Outcome State Fault Refusal :=
  .next (s.issue c 14 false [.g ra] [] (fun s => s.lineOp c accLoad ra (fun s la =>
    let k := s.core c
    let s1 := s.setCore c { k with
      l1i := k.l1i.filter (fun l => l.la != la), lineBuf := k.lineBuf.filter (· != la)
      lost := if k.l1i.any (fun l => l.la == la && l.locked) then insNat k.lost la else k.lost }
    if k.l1i.any (fun l => l.la == la) && (k.copy la).isNone then s1.homeEvn c la else s1)))

/-! ### Prefetch hints (R91, R133, R135) -/

/-- A hint: dropped while HINTEN = 0 or the core is metered, and without an event where translation fails, in device space,
on a TO page or on a poisoned line (R91, R133, R135). -/
def State.hint (s : State) (c : Nat) (ra : Reg) (excl stream : Bool) : State :=
  s.issue c 1 false [.g ra] [] (fun s0 =>
    let k := s0.core c
    let va := k.g[ra].toNat
    if k.meter || !k.pfctl.getLsbD 12 then .ok s0
    else if k.guest && decide (k.lvl.num ≤ 1) && !k.hgatp.getLsbD 0 then .ok s0
    else
      match s0.lookup (some c) 0 (k.regime false) accLoad va with
      | (.error _, s) => .ok s
      | (.ok x, s) =>
        let la := x.pa / 64
        if !s.homed x.pa || decide (s.paFault x.pa ≠ 0) || x.to1 || x.to2 || s.linePoisoned c la then .ok s
        else
          let s := s.commitXlat (some c) 0 (k.regime false) accLoad va x
          .ok (if s.linePending la then s else s.prefetch c la k.td x.ks excl stream))

/-- PFL: a shared fetch into the side buffer (R91). -/
def execPfl (c : Nat) (ra : Reg) (s : State) : Host.Outcome State Fault Refusal := .next (s.hint c ra false false)

/-- PFS: an exclusive fetch (R91). -/
def execPfs (c : Nat) (ra : Reg) (s : State) : Host.Outcome State Fault Refusal := .next (s.hint c ra true false)

/-- PFNT: a shared fetch marked streaming (R91, R131). -/
def execPfnt (c : Nat) (ra : Reg) (s : State) : Host.Outcome State Fault Refusal := .next (s.hint c ra false true)

/-! ### TLB instructions (R90, R293) -/

/-- A TLB instruction waits until the store queue holds no store, then invalidates (R293). -/
def State.tlbOp (s : State) (c met : Nat) (l : Lvl) (reads : List LDest) (f : Core → Core) : State :=
  s.issue c met false reads [] (atLeast c l (fun s =>
    match s.drainAll c with
    | (false, s) => .stay s
    | (true, s) => .ok (s.modCore c f)))

/-- TLBIVA: entries of the current regime and domain for the page of ra (R293). -/
def execTlbiva (c : Nat) (ra : Reg) (s : State) : Host.Outcome State Fault Refusal :=
  .next (s.tlbOp c 4 .s [.g ra] (fun k =>
    let g := k.regime false
    k.tlbInval g.num g.td (some k.g[ra].toNat)))

/-- TLBIALL: every entry of the current regime and domain (R293). -/
def execTlbiall (c : Nat) (s : State) : Host.Outcome State Fault Refusal :=
  .next (s.tlbOp c 24 .s [] (fun k =>
    let g := k.regime false
    k.tlbInval g.num g.td none))

/-- TLBIGVA: guest entries of domain TDID.TD for the guest page of ra (R293). -/
def execTlbigva (c : Nat) (ra : Reg) (s : State) : Host.Outcome State Fault Refusal :=
  .next (s.tlbOp c 4 .h [.g ra] (fun k => k.tlbInval 1 k.tdid (some k.g[ra].toNat)))

/-- TLBIDOM: every entry of domain ra[5:0] in the S non-guest and guest regimes (R293). -/
def execTlbidom (c : Nat) (ra : Reg) (s : State) : Host.Outcome State Fault Refusal :=
  .next (s.tlbOp c 24 .h [.g ra] (fun k => (k.tlbInval 0 (fld k.g[ra] 0 6) none).tlbInval 1 (fld k.g[ra] 0 6) none))

end Sys2Proof.Machine
end

