-- ==== Sys2Proof/Machine/CoreEvents.lean ====
section
/-! DEFINITION. What a core does between instructions: event entry, completion of long operations, stores that leave the
store queue, and replays (R43, R45, R101, R102, R105). -/

namespace Sys2Proof.Machine

/-- EVENT_ENTRY: the takeable asynchronous event of highest number is taken at the boundary, or during a wait (R43, R45,
R92). -/
def execEventEntry (c : Nat) (s : State) : Host.Outcome State Fault Refusal :=
  .next (s.orWait (
    if !s.coreLive c || decide ((s.core c).run = .dev) || (s.core c).half.isSome then s
    else
      match (s.core c).asyncPick with
      | some key => s.takeAsync c key
      | none => s))

/-- The first operation of a list that has not failed completes (R105). -/
def Core.completeNext (k : Core) : Core :=
  let i := k.longs.findIdx (fun o => !o.failed)
  match k.longs[i]? with
  | none => k
  | some o =>
    match k.completeLong o with
    | (k, none) => { k with longs := k.longs.eraseIdx i }
    | (k, some o) => { k with longs := k.longs.set i o }

/-- LONG_OPERATION_COMPLETE: the oldest outstanding operation delivers its result, or fails and sets IMPEND (R50, R105). -/
def execLongOperationComplete (c : Nat) (s : State) : Host.Outcome State Fault Refusal :=
  .next (if !s.coreLive c then s else s.modCore c Core.completeNext)

/-- STORE_WRITE_AFTER_RETIREMENT: the oldest store leaves the store queue, to the L1D and L2 or to the publish buffer; it
stays while it cannot (R101, R201). -/
def execStoreWriteAfterRetirement (c : Nat) (s : State) : Host.Outcome State Fault Refusal :=
  .next (s.orWait (if !s.up || !s.corePresent c then s else (s.drainOne c).2))

/-- MEMORY_ORDER_REPLAY: a replay changes timing only, and a metered core has none (R102, R115, log 12). -/
def execMemoryOrderReplay (c : Nat) (s : State) : Host.Outcome State Fault Refusal :=
  .next (if !s.coreLive c || (s.core c).meter then s else s.cycles c 0)

end Sys2Proof.Machine
end

