-- ==== Sys2Proof/Machine/Fp.lean ====
section
/-! DEFINITION. Scalar floating point (R66, R67). -/

namespace Sys2Proof.Machine

/-- A scalar operation of two operands whose result is a value of the precision, or a number in rd. -/
def State.fp2 (s : State) (c met : Nat) (sp : Bool) (rd ra rb : Reg) (f : Nat → Nat → Nat → Nat × Nat) : State :=
  s.issue c met false [.g ra, .g rb] [.g rd] (fun s =>
    let k := s.core c
    let (v, fl) := f k.rm (fpArg sp k.g[ra]) (fpArg sp k.g[rb])
    fpWrite fl (fun k => { k with g := k.g.set rd (BitVec.ofNat 64 v) }) s c)

/-- A scalar operation of one operand; `f` takes the rounding mode and the register. -/
def State.fp1 (s : State) (c met : Nat) (rd ra : Reg) (f : Nat → W64 → Nat × Nat) : State :=
  s.issue c met false [.g ra] [.g rd] (fun s =>
    let k := s.core c
    let (v, fl) := f k.rm k.g[ra]
    fpWrite fl (fun k => { k with g := k.g.set rd (BitVec.ofNat 64 v) }) s c)

/-- A long scalar operation: its exception, where enabled, is delivered as R104 and R105 set out. -/
def fpLong (c : Nat) (rd : Reg) (r : Nat × Nat) (s : State) : Done :=
  longDone c (.g rd) (.g (BitVec.ofNat 64 r.1)) r.2
    (if (s.core c).fpTraps r.2 then some (mkExc 11) else none) s

/-- FADD (R66). -/
def execFadd (c : Nat) (sp : Bool) (rd ra rb : Reg) (s : State) : Host.Outcome State Fault Refusal :=
  .next (s.fp2 c 4 sp rd ra rb (fpAdd sp))

/-- FSUB (R66). -/
def execFsub (c : Nat) (sp : Bool) (rd ra rb : Reg) (s : State) : Host.Outcome State Fault Refusal :=
  .next (s.fp2 c 4 sp rd ra rb (fpSub sp))

/-- FMUL (R66). -/
def execFmul (c : Nat) (sp : Bool) (rd ra rb : Reg) (s : State) : Host.Outcome State Fault Refusal :=
  .next (s.fp2 c 4 sp rd ra rb (fpMul sp))

/-- FDIV, a long operation (R66, R104, R105). -/
def execFdiv (c : Nat) (sp : Bool) (rd ra rb : Reg) (s : State) : Host.Outcome State Fault Refusal :=
  .next (s.issue c 22 false [.g ra, .g rb] [.g rd] (fun s =>
    let k := s.core c
    fpLong c rd (fpDiv sp k.rm (fpArg sp k.g[ra]) (fpArg sp k.g[rb])) s))

/-- FSQRT, a long operation (R66, R104, R105). -/
def execFsqrt (c : Nat) (sp : Bool) (rd ra : Reg) (s : State) : Host.Outcome State Fault Refusal :=
  .next (s.issue c 26 false [.g ra] [.g rd] (fun s =>
    let k := s.core c
    fpLong c rd (fpSqrt sp k.rm (fpArg sp k.g[ra])) s))

/-- FMA: rd ← ra × rb + old rd with one rounding (R66). -/
def execFma (c : Nat) (sp : Bool) (rd ra rb : Reg) (s : State) : Host.Outcome State Fault Refusal :=
  .next (s.issue c 5 false [.g ra, .g rb, .g rd] [.g rd] (fun s =>
    let k := s.core c
    let (v, fl) := fpFma sp k.rm (fpArg sp k.g[ra]) (fpArg sp k.g[rb]) (fpArg sp k.g[rd])
    fpWrite fl (fun k => { k with g := k.g.set rd (BitVec.ofNat 64 v) }) s c))

/-- FMIN (R66). -/
def execFmin (c : Nat) (sp : Bool) (rd ra rb : Reg) (s : State) : Host.Outcome State Fault Refusal :=
  .next (s.fp2 c 2 sp rd ra rb (fun _ => fpMinMax sp false))

/-- FMAX (R66). -/
def execFmax (c : Nat) (sp : Bool) (rd ra rb : Reg) (s : State) : Host.Outcome State Fault Refusal :=
  .next (s.fp2 c 2 sp rd ra rb (fun _ => fpMinMax sp true))

/-- FCEQ (R66). -/
def execFceq (c : Nat) (sp : Bool) (rd ra rb : Reg) (s : State) : Host.Outcome State Fault Refusal :=
  .next (s.fp2 c 2 sp rd ra rb (fun _ => fpCmp sp 0))

/-- FCLT (R66). -/
def execFclt (c : Nat) (sp : Bool) (rd ra rb : Reg) (s : State) : Host.Outcome State Fault Refusal :=
  .next (s.fp2 c 2 sp rd ra rb (fun _ => fpCmp sp 1))

/-- FCLE (R66). -/
def execFcle (c : Nat) (sp : Bool) (rd ra rb : Reg) (s : State) : Host.Outcome State Fault Refusal :=
  .next (s.fp2 c 2 sp rd ra rb (fun _ => fpCmp sp 2))

/-- FCVTI: to a signed 64-bit integer (R66). -/
def execFcvti (c : Nat) (sp : Bool) (rd ra : Reg) (s : State) : Host.Outcome State Fault Refusal :=
  .next (s.fp1 c 3 rd ra (fun rm w => fpToInt sp rm (fpArg sp w)))

/-- FCVTF: from a signed integer (R66). -/
def execFcvtf (c : Nat) (sp : Bool) (rd ra : Reg) (s : State) : Host.Outcome State Fault Refusal :=
  .next (s.fp1 c 3 rd ra (fun rm w => fpOfInt sp rm w.toNat))

/-- FCVTP: from the other precision (R66). -/
def execFcvtp (c : Nat) (sp : Bool) (rd ra : Reg) (s : State) : Host.Outcome State Fault Refusal :=
  .next (s.fp1 c 3 rd ra (fun rm w => fpConv sp rm (fpArg (!sp) w)))

/-- FCLASS (R66). -/
def execFclass (c : Nat) (sp : Bool) (rd ra : Reg) (s : State) : Host.Outcome State Fault Refusal :=
  .next (s.aluR c 1 rd ra (fun w => BitVec.ofNat 64 (fpClass sp (fpArg sp w))))

end Sys2Proof.Machine
end

