-- ==== Sys2Proof/Machine/Dispatch.lean ====
section
/-! DEFINITION. What each command does: one arm per row of the table. -/

namespace Sys2Proof.Machine

/-- The effect of a command on everything but the queue. -/
def exec (i : Instr) (s : State) : Host.Outcome State Fault Refusal :=
  match i with
  | .add c rd ra rb => Sys2Proof.Machine.execAdd c rd ra rb s
  | .sub c rd ra rb => Sys2Proof.Machine.execSub c rd ra rb s
  | .andR c rd ra rb => Sys2Proof.Machine.execAndR c rd ra rb s
  | .orR c rd ra rb => Sys2Proof.Machine.execOrR c rd ra rb s
  | .xorR c rd ra rb => Sys2Proof.Machine.execXorR c rd ra rb s
  | .andn c rd ra rb => Sys2Proof.Machine.execAndn c rd ra rb s
  | .sll c rd ra rb => Sys2Proof.Machine.execSll c rd ra rb s
  | .srl c rd ra rb => Sys2Proof.Machine.execSrl c rd ra rb s
  | .sra c rd ra rb => Sys2Proof.Machine.execSra c rd ra rb s
  | .ror c rd ra rb => Sys2Proof.Machine.execRor c rd ra rb s
  | .slt c rd ra rb => Sys2Proof.Machine.execSlt c rd ra rb s
  | .sltu c rd ra rb => Sys2Proof.Machine.execSltu c rd ra rb s
  | .minS c rd ra rb => Sys2Proof.Machine.execMinS c rd ra rb s
  | .maxS c rd ra rb => Sys2Proof.Machine.execMaxS c rd ra rb s
  | .minu c rd ra rb => Sys2Proof.Machine.execMinu c rd ra rb s
  | .maxu c rd ra rb => Sys2Proof.Machine.execMaxu c rd ra rb s
  | .sel c rd ra rb => Sys2Proof.Machine.execSel c rd ra rb s
  | .clz c rd ra => Sys2Proof.Machine.execClz c rd ra s
  | .ctz c rd ra => Sys2Proof.Machine.execCtz c rd ra s
  | .pop c rd ra => Sys2Proof.Machine.execPop c rd ra s
  | .bswap c rd ra => Sys2Proof.Machine.execBswap c rd ra s
  | .addi c rd ra imm => Sys2Proof.Machine.execAddi c rd ra imm s
  | .andi c rd ra imm => Sys2Proof.Machine.execAndi c rd ra imm s
  | .ori c rd ra imm => Sys2Proof.Machine.execOri c rd ra imm s
  | .xori c rd ra imm => Sys2Proof.Machine.execXori c rd ra imm s
  | .slti c rd ra imm => Sys2Proof.Machine.execSlti c rd ra imm s
  | .sltiu c rd ra imm => Sys2Proof.Machine.execSltiu c rd ra imm s
  | .shi c rd ra imm => Sys2Proof.Machine.execShi c rd ra imm s
  | .movz c rd h imm => Sys2Proof.Machine.execMovz c rd h imm s
  | .movk c rd h imm => Sys2Proof.Machine.execMovk c rd h imm s
  | .mul c rd ra rb => Sys2Proof.Machine.execMul c rd ra rb s
  | .mulh c rd ra rb => Sys2Proof.Machine.execMulh c rd ra rb s
  | .mulhu c rd ra rb => Sys2Proof.Machine.execMulhu c rd ra rb s
  | .divS c rd ra rb => Sys2Proof.Machine.execDivS c rd ra rb s
  | .divu c rd ra rb => Sys2Proof.Machine.execDivu c rd ra rb s
  | .remS c rd ra rb => Sys2Proof.Machine.execRemS c rd ra rb s
  | .remu c rd ra rb => Sys2Proof.Machine.execRemu c rd ra rb s
  | .fadd c sp rd ra rb => Sys2Proof.Machine.execFadd c sp rd ra rb s
  | .fsub c sp rd ra rb => Sys2Proof.Machine.execFsub c sp rd ra rb s
  | .fmul c sp rd ra rb => Sys2Proof.Machine.execFmul c sp rd ra rb s
  | .fdiv c sp rd ra rb => Sys2Proof.Machine.execFdiv c sp rd ra rb s
  | .fsqrt c sp rd ra => Sys2Proof.Machine.execFsqrt c sp rd ra s
  | .fma c sp rd ra rb => Sys2Proof.Machine.execFma c sp rd ra rb s
  | .fmin c sp rd ra rb => Sys2Proof.Machine.execFmin c sp rd ra rb s
  | .fmax c sp rd ra rb => Sys2Proof.Machine.execFmax c sp rd ra rb s
  | .fceq c sp rd ra rb => Sys2Proof.Machine.execFceq c sp rd ra rb s
  | .fclt c sp rd ra rb => Sys2Proof.Machine.execFclt c sp rd ra rb s
  | .fcle c sp rd ra rb => Sys2Proof.Machine.execFcle c sp rd ra rb s
  | .fcvti c sp rd ra => Sys2Proof.Machine.execFcvti c sp rd ra s
  | .fcvtf c sp rd ra => Sys2Proof.Machine.execFcvtf c sp rd ra s
  | .fcvtp c sp rd ra => Sys2Proof.Machine.execFcvtp c sp rd ra s
  | .fclass c sp rd ra => Sys2Proof.Machine.execFclass c sp rd ra s
  | .ldb c rd ra imm => Sys2Proof.Machine.execLdb c rd ra imm s
  | .ldbu c rd ra imm => Sys2Proof.Machine.execLdbu c rd ra imm s
  | .ldh c rd ra imm => Sys2Proof.Machine.execLdh c rd ra imm s
  | .ldhu c rd ra imm => Sys2Proof.Machine.execLdhu c rd ra imm s
  | .ldw c rd ra imm => Sys2Proof.Machine.execLdw c rd ra imm s
  | .ldwu c rd ra imm => Sys2Proof.Machine.execLdwu c rd ra imm s
  | .ldd c rd ra imm => Sys2Proof.Machine.execLdd c rd ra imm s
  | .ldp c rd ra imm => Sys2Proof.Machine.execLdp c rd ra imm s
  | .lda c rd ra imm => Sys2Proof.Machine.execLda c rd ra imm s
  | .stb c rd ra imm => Sys2Proof.Machine.execStb c rd ra imm s
  | .sth c rd ra imm => Sys2Proof.Machine.execSth c rd ra imm s
  | .stw c rd ra imm => Sys2Proof.Machine.execStw c rd ra imm s
  | .std c rd ra imm => Sys2Proof.Machine.execStd c rd ra imm s
  | .stp c rd ra imm => Sys2Proof.Machine.execStp c rd ra imm s
  | .stl c rd ra imm => Sys2Proof.Machine.execStl c rd ra imm s
  | .vld c rd ra imm => Sys2Proof.Machine.execVld c rd ra imm s
  | .vst c rd ra imm => Sys2Proof.Machine.execVst c rd ra imm s
  | .ldx c aq rl dw rd ra => Sys2Proof.Machine.execLdx c aq rl dw rd ra s
  | .stx c aq rl dw rd ra rb => Sys2Proof.Machine.execStx c aq rl dw rd ra rb s
  | .swp c aq rl dw rd ra rb => Sys2Proof.Machine.execSwp c aq rl dw rd ra rb s
  | .cas c aq rl dw rd ra rb => Sys2Proof.Machine.execCas c aq rl dw rd ra rb s
  | .amadd c aq rl dw rd ra rb => Sys2Proof.Machine.execAmadd c aq rl dw rd ra rb s
  | .amand c aq rl dw rd ra rb => Sys2Proof.Machine.execAmand c aq rl dw rd ra rb s
  | .amor c aq rl dw rd ra rb => Sys2Proof.Machine.execAmor c aq rl dw rd ra rb s
  | .amxor c aq rl dw rd ra rb => Sys2Proof.Machine.execAmxor c aq rl dw rd ra rb s
  | .ammax c aq rl dw rd ra rb => Sys2Proof.Machine.execAmmax c aq rl dw rd ra rb s
  | .ammin c aq rl dw rd ra rb => Sys2Proof.Machine.execAmmin c aq rl dw rd ra rb s
  | .mcpy c rd ra rb => Sys2Proof.Machine.execMcpy c rd ra rb s
  | .mset c rd ra rb => Sys2Proof.Machine.execMset c rd ra rb s
  | .mcmp c rd ra rb => Sys2Proof.Machine.execMcmp c rd ra rb s
  | .vadd c sz vd va vb => Sys2Proof.Machine.execVadd c sz vd va vb s
  | .vsub c sz vd va vb => Sys2Proof.Machine.execVsub c sz vd va vb s
  | .vand c vd va vb => Sys2Proof.Machine.execVand c vd va vb s
  | .vor c vd va vb => Sys2Proof.Machine.execVor c vd va vb s
  | .vxor c vd va vb => Sys2Proof.Machine.execVxor c vd va vb s
  | .vsll c sz vd va vb => Sys2Proof.Machine.execVsll c sz vd va vb s
  | .vsrl c sz vd va vb => Sys2Proof.Machine.execVsrl c sz vd va vb s
  | .vsra c sz vd va vb => Sys2Proof.Machine.execVsra c sz vd va vb s
  | .vmin c sz vd va vb => Sys2Proof.Machine.execVmin c sz vd va vb s
  | .vmax c sz vd va vb => Sys2Proof.Machine.execVmax c sz vd va vb s
  | .vmul c sz vd va vb => Sys2Proof.Machine.execVmul c sz vd va vb s
  | .vceq c sz vd va vb => Sys2Proof.Machine.execVceq c sz vd va vb s
  | .vcgt c sz vd va vb => Sys2Proof.Machine.execVcgt c sz vd va vb s
  | .vperm c vd va vb => Sys2Proof.Machine.execVperm c vd va vb s
  | .vsplat c sz vd ga => Sys2Proof.Machine.execVsplat c sz vd ga s
  | .vext c sz gd va idx => Sys2Proof.Machine.execVext c sz gd va idx s
  | .vfadd c sp vd va vb => Sys2Proof.Machine.execVfadd c sp vd va vb s
  | .vfsub c sp vd va vb => Sys2Proof.Machine.execVfsub c sp vd va vb s
  | .vfmul c sp vd va vb => Sys2Proof.Machine.execVfmul c sp vd va vb s
  | .vfma c sp vd va vb => Sys2Proof.Machine.execVfma c sp vd va vb s
  | .vfdiv c sp vd va vb => Sys2Proof.Machine.execVfdiv c sp vd va vb s
  | .vfmin c sp vd va vb => Sys2Proof.Machine.execVfmin c sp vd va vb s
  | .vfmax c sp vd va vb => Sys2Proof.Machine.execVfmax c sp vd va vb s
  | .aese c vd va vb => Sys2Proof.Machine.execAese c vd va vb s
  | .aesel c vd va vb => Sys2Proof.Machine.execAesel c vd va vb s
  | .aesd c vd va vb => Sys2Proof.Machine.execAesd c vd va vb s
  | .aesdl c vd va vb => Sys2Proof.Machine.execAesdl c vd va vb s
  | .gmul c vd va vb => Sys2Proof.Machine.execGmul c vd va vb s
  | .sha512s c vd va vb => Sys2Proof.Machine.execSha512s c vd va vb s
  | .sha512r c vd va vb => Sys2Proof.Machine.execSha512r c vd va vb s
  | .sha3f c ga => Sys2Proof.Machine.execSha3f c ga s
  | .aqld c l vd ga => Sys2Proof.Machine.execAqld c l vd ga s
  | .aqst c l vd ga => Sys2Proof.Machine.execAqst c l vd ga s
  | .aclr c x ga => Sys2Proof.Machine.execAclr c x ga s
  | .aadd c l x va => Sys2Proof.Machine.execAadd c l x va s
  | .asub c l x va => Sys2Proof.Machine.execAsub c l x va s
  | .amac c l x va vb => Sys2Proof.Machine.execAmac c l x va vb s
  | .amacs c l x va vb => Sys2Proof.Machine.execAmacs c l x va vb s
  | .ascl c x ga => Sys2Proof.Machine.execAscl c x ga s
  | .arnd c l mode vd x => Sys2Proof.Machine.execArnd c l mode vd x s
  | .amrg c x ga => Sys2Proof.Machine.execAmrg c x ga s
  | .asav c x ga => Sys2Proof.Machine.execAsav c x ga s
  | .arst c x ga => Sys2Proof.Machine.execArst c x ga s
  | .aflg c gd x => Sys2Proof.Machine.execAflg c gd x s
  | .afclr c x => Sys2Proof.Machine.execAfclr c x s
  | .br c off => Sys2Proof.Machine.execBr c off s
  | .bal c off => Sys2Proof.Machine.execBal c off s
  | .bcc c cond ra rb off => Sys2Proof.Machine.execBcc c cond ra rb off s
  | .jalr c rd ra imm => Sys2Proof.Machine.execJalr c rd ra imm s
  | .jr c ra imm => Sys2Proof.Machine.execJr c ra imm s
  | .loop c ra imm => Sys2Proof.Machine.execLoop c ra imm s
  | .undefinedEncoding c w => Sys2Proof.Machine.execUndefinedEncoding c w s
  | .csrr c rd csr => Sys2Proof.Machine.execCsrr c rd csr s
  | .csrw c ra csr => Sys2Proof.Machine.execCsrw c ra csr s
  | .csrs c rd ra csr => Sys2Proof.Machine.execCsrs c rd ra csr s
  | .csrc c rd ra csr => Sys2Proof.Machine.execCsrc c rd ra csr s
  | .eret c => Sys2Proof.Machine.execEret c s
  | .calls c => Sys2Proof.Machine.execCalls c s
  | .callh c => Sys2Proof.Machine.execCallh c s
  | .callm c => Sys2Proof.Machine.execCallm c s
  | .brk c => Sys2Proof.Machine.execBrk c s
  | .wfe c => Sys2Proof.Machine.execWfe c s
  | .fence c m => Sys2Proof.Machine.execFence c m s
  | .sync c => Sys2Proof.Machine.execSync c s
  | .lbar c => Sys2Proof.Machine.execLbar c s
  | .ifence c => Sys2Proof.Machine.execIfence c s
  | .bpbar c => Sys2Proof.Machine.execBpbar c s
  | .bpflush c => Sys2Proof.Machine.execBpflush c s
  | .dcclean c ra => Sys2Proof.Machine.execDcclean c ra s
  | .dcflush c ra => Sys2Proof.Machine.execDcflush c ra s
  | .dcinv c ra => Sys2Proof.Machine.execDcinv c ra s
  | .dczero c ra => Sys2Proof.Machine.execDczero c ra s
  | .icinv c ra => Sys2Proof.Machine.execIcinv c ra s
  | .pfl c ra => Sys2Proof.Machine.execPfl c ra s
  | .pfs c ra => Sys2Proof.Machine.execPfs c ra s
  | .pfnt c ra => Sys2Proof.Machine.execPfnt c ra s
  | .tlbiva c ra => Sys2Proof.Machine.execTlbiva c ra s
  | .tlbiall c => Sys2Proof.Machine.execTlbiall c s
  | .tlbigva c ra => Sys2Proof.Machine.execTlbigva c ra s
  | .tlbidom c ra => Sys2Proof.Machine.execTlbidom c ra s
  | .npost c ra => Sys2Proof.Machine.execNpost c ra s
  | .nrecv c rd ra => Sys2Proof.Machine.execNrecv c rd ra s
  | .nwait c ra => Sys2Proof.Machine.execNwait c ra s
  | .rand c rd ra => Sys2Proof.Machine.execRand c rd ra s
  | .eventEntry c => Sys2Proof.Machine.execEventEntry c s
  | .longOperationComplete c => Sys2Proof.Machine.execLongOperationComplete c s
  | .storeWriteAfterRetirement c => Sys2Proof.Machine.execStoreWriteAfterRetirement c s
  | .memoryOrderReplay c => Sys2Proof.Machine.execMemoryOrderReplay c s
  | .streamPrefetch c => Sys2Proof.Machine.execStreamPrefetch c s
  | .sideBufferEntryExpire c la => Sys2Proof.Machine.execSideBufferEntryExpire c la s
  | .windowLockComplete c data => Sys2Proof.Machine.execWindowLockComplete c data s
  | .cacheWalkComplete c => Sys2Proof.Machine.execCacheWalkComplete c s
  | .rds c la td ks tord stream => Sys2Proof.Machine.execRds c la td ks tord stream s
  | .rdx c la td ks tord stream => Sys2Proof.Machine.execRdx c la td ks tord stream s
  | .upg c la => Sys2Proof.Machine.execUpg c la s
  | .rdz c la td ks => Sys2Proof.Machine.execRdz c la td ks s
  | .wb c la => Sys2Proof.Machine.execWb c la s
  | .evn c la => Sys2Proof.Machine.execEvn c la s
  | .crd la td ks => Sys2Proof.Machine.execCrd la td ks s
  | .cwr pa td ks bytes => Sys2Proof.Machine.execCwr pa td ks bytes s
  | .grantAcknowledgement c la => Sys2Proof.Machine.execGrantAcknowledgement c la s
  | .forwardShared c la => Sys2Proof.Machine.execForwardShared c la s
  | .forwardExclusive c la => Sys2Proof.Machine.execForwardExclusive c la s
  | .invalidation c la => Sys2Proof.Machine.execInvalidation c la s
  | .slcWaymaskWrite d mask => Sys2Proof.Machine.execSlcWaymaskWrite d mask s
  | .leakyBucketLeak b => Sys2Proof.Machine.execLeakyBucketLeak b s
  | .dieLinkFlitReceive r link ok => Sys2Proof.Machine.execDieLinkFlitReceive r link ok s
  | .linkRetrainComplete r link failed done => Sys2Proof.Machine.execLinkRetrainComplete r link failed done s
  | .meshFlitError b input e td => Sys2Proof.Machine.execMeshFlitError b input e td s
  | .readyEvaluation a => Sys2Proof.Machine.execReadyEvaluation a s
  | .rootSampling => Sys2Proof.Machine.execRootSampling s
  | .tickBoundary => Sys2Proof.Machine.execTickBoundary s
  | .toStoreStage b => Sys2Proof.Machine.execToStoreStage b s
  | .publishAcknowledgement b => Sys2Proof.Machine.execPublishAcknowledgement b s
  | .actionRegister b => Sys2Proof.Machine.execActionRegister b s
  | .actionResendRound a => Sys2Proof.Machine.execActionResendRound a s
  | .tickTimerPost c => Sys2Proof.Machine.execTickTimerPost c s
  | .holdLimitSlip td => Sys2Proof.Machine.execHoldLimitSlip td s
  | .ppsEdge refs => Sys2Proof.Machine.execPpsEdge refs s
  | .ppsLost => Sys2Proof.Machine.execPpsLost s
  | .routerPost src => Sys2Proof.Machine.execRouterPost src s
  | .msiMessage td rid off bytes => Sys2Proof.Machine.execMsiMessage td rid off bytes s
  | .heldPostDelivery msg n => Sys2Proof.Machine.execHeldPostDelivery msg n s
  | .routeWrite msg n v => Sys2Proof.Machine.execRouteWrite msg n v s
  | .logRecordWrite log r => Sys2Proof.Machine.execLogRecordWrite log r s
  | .logHtailWrite log p => Sys2Proof.Machine.execLogHtailWrite log p s
  | .stateErrorDetected e => Sys2Proof.Machine.execStateErrorDetected e s
  | .chipFatalStop src typ => Sys2Proof.Machine.execChipFatalStop src typ s
  | .pllLossOfLock => Sys2Proof.Machine.execPllLossOfLock s
  | .pllLock => Sys2Proof.Machine.execPllLock s
  | .memRead ch la td ks errs => Sys2Proof.Machine.execMemRead ch la td ks errs s
  | .dramReread ch errs => Sys2Proof.Machine.execDramReread ch errs s
  | .memWrite ch la td ks data poison => Sys2Proof.Machine.execMemWrite ch la td ks data poison s
  | .partialWrite ch pa td ks bytes => Sys2Proof.Machine.execPartialWrite ch pa td ks bytes s
  | .mergeEntryClose ch la errs => Sys2Proof.Machine.execMergeEntryClose ch la errs s
  | .rowIdleClose ch bank => Sys2Proof.Machine.execRowIdleClose ch bank s
  | .refreshBank ch bank => Sys2Proof.Machine.execRefreshBank ch bank s
  | .calibrationWindowOpen ch => Sys2Proof.Machine.execCalibrationWindowOpen ch s
  | .calibrationWindowClose ch => Sys2Proof.Machine.execCalibrationWindowClose ch s
  | .writeCrcError ch la => Sys2Proof.Machine.execWriteCrcError ch la s
  | .retrainChan ch => Sys2Proof.Machine.execRetrainChan ch s
  | .retrainComplete ch ok => Sys2Proof.Machine.execRetrainComplete ch ok s
  | .channelIdleRet ch => Sys2Proof.Machine.execChannelIdleRet ch s
  | .channelWake ch => Sys2Proof.Machine.execChannelWake ch s
  | .trainChan ch speed => Sys2Proof.Machine.execTrainChan ch speed s
  | .fillComplete => Sys2Proof.Machine.execFillComplete s
  | .scrubPassStart ch => Sys2Proof.Machine.execScrubPassStart ch s
  | .scrubRead ch errs => Sys2Proof.Machine.execScrubRead ch errs s
  | .deviceBankBucketLeak ch => Sys2Proof.Machine.execDeviceBankBucketLeak ch s
  | .markConfirm ch => Sys2Proof.Machine.execMarkConfirm ch s
  | .rowRepairLive ch ok bad => Sys2Proof.Machine.execRowRepairLive ch ok bad s
  | .keyLoad => Sys2Proof.Machine.execKeyLoad s
  | .keyGenerate => Sys2Proof.Machine.execKeyGenerate s
  | .keyNull => Sys2Proof.Machine.execKeyNull s
  | .keyCommandComplete => Sys2Proof.Machine.execKeyCommandComplete s
  | .tlbShootdown => Sys2Proof.Machine.execTlbShootdown s
  | .shootdownComplete => Sys2Proof.Machine.execShootdownComplete s
  | .atsInvalidateCompletion r rid => Sys2Proof.Machine.execAtsInvalidateCompletion r rid s
  | .atsInvalidationTimeout r rid => Sys2Proof.Machine.execAtsInvalidationTimeout r rid s
  | .dmaRequest r rid pasid addr wr len => Sys2Proof.Machine.execDmaRequest r rid pasid addr wr len s
  | .translatedRequest r rid pasid addr wr len => Sys2Proof.Machine.execTranslatedRequest r rid pasid addr wr len s
  | .atsTranslationRequest r rid pasid addr => Sys2Proof.Machine.execAtsTranslationRequest r rid pasid addr s
  | .pageRequest r rid pasid addr group wr last => Sys2Proof.Machine.execPageRequest r rid pasid addr group wr last s
  | .pageRequestGroupResponse r v => Sys2Proof.Machine.execPageRequestGroupResponse r v s
  | .iotEqbWrite r v => Sys2Proof.Machine.execIotEqbWrite r v s
  | .dbTailWrite r n td tail => Sys2Proof.Machine.execDbTailWrite r n td tail s
  | .resumeDesc r n td => Sys2Proof.Machine.execResumeDesc r n td s
  | .skipDesc r n td => Sys2Proof.Machine.execSkipDesc r n td s
  | .enableInst r n => Sys2Proof.Machine.execEnableInst r n s
  | .quiesceInst r n desc => Sys2Proof.Machine.execQuiesceInst r n desc s
  | .quiesceComplete r n => Sys2Proof.Machine.execQuiesceComplete r n s
  | .runInst r n => Sys2Proof.Machine.execRunInst r n s
  | .resetInst r n => Sys2Proof.Machine.execResetInst r n s
  | .saveInst r n => Sys2Proof.Machine.execSaveInst r n s
  | .restoreInst r n => Sys2Proof.Machine.execRestoreInst r n s
  | .instCmdUndefined r n op => Sys2Proof.Machine.execInstCmdUndefined r n op s
  | .chunkDispatch r => Sys2Proof.Machine.execChunkDispatch r s
  | .descriptorStart r n => Sys2Proof.Machine.execDescriptorStart r n s
  | .chunkComplete r n => Sys2Proof.Machine.execChunkComplete r n s
  | .descriptorCompletion r n => Sys2Proof.Machine.execDescriptorCompletion r n s
  | .apertureWrite r w td rid off rd bytes hdr => Sys2Proof.Machine.execApertureWrite r w td rid off rd bytes hdr s
  | .ibwCommit r mask => Sys2Proof.Machine.execIbwCommit r mask s
  | .ibwCommitPoint r => Sys2Proof.Machine.execIbwCommitPoint r s
  | .functionContainment r cause unit pipe => Sys2Proof.Machine.execFunctionContainment r cause unit pipe s
  | .containmentRelease r => Sys2Proof.Machine.execContainmentRelease r s
  | .containmentReleaseEffect r => Sys2Proof.Machine.execContainmentReleaseEffect r s
  | .powerstateWrite r v => Sys2Proof.Machine.execPowerstateWrite r v s
  | .pmeStatusClear r => Sys2Proof.Machine.execPmeStatusClear r s
  | .commandRegisterWrite r v => Sys2Proof.Machine.execCommandRegisterWrite r v s
  | .msixEntryUnmask r e => Sys2Proof.Machine.execMsixEntryUnmask r e s
  | .linkTraining r f width rate cap failed => Sys2Proof.Machine.execLinkTraining r f width rate cap failed s
  | .completionReceived r f tag k data hdr => Sys2Proof.Machine.execCompletionReceived r f tag k data hdr s
  | .completionTimeout r f tag => Sys2Proof.Machine.execCompletionTimeout r f tag s
  | .tagQuarantineEnd r f tag => Sys2Proof.Machine.execTagQuarantineEnd r f tag s
  | .crsRetry r f tag => Sys2Proof.Machine.execCrsRetry r f tag s
  | .pcieMessageReceived r f k hdr => Sys2Proof.Machine.execPcieMessageReceived r f k hdr s
  | .errorMessageReceived r f k hdr => Sys2Proof.Machine.execErrorMessageReceived r f k hdr s
  | .pmeMessageReceived r f rid => Sys2Proof.Machine.execPmeMessageReceived r f rid s
  | .downstreamRequest r f rid pasid k addr bytes len hdr => Sys2Proof.Machine.execDownstreamRequest r f rid pasid k addr bytes len hdr s
  | .linkErrorCorrected r f bit => Sys2Proof.Machine.execLinkErrorCorrected r f bit s
  | .dpcTrigger r f cause hdr => Sys2Proof.Machine.execDpcTrigger r f cause hdr s
  | .dpcTriggerStatusClear r f => Sys2Proof.Machine.execDpcTriggerStatusClear r f s
  | .retEntryComplete c => Sys2Proof.Machine.execRetEntryComplete c s
  | .coreWake c => Sys2Proof.Machine.execCoreWake c s
  | .powerTransitionComplete n => Sys2Proof.Machine.execPowerTransitionComplete n s
  | .padholdRel n => Sys2Proof.Machine.execPadholdRel n s
  | .stackIdleRet n => Sys2Proof.Machine.execStackIdleRet n s
  | .stackWake n cause => Sys2Proof.Machine.execStackWake n cause s
  | .daybreak frame => Sys2Proof.Machine.execDaybreak frame s
  | .telemetrySample power temp regs => Sys2Proof.Machine.execTelemetrySample power temp regs s
  | .resetNAssert => Sys2Proof.Machine.execResetNAssert s
  | .startDevice => Sys2Proof.Machine.execStartDevice s
  | .phaseOverrun => Sys2Proof.Machine.execPhaseOverrun s
  | .slotSelection => Sys2Proof.Machine.execSlotSelection s
  | .handover => Sys2Proof.Machine.execHandover s
  | .releaseBoot => Sys2Proof.Machine.execReleaseBoot s
  | .lockBoot => Sys2Proof.Machine.execLockBoot s
  | .bootLockTimeout => Sys2Proof.Machine.execBootLockTimeout s
  | .releaseComplete => Sys2Proof.Machine.execReleaseComplete s
  | .imageSessionOpen dest => Sys2Proof.Machine.execImageSessionOpen dest s
  | .imageHeader hdr => Sys2Proof.Machine.execImageHeader hdr s
  | .imageBody body => Sys2Proof.Machine.execImageBody body s
  | .finalizeImg => Sys2Proof.Machine.execFinalizeImg s
  | .liveRestartComplete => Sys2Proof.Machine.execLiveRestartComplete s
  | .monitorPlacement => Sys2Proof.Machine.execMonitorPlacement s
  | .nonceSign port nonce => Sys2Proof.Machine.execNonceSign port nonce s
  | .slateRead port seq idx sub data => Sys2Proof.Machine.execSlateRead port seq idx sub data s
  | .slateWrite port seq idx sub data => Sys2Proof.Machine.execSlateWrite port seq idx sub data s
  | .slateStage port seq idx sub data => Sys2Proof.Machine.execSlateStage port seq idx sub data s
  | .slateCommit port seq data => Sys2Proof.Machine.execSlateCommit port seq data s
  | .slateDiscard port seq data => Sys2Proof.Machine.execSlateDiscard port seq data s
  | .snapshotTimeout port => Sys2Proof.Machine.execSnapshotTimeout port s
  | .writeBufferTimeout port => Sys2Proof.Machine.execWriteBufferTimeout port s
  | .logFldPointerWrite log p => Sys2Proof.Machine.execLogFldPointerWrite log p s
  | .proposalReject ch => Sys2Proof.Machine.execProposalReject ch s
  | .spiReadStatus => Sys2Proof.Machine.execSpiReadStatus s
  | .spiWriteMessage msg => Sys2Proof.Machine.execSpiWriteMessage msg s
  | .spiWriteMessageQuad msg => Sys2Proof.Machine.execSpiWriteMessageQuad msg s
  | .spiReadResponse n => Sys2Proof.Machine.execSpiReadResponse n s
  | .spiReadResponseQuad n => Sys2Proof.Machine.execSpiReadResponseQuad n s
  | .spiTransactionNak opcode bytes => Sys2Proof.Machine.execSpiTransactionNak opcode bytes s
  | .fieldFrame f => Sys2Proof.Machine.execFieldFrame f s
  | .busOffRecovery => Sys2Proof.Machine.execBusOffRecovery s
  | .hostMailboxGo td => Sys2Proof.Machine.execHostMailboxGo td s
  | .idcodeTap => Sys2Proof.Machine.execIdcodeTap s
  | .slateTap bytes bits => Sys2Proof.Machine.execSlateTap bytes bits s
  | .clearTap => Sys2Proof.Machine.execClearTap s
  | .scanTap => Sys2Proof.Machine.execScanTap s
  | .bypassTap ir => Sys2Proof.Machine.execBypassTap ir s
  | .lbistDemandStart r u => Sys2Proof.Machine.execLbistDemandStart r u s
  | .lbistAbort r u => Sys2Proof.Machine.execLbistAbort r u s
  | .lbistPatternTimeout r u => Sys2Proof.Machine.execLbistPatternTimeout r u s
  | .lbistRunEnd r u pat sig cause => Sys2Proof.Machine.execLbistRunEnd r u pat sig cause s
  | .blockReplacementComplete r => Sys2Proof.Machine.execBlockReplacementComplete r s
  | .blockTestEnd r p ok repairs => Sys2Proof.Machine.execBlockTestEnd r p ok repairs s
  | .thermalTrip die => Sys2Proof.Machine.execThermalTrip die s
  | .pwrgoodLoss => Sys2Proof.Machine.execPwrgoodLoss s
  | .registerWrite td pa bytes => Sys2Proof.Machine.execRegisterWrite td pa bytes s
  | .powerOn => Sys2Proof.Machine.execPowerOn s
  | .powerRemoved => Sys2Proof.Machine.execPowerRemoved s
  | .railRangeChange bit inRange => Sys2Proof.Machine.execRailRangeChange bit inRange s
  | .busError tx inc => Sys2Proof.Machine.execBusError tx inc s
  | .canFdClockSwitch => Sys2Proof.Machine.execCanFdClockSwitch s
  | .morningRestartComplete r => Sys2Proof.Machine.execMorningRestartComplete r s
  | .commandSlot ch => Sys2Proof.Machine.execCommandSlot ch s

end Sys2Proof.Machine
end

