-- ==== Sys2Proof/Safety.lean ====
section
/-! DEFINITION. What counts as a sound state, in the terms that statements use. -/

namespace Sys2Proof.Machine

/-- Every memory is in its canonical form: addresses strictly rising, no entry equal to what an unlisted address reads
as (log 8). -/
def State.MemOk (s : State) : Prop :=
  s.dram.wf = true ∧ s.sram.wf = true ∧ s.slcRam.wf = true ∧ s.flash.wf = true

/-- The architectural registers of a core and its store queue: a core without its caches and translation entries, its
pending bits, its reservation, the break record of a metered window, and the shootdown's mark on its stores, which other
units and the fetch change. -/
def Core.arch (k : Core) : Core :=
  { k with
    sq := k.sq.map (fun e => { e with old := false })
    pend := [], resv := none, l1i := [], l1d := [], l2 := [], vc := [], sb := [], lost := [], lineBuf := [], loopBuf := none
    tlb := [], wcache := [], trackers := [], mbreak := false, mcause := 0, mbpc := 0 }

/-! ### An instruction that reaches its own work (R43, R88, R92, R105) -/

/-- The results that the instruction waits for have arrived (R105). -/
def State.arrived (s : State) (c : Nat) (ser : Bool) (reads : List LDest) : State :=
  s.modCore c (fun k => k.completeWhere (needsLong ser reads))

/-- The state in which an instruction does its own work: what it waits for has arrived, it has been fetched, and the
outstanding results of the registers it writes have lost their destination (R88, R105). -/
def State.begun (s : State) (c : Nat) (ser : Bool) (reads writes : List LDest) : State :=
  ((s.arrived c ser reads).fetchCheck c).2.modCore c (fun k => { k with
    longs := k.longs.map (fun o => if writes.contains o.dest && o.dest != .none && !o.failed then { o with dest := .none } else o) })

/-- Core `c` executes an instruction: it is present, ON and running, no asynchronous event is taken before it, none of
the results it waits for has failed, and its fetch succeeds (R43, R88, R105, R230, R353). -/
structure State.Ready (s : State) (c : Nat) (ser : Bool) (reads : List LDest) : Prop where
  live : s.coreLive c = true
  runs : (s.core c).run = .run
  quiet : (s.core c).half.isSome = true ∨ (s.core c).asyncPick = none
  whole : ((s.arrived c ser reads).core c).longs.find? (fun o => o.failed && needsLong ser reads o) = none
  fetched : ((s.arrived c ser reads).fetchCheck c).1 = .ok ()
  served : ((s.arrived c ser reads).fetchCheck c).2.waits = false

/-- The state after an instruction that changes its core by `f` and goes on to the next: it retires and its cycles
pass (R61, R85, R103). -/
def State.after (b : State) (c met : Nat) (f : Core → Core) : State :=
  (b.modCore c f).retire c met false ((b.core c).pc + 4)

/-- The state after an instruction that changes its core by `f` and jumps to `t` (R85, R103). -/
def State.jumped (b : State) (c met : Nat) (f : Core → Core) (t : W64) : State := (b.modCore c f).retire c met true t

/-- The state after an instruction that raises event `e` before it changed anything (R45, R49, R61). -/
def State.trapped (b : State) (c met : Nat) (e : Exc) : State := (b.raise c e).cycles c met

/-- Core `c` with `v` in G[rd] (R31). -/
def Core.setG (k : Core) (rd : Reg) (v : W64) : Core := { k with g := k.g.set rd v }
/-- Core `c` with `v` in V[vd] (R31). -/
def Core.setV (k : Core) (vd : Reg) (v : W256) : Core := { k with v := k.v.set vd v }

/-- Core `c` with `a` in A[x] (R31). -/
def Core.setA (k : Core) (x : Fin 8) (a : AmAcc) : Core := { k with acc := k.acc.set x a }
/-- The core with the FPCSR flags of `flags` set (R66). -/
def Core.raises (k : Core) (flags : Nat) : Core := { k with fpcsr := k.fpcsr ||| BitVec.ofNat 64 flags }
/-- The core with one more operation outstanding, the youngest (R105). -/
def Core.leaves (k : Core) (op : LongOp) : Core := { k with longs := k.longs ++ [op] }

/-! ### What a statement about an instruction says -/

/-- On a core that executes it, instruction `i` completes: it changes its core by `f`, retires, and changes nothing
else. -/
def Changes (i : Instr) (s : State) (c met : Nat) (ser : Bool) (reads writes : List LDest) (f : Core → Core) : Prop :=
  s.Ready c ser reads → exec i s = .next ((s.begun c ser reads writes).after c met f)

/-- Instruction `i` completes with `v` of its core in G[rd] and no other effect. -/
def SetsG (i : Instr) (s : State) (c met : Nat) (reads : List LDest) (rd : Reg) (v : Core → W64) : Prop :=
  Changes i s c met false reads [.g rd] (fun k => k.setG rd (v k))

/-- Instruction `i` completes with `v` of its core in V[vd] and no other effect. -/
def SetsV (i : Instr) (s : State) (c met : Nat) (reads : List LDest) (vd : Reg) (v : Core → W256) : Prop :=
  Changes i s c met false reads [.v vd] (fun k => k.setV vd (v k))

/-- A long operation `i` of a core that runs its long operations attached completes as any other instruction does
(R104). -/
def ChangesLong (i : Instr) (s : State) (c met : Nat) (reads writes : List LDest) (f : Core → Core) : Prop :=
  s.Ready c false reads → ((s.begun c false reads writes).core c).detached = false →
    exec i s = .next ((s.begun c false reads writes).after c met f)

/-- A long operation `i` of a core that runs them detached retires at once and leaves `op` outstanding, the youngest;
fewer than eight are outstanding before it (R105). -/
def Detaches (i : Instr) (s : State) (c met : Nat) (reads writes : List LDest) (op : Core → LongOp) : Prop :=
  s.Ready c false reads → ((s.begun c false reads writes).core c).detached = true →
    ((s.begun c false reads writes).core c).longs.length < 8 →
    exec i s = .next ((s.begun c false reads writes).after c met (fun k => k.leaves (op k)))

/-- A floating-point instruction `i` whose exceptions are `flags` of its core, a set of FPCSR flag bits: it sets the
flags, and it writes its result, as `put` does, unless one of them is enabled; then it raises FP_TRAP (R67). -/
def Floats (i : Instr) (s : State) (c met : Nat) (reads writes : List LDest) (flags : Core → Nat)
    (put : Core → Core) : Prop :=
  let b := s.begun c false reads writes
  let fl := flags (b.core c)
  (fl &&& fld (b.core c).fpcsr 8 5 = 0 →
    exec i s = .next (b.after c met (fun k => (put k).raises fl)))
  ∧ (fl &&& fld (b.core c).fpcsr 8 5 ≠ 0 →
    exec i s = .next (s.orWait
      ((b.modCore c (fun k => k.raises fl)).trapped c met (mkExc 11))))

/-! ### Accesses of memory that succeed (R62, R68, R72) -/

/-- The access of `n` bytes from `va`, aligned to `al`, translates, passes its checks and reads `bs`; `t` is the state
with its translations and line fills. -/
def State.Loads (b : State) (c met prog : Nat) (a : Acc) (use : DevUse) (last : Option PDest) (va n al : Nat)
    (bs : List Byte) (t : State) : Prop :=
  va % al = 0 ∧ t.waits = false ∧
    ∃ hs s1, b.checkAccess c a use va n al = (.ok hs, s1) ∧ s1.loadHalves c met prog a last hs = .ok bs t

/-- The access of the bytes `bs` at `va`, aligned to `al`, translates, passes its checks and is performed; `t` is the
state that results. -/
def State.Stores (b : State) (c met : Nat) (use : DevUse) (va al : Nat) (bs : List Byte) (t : State) : Prop :=
  va % al = 0 ∧ t.waits = false ∧
    ∃ hs s1 r, b.checkAccess c accStore use va bs.length al = (.ok hs, s1)
      ∧ s1.storeHalves c met accStore false true [] none hs bs = .ok r t

/-- The plain halves of a store enter the store queue in order, each with its own bytes (R71, R101). -/
def State.pushHalves (c td : Nat) : List Half → List Byte → State → State
  | [], _, s => s
  | h :: t, bs, s => State.pushHalves c td t (bs.drop h.n) (s.pushStore c td h (bs.take h.n) false none)

/-- The aligned operand of an atomic at `va` lies in half `h`, its checks pass, every older store has been written, the
line is owned, and its old value is `old`; `t` is the state that results (R69, R100). -/
def State.Owns (b : State) (c va n : Nat) (h : Half) (old : Nat) (t : State) : Prop :=
  ∃ s1 s2 bs, b.checkRmw c va n = (.ok [h], s1) ∧ s1.drainAll c = (true, s2)
    ∧ (s2.homed h.acc.pa && s2.walkStalls c (h.acc.pa / 64)) = false
    ∧ ((s2.commitHalves c accRmw [h]).ownLine c h).readHalf c
        (((s2.commitHalves c accRmw [h]).ownLine c h).core c).td 0 h = .ok bs t
    ∧ old = leNat bs

/-- `r` is the value `a` at scale `t` read out at scale `d` in mode `m`: exact where `t ≤ d`, else a multiple of
`D = 10 ^ (t - d)` chosen by the mode (R163, R164). -/
def ReadsOut (a : Int) (t d m : Nat) (r : Int) : Prop :=
  let D : Int := 10 ^ (t - d)
  if t ≤ d then r = a * 10 ^ (d - t)
  else match m with
    | 0 => 2 * (r * D - a) ≤ D ∧ -D ≤ 2 * (r * D - a)
        ∧ (2 * (r * D - a) = D ∨ 2 * (r * D - a) = -D → r % 2 = 0)
    | 1 => 2 * (r * D - a) ≤ D ∧ -D ≤ 2 * (r * D - a)
        ∧ (2 * (r * D - a) = D → 0 < a) ∧ (2 * (r * D - a) = -D → a < 0)
    | 2 => if 0 ≤ a then r * D ≤ a ∧ a < r * D + D else a ≤ r * D ∧ r * D - D < a
    | 3 => r * D ≤ a ∧ a < r * D + D
    | 4 => a ≤ r * D ∧ r * D - D < a
    | _ => r * D = a

/-! ### Which cores' registers a command leaves (R8, R31, R44) -/

/-- Command `i` can leave the registers of core `d` as they are (Core.arch): an instruction of another core that stores
nothing, or that stores atomically or through the accumulator array, and every command of the fabric, the memories, the links and Dawn
that stops, resets, slips or releases no core and hands a core no answer. A store is not among them: a store to the register
space can start, stop or reset another core. -/
def leavesCore (d : Nat) : Instr → Bool
  | .add c _ _ _ => d != c
  | .sub c _ _ _ => d != c
  | .andR c _ _ _ => d != c
  | .orR c _ _ _ => d != c
  | .xorR c _ _ _ => d != c
  | .andn c _ _ _ => d != c
  | .sll c _ _ _ => d != c
  | .srl c _ _ _ => d != c
  | .sra c _ _ _ => d != c
  | .ror c _ _ _ => d != c
  | .slt c _ _ _ => d != c
  | .sltu c _ _ _ => d != c
  | .minS c _ _ _ => d != c
  | .maxS c _ _ _ => d != c
  | .minu c _ _ _ => d != c
  | .maxu c _ _ _ => d != c
  | .sel c _ _ _ => d != c
  | .clz c _ _ => d != c
  | .ctz c _ _ => d != c
  | .pop c _ _ => d != c
  | .bswap c _ _ => d != c
  | .addi c _ _ _ => d != c
  | .andi c _ _ _ => d != c
  | .ori c _ _ _ => d != c
  | .xori c _ _ _ => d != c
  | .slti c _ _ _ => d != c
  | .sltiu c _ _ _ => d != c
  | .shi c _ _ _ => d != c
  | .movz c _ _ _ => d != c
  | .movk c _ _ _ => d != c
  | .mul c _ _ _ => d != c
  | .mulh c _ _ _ => d != c
  | .mulhu c _ _ _ => d != c
  | .divS c _ _ _ => d != c
  | .divu c _ _ _ => d != c
  | .remS c _ _ _ => d != c
  | .remu c _ _ _ => d != c
  | .fadd c _ _ _ _ => d != c
  | .fsub c _ _ _ _ => d != c
  | .fmul c _ _ _ _ => d != c
  | .fdiv c _ _ _ _ => d != c
  | .fsqrt c _ _ _ => d != c
  | .fma c _ _ _ _ => d != c
  | .fmin c _ _ _ _ => d != c
  | .fmax c _ _ _ _ => d != c
  | .fceq c _ _ _ _ => d != c
  | .fclt c _ _ _ _ => d != c
  | .fcle c _ _ _ _ => d != c
  | .fcvti c _ _ _ => d != c
  | .fcvtf c _ _ _ => d != c
  | .fcvtp c _ _ _ => d != c
  | .fclass c _ _ _ => d != c
  | .ldb c _ _ _ => d != c
  | .ldbu c _ _ _ => d != c
  | .ldh c _ _ _ => d != c
  | .ldhu c _ _ _ => d != c
  | .ldw c _ _ _ => d != c
  | .ldwu c _ _ _ => d != c
  | .ldd c _ _ _ => d != c
  | .ldp c _ _ _ => d != c
  | .lda c _ _ _ => d != c
  | .stb _ _ _ _ => false
  | .sth _ _ _ _ => false
  | .stw _ _ _ _ => false
  | .std _ _ _ _ => false
  | .stp _ _ _ _ => false
  | .stl _ _ _ _ => false
  | .vld c _ _ _ => d != c
  | .vst _ _ _ _ => false
  | .ldx c _ _ _ _ _ => d != c
  | .stx c _ _ _ _ _ _ => d != c
  | .swp c _ _ _ _ _ _ => d != c
  | .cas c _ _ _ _ _ _ => d != c
  | .amadd c _ _ _ _ _ _ => d != c
  | .amand c _ _ _ _ _ _ => d != c
  | .amor c _ _ _ _ _ _ => d != c
  | .amxor c _ _ _ _ _ _ => d != c
  | .ammax c _ _ _ _ _ _ => d != c
  | .ammin c _ _ _ _ _ _ => d != c
  | .mcpy _ _ _ _ => false
  | .mset _ _ _ _ => false
  | .mcmp c _ _ _ => d != c
  | .vadd c _ _ _ _ => d != c
  | .vsub c _ _ _ _ => d != c
  | .vand c _ _ _ => d != c
  | .vor c _ _ _ => d != c
  | .vxor c _ _ _ => d != c
  | .vsll c _ _ _ _ => d != c
  | .vsrl c _ _ _ _ => d != c
  | .vsra c _ _ _ _ => d != c
  | .vmin c _ _ _ _ => d != c
  | .vmax c _ _ _ _ => d != c
  | .vmul c _ _ _ _ => d != c
  | .vceq c _ _ _ _ => d != c
  | .vcgt c _ _ _ _ => d != c
  | .vperm c _ _ _ => d != c
  | .vsplat c _ _ _ => d != c
  | .vext c _ _ _ _ => d != c
  | .vfadd c _ _ _ _ => d != c
  | .vfsub c _ _ _ _ => d != c
  | .vfmul c _ _ _ _ => d != c
  | .vfma c _ _ _ _ => d != c
  | .vfdiv c _ _ _ _ => d != c
  | .vfmin c _ _ _ _ => d != c
  | .vfmax c _ _ _ _ => d != c
  | .aese c _ _ _ => d != c
  | .aesel c _ _ _ => d != c
  | .aesd c _ _ _ => d != c
  | .aesdl c _ _ _ => d != c
  | .gmul c _ _ _ => d != c
  | .sha512s c _ _ _ => d != c
  | .sha512r c _ _ _ => d != c
  | .sha3f _ _ => false
  | .aqld c _ _ _ => d != c
  | .aqst _ _ _ _ => false
  | .aclr c _ _ => d != c
  | .aadd c _ _ _ => d != c
  | .asub c _ _ _ => d != c
  | .amac c _ _ _ _ => d != c
  | .amacs c _ _ _ _ => d != c
  | .ascl c _ _ => d != c
  | .arnd c _ _ _ _ => d != c
  | .amrg c _ _ => d != c
  | .asav _ _ _ => false
  | .arst c _ _ => d != c
  | .aflg c _ _ => d != c
  | .afclr c _ => d != c
  | .br c _ => d != c
  | .bal c _ => d != c
  | .bcc c _ _ _ _ => d != c
  | .jalr c _ _ _ => d != c
  | .jr c _ _ => d != c
  | .loop c _ _ => d != c
  | .undefinedEncoding c _ => d != c
  | .csrr c _ _ => d != c
  | .csrw c _ _ => d != c
  | .csrs c _ _ _ => d != c
  | .csrc c _ _ _ => d != c
  | .eret c => d != c
  | .calls c => d != c
  | .callh c => d != c
  | .callm c => d != c
  | .brk c => d != c
  | .wfe c => d != c
  | .fence c _ => d != c
  | .sync c => d != c
  | .lbar c => d != c
  | .ifence c => d != c
  | .bpbar c => d != c
  | .bpflush c => d != c
  | .dcclean c _ => d != c
  | .dcflush c _ => d != c
  | .dcinv c _ => d != c
  | .dczero _ _ => false
  | .icinv c _ => d != c
  | .pfl c _ => d != c
  | .pfs c _ => d != c
  | .pfnt c _ => d != c
  | .tlbiva c _ => d != c
  | .tlbiall c => d != c
  | .tlbigva c _ => d != c
  | .tlbidom c _ => d != c
  | .npost _ _ => false
  | .nrecv _ _ _ => false
  | .nwait c _ => d != c
  | .rand c _ _ => d != c
  | .eventEntry c => d != c
  | .longOperationComplete c => d != c
  | .storeWriteAfterRetirement c => d != c
  | .memoryOrderReplay c => d != c
  | .streamPrefetch c => d != c
  | .sideBufferEntryExpire c _ => d != c
  | .windowLockComplete c _ => d != c
  | .cacheWalkComplete c => d != c
  | .rds c _ _ _ _ _ => d != c
  | .rdx c _ _ _ _ _ => d != c
  | .upg c _ => d != c
  | .rdz c _ _ _ => d != c
  | .wb c _ => d != c
  | .evn c _ => d != c
  | .crd _ _ _ => true
  | .cwr _ _ _ _ => true
  | .grantAcknowledgement c _ => d != c
  | .forwardShared c _ => d != c
  | .forwardExclusive c _ => d != c
  | .invalidation c _ => d != c
  | .slcWaymaskWrite _ _ => true
  | .leakyBucketLeak _ => true
  | .dieLinkFlitReceive _ _ _ => true
  | .linkRetrainComplete _ _ _ _ => false
  | .meshFlitError _ _ _ _ => false
  | .readyEvaluation _ => true
  | .rootSampling => true
  | .tickBoundary => false
  | .toStoreStage _ => true
  | .publishAcknowledgement _ => true
  | .actionRegister _ => true
  | .actionResendRound _ => true
  | .tickTimerPost c => d != c
  | .holdLimitSlip _ => false
  | .ppsEdge _ => true
  | .ppsLost => true
  | .routerPost _ => true
  | .msiMessage _ _ _ _ => true
  | .heldPostDelivery _ _ => true
  | .routeWrite _ _ _ => true
  | .logRecordWrite _ _ => true
  | .logHtailWrite _ _ => true
  | .stateErrorDetected _ => false
  | .chipFatalStop _ _ => false
  | .pllLossOfLock => false
  | .pllLock => true
  | .memRead _ _ _ _ _ => true
  | .dramReread _ _ => true
  | .memWrite _ _ _ _ _ _ => true
  | .partialWrite _ _ _ _ _ => true
  | .mergeEntryClose _ _ _ => true
  | .rowIdleClose _ _ => true
  | .refreshBank _ _ => true
  | .calibrationWindowOpen _ => true
  | .calibrationWindowClose _ => true
  | .writeCrcError _ _ => true
  | .retrainChan _ => true
  | .retrainComplete _ _ => true
  | .channelIdleRet _ => true
  | .channelWake _ => true
  | .trainChan _ _ => true
  | .fillComplete => true
  | .scrubPassStart _ => true
  | .scrubRead _ _ => true
  | .deviceBankBucketLeak _ => true
  | .markConfirm _ => true
  | .rowRepairLive _ _ _ => true
  | .keyLoad => true
  | .keyGenerate => true
  | .keyNull => true
  | .keyCommandComplete => true
  | .tlbShootdown => true
  | .shootdownComplete => true
  | .atsInvalidateCompletion _ _ => true
  | .atsInvalidationTimeout _ _ => true
  | .dmaRequest _ _ _ _ _ _ => true
  | .translatedRequest _ _ _ _ _ _ => true
  | .atsTranslationRequest _ _ _ _ => true
  | .pageRequest _ _ _ _ _ _ _ => true
  | .pageRequestGroupResponse _ _ => true
  | .iotEqbWrite _ _ => true
  | .dbTailWrite _ _ _ _ => true
  | .resumeDesc _ _ _ => true
  | .skipDesc _ _ _ => true
  | .enableInst _ _ => true
  | .quiesceInst _ _ _ => true
  | .quiesceComplete _ _ => true
  | .runInst _ _ => true
  | .resetInst _ _ => true
  | .saveInst _ _ => true
  | .restoreInst _ _ => true
  | .instCmdUndefined _ _ _ => true
  | .chunkDispatch _ => true
  | .descriptorStart _ _ => true
  | .chunkComplete _ _ => true
  | .descriptorCompletion _ _ => true
  | .apertureWrite _ _ _ _ _ _ _ _ => true
  | .ibwCommit _ _ => true
  | .ibwCommitPoint _ => true
  | .functionContainment _ _ _ _ => true
  | .containmentRelease _ => true
  | .containmentReleaseEffect _ => true
  | .powerstateWrite _ _ => true
  | .pmeStatusClear _ => true
  | .commandRegisterWrite _ _ => true
  | .msixEntryUnmask _ _ => true
  | .linkTraining _ _ _ _ _ _ => true
  | .completionReceived _ _ _ _ _ _ => false
  | .completionTimeout _ _ _ => false
  | .tagQuarantineEnd _ _ _ => true
  | .crsRetry _ _ _ => true
  | .pcieMessageReceived _ _ _ _ => true
  | .errorMessageReceived _ _ _ _ => false
  | .pmeMessageReceived _ _ _ => true
  | .downstreamRequest _ _ _ _ _ _ _ _ _ => true
  | .linkErrorCorrected _ _ _ => true
  | .dpcTrigger _ _ _ _ => false
  | .dpcTriggerStatusClear _ _ => true
  | .retEntryComplete _ => false
  | .coreWake c => d != c
  | .powerTransitionComplete _ => false
  | .padholdRel _ => true
  | .stackIdleRet _ => false
  | .stackWake _ _ => true
  | .daybreak _ => false
  | .telemetrySample _ _ _ => true
  | .resetNAssert => false
  | .startDevice => true
  | .phaseOverrun => true
  | .slotSelection => false
  | .handover => true
  | .releaseBoot => true
  | .lockBoot => true
  | .bootLockTimeout => true
  | .releaseComplete => false
  | .imageSessionOpen _ => true
  | .imageHeader _ => true
  | .imageBody _ => true
  | .finalizeImg => false
  | .liveRestartComplete => true
  | .monitorPlacement => true
  | .nonceSign _ _ => true
  | .slateRead _ _ _ _ _ => false
  | .slateWrite _ _ _ _ _ => false
  | .slateStage _ _ _ _ _ => false
  | .slateCommit _ _ _ => false
  | .slateDiscard _ _ _ => false
  | .snapshotTimeout _ => true
  | .writeBufferTimeout _ => true
  | .logFldPointerWrite _ _ => true
  | .proposalReject _ => true
  | .spiReadStatus => true
  | .spiWriteMessage _ => false
  | .spiWriteMessageQuad _ => false
  | .spiReadResponse _ => true
  | .spiReadResponseQuad _ => true
  | .spiTransactionNak _ _ => true
  | .fieldFrame _ => false
  | .busOffRecovery => true
  | .hostMailboxGo _ => false
  | .idcodeTap => true
  | .slateTap _ _ => false
  | .clearTap => true
  | .scanTap => true
  | .bypassTap _ => true
  | .lbistDemandStart _ _ => true
  | .lbistAbort _ _ => true
  | .lbistPatternTimeout _ _ => true
  | .lbistRunEnd _ _ _ _ _ => true
  | .blockReplacementComplete _ => false
  | .blockTestEnd _ _ _ _ => true
  | .thermalTrip _ => false
  | .pwrgoodLoss => false
  | .registerWrite _ _ _ => false
  | .powerOn => false
  | .powerRemoved => false
  | .railRangeChange _ _ => true
  | .busError _ _ => true
  | .canFdClockSwitch => true
  | .morningRestartComplete _ => true
  | .commandSlot _ => true

end Sys2Proof.Machine
end

