-- ==== Sys2Proof/WellFormed.lean ====
section
/-! DEFINITION. Which commands are well formed: every operand within the range that its field or numbering gives it. An
ill-formed command leaves the device as it is or acts on a unit that no part has (log 1). -/

namespace Sys2Proof

/-- A core ID (R16). -/
def coreOk (c : Nat) : Bool := decide (c < 256)
/-- A region (R13). -/
def regionOk (r : Nat) : Bool := decide (r < 8)
/-- A global block number (R14). -/
def blockOk (b : Nat) : Bool := decide (b < 128)
/-- A memory channel (R1). -/
def chanOk (ch : Nat) : Bool := decide (ch < 16)
/-- A root port of a stack (R329). -/
def portOk (f : Nat) : Bool := decide (f < 4)
/-- A Cobalt instance (R308). -/
def instOk (i : Nat) : Bool := decide (i < 64)
/-- A line address PA[51:6] (R24). -/
def lineOk (la : Nat) : Bool := decide (la < 2 ^ 46)
/-- A physical address (R24). -/
def paOk (pa : Nat) : Bool := decide (pa < 2 ^ 52)
/-- A tenancy domain (R39). -/
def tdOk (td : Nat) : Bool := decide (td < 64)
/-- A key selector (R250). -/
def ksOk (ks : Nat) : Bool := decide (ks < 4)
/-- A PCI Express requester ID (R297). -/
def ridOk (rid : Nat) : Bool := decide (rid < 65536)
/-- A PASID, where there is one (R297). -/
def pasidOk (p : Option Nat) : Bool := match p with | none => true | some n => decide (n < 2 ^ 20)
/-- A value of a field of `n` bits. -/
def fieldOk (n v : Nat) : Bool := decide (v < 2 ^ n)
/-- A log: a region's, or 8 for the chip's (R231). -/
def logOk (l : Nat) : Bool := decide (l < 9)
/-- A Noon agent: a block's 0 to 127, an I/O stop's 128 to 135 (R196). -/
def agentOk (a : Nat) : Bool := decide (a < 136)
/-- A power domain (R350). -/
def domainOk (i : Nat) : Bool := decide (i < 417)
/-- A unit under LBIST: a physical block 0 to 17, or 18, the region's own logic (R411). -/
def unitOk (u : Nat) : Bool := decide (u < 19)
/-- A Slate port: SVC, FLD, HST or DBG (R390). -/
def slatePortOk (p : Nat) : Bool := decide (p < 4)
/-- The register of a pair is even (R68). -/
def pairOk (rd : Reg) : Bool := decide (rd.val % 2 = 0)
/-- Bytes of one line (R138). -/
def inLine (pa : Nat) (bytes : List Byte) : Bool := decide (1 ≤ bytes.length) && decide (pa % 64 + bytes.length ≤ 64)
/-- Wrong symbols: positions 0 to 39 and 16-bit values (R259). -/
def symbolsOk (errs : List (Nat × Nat)) : Bool := errs.all (fun e => decide (e.1 < 40) && decide (e.2 < 65536))

/-- A command is well formed. -/
def Instr.wf : Instr → Bool
  | .add c _ _ _ | .sub c _ _ _ | .andR c _ _ _ | .orR c _ _ _ | .xorR c _ _ _ | .andn c _ _ _ | .sll c _ _ _
  | .srl c _ _ _ | .sra c _ _ _ | .ror c _ _ _ | .slt c _ _ _ | .sltu c _ _ _ | .minS c _ _ _ | .maxS c _ _ _
  | .minu c _ _ _ | .maxu c _ _ _ | .sel c _ _ _ | .clz c _ _ | .ctz c _ _ | .pop c _ _ | .bswap c _ _
  | .addi c _ _ _ | .andi c _ _ _ | .ori c _ _ _ | .xori c _ _ _ | .slti c _ _ _ | .sltiu c _ _ _ | .mul c _ _ _
  | .mulh c _ _ _ | .mulhu c _ _ _ | .divS c _ _ _ | .divu c _ _ _ | .remS c _ _ _ | .remu c _ _ _ | .fadd c _ _ _ _
  | .fsub c _ _ _ _ | .fmul c _ _ _ _ | .fdiv c _ _ _ _ | .fsqrt c _ _ _ | .fma c _ _ _ _ | .fmin c _ _ _ _
  | .fmax c _ _ _ _ | .fceq c _ _ _ _ | .fclt c _ _ _ _ | .fcle c _ _ _ _ | .fcvti c _ _ _ | .fcvtf c _ _ _
  | .fcvtp c _ _ _ | .fclass c _ _ _ | .ldb c _ _ _ | .ldbu c _ _ _ | .ldh c _ _ _ | .ldhu c _ _ _ | .ldw c _ _ _
  | .ldwu c _ _ _ | .ldd c _ _ _ | .lda c _ _ _ | .stb c _ _ _ | .sth c _ _ _ | .stw c _ _ _ | .std c _ _ _
  | .stl c _ _ _ | .vld c _ _ _ | .vst c _ _ _ | .ldx c _ _ _ _ _ | .stx c _ _ _ _ _ _ | .swp c _ _ _ _ _ _
  | .cas c _ _ _ _ _ _ | .amadd c _ _ _ _ _ _ | .amand c _ _ _ _ _ _ | .amor c _ _ _ _ _ _ | .amxor c _ _ _ _ _ _
  | .ammax c _ _ _ _ _ _ | .ammin c _ _ _ _ _ _ | .mcpy c _ _ _ | .mset c _ _ _ | .mcmp c _ _ _ | .vadd c _ _ _ _
  | .vsub c _ _ _ _ | .vand c _ _ _ | .vor c _ _ _ | .vxor c _ _ _ | .vsll c _ _ _ _ | .vsrl c _ _ _ _
  | .vsra c _ _ _ _ | .vmin c _ _ _ _ | .vmax c _ _ _ _ | .vmul c _ _ _ _ | .vceq c _ _ _ _ | .vcgt c _ _ _ _
  | .vperm c _ _ _ | .vsplat c _ _ _ | .vfadd c _ _ _ _ | .vfsub c _ _ _ _ | .vfmul c _ _ _ _ | .vfma c _ _ _ _
  | .vfdiv c _ _ _ _ | .vfmin c _ _ _ _ | .vfmax c _ _ _ _ | .aese c _ _ _ | .aesel c _ _ _ | .aesd c _ _ _
  | .aesdl c _ _ _ | .gmul c _ _ _ | .sha512s c _ _ _ | .sha512r c _ _ _ | .sha3f c _ | .aqld c _ _ _ | .aqst c _ _ _
  | .aclr c _ _ | .aadd c _ _ _ | .asub c _ _ _ | .amac c _ _ _ _ | .amacs c _ _ _ _ | .ascl c _ _ | .amrg c _ _
  | .asav c _ _ | .arst c _ _ | .aflg c _ _ | .afclr c _ | .br c _ | .bal c _ | .jalr c _ _ _ | .jr c _ _
  | .csrr c _ _ | .csrw c _ _ | .csrs c _ _ _ | .csrc c _ _ _ | .eret c | .calls c | .callh c | .callm c | .brk c
  | .wfe c | .fence c _ | .sync c | .lbar c | .ifence c | .bpbar c | .bpflush c | .dcclean c _ | .dcflush c _
  | .dcinv c _ | .dczero c _ | .icinv c _ | .pfl c _ | .pfs c _ | .pfnt c _ | .tlbiva c _ | .tlbiall c | .tlbigva c _
  | .tlbidom c _ | .npost c _ | .nrecv c _ _ | .nwait c _ | .rand c _ _ | .eventEntry c | .longOperationComplete c
  | .storeWriteAfterRetirement c | .memoryOrderReplay c | .streamPrefetch c | .windowLockComplete c _
  | .cacheWalkComplete c | .tickTimerPost c | .retEntryComplete c | .coreWake c => coreOk c
  | .shi c _ _ imm => coreOk c && decide (imm.toNat < 256)
  | .movz c _ h _ | .movk c _ h _ => coreOk c && decide (h.val ≤ 3)
  | .ldp c rd _ _ | .stp c rd _ _ => coreOk c && pairOk rd
  | .vext c sz _ _ idx => coreOk c && decide (idx.val < 32 / 2 ^ sz.val)
  | .arnd c _ mode _ _ => coreOk c && decide (mode.val ≤ 5)
  | .bcc c cond _ _ _ => coreOk c && decide (cond.val ≤ 5)
  | .loop c _ imm => coreOk c && decide (imm.toNat < 64)
  | .undefinedEncoding c w => coreOk c && !listed w
  | .sideBufferEntryExpire c la | .upg c la | .wb c la | .evn c la | .grantAcknowledgement c la | .forwardShared c la
  | .forwardExclusive c la | .invalidation c la => coreOk c && lineOk la
  | .rds c la td ks _ _ | .rdx c la td ks _ _ | .rdz c la td ks => coreOk c && lineOk la && tdOk td && ksOk ks
  | .crd la td ks => lineOk la && tdOk td && ksOk ks
  | .cwr pa td ks bytes => paOk pa && tdOk td && ksOk ks && inLine pa bytes
  | .slcWaymaskWrite d _ => tdOk d
  | .leakyBucketLeak _ | .rootSampling | .tickBoundary | .ppsEdge _ | .ppsLost | .stateErrorDetected _
  | .chipFatalStop _ _ | .pllLossOfLock | .pllLock | .fillComplete | .keyLoad | .keyGenerate | .keyNull
  | .keyCommandComplete | .tlbShootdown | .shootdownComplete | .daybreak _ | .telemetrySample _ _ _ | .resetNAssert
  | .startDevice | .phaseOverrun | .slotSelection | .handover | .releaseBoot | .lockBoot | .bootLockTimeout
  | .releaseComplete | .imageSessionOpen _ | .imageHeader _ | .imageBody _ | .finalizeImg | .liveRestartComplete
  | .monitorPlacement | .spiReadStatus | .spiWriteMessage _ | .spiWriteMessageQuad _ | .spiReadResponse _
  | .spiReadResponseQuad _ | .fieldFrame _ | .busOffRecovery | .idcodeTap | .slateTap _ _ | .clearTap | .scanTap
  | .bypassTap _ | .thermalTrip _ | .pwrgoodLoss | .powerOn | .powerRemoved | .busError _ _ | .canFdClockSwitch => true
  | .dieLinkFlitReceive r link _ | .linkRetrainComplete r link _ _ => regionOk r && fieldOk 4 link
  | .meshFlitError b input _ td => blockOk b && decide (input < 6) && tdOk td
  | .readyEvaluation a | .actionResendRound a => agentOk a
  | .toStoreStage b | .publishAcknowledgement b | .actionRegister b => blockOk b
  | .holdLimitSlip td | .hostMailboxGo td => tdOk td
  | .routerPost src => fieldOk 12 src
  | .msiMessage td rid _ _ => tdOk td && ridOk rid
  | .heldPostDelivery msg i | .routeWrite msg i _ => (if msg then fieldOk 15 i else fieldOk 12 i)
  | .logRecordWrite log _ | .logHtailWrite log _ | .logFldPointerWrite log _ => logOk log
  | .memRead ch la td ks errs => chanOk ch && lineOk la && tdOk td && ksOk ks && symbolsOk errs
  | .dramReread ch errs | .scrubRead ch errs => chanOk ch && symbolsOk errs
  | .memWrite ch la td ks _ _ => chanOk ch && lineOk la && tdOk td && ksOk ks
  | .partialWrite ch pa td ks bytes => chanOk ch && paOk pa && tdOk td && ksOk ks && inLine pa bytes
  | .mergeEntryClose ch la errs => chanOk ch && lineOk la && symbolsOk errs
  | .rowIdleClose ch _ | .refreshBank ch _ | .calibrationWindowOpen ch | .calibrationWindowClose ch | .retrainChan ch
  | .retrainComplete ch _ | .channelIdleRet ch | .channelWake ch | .scrubPassStart ch | .deviceBankBucketLeak ch
  | .markConfirm ch | .rowRepairLive ch _ _ | .proposalReject ch | .commandSlot ch => chanOk ch
  | .writeCrcError ch la => chanOk ch && lineOk la
  | .trainChan ch speed => chanOk ch && fieldOk 2 speed
  | .atsInvalidateCompletion r rid | .atsInvalidationTimeout r rid => regionOk r && ridOk rid
  | .dmaRequest r rid pasid addr _ _ | .translatedRequest r rid pasid addr _ _
  | .atsTranslationRequest r rid pasid addr => regionOk r && ridOk rid && pasidOk pasid && fieldOk 64 addr
  | .pageRequest r rid pasid addr group _ _ => regionOk r && ridOk rid && pasidOk pasid && fieldOk 64 addr && fieldOk 9 group
  | .pageRequestGroupResponse r _ | .iotEqbWrite r _ | .chunkDispatch r | .ibwCommit r _ | .ibwCommitPoint r
  | .containmentRelease r | .containmentReleaseEffect r | .pmeStatusClear r | .commandRegisterWrite r _
  | .blockReplacementComplete r | .morningRestartComplete r => regionOk r
  | .dbTailWrite r i td tail => regionOk r && instOk i && tdOk td && fieldOk 16 tail
  | .resumeDesc r i td | .skipDesc r i td => regionOk r && instOk i && tdOk td
  | .enableInst r i | .quiesceInst r i _ | .quiesceComplete r i | .runInst r i | .resetInst r i | .saveInst r i
  | .restoreInst r i | .descriptorStart r i | .chunkComplete r i | .descriptorCompletion r i => regionOk r && instOk i
  | .instCmdUndefined r i op => regionOk r && instOk i && decide (7 ≤ op && op ≤ 15)
  | .apertureWrite r w td rid _ _ _ _ => regionOk r && fieldOk 4 w && tdOk td && ridOk rid
  | .functionContainment r cause _ _ => regionOk r && decide (1 ≤ cause && cause ≤ 3)
  | .powerstateWrite r v => regionOk r && fieldOk 2 v
  | .msixEntryUnmask r e => regionOk r && fieldOk 11 e
  | .linkTraining r f _ _ _ _ | .pcieMessageReceived r f _ _ | .errorMessageReceived r f _ _ | .dpcTrigger r f _ _
  | .dpcTriggerStatusClear r f => regionOk r && portOk f
  | .completionReceived r f tag _ _ _ | .completionTimeout r f tag | .tagQuarantineEnd r f tag | .crsRetry r f tag => regionOk r && portOk f && fieldOk 16 tag
  | .pmeMessageReceived r f rid => regionOk r && portOk f && ridOk rid
  | .downstreamRequest r f rid pasid _ addr _ _ _ => regionOk r && portOk f && ridOk rid && pasidOk pasid && fieldOk 64 addr
  | .linkErrorCorrected r f bit => regionOk r && portOk f && fieldOk 5 bit
  | .powerTransitionComplete i | .padholdRel i => domainOk i
  | .stackIdleRet n | .stackWake n _ => regionOk n
  | .nonceSign port nonce => slatePortOk port && decide (nonce.length = 32)
  | .slateRead port seq idx sb _ | .slateWrite port seq idx sb _ | .slateStage port seq idx sb _ => slatePortOk port && fieldOk 8 seq && fieldOk 16 idx && fieldOk 8 sb
  | .slateCommit port seq _ | .slateDiscard port seq _ => slatePortOk port && fieldOk 8 seq
  | .snapshotTimeout port | .writeBufferTimeout port => slatePortOk port
  | .spiTransactionNak opcode _ => fieldOk 8 opcode
  | .lbistDemandStart r u | .lbistAbort r u | .lbistPatternTimeout r u | .lbistRunEnd r u _ _ _ => regionOk r && unitOk u
  | .blockTestEnd r p _ _ => regionOk r && decide (p < 18)
  | .registerWrite td pa _ => tdOk td && paOk pa
  | .railRangeChange bit _ => decide (bit < 7)

end Sys2Proof
end

