-- ==== Sys2Proof/Certificates/Slice0/Obligations.lean ====
section
/-! DEFINITION. The statements for the provers: what every command of the table does, by the rules of the specification, and
what every step keeps. The words Ready, begun, after, Changes and their kin are those of Sys2Proof/Safety.lean. -/

open Sys2Proof Sys2Proof.Machine

/-- A step takes the command at the front of the queue and performs it on the state with the rest of the queue; on an
empty queue the device idles (log 3). -/
def Obligations.StepRunsFront : Prop :=
  (∀ (i : Instr) (rest : List Instr) (s : State), s.pending = i :: rest → step s = exec i { s with pending := rest })
  ∧ (∀ s : State, s.pending = [] → step s = .next s)

/-- R12, R32, R34, R36, R44, R143, R197, R350, R389: what the state right after reset holds where the specification
gives it. -/
def Obligations.ResetValues : Prop :=
  let s := State.reset
  (∀ c, let k := s.core c
    k.g = Vector.replicate 32 0 ∧ k.v = Vector.replicate 32 0 ∧ k.acc = Vector.replicate 8 ⟨0, 0, false, false, false⟩
    ∧ k.lc = 0 ∧ k.ls = 0 ∧ k.le = 0 ∧ k.pc = 0xA001000000000 ∧ k.lvl = .m ∧ k.bankM.base = 0xA001000000000
    ∧ k.bankM.frame = 0xA001000400000 ∧ k.bankM.lim = 0xA0010003F0000 ∧ k.pend = [] ∧ k.resv = none ∧ k.sq = [] ∧ k.longs = [])
  ∧ (∀ i, (s.dom i).st = 2 ∧ (s.dom i).held = false)
  ∧ s.noon.run = false ∧ s.noon.tick = 0 ∧ s.noon.wall = 0 ∧ s.boot.phase = 0 ∧ s.boot.locked = false ∧ s.boot.handed = false
  ∧ (∀ d, SMap.get 0xFFF s.waymask d = 0xFFF) ∧ (∀ p, (s.stage p).ents = []) ∧ s.stopped = false ∧ s.scan = false
  ∧ (∀ l, (s.log l).head = 0 ∧ (s.log l).count = 0 ∧ (s.log l).lost = 0)
  ∧ s.pending = []

/-- Every command completes: no step stops the model with a fault or a refusal (R49, R58; logs 1 and 2). -/
def Obligations.EveryCommandCompletes : Prop :=
  (∀ (i : Instr) (s : State), ∃ t, exec i s = .next t) ∧ (∀ s : State, ∃ t, step s = .next t)

/-- What no step undoes: the fuses and the rest of the queue are as they were, an anti-rollback floor, the boot
counter and the number of Vesper records never fall, a revoked key stays revoked (R368, R370, R372, R381), and no free
value is drawn twice. -/
def Obligations.NothingIsUndone : Prop :=
  ∀ s t : State, step s = .next t →
    t.pending = s.pending.tail ∧ t.fuses = s.fuses ∧ s.free ≤ t.free ∧ s.boot.counter ≤ t.boot.counter
    ∧ (∀ k, SMap.get 0 s.boot.floors k ≤ SMap.get 0 t.boot.floors k)
    ∧ (∀ i, s.boot.revoked.testBit i = true → t.boot.revoked.testBit i = true) ∧ s.boot.vesperN ≤ t.boot.vesperN

/-- Every memory (DRAM, boot SRAM, SLC-as-RAM and the flash) stays in its canonical form through every step (log 8).
-/
def Obligations.MemoryStaysCanonical : Prop :=
  ∀ s t : State, s.MemOk → step s = .next t → t.MemOk

/-- The memories of the reset state are in canonical form (log 8). -/
def Obligations.MemoryAtReset : Prop := State.reset.MemOk

/-- No command changes the registers of a core beyond its own: of the core that executes it, for the instructions that
do not store; of no core, for the commands of the fabric, the memories, the links and Dawn that leavesCore names (R8,
R31, R44, R49). A step leaves them in the same way. -/
def Obligations.RegistersConfined : Prop :=
  (∀ (i : Instr) (s t : State) (d : Nat), exec i s = .next t → leavesCore d i = true → (t.core d).arch = (s.core d).arch)
  ∧ (∀ (i : Instr) (rest : List Instr) (s t : State) (d : Nat), s.pending = i :: rest → step s = .next t → leavesCore d i = true →
      (t.core d).arch = (s.core d).arch)

/-- R57 to R59: decoding the word that the tables give a well-formed instruction gives that instruction, with every
operand; an unlisted word, 0x0000_0000 among them, decodes to the row that raises ILLEGAL. -/
def Obligations.DecodeEncode : Prop :=
  (∀ (i : Instr) (w : BitVec 32), i.wf = true → encode i = some w → ∃ c, c < 256 ∧ instrOf c w = i)
  ∧ (∀ (c : Nat) (w : BitVec 32), listed w = false → instrOf c w = .undefinedEncoding c w)
  ∧ listed 0 = false

/-- R63, R61: each integer register operation, on every register and every operand value. -/
def Obligations.IntegerResults : Prop :=
  ∀ (s : State) (c : Nat) (rd ra rb : Reg),
    SetsG (.add c rd ra rb) s c 1 [.g ra, .g rb] rd (fun k => BitVec.ofNat 64 (k.g[ra].toNat + k.g[rb].toNat))
    ∧ SetsG (.sub c rd ra rb) s c 1 [.g ra, .g rb] rd (fun k => BitVec.ofInt 64 (k.g[ra].toInt - k.g[rb].toInt))
    ∧ SetsG (.andR c rd ra rb) s c 1 [.g ra, .g rb] rd (fun k => k.g[ra] &&& k.g[rb])
    ∧ SetsG (.orR c rd ra rb) s c 1 [.g ra, .g rb] rd (fun k => k.g[ra] ||| k.g[rb])
    ∧ SetsG (.xorR c rd ra rb) s c 1 [.g ra, .g rb] rd (fun k => k.g[ra] ^^^ k.g[rb])
    ∧ SetsG (.andn c rd ra rb) s c 1 [.g ra, .g rb] rd (fun k => k.g[ra] &&& ~~~k.g[rb])
    ∧ SetsG (.sll c rd ra rb) s c 1 [.g ra, .g rb] rd
        (fun k => BitVec.ofNat 64 (k.g[ra].toNat * 2 ^ (k.g[rb].toNat % 64)))
    ∧ SetsG (.srl c rd ra rb) s c 1 [.g ra, .g rb] rd
        (fun k => BitVec.ofNat 64 (k.g[ra].toNat / 2 ^ (k.g[rb].toNat % 64)))
    ∧ SetsG (.sra c rd ra rb) s c 1 [.g ra, .g rb] rd
        (fun k => BitVec.ofInt 64 (k.g[ra].toInt / 2 ^ (k.g[rb].toNat % 64)))
    ∧ SetsG (.ror c rd ra rb) s c 1 [.g ra, .g rb] rd
        (fun k => k.g[ra] >>> (k.g[rb].toNat % 64) ||| k.g[ra] <<< (64 - k.g[rb].toNat % 64))
    ∧ SetsG (.slt c rd ra rb) s c 1 [.g ra, .g rb] rd (fun k => if k.g[ra].toInt < k.g[rb].toInt then 1 else 0)
    ∧ SetsG (.sltu c rd ra rb) s c 1 [.g ra, .g rb] rd (fun k => if k.g[ra].toNat < k.g[rb].toNat then 1 else 0)
    ∧ SetsG (.minS c rd ra rb) s c 1 [.g ra, .g rb] rd
        (fun k => BitVec.ofInt 64 (min k.g[ra].toInt k.g[rb].toInt))
    ∧ SetsG (.maxS c rd ra rb) s c 1 [.g ra, .g rb] rd
        (fun k => BitVec.ofInt 64 (max k.g[ra].toInt k.g[rb].toInt))
    ∧ SetsG (.minu c rd ra rb) s c 1 [.g ra, .g rb] rd
        (fun k => BitVec.ofNat 64 (min k.g[ra].toNat k.g[rb].toNat))
    ∧ SetsG (.maxu c rd ra rb) s c 1 [.g ra, .g rb] rd
        (fun k => BitVec.ofNat 64 (max k.g[ra].toNat k.g[rb].toNat))
    ∧ SetsG (.sel c rd ra rb) s c 1 [.g rd, .g ra, .g rb] rd (fun k => if k.g[rd] ≠ 0 then k.g[ra] else k.g[rb])

/-- R63: the counts of CLZ, CTZ and POP and the byte order of BSWAP, for every operand: the number written is the one
number that the operand's bits fix. R64, R61, R58: each immediate operation; a shift amount field above 8 bits and a
halfword number above 3 raise ILLEGAL. -/
def Obligations.BitImmediateResults : Prop :=
   (∀ (s : State) (c : Nat) (rd ra : Reg),
      let b := s.begun c false [.g ra] [.g rd]
      let a := (b.core c).g[ra]
      let sets := fun (i : Instr) (v : W64) => exec i s = .next (b.after c 2 (fun k => k.setG rd v))
      s.Ready c false [.g ra] →
      (∃ n, n ≤ 64 ∧ sets (.clz c rd ra) (BitVec.ofNat 64 n) ∧ (∀ i < n, a.getMsbD i = false)
        ∧ (n < 64 → a.getMsbD n = true))
      ∧ (∃ n, n ≤ 64 ∧ sets (.ctz c rd ra) (BitVec.ofNat 64 n) ∧ (∀ i < n, a.getLsbD i = false)
        ∧ (n < 64 → a.getLsbD n = true))
      ∧ sets (.pop c rd ra) (BitVec.ofNat 64 ((List.range 64).countP (fun i => a.getLsbD i)))
      ∧ (∃ v : W64, sets (.bswap c rd ra) v ∧ ∀ i < 8, v.extractLsb' (8 * i) 8 = a.extractLsb' (8 * (7 - i)) 8))
  ∧(∀ (s : State) (c : Nat) (rd ra h : Reg) (imm : BitVec 16),
      SetsG (.addi c rd ra imm) s c 1 [.g ra] rd (fun k => BitVec.ofInt 64 (k.g[ra].toInt + imm.toInt))
      ∧ SetsG (.andi c rd ra imm) s c 1 [.g ra] rd (fun k => k.g[ra] &&& imm.setWidth 64)
      ∧ SetsG (.ori c rd ra imm) s c 1 [.g ra] rd (fun k => k.g[ra] ||| imm.setWidth 64)
      ∧ SetsG (.xori c rd ra imm) s c 1 [.g ra] rd (fun k => k.g[ra] ^^^ imm.setWidth 64)
      ∧ SetsG (.slti c rd ra imm) s c 1 [.g ra] rd (fun k => if k.g[ra].toInt < imm.toInt then 1 else 0)
      ∧ SetsG (.sltiu c rd ra imm) s c 1 [.g ra] rd
          (fun k => if k.g[ra].toNat < (imm.signExtend 64).toNat then 1 else 0)
      ∧ (imm.toNat < 64 → SetsG (.shi c rd ra imm) s c 1 [.g ra] rd
          (fun k => BitVec.ofNat 64 (k.g[ra].toNat * 2 ^ imm.toNat)))
      ∧ (64 ≤ imm.toNat → imm.toNat < 128 → SetsG (.shi c rd ra imm) s c 1 [.g ra] rd
          (fun k => BitVec.ofNat 64 (k.g[ra].toNat / 2 ^ (imm.toNat - 64))))
      ∧ (128 ≤ imm.toNat → imm.toNat < 192 → SetsG (.shi c rd ra imm) s c 1 [.g ra] rd
          (fun k => BitVec.ofInt 64 (k.g[ra].toInt / 2 ^ (imm.toNat - 128))))
      ∧ (192 ≤ imm.toNat → imm.toNat < 256 → SetsG (.shi c rd ra imm) s c 1 [.g ra] rd
          (fun k => k.g[ra] >>> (imm.toNat - 192) ||| k.g[ra] <<< (256 - imm.toNat)))
      ∧ (h.val < 4 → SetsG (.movz c rd h imm) s c 1 [] rd (fun _ => BitVec.ofNat 64 (imm.toNat * 2 ^ (16 * h.val))))
      ∧ (h.val < 4 → ∃ v : W64 → W64, SetsG (.movk c rd h imm) s c 1 [.g rd] rd (fun k => v k.g[rd])
          ∧ ∀ (o : W64) (i : Nat), i < 4 →
            (v o).extractLsb' (16 * i) 16 = if i = h.val then imm else o.extractLsb' (16 * i) 16)
      ∧ (256 ≤ imm.toNat → s.Ready c false [.g ra] →
          exec (.shi c rd ra imm) s = .next (s.orWait ((s.begun c false [.g ra] [.g rd]).trapped c 1 illegal)))
      ∧ (4 ≤ h.val → s.Ready c false [] →
          exec (.movz c rd h imm) s = .next (s.orWait ((s.begun c false [] [.g rd]).trapped c 1 illegal)))
      ∧ (4 ≤ h.val → s.Ready c false [.g rd] →
          exec (.movk c rd h imm) s = .next (s.orWait ((s.begun c false [.g rd] [.g rd]).trapped c 1 illegal))))

/-- R65, R61: the products, and the divisions of a core whose long operations are attached; a zero divisor and the
signed overflow give the results of the table. -/
def Obligations.MultiplyDivideResults : Prop :=
  ∀ (s : State) (c : Nat) (rd ra rb : Reg),
    let divides := fun (i : Instr) (f : W64 → W64 → W64) =>
      s.Ready c false [.g ra, .g rb] → ((s.begun c false [.g ra, .g rb] [.g rd]).core c).detached = false →
      exec i s = .next ((s.begun c false [.g ra, .g rb] [.g rd]).after c 42 (fun k => k.setG rd (f k.g[ra] k.g[rb])))
    SetsG (.mul c rd ra rb) s c 3 [.g ra, .g rb] rd (fun k => BitVec.ofNat 64 (k.g[ra].toNat * k.g[rb].toNat))
    ∧ SetsG (.mulh c rd ra rb) s c 4 [.g ra, .g rb] rd
        (fun k => BitVec.ofInt 64 (k.g[ra].toInt * k.g[rb].toInt / 2 ^ 64))
    ∧ SetsG (.mulhu c rd ra rb) s c 4 [.g ra, .g rb] rd
        (fun k => BitVec.ofNat 64 (k.g[ra].toNat * k.g[rb].toNat / 2 ^ 64))
    ∧ divides (.divS c rd ra rb) (fun a b => if b = 0 then BitVec.allOnes 64 else BitVec.ofInt 64 (a.toInt.tdiv b.toInt))
    ∧ divides (.divu c rd ra rb) (fun a b => if b = 0 then BitVec.allOnes 64 else BitVec.ofNat 64 (a.toNat / b.toNat))
    ∧ divides (.remS c rd ra rb) (fun a b => if b = 0 then a else BitVec.ofInt 64 (a.toInt.tmod b.toInt))
    ∧ divides (.remu c rd ra rb) (fun a b => if b = 0 then a else BitVec.ofNat 64 (a.toNat % b.toNat))

/-- R104, R105: a division of a core whose long operations are detached retires at once and its result stays
outstanding; where it cannot raise an event, the operation carries none. R105, R67: the long floating-point operations
of a core that runs them detached; an enabled exception goes with the outstanding operation. -/
def Obligations.LongOpsDetached : Prop :=
   (∀ (s : State) (c : Nat) (rd ra rb : Reg),
      let b := s.begun c false [.g ra, .g rb] [.g rd]
      let leaves := fun (i : Instr) (f : W64 → W64 → W64) =>
        exec i s = .next (b.after c 42 (fun k => k.leaves
          { pc := k.pc, dest := .g rd, res := .g (f k.g[ra] k.g[rb]), flags := 0, exc := none, failed := false }))
      s.Ready c false [.g ra, .g rb] → (b.core c).detached = true → (b.core c).longs.length < 8 →
      leaves (.divS c rd ra rb) (fun a b => if b = 0 then BitVec.allOnes 64 else BitVec.ofInt 64 (a.toInt.tdiv b.toInt))
      ∧ leaves (.divu c rd ra rb) (fun a b => if b = 0 then BitVec.allOnes 64 else BitVec.ofNat 64 (a.toNat / b.toNat))
      ∧ leaves (.remS c rd ra rb) (fun a b => if b = 0 then a else BitVec.ofInt 64 (a.toInt.tmod b.toInt))
      ∧ leaves (.remu c rd ra rb) (fun a b => if b = 0 then a else BitVec.ofNat 64 (a.toNat % b.toNat)))
  ∧(∀ (s : State) (c : Nat) (sp : Bool) (rd ra rb : Reg),
      let op := fun (k : Core) (r : Nat × Nat) => ({
        pc := k.pc, dest := .g rd, res := .g (BitVec.ofNat 64 r.1), flags := r.2
        exc := if r.2 &&& fld k.fpcsr 8 5 ≠ 0 then some (mkExc 11) else none, failed := false } : LongOp)
      Detaches (.fdiv c sp rd ra rb) s c 22 [.g ra, .g rb] [.g rd]
        (fun k => op k (fpDiv sp k.rm (fpArg sp k.g[ra]) (fpArg sp k.g[rb])))
      ∧ Detaches (.fsqrt c sp rd ra) s c 26 [.g ra] [.g rd] (fun k => op k (fpSqrt sp k.rm (fpArg sp k.g[ra])))
      ∧ Detaches (.vfdiv c sp rd ra rb) s c 22 [.v ra, .v rb] [.v rd] (fun k =>
          let r := vfLanes sp (fun a b _ => fpDiv sp k.rm a b) k.v[ra] k.v[rb] 0
          { op k (0, r.2) with dest := .v rd, res := .v r.1 }))

/-- R66, R67, R61: each scalar floating-point operation of either precision, with its flags, its result and its trap;
the long ones on a core that runs them attached. -/
def Obligations.FloatResults : Prop :=
  ∀ (s : State) (c : Nat) (sp : Bool) (rd ra rb : Reg),
    let x := fun (k : Core) => fpArg sp k.g[ra]
    let y := fun (k : Core) => fpArg sp k.g[rb]
    let puts := fun (i : Instr) (met : Nat) (reads : List LDest) (r : Core → Nat × Nat) =>
      s.Ready c false reads →
        Floats i s c met reads [.g rd] (fun k => (r k).2) (fun k => k.setG rd (BitVec.ofNat 64 (r k).1))
    let putsLong := fun (i : Instr) (met : Nat) (reads : List LDest) (r : Core → Nat × Nat) =>
      s.Ready c false reads → ((s.begun c false reads [.g rd]).core c).detached = false →
        Floats i s c met reads [.g rd] (fun k => (r k).2) (fun k => k.setG rd (BitVec.ofNat 64 (r k).1))
    puts (.fadd c sp rd ra rb) 4 [.g ra, .g rb] (fun k => fpAdd sp k.rm (x k) (y k))
    ∧ puts (.fsub c sp rd ra rb) 4 [.g ra, .g rb] (fun k => fpSub sp k.rm (x k) (y k))
    ∧ puts (.fmul c sp rd ra rb) 4 [.g ra, .g rb] (fun k => fpMul sp k.rm (x k) (y k))
    ∧ putsLong (.fdiv c sp rd ra rb) 22 [.g ra, .g rb] (fun k => fpDiv sp k.rm (x k) (y k))
    ∧ putsLong (.fsqrt c sp rd ra) 26 [.g ra] (fun k => fpSqrt sp k.rm (x k))
    ∧ puts (.fma c sp rd ra rb) 5 [.g ra, .g rb, .g rd] (fun k => fpFma sp k.rm (x k) (y k) (fpArg sp k.g[rd]))
    ∧ puts (.fmin c sp rd ra rb) 2 [.g ra, .g rb] (fun k => fpMinMax sp false (x k) (y k))
    ∧ puts (.fmax c sp rd ra rb) 2 [.g ra, .g rb] (fun k => fpMinMax sp true (x k) (y k))
    ∧ puts (.fceq c sp rd ra rb) 2 [.g ra, .g rb] (fun k => fpCmp sp 0 (x k) (y k))
    ∧ puts (.fclt c sp rd ra rb) 2 [.g ra, .g rb] (fun k => fpCmp sp 1 (x k) (y k))
    ∧ puts (.fcle c sp rd ra rb) 2 [.g ra, .g rb] (fun k => fpCmp sp 2 (x k) (y k))
    ∧ puts (.fcvti c sp rd ra) 3 [.g ra] (fun k => fpToInt sp k.rm (x k))
    ∧ puts (.fcvtf c sp rd ra) 3 [.g ra] (fun k => fpOfInt sp k.rm k.g[ra].toNat)
    ∧ puts (.fcvtp c sp rd ra) 3 [.g ra] (fun k => fpConv sp k.rm (fpArg (!sp) k.g[ra]))
    ∧ SetsG (.fclass c sp rd ra) s c 1 [.g ra] rd (fun k => BitVec.ofNat 64 (fpClass sp (x k)))

/-- R66: what the results of scalar floating point are on the operands that the rule names: every NaN result is the
canonical quiet NaN, FCLASS sets exactly one of ten bits, a conversion to an integer of a NaN gives 2^63 - 1 with NV,
a compare with a NaN gives 0 and is signalling but for FCEQ, and minimumNumber and maximumNumber take a number before
a NaN. -/
def Obligations.FloatNanRules : Prop :=
  ∀ (sp : Bool) (rm a b d : Nat),
    (fpIsNan sp (fpAdd sp rm a b).1 = true → (fpAdd sp rm a b).1 = fpNan sp)
    ∧ (fpIsNan sp (fpSub sp rm a b).1 = true → (fpSub sp rm a b).1 = fpNan sp)
    ∧ (fpIsNan sp (fpMul sp rm a b).1 = true → (fpMul sp rm a b).1 = fpNan sp)
    ∧ (fpIsNan sp (fpDiv sp rm a b).1 = true → (fpDiv sp rm a b).1 = fpNan sp)
    ∧ (fpIsNan sp (fpSqrt sp rm a).1 = true → (fpSqrt sp rm a).1 = fpNan sp)
    ∧ (fpIsNan sp (fpFma sp rm a b d).1 = true → (fpFma sp rm a b d).1 = fpNan sp)
    ∧ (fpIsNan sp (fpMinMax sp false a b).1 = true → (fpMinMax sp false a b).1 = fpNan sp)
    ∧ (fpIsNan sp (fpMinMax sp true a b).1 = true → (fpMinMax sp true a b).1 = fpNan sp)
    ∧ (fpIsNan sp (fpConv sp rm a).1 = true → (fpConv sp rm a).1 = fpNan sp)
    ∧ (∃ i < 10, fpClass sp a = 2 ^ i)
    ∧ (fpIsNan sp a = true → fpToInt sp rm a = (2 ^ 63 - 1, 16))
    ∧ (fpIsNan sp a = true → (fpCmp sp 0 a b).1 = 0 ∧ fpCmp sp 1 a b = (0, 16) ∧ fpCmp sp 2 a b = (0, 16))
    ∧ (fpIsNan sp a = true → fpIsNan sp b = false → (fpMinMax sp false a b).1 = b ∧ (fpMinMax sp true b a).1 = b)

/-- R79, R67: each vector floating-point operation: the lanes together set the flags, write the result, or trap with
nothing written. R78, R61: each vector integer operation acts on each element by itself, at every element size; VEXT
reads one element and raises ILLEGAL past the last. -/
def Obligations.VectorResults : Prop :=
   (∀ (s : State) (c : Nat) (sp : Bool) (vd va vb : Reg),
      let puts := fun (i : Instr) (met : Nat) (reads : List LDest) (f : Core → Nat → Nat → Nat → Nat × Nat) =>
        s.Ready c false reads →
          Floats i s c met reads [.v vd] (fun k => (vfLanes sp (f k) k.v[va] k.v[vb] k.v[vd]).2)
            (fun k => k.setV vd (vfLanes sp (f k) k.v[va] k.v[vb] k.v[vd]).1)
      puts (.vfadd c sp vd va vb) 4 [.v va, .v vb] (fun k a b _ => fpAdd sp k.rm a b)
      ∧ puts (.vfsub c sp vd va vb) 4 [.v va, .v vb] (fun k a b _ => fpSub sp k.rm a b)
      ∧ puts (.vfmul c sp vd va vb) 4 [.v va, .v vb] (fun k a b _ => fpMul sp k.rm a b)
      ∧ puts (.vfma c sp vd va vb) 5 [.v va, .v vb, .v vd] (fun k a b d => fpFma sp k.rm a b d)
      ∧ puts (.vfmin c sp vd va vb) 2 [.v va, .v vb] (fun _ a b _ => fpMinMax sp false a b)
      ∧ puts (.vfmax c sp vd va vb) 2 [.v va, .v vb] (fun _ a b _ => fpMinMax sp true a b)
      ∧ (((s.begun c false [.v va, .v vb] [.v vd]).core c).detached = false →
          puts (.vfdiv c sp vd va vb) 22 [.v va, .v vb] (fun k a b _ => fpDiv sp k.rm a b)))
  ∧(∀ (s : State) (c : Nat) (sz : Fin 4) (vd va vb : Reg),
      let w := 8 * 2 ^ sz.val
      let each := fun (i : Instr) (met : Nat) (f : BitVec w → BitVec w → BitVec w) =>
        ∃ v : W256 → W256 → W256, SetsV i s c met [.v va, .v vb] vd (fun k => v k.v[va] k.v[vb])
          ∧ ∀ (a b : W256) (j : Nat), j < 256 / w →
            (v a b).extractLsb' (w * j) w = f (a.extractLsb' (w * j) w) (b.extractLsb' (w * j) w)
      each (.vadd c sz vd va vb) 1 (fun x y => x + y)
      ∧ each (.vsub c sz vd va vb) 1 (fun x y => x - y)
      ∧ each (.vsll c sz vd va vb) 1 (fun x y => x <<< (y.toNat % w))
      ∧ each (.vsrl c sz vd va vb) 1 (fun x y => x >>> (y.toNat % w))
      ∧ each (.vsra c sz vd va vb) 1 (fun x y => x.sshiftRight (y.toNat % w))
      ∧ each (.vmin c sz vd va vb) 1 (fun x y => if x.toInt < y.toInt then x else y)
      ∧ each (.vmax c sz vd va vb) 1 (fun x y => if x.toInt < y.toInt then y else x)
      ∧ each (.vmul c sz vd va vb) 4 (fun x y => x * y)
      ∧ each (.vceq c sz vd va vb) 1 (fun x y => if x = y then BitVec.allOnes w else 0)
      ∧ each (.vcgt c sz vd va vb) 1 (fun x y => if y.toInt < x.toInt then BitVec.allOnes w else 0)
      ∧ SetsV (.vand c vd va vb) s c 1 [.v va, .v vb] vd (fun k => k.v[va] &&& k.v[vb])
      ∧ SetsV (.vor c vd va vb) s c 1 [.v va, .v vb] vd (fun k => k.v[va] ||| k.v[vb])
      ∧ SetsV (.vxor c vd va vb) s c 1 [.v va, .v vb] vd (fun k => k.v[va] ^^^ k.v[vb])
      ∧ (∃ v : W256 → W256 → W256, SetsV (.vperm c vd va vb) s c 3 [.v va, .v vb] vd (fun k => v k.v[va] k.v[vb])
          ∧ ∀ (a b : W256) (j : Nat), j < 32 →
            (v a b).extractLsb' (8 * j) 8 = a.extractLsb' (8 * ((b.extractLsb' (8 * j) 8).toNat % 32)) 8)
      ∧ (∃ v : W64 → W256, SetsV (.vsplat c sz vd va) s c 2 [.g va] vd (fun k => v k.g[va])
          ∧ ∀ (a : W64) (j : Nat), j < 256 / w → (v a).extractLsb' (w * j) w = a.setWidth w)
      ∧ (vb.val < 256 / w → SetsG (.vext c sz vd va vb) s c 2 [.v va] vd
          (fun k => (k.v[va].extractLsb' (w * vb.val) w).setWidth 64))
      ∧ (256 / w ≤ vb.val → s.Ready c false [.v va] →
          exec (.vext c sz vd va vb) s = .next (s.orWait ((s.begun c false [.v va] [.g vd]).trapped c 2 illegal))))

/-- R80, R104, R105: each cryptographic instruction of registers, attached and detached: the AES and GMUL operations
act on each 128-bit lane. -/
def Obligations.CryptoResults : Prop :=
  ∀ (s : State) (c : Nat) (vd va vb : Reg),
    let both := fun (i : Instr) (met : Nat) (reads : List LDest) (f : Core → W256) =>
      ChangesLong i s c met reads [.v vd] (fun k => k.setV vd (f k))
      ∧ Detaches i s c met reads [.v vd] (fun k =>
          { pc := k.pc, dest := .v vd, res := .v (f k), flags := 0, exc := none, failed := false })
    let lanes := fun (f : W128 → W128 → W128) (k : Core) =>
      f (k.v[va].extractLsb' 128 128) (k.v[vb].extractLsb' 128 128) ++ f (k.v[va].extractLsb' 0 128) (k.v[vb].extractLsb' 0 128)
    both (.aese c vd va vb) 4 [.v va, .v vb] (lanes (aesRound false))
    ∧ both (.aesel c vd va vb) 4 [.v va, .v vb] (lanes (aesRound true))
    ∧ both (.aesd c vd va vb) 4 [.v va, .v vb] (lanes (aesInvRound false))
    ∧ both (.aesdl c vd va vb) 4 [.v va, .v vb] (lanes (aesInvRound true))
    ∧ both (.gmul c vd va vb) 4 [.v va, .v vb] (lanes gcmMul)
    ∧ both (.sha512s c vd va vb) 3 [.v va, .v vb, .v vd] (fun k => Config.sha512s k.v[vd] k.v[va] k.v[vb])
    ∧ both (.sha512r c vd va vb) 6 [.v va, .v vb, .v vd] (fun k => sha512r k.v[vd] k.v[va] k.v[vb])

/-- R68, R57, R61: each load, at every width, extension and address: where its access reads `bs`, the register takes
them, least significant byte first. -/
def Obligations.LoadResults : Prop :=
  ∀ (s : State) (c : Nat) (rd ra : Reg) (imm : BitVec 16) (bs : List Byte) (t : State),
    let b := s.begun c false [.g ra] [.g rd]
    let va := ((b.core c).g[ra] + imm.signExtend 64).toNat
    let loads := fun (i : Instr) (n al : Nat) (sgn : Bool) (v : W64) =>
      s.Ready c false [.g ra] → b.Loads c 14 0 accLoad .allow (some (.g rd n sgn)) va n al bs t →
      exec i s = .next (t.after c 14 (fun k => k.setG rd v))
    let lo := fun (n : Nat) => BitVec.ofNat (8 * n) (leNat (bs.take n))
    loads (.ldb c rd ra imm) 1 1 true ((lo 1).signExtend 64)
    ∧ loads (.ldbu c rd ra imm) 1 1 false ((lo 1).setWidth 64)
    ∧ loads (.ldh c rd ra imm) 2 1 true ((lo 2).signExtend 64)
    ∧ loads (.ldhu c rd ra imm) 2 1 false ((lo 2).setWidth 64)
    ∧ loads (.ldw c rd ra imm) 4 1 true ((lo 4).signExtend 64)
    ∧ loads (.ldwu c rd ra imm) 4 1 false ((lo 4).setWidth 64)
    ∧ loads (.ldd c rd ra imm) 8 1 false (lo 8)
    ∧ loads (.lda c rd ra imm) 8 8 false (lo 8)
    ∧ (rd.val % 2 = 0 → s.Ready c false [.g ra] →
        (s.begun c false [.g ra] [.g rd, .g (rd + 1)]).Loads c 14 0 accLoad .allow (some (.pair rd (rd + 1)))
          (((s.begun c false [.g ra] [.g rd, .g (rd + 1)]).core c).g[ra] + imm.signExtend 64).toNat 16 1 bs t →
        exec (.ldp c rd ra imm) s = .next (t.after c 14 (fun k => (k.setG rd (lo 8)).setG (rd + 1)
          (BitVec.ofNat 64 (leNat ((bs.drop 8).take 8))))))
    ∧ (s.Ready c false [.g ra] → (s.begun c false [.g ra] [.v rd]).Loads c 14 0 accLoad .allow (some (.v rd))
          (((s.begun c false [.g ra] [.v rd]).core c).g[ra] + imm.signExtend 64).toNat 32 1 bs t →
        exec (.vld c rd ra imm) s = .next (t.after c 14 (fun k => k.setV rd (BitVec.ofNat 256 (leNat (bs.take 32))))))

/-- R68, R61: each store, at every width and address: where its access of the register's low bytes is performed, the
instruction retires and writes no register. -/
def Obligations.StoreResults : Prop :=
  ∀ (s : State) (c : Nat) (rd ra : Reg) (imm : BitVec 16) (t : State),
    let b := s.begun c false [.g ra, .g rd] []
    let va := ((b.core c).g[ra] + imm.signExtend 64).toNat
    let stores := fun (i : Instr) (n al : Nat) =>
      s.Ready c false [.g ra, .g rd] → b.Stores c 2 .allow va al (natLe n (b.core c).g[rd].toNat) t →
      exec i s = .next (t.after c 2 id)
    stores (.stb c rd ra imm) 1 1
    ∧ stores (.sth c rd ra imm) 2 1
    ∧ stores (.stw c rd ra imm) 4 1
    ∧ stores (.std c rd ra imm) 8 1
    ∧ stores (.stl c rd ra imm) 8 8
    ∧ (let b := s.begun c false [.g ra, .g rd, .g (rd + 1)] [];
        rd.val % 2 = 0 → s.Ready c false [.g ra, .g rd, .g (rd + 1)] →
        b.Stores c 2 .allow ((b.core c).g[ra] + imm.signExtend 64).toNat 1
          (natLe 8 (b.core c).g[rd].toNat ++ natLe 8 (b.core c).g[rd + 1].toNat) t →
        exec (.stp c rd ra imm) s = .next (t.after c 2 id))
    ∧ (let b := s.begun c false [.g ra, .v rd] [];
        s.Ready c false [.g ra, .v rd] →
        b.Stores c 2 .allow ((b.core c).g[ra] + imm.signExtend 64).toNat 1 (natLe 32 (b.core c).v[rd].toNat) t →
        exec (.vst c rd ra imm) s = .next (t.after c 2 id))

/-- R68, R41: where a load or a store of this table traps by its own fields: an odd rd of a pair raises ILLEGAL, and a
misaligned LDA or STL whose access would otherwise pass raises ATOMIC_ALIGN with its address. -/
def Obligations.LoadStoreTraps : Prop :=
  ∀ (s : State) (c : Nat) (rd ra : Reg) (imm : BitVec 16),
    (rd.val % 2 = 1 → s.Ready c false [.g ra] → exec (.ldp c rd ra imm) s =
      .next (s.orWait ((s.begun c false [.g ra] [.g rd, .g (rd + 1)]).trapped c 14 illegal)))
    ∧ (rd.val % 2 = 1 → s.Ready c false [.g ra, .g rd, .g (rd + 1)] → exec (.stp c rd ra imm) s =
      .next (s.orWait ((s.begun c false [.g ra, .g rd, .g (rd + 1)] []).trapped c 2 illegal)))
    ∧ (let b := s.begun c false [.g ra] [.g rd];
        let va := ((b.core c).g[ra] + imm.signExtend 64).toNat;
        ∀ hs s1, s.Ready c false [.g ra] → va % 8 ≠ 0 → b.checkPieces c accLoad .allow (vaPieces va 8) = (.ok hs, s1) →
          exec (.lda c rd ra imm) s = .next (s.orWait (s1.trapped c 14 { mkExc 7 with addr := BitVec.ofNat 64 va })))
    ∧ (let b := s.begun c false [.g ra, .g rd] [];
        let va := ((b.core c).g[ra] + imm.signExtend 64).toNat;
        ∀ hs s1, s.Ready c false [.g ra, .g rd] → va % 8 ≠ 0 →
          b.checkPieces c accStore .allow (vaPieces va 8) = (.ok hs, s1) →
          exec (.stl c rd ra imm) s = .next (s.orWait (s1.trapped c 2 { mkExc 7 with addr := BitVec.ofNat 64 va })))

/-- R72: an access is performed only when every half has passed its checks, and of halves that fail the lower one's
event is taken: the check of a list of halves passes exactly when each half passes in turn, and stops at the first
that fails. -/
def Obligations.SplitAccessChecks : Prop :=
  ∀ (s : State) (c : Nat) (a : Acc) (use : DevUse) (p : Nat × Nat) (ps : List (Nat × Nat)),
    (∀ e s1, s.checkHalf c a use p.1 p.2 = (.error e, s1) → s.checkPieces c a use (p :: ps) = (.error e, s1))
    ∧ (∀ h s1 e s2, s.checkHalf c a use p.1 p.2 = (.ok h, s1) → s1.checkPieces c a use ps = (.error e, s2) →
        s.checkPieces c a use (p :: ps) = (.error e, s2))
    ∧ (∀ h s1 hs s2, s.checkHalf c a use p.1 p.2 = (.ok h, s1) → s1.checkPieces c a use ps = (.ok hs, s2) →
        s.checkPieces c a use (p :: ps) = (.ok (h :: hs), s2))

/-- R71: an access of at most 32 bytes never splits into more than two halves; each half lies within one line, and
together they hold every byte of the access. -/
def Obligations.SplitAtLineBoundary : Prop :=
  ∀ (va n : Nat), va < 2 ^ 64 → 0 < n → n ≤ 32 →
    (vaPieces va n).length ≤ 2
    ∧ (∀ p ∈ vaPieces va n, 0 < p.2 ∧ p.1 % 64 + p.2 ≤ 64)
    ∧ ((vaPieces va n).map (fun p => p.2)).sum = n
    ∧ (va % 64 + n ≤ 64 → vaPieces va n = [(va, n)])
    ∧ (64 < va % 64 + n →
        vaPieces va n = [(va, 64 - va % 64), ((va + (64 - va % 64)) % 2 ^ 64, n - (64 - va % 64))])

/-- R101: a store of ordinary memory, whole or split, leaves its bytes in the store queue behind the stores already
there, and nothing of it is written to memory before. R101: the store queue forwards to a load the bytes of the
youngest older store that overlaps it, where that store covers the whole load; a load of the boot SRAM that no queued
store overlaps reads the SRAM's bytes. -/
def Obligations.StoreQueueRules : Prop :=
   (∀ (s : State) (c : Nat) (hs : List Half) (bs : List Byte),
      (∀ h ∈ hs, 0 < h.n ∧ h.acc.dev = false ∧ h.acc.tord = false) → (s.core c).half = none →
      (s.core c).sq.length + hs.length ≤ 96 →
      let s1 := s.commitHalves c accStore hs
      (∃ r, s.storeHalves c 2 accStore false true [] none hs bs = .ok r (State.pushHalves c (s1.core c).td hs bs s1))
      ∧ ∀ h ∈ hs, h.acc.win = false →
          let s2 := s1.pushStore c (s1.core c).td h (bs.take h.n) false none
          (s2.core c).sq = (s1.core c).sq ++ [{ pa := h.acc.pa, bytes := bs.take h.n, td := (s1.core c).td, ks := h.acc.ks,
                                                zero := false, tord := none, pc := (s1.core c).pc + 4, old := false }]
          ∧ (s2.core c).g = (s1.core c).g ∧ (s2.core c).v = (s1.core c).v ∧ (s2.core c).pc = (s1.core c).pc
          ∧ s2.dram = s1.dram ∧ s2.sram = s1.sram ∧ s2.slcRam = s1.slcRam ∧ s2.blocks = s1.blocks
          ∧ ∀ d, d ≠ c → s2.core d = s1.core d)
  ∧(∀ (s : State) (c td prog : Nat) (h : Half),
      let ov := fun (e : SqEntry) => overlaps e.pa e.bytes.length h.acc.pa h.n
      (∀ older e younger, (s.core c).sq = older ++ e :: younger → (∀ y ∈ younger, ov y = false) → 0 < h.n →
          e.pa ≤ h.acc.pa → h.acc.pa + h.n ≤ e.pa + e.bytes.length →
          s.readHalf c td prog h = .ok ((e.bytes.drop (h.acc.pa - e.pa)).take h.n) s)
      ∧ ((∀ e ∈ (s.core c).sq, ov e = false) → inSram h.acc.pa = true →
          s.readHalf c td prog h = .ok ((List.range h.n).map (fun i => s.sram.byte (h.acc.pa - 0xA001000000000 + i))) s))

/-- R69, R61: each atomic operation, at both sizes: where the core owns the line, rd takes the old value, memory the
new one; CAS writes only where the old value is the old rd. -/
def Obligations.AtomicResults : Prop :=
  ∀ (s : State) (c : Nat) (aq rl dw : Bool) (rd ra rb : Reg) (h : Half) (old : Nat) (t : State),
    let n := if dw then 8 else 4
    let b := s.begun c false [.g ra, .g rb] [.g rd]
    let x := fld (t.core c).g[rb] 0 (8 * n)
    let writes := fun (i : Instr) (v : Nat) =>
      s.Ready c false [.g ra, .g rb] → b.Owns c (b.core c).g[ra].toNat n h old t →
      (t.writeLine c h (natLe n v)).waits = false →
      exec i s = .next ((t.writeLine c h (natLe n v)).after c 18 (fun k => k.setG rd (BitVec.ofNat 64 old)))
    writes (.swp c aq rl dw rd ra rb) x
    ∧ writes (.amadd c aq rl dw rd ra rb) (old + x)
    ∧ writes (.amand c aq rl dw rd ra rb) (old &&& x)
    ∧ writes (.amor c aq rl dw rd ra rb) (old ||| x)
    ∧ writes (.amxor c aq rl dw rd ra rb) (old ^^^ x)
    ∧ writes (.ammax c aq rl dw rd ra rb) (if sInt (8 * n) old < sInt (8 * n) x then x else old)
    ∧ writes (.ammin c aq rl dw rd ra rb) (if sInt (8 * n) x < sInt (8 * n) old then x else old)
    ∧ (let b := s.begun c false [.g ra, .g rb, .g rd] [.g rd];
        s.Ready c false [.g ra, .g rb, .g rd] → b.Owns c (b.core c).g[ra].toNat n h old t →
        (old = fld (t.core c).g[rd] 0 (8 * n) → (t.writeLine c h (natLe n x)).waits = false →
          exec (.cas c aq rl dw rd ra rb) s =
            .next ((t.writeLine c h (natLe n x)).after c 18 (fun k => k.setG rd (BitVec.ofNat 64 old))))
        ∧ (old ≠ fld (t.core c).g[rd] 0 (8 * n) → t.waits = false →
          exec (.cas c aq rl dw rd ra rb) s = .next (t.after c 18 (fun k => k.setG rd (BitVec.ofNat 64 old)))))

/-- R69, R70, R61: LDX reads the value and holds the line reserved where the core holds the line; STX stores, with rd
= 0, where the reservation covers the line, else rd = 1 and nothing is stored; either way the reservation is cleared.
-/
def Obligations.ExclusiveResults : Prop :=
  ∀ (s : State) (c : Nat) (aq rl dw : Bool) (rd ra rb : Reg) (h : Half),
    let n := if dw then 8 else 4
    (let b := s.begun c false [.g ra] [.g rd];
      ∀ s1 s2 bs t, s.Ready c false [.g ra] → b.checkAccess c accLdx .refuse (b.core c).g[ra].toNat n n = (.ok [h], s1) →
        s1.drainAll c = (true, s2) → s2.loadHalves c 14 0 accLdx none [h] = .ok bs t → t.waits = false →
        exec (.ldx c aq rl dw rd ra) s = .next (t.after c 14 (fun k => { k.setG rd (BitVec.ofNat 64 (leNat bs)) with
          resv := if k.l2en && (!t.homed h.acc.pa || (k.copy (h.acc.pa / 64)).isSome) then some (h.acc.pa / 64) else none })))
    ∧ (let b := s.begun c false [.g ra, .g rb] [.g rd];
      ∀ s1 t, s.Ready c false [.g ra, .g rb] → b.checkAccess c accStx .refuse (b.core c).g[ra].toNat n n = (.ok [h], s1) →
        s1.drainAll c = (true, t) → t.waits = false →
        let k := t.core c
        let u := (t.commitHalves c accStx [h]).writeLine c h (natLe n k.g[rb].toNat)
        (k.l2en = true → k.resv = some (h.acc.pa / 64) → u.waits = false →
          exec (.stx c aq rl dw rd ra rb) s = .next (u.after c 16 (fun k => { k.setG rd 0 with resv := none })))
        ∧ (k.l2en = false ∨ k.resv ≠ some (h.acc.pa / 64) →
          exec (.stx c aq rl dw rd ra rb) s = .next (t.after c 16 (fun k => { k.setG rd 1 with resv := none }))))

/-- R74, R75: a string instruction with a count of 0 makes no access and completes in 6 cycles. R74 to R77: one step
of each string instruction, on any count: a forward step ends at the next 64-byte boundary of rd or with the count,
MCPY goes downward where the ranges overlap so, MCMP stops at the first byte that differs; the instruction retires
with its last step and else stays at its PC. -/
def Obligations.StringResults : Prop :=
   (∀ (s : State) (c : Nat) (rd ra rb : Reg),
      let b := s.begun c false [.g rd, .g ra, .g rb] []
      s.Ready c false [.g rd, .g ra, .g rb] → (b.core c).g[rb] = 0 →
      exec (.mcpy c rd ra rb) s = .next (b.after c 6 id)
      ∧ exec (.mset c rd ra rb) s = .next (b.after c 6 id)
      ∧ exec (.mcmp c rd ra rb) s = .next (b.after c 6 id))
  ∧(∀ (s : State) (c : Nat) (rd ra rb : Reg),
      let b := s.begun c false [.g rd, .g ra, .g rb] []
      let d := (b.core c).g[rd].toNat
      let a := (b.core c).g[ra].toNat
      let n := (b.core c).g[rb].toNat
      let len := min n (64 - d % 64)
      let ends := fun (i : Instr) (t : State) (did : Nat) (more : Bool) (f : Core → Core) =>
        let u := t.modCore c (fun k => { f k with half := none, strDone := k.strDone + did })
        let met := (if (t.core c).strDone = 0 then 6 else 0) + 16
        exec i s = .next (if more then u.cycles c met else u.retire c met false ((u.core c).pc + 4))
      s.Ready c false [.g rd, .g ra, .g rb] → 0 < n →
      (∀ hs s1 r t, b.checkPieces c accStore .allow (vaPieces d len) = (.ok hs, s1) →
        s1.strStore c [] hs (List.replicate len ((b.core c).g[ra].setWidth 8)) = .ok r t → t.waits = false →
        ends (.mset c rd ra rb) t len (decide (len < n))
          (fun k => (k.setG rd (BitVec.ofNat 64 (d + len))).setG rb (BitVec.ofNat 64 (n - len))))
      ∧ (¬ (a < d ∧ d < a + n) → ∀ hl s1 hs s2 got s3 r t,
        b.checkPieces c accLoad .allow (vaPieces a len) = (.ok hl, s1) →
        s1.checkPieces c accStore .allow (vaPieces d len) = (.ok hs, s2) →
        s2.loadHalves c 0 (s2.core c).strProg accLoad none hl = .ok got s3 →
        s3.strStore c (got.take len) hs (got.take len) = .ok r t → t.waits = false →
        ends (.mcpy c rd ra rb) t len (decide (len < n)) (fun k =>
          ((k.setG rd (BitVec.ofNat 64 (d + len))).setG ra (BitVec.ofNat 64 (a + len))).setG rb (BitVec.ofNat 64 (n - len))))
      ∧ (a < d → d < a + n → ∀ hl s1 hs s2 got s3 r t,
        let lo := max d ((d + n - 1) / 64 * 64)
        b.checkPieces c accLoad .allow (vaPieces (a + (lo - d)) (d + n - lo)) = (.ok hl, s1) →
        s1.checkPieces c accStore .allow (vaPieces lo (d + n - lo)) = (.ok hs, s2) →
        s2.loadHalves c 0 (s2.core c).strProg accLoad none hl = .ok got s3 →
        s3.strStore c (got.take (d + n - lo)) hs (got.take (d + n - lo)) = .ok r t → t.waits = false →
        ends (.mcpy c rd ra rb) t (d + n - lo) (decide (d + n - lo < n))
          (fun k => k.setG rb (BitVec.ofNat 64 (n - (d + n - lo)))))
      ∧ (∀ h1 s1 h2 s2 x y t same, b.checkPieces c accLoad .allow (vaPieces d len) = (.ok h1, s1) →
        s1.checkPieces c accLoad .allow (vaPieces a len) = (.ok h2, s2) →
        s2.loadHalves c 0 (s2.core c).strProg accLoad none (h1 ++ h2) = .ok (x ++ y) t → t.waits = false →
        x.length = len → y.length = len → same ≤ len →
        (∀ i < same, x.getD i 0 = y.getD i 0) → (same < len → x.getD same 0 ≠ y.getD same 0) →
        ends (.mcmp c rd ra rb) t len (decide (same = len) && decide (len < n)) (fun k =>
          ((k.setG rd (BitVec.ofNat 64 (d + same))).setG ra (BitVec.ofNat 64 (a + same))).setG rb (BitVec.ofNat 64 (n - same)))))

/-- R159 to R162, R61: AADD, ASUB, AMACS, and AMAC on a core that runs its long operations attached: the exact sum at
the accumulator's scale, an overflow with OV set under TOV = 0, and the trap codes in order; a canonical quantity is
one whose 128 bits hold a number of 126. -/
def Obligations.AccumulateResults : Prop :=
  ∀ (s : State) (c : Nat) (l : Bool) (x : Fin 8) (va vb : Reg),
    let ops := fun (i : Instr) (met : Nat) (reads : List LDest) (short : Bool) (sc : Core → Nat) (ws : Core → List Int)
        (v : Core → Int) =>
      s.Ready c false reads →
      let b := s.begun c false reads [.a x]
      let k := b.core c
      let a := k.acc[x]
      let sum := a.val.toInt + v k * 10 ^ (a.scale.toNat - sc k)
      let fits := -(2 : Int) ^ 323 ≤ sum ∧ sum < 2 ^ 323
      let traps := fun (b : State) (n : Nat) => exec i s = .next (s.orWait (b.trapped c met (amberTrap n x l)))
      ((∃ w ∈ ws k, w < -(2 : Int) ^ 125 ∨ 2 ^ 125 ≤ w) → traps b 1)
      ∧ ((∀ w ∈ ws k, -(2 : Int) ^ 125 ≤ w ∧ w < 2 ^ 125) →
        (short = true → (∃ w ∈ ws k, w < -(2 : Int) ^ 53 ∨ 2 ^ 53 ≤ w) → traps b 2)
        ∧ ((short = true → ∀ w ∈ ws k, -(2 : Int) ^ 53 ≤ w ∧ w < 2 ^ 53) →
          (a.scale.toNat < sc k → traps b 3)
          ∧ (sc k ≤ a.scale.toNat → fits →
            exec i s = .next (b.after c met (fun k => k.setA x { a with val := BitVec.ofInt 324 sum })))
          ∧ (sc k ≤ a.scale.toNat → ¬ fits → k.amscl.getLsbD 24 = false →
            exec i s = .next (b.after c met (fun k => k.setA x { a with ov := true })))
          ∧ (sc k ≤ a.scale.toNat → ¬ fits → k.amscl.getLsbD 24 = true →
            traps (b.modCore c (fun k => k.setA x { a with ov := true })) 4)))
    let q := fun (k : Core) (r : Reg) => (laneOf k.v[r] l).toInt
    let sa := fun (k : Core) => fld k.amscl 0 6
    let sab := fun (k : Core) => fld k.amscl 0 6 + fld k.amscl 8 6
    ops (.aadd c l x va) 2 [.a x, .v va] false sa (fun k => [q k va]) (fun k => q k va)
    ∧ ops (.asub c l x va) 2 [.a x, .v va] false sa (fun k => [q k va]) (fun k => -q k va)
    ∧ ops (.amacs c l x va vb) 4 [.a x, .v va, .v vb] true sab (fun k => [q k va, q k vb]) (fun k => q k va * q k vb)
    ∧ (((s.begun c false [.a x, .v va, .v vb] [.a x]).core c).detached = false →
        ops (.amac c l x va vb) 6 [.a x, .v va, .v vb] false sab (fun k => [q k va, q k vb]) (fun k => q k va * q k vb))

/-- R157, R160 to R162, R61: ACLR, ASCL, AFLG and AFCLR: what each writes, and the scales and overflows that trap.
R163, R164, R82, R61: ARND on a core that runs its long operations attached, in every mode: the rounded value goes to
the lane and IX says that a remainder was left; or it traps with the first code that applies. -/
def Obligations.AccumulatorReadout : Prop :=
   (∀ (s : State) (c : Nat) (x : Fin 8) (r : Reg),
      (let b := s.begun c false [.g r] [.a x];
        let sc := (b.core c).g[r].toNat % 64;
        s.Ready c false [.g r] →
        (sc ≤ 38 → exec (.aclr c x r) s = .next (b.after c 1 (fun k => k.setA x
          { val := 0, scale := BitVec.ofNat 6 sc, ov := false, ix := false, ms := false })))
        ∧ (38 < sc → exec (.aclr c x r) s = .next (s.orWait (b.trapped c 1 (amberTrap 3 x false)))))
      ∧ (let b := s.begun c false [.a x, .g r] [.a x];
        let k := b.core c;
        let a := k.acc[x];
        let n := k.g[r].toNat % 64;
        let v := a.val.toInt * 10 ^ n;
        let fits := -(2 : Int) ^ 323 ≤ v ∧ v < 2 ^ 323;
        s.Ready c false [.a x, .g r] →
        (38 < a.scale.toNat + n → exec (.ascl c x r) s = .next (s.orWait (b.trapped c 3 (amberTrap 3 x false))))
        ∧ (a.scale.toNat + n ≤ 38 → fits → exec (.ascl c x r) s = .next (b.after c 3 (fun k => k.setA x
            { a with val := BitVec.ofInt 324 v, scale := BitVec.ofNat 6 (a.scale.toNat + n) })))
        ∧ (a.scale.toNat + n ≤ 38 → ¬ fits → k.amscl.getLsbD 24 = false →
            exec (.ascl c x r) s = .next (b.after c 3 (fun k => k.setA x { a with ov := true })))
        ∧ (a.scale.toNat + n ≤ 38 → ¬ fits → k.amscl.getLsbD 24 = true → exec (.ascl c x r) s =
            .next (s.orWait ((b.modCore c (fun k => k.setA x { a with ov := true })).trapped c 3 (amberTrap 4 x false)))))
      ∧ Changes (.afclr c x) s c 1 false [.a x] [.a x]
          (fun k => k.setA x { k.acc[x] with ov := false, ix := false, ms := false })
      ∧ ∃ w : AmAcc → W64, SetsG (.aflg c r x) s c 1 [.a x] r (fun k => w k.acc[x])
          ∧ ∀ a : AmAcc, (w a).getLsbD 0 = a.ov ∧ (w a).getLsbD 1 = a.ix ∧ (w a).getLsbD 2 = a.ms
            ∧ (w a).getLsbD 3 = decide (a.val.toInt = 0) ∧ (w a).getLsbD 4 = decide (a.val.toInt < 0)
            ∧ (w a).extractLsb' 5 3 = 0 ∧ (w a).extractLsb' 8 6 = a.scale ∧ (w a).extractLsb' 14 50 = 0)
  ∧(∀ (s : State) (c : Nat) (l : Bool) (mode : Fin 8) (vd : Reg) (x : Fin 8),
      let b := s.begun c false [.a x, .v vd] [.v vd]
      let k := b.core c
      let a := k.acc[x]
      let t := a.scale.toNat
      let d := fld k.amscl 16 6
      let inexact := decide (d < t ∧ ¬ (10 : Int) ^ (t - d) ∣ a.val.toInt)
      let i := Instr.arnd c l mode vd x
      let traps := fun (b : State) (n : Nat) => exec i s = .next (s.orWait (b.trapped c 40 (amberTrap n x l)))
      s.Ready c false [.a x, .v vd] → k.detached = false →
      (6 ≤ mode.val → exec i s = .next (s.orWait (b.trapped c 40 illegal)))
      ∧ (mode.val < 6 → (a.ov || a.ms) = true → traps b 4)
      ∧ (mode.val < 6 → (a.ov || a.ms) = false →
        (mode.val = 5 → inexact = true → traps (b.modCore c (fun k => k.setA x { a with ix := true })) 5)
        ∧ ∀ r : Int, ReadsOut a.val.toInt t d mode.val r →
          (r < -(2 : Int) ^ 125 ∨ 2 ^ 125 ≤ r → traps b 6)
          ∧ (-(2 : Int) ^ 125 ≤ r → r < 2 ^ 125 → exec i s = .next (b.after c 40 (fun k =>
              (k.setV vd (putLane k.v[vd] l (BitVec.ofInt 128 r))).setA x { a with ix := a.ix || inexact })))))

/-- R158: the 64-byte image of an accumulator restores it: reading an image of ASAV gives the accumulator back,
whatever the merge count, for every value, flag and scale up to 38. -/
def Obligations.AccumulatorImageRoundTrip : Prop :=
  ∀ (a : AmAcc) (n : Nat), a.scale.toNat ≤ 38 → (accImage a n).length = 64 ∧ imageAcc (accImage a n) = some a

/-- R162, R158, R155, R61: the Amber loads and stores, and the merge of an image: AQLD and AQST move one lane, ASAV
stores an image of the accumulator, ARST loads one, and an image that is not valid traps with IMAGE. -/
def Obligations.AmberMemoryResults : Prop :=
  ∀ (s : State) (c : Nat) (l : Bool) (x : Fin 8) (vd ga : Reg) (bs : List Byte) (t : State),
    (s.Ready c false [.g ga, .v vd] → (s.begun c false [.g ga, .v vd] [.v vd]).Loads c 14 0 accLoad .refuse
        (some (.lane vd l)) ((s.begun c false [.g ga, .v vd] [.v vd]).core c).g[ga].toNat 16 1 bs t →
      exec (.aqld c l vd ga) s = .next (t.after c 14 (fun k =>
        k.setV vd (putLane k.v[vd] l (BitVec.ofNat 128 (leNat (bs.take 16)))))))
    ∧ (let b := s.begun c false [.g ga, .v vd] [];
        s.Ready c false [.g ga, .v vd] →
        b.Stores c 2 .refuse (b.core c).g[ga].toNat 1 (natLe 16 (laneOf (b.core c).v[vd] l).toNat) t →
        exec (.aqst c l vd ga) s = .next (t.after c 2 id))
    ∧ (let b := s.begun c false [.a x, .g ga] [];
        s.Ready c false [.a x, .g ga] →
        b.Stores c 6 .refuse (b.core c).g[ga].toNat 1 (accImage (b.core c).acc[x] 0) t →
        exec (.asav c x ga) s = .next (t.after c 6 id))
    ∧ (s.Ready c false [.g ga] → (s.begun c false [.g ga] [.a x]).Loads c 14 0 accLoad .refuse none
        ((s.begun c false [.g ga] [.a x]).core c).g[ga].toNat 64 1 bs t →
      (∀ a, imageAcc bs = some a → exec (.arst c x ga) s = .next (t.after c 14 (fun k => k.setA x a)))
      ∧ (imageAcc bs = none → exec (.arst c x ga) s = .next (s.orWait (t.trapped c 14 (amberTrap 7 x false)))))

/-- R83, R57, R107: BR, BAL, Bcc, JALR and JR: the next PC, the link register, the predictor's training, and the
instructions that trap: a condition 6 or 7, and a jump to an address that is no multiple of 4. R37, R41, R45, R85,
R58: CALLS, CALLH, CALLM and BRK retire and raise their event with the next PC of the loop rule in the frame; a call
of a level at or below the current one, and a word that no table lists, raise ILLEGAL. -/
def Obligations.ControlFlowResults : Prop :=
   (∀ (s : State) (c : Nat) (o26 : BitVec 26) (o13 : BitVec 13) (imm : BitVec 16) (cond : Fin 8) (rd ra rb : Reg),
      let link := fun (k : Core) => k.pc + 4
      (let b := s.begun c false [] [];
        s.Ready c false [] → ∀ t, t = BitVec.ofInt 64 ((b.core c).pc.toNat + 4 * o26.toInt) →
          exec (.br c o26) s = .next (b.jumped c 3 (fun k => k.train 0 false true t) t))
      ∧ (let b := s.begun c false [] [.g 31];
        s.Ready c false [] → ∀ t, t = BitVec.ofInt 64 ((b.core c).pc.toNat + 4 * o26.toInt) →
          exec (.bal c o26) s = .next (b.jumped c 3
            (fun k => ((k.train 2 false true t).rasPush (link k)).setG 31 (link k)) t))
      ∧ (let b := s.begun c false [.g ra, .g rb] [];
        let x := (b.core c).g[ra];
        let y := (b.core c).g[rb];
        let holds := match cond.val with
          | 0 => x = y
          | 1 => x ≠ y
          | 2 => x.toInt < y.toInt
          | 3 => y.toInt ≤ x.toInt
          | 4 => x.toNat < y.toNat
          | _ => y.toNat ≤ x.toNat;
        s.Ready c false [.g ra, .g rb] → ∀ t, t = BitVec.ofInt 64 ((b.core c).pc.toNat + 4 * o13.toInt) →
          (cond.val < 6 → holds → exec (.bcc c cond ra rb o13) s = .next (b.jumped c 3 (fun k => k.train 1 true true t) t))
          ∧ (cond.val < 6 → ¬ holds →
            exec (.bcc c cond ra rb o13) s = .next (b.after c 3 (fun k => k.train 1 true false t)))
          ∧ (6 ≤ cond.val → exec (.bcc c cond ra rb o13) s = .next (s.orWait (b.trapped c 3 illegal))))
      ∧ (let b := s.begun c false [.g ra] [.g rd];
        s.Ready c false [.g ra] → ∀ t, t = BitVec.ofInt 64 ((b.core c).g[ra].toNat + imm.toInt) →
          (t.toNat % 4 = 0 → rd ≠ 31 → exec (.jalr c rd ra imm) s = .next (b.jumped c 4
            (fun k => (k.train 3 false true t).setG rd (link k)) t))
          ∧ (t.toNat % 4 = 0 → rd = 31 → exec (.jalr c rd ra imm) s = .next (b.jumped c 4
            (fun k => ((k.train 2 false true t).rasPush (link k)).setG 31 (link k)) t))
          ∧ (t.toNat % 4 ≠ 0 → exec (.jalr c rd ra imm) s =
            .next (s.orWait (b.trapped c 4 { mkExc 0 with addr := t }))))
      ∧ (let b := s.begun c false [.g ra] [];
        s.Ready c false [.g ra] → ∀ t, t = BitVec.ofInt 64 ((b.core c).g[ra].toNat + imm.toInt) →
          (t.toNat % 4 = 0 → ra ≠ 31 → exec (.jr c ra imm) s = .next (b.jumped c 4 (fun k => k.train 3 false true t) t))
          ∧ (t.toNat % 4 = 0 → ra = 31 →
            exec (.jr c ra imm) s = .next (b.jumped c 4 (fun k => (k.train 3 false true t).rasPop) t))
          ∧ (t.toNat % 4 ≠ 0 → exec (.jr c ra imm) s =
            .next (s.orWait (b.trapped c 4 { mkExc 0 with addr := t })))))
  ∧(∀ (s : State) (c : Nat) (w : BitVec 32),
      let b := s.begun c false [] []
      let k := b.core c
      let called := fun (i : Instr) (e : Nat) =>
        let k' := { k.loopRetire false (k.pc + 4) with instret := k.instret + 1 }
        exec i s = .next (s.orWait (((b.setCore c { k' with pc := k.pc }).takeEvent c (mkExc e) false
          (k'.targetOf (mkExc e)) k'.pc).cycles c 1))
      let refused := fun (i : Instr) => exec i s = .next (s.orWait (b.trapped c 1 illegal))
      s.Ready c false [] →
        (k.lvl = .u → called (.calls c) 8) ∧ (k.lvl ≠ .u → refused (.calls c))
        ∧ (k.lvl.num < 2 → called (.callh c) 9) ∧ (2 ≤ k.lvl.num → refused (.callh c))
        ∧ (k.lvl ≠ .m → called (.callm c) 10) ∧ (k.lvl = .m → refused (.callm c))
        ∧ called (.brk c) 3
        ∧ (listed w = false → k.meter = true → exec (.undefinedEncoding c w) s = .next (s.orWait
            (({ b with free := b.free + 1 }.modCore c (fun k =>
              { k with cycle := k.cycle + BitVec.ofNat 64 (Config.freeCycles b.free) })).trapped c 0 illegal)))
        ∧ (listed w = false → k.meter = false → exec (.undefinedEncoding c w) s =
            .next (s.orWait (({ b with free := b.free + 1 }.modCore c id).trapped c 0 illegal))))

/-- R84: LOOP with LC ≠ 0 raises ILLEGAL; otherwise it sets LS, LE and LC, and with a count of 0 the next PC is LE +
4. The form whose IMM[15:6] is not 0 raises ILLEGAL (R83). -/
def Obligations.LoopResults : Prop :=
  ∀ (s : State) (c : Nat) (ra : Reg) (imm : BitVec 16),
    let b := s.begun c false [.g ra] []
    let k := b.core c
    let n := k.g[ra].toNat % 2 ^ 32
    let le := k.pc + BitVec.ofNat 64 (4 * (imm.toNat % 64 + 1))
    let bounds := fun (k : Core) => { k with ls := k.pc + 4, le := le, lc := BitVec.ofNat 32 n }
    s.Ready c false [.g ra] →
      (k.lc ≠ 0 ∨ 64 ≤ imm.toNat → exec (.loop c ra imm) s = .next (s.orWait (b.trapped c 2 illegal)))
      ∧ (k.lc = 0 → imm.toNat < 64 → n ≠ 0 → exec (.loop c ra imm) s =
          .next (b.after c 2 (fun k => { bounds k with loopBuf := some (k.pc + 4, le) })))
      ∧ (k.lc = 0 → imm.toNat < 64 → n = 0 → exec (.loop c ra imm) s =
          .next ((b.modCore c bounds).retire c 2 false (le + 4)))

/-- R85, R34, R61, R103: what a retirement does: the loop rule gives LC and the next PC, INSTRET counts one, a metered
core's CYCLE counts the instruction's own cycles, and nothing else of the machine changes. -/
def Obligations.RetirementRule : Prop :=
  ∀ (b : State) (c met : Nat) (taken : Bool) (next : W64),
    let k := b.core c
    let t := b.retire c met taken next
    let valid := k.ls.toNat % 4 = 0 ∧ k.le.toNat % 4 = 0 ∧ k.ls.toNat ≤ k.le.toNat ∧ k.le.toNat - k.ls.toNat ≤ 252
    let body := fun (a : W64) => k.ls.toNat ≤ a.toNat ∧ a.toNat ≤ k.le.toNat
    let active := k.lc ≠ 0 ∧ valid
    let result := fun (pc : W64) (lc : BitVec 32) => ∃ cyc, t.core c = { k with
      pc, lc, cycle := cyc, instret := k.instret + 1, half := none, strDone := 0, strKey := none }
    (active → k.pc = k.le → taken = false → k.lc ≠ 1 → result k.ls (k.lc - 1))
    ∧ (active → k.pc = k.le → taken = false → k.lc = 1 → result next 0)
    ∧ (active → body k.pc → taken = true → ¬ body next → result next 0)
    ∧ (active → taken = true → body next → result next k.lc)
    ∧ (active → taken = false → k.pc ≠ k.le → result next k.lc)
    ∧ (active → ¬ body k.pc → result next k.lc)
    ∧ (¬ active → result next k.lc)
    ∧ (k.meter = true → (t.core c).cycle = k.cycle + BitVec.ofNat 64 met ∧ t.free = b.free)
    ∧ (∀ d, d ≠ c → t.core d = b.core d)
    ∧ { t with cores := b.cores, free := b.free } = b

/-- R38, R47, R90, log 23: ERET: below S it raises ILLEGAL; a frame whose PL is above the current level raises
ILLEGAL; where an asynchronous event of the level is takeable under the frame's STATUS the return chains to the
highest; otherwise PC, STATUS and G0 to G15 come from the frame and FRAME rises by 192. -/
def Obligations.ReturnResults : Prop :=
  ∀ (s : State) (c : Nat),
    let b := s.begun c true [] []
    let l := (b.core c).lvl
    s.Ready c true [] →
    (l = .u → exec (.eret c) s = .next (s.orWait (b.trapped c 8 illegal)))
    ∧ (l ≠ .u → ∀ s1 ls s2 bs s3, b.drainAll c = (true, s1) →
      s1.frameLines c l accLoad ((b.core c).bank l).frame.toNat = (.ok ls, s2) →
      ls.any (fun a => s2.homed a.pa && s2.walkStalls c (a.pa / 64)) = false →
      (s2.modCore c (fun k => k.frameBreaks ls)).readFrame c ((b.core c).tdAt l) ls = ((bs, none), s3) →
      s3.waits = false →
      let w := frameWord bs 8
      let k := s3.core c
      let takes := fun (key : Nat) => key ∈ k.pend ∧ key / 256 = l.num ∧ w / 256 % 8 < key % 256 / 32
      (l.num < w % 4 → exec (.eret c) s = .next (s.orWait (s3.trapped c 8 illegal)))
      ∧ (∀ n, w % 4 ≤ l.num → w / 4 % 2 = 1 → takes (256 * l.num + n) → n < 256 →
        (∀ m, m < 256 → takes (256 * l.num + m) → m ≤ n) →
        exec (.eret c) s = .next ((s3.modCore c (fun k =>
          { k.setBank k.lvl { k.bank k.lvl with cause := BitVec.ofNat 64 (n + 65536) } with
            evlvl := n / 32, resv := none, loopBuf := none, pend := k.pend.filter (· != 256 * l.num + n) })).retire
          c 6 false ((k.bank k.lvl).base + BitVec.ofNat 64 (32 * n))))
      ∧ (w % 4 ≤ l.num → (w / 4 % 2 = 0 ∨ ∀ key, ¬ takes key) →
        ∃ g : Vector W64 32, (∀ i : Fin 32, g[i] = if i.val < 16 then BitVec.ofNat 64 (frameWord bs (0x20 + 8 * i)) else k.g[i])
          ∧ exec (.eret c) s = .next ((s3.modCore c (fun k =>
            { k.setBank k.lvl { k.bank k.lvl with frame := (k.bank k.lvl).frame + 192 } with
              lvl := Lvl.ofNum (w % 4), ie := w.testBit 2, guest := w.testBit 3 && decide (w % 4 ≤ 1), sum := w.testBit 4
              evlvl := w / 256 % 8, g := g, resv := none })).retire c 8 false (BitVec.ofNat 64 (frameWord bs 0)))))

/-- R92, R193, R354: WFE and NWAIT: each completes at once where what it waits for holds; otherwise the core waits, a
WFE with RETWFE = 1 on the way to RET, and an NWAIT of a bound core whose Noon work is done closes the ticks below its
own. R54, R90, R105, R109: the barriers: FENCE with SL performs the queued ordinary stores, SYNC waits for every store
and every TO store's acknowledgement, LBAR and SYNC for every long operation, IFENCE empties the line buffer, BPBAR
changes nothing where instructions are taken one at a time, and BPFLUSH clears the predictors. RAND writes its flag
and its bits or two zeros (log 17). -/
def Obligations.WaitBarrierResults : Prop :=
   (∀ (s : State) (c : Nat) (ra : Reg),
      (let b := s.begun c false [] [];
        let w := b.modCore c (fun k => { k with run := .wfe });
        s.Ready c false [] →
        ((b.core c).pend ≠ [] ∨ b.mailbox c ≠ [] → exec (.wfe c) s = .next (b.after c 2 (fun k => { k with run := .run })))
        ∧ ((b.core c).pend = [] → b.mailbox c = [] → (b.core c).retwfe = false → exec (.wfe c) s = .next w)
        ∧ ((b.core c).pend = [] → b.mailbox c = [] → (b.core c).retwfe = true → exec (.wfe c) s = .next (s.orWait
            ((w.modDom c (fun d => { d with st := 3, dest := 1, src := 0, viaWfe := true, wakeReq := false })).leaveOn c .ret))))
      ∧ (let b := s.begun c false [.g ra] [];
        let t := (b.core c).g[ra].toNat;
        s.Ready c false [.g ra] →
        (t ≤ b.noon.tick → exec (.nwait c ra) s = .next (b.after c 2 (fun k => { k with run := .run })))
        ∧ (b.noon.tick < t → (b.core c).bind = true → b.noonQuiet c = true → exec (.nwait c ra) s =
            .next (b.modCore c (fun k =>
              { k.completeWhere (fun _ => true) with run := .nwait, closedTo := max k.closedTo t })))
        ∧ (b.noon.tick < t → (b.core c).bind = false ∨ b.noonQuiet c = false → exec (.nwait c ra) s =
            .next (b.modCore c (fun k => { k with run := .nwait })))))
  ∧(∀ (s : State) (c : Nat) (m : BitVec 4) (rd ra : Reg),
      (s.Ready c false [] →
        let b := s.begun c false [] []
        (m.getLsbD 1 = false → exec (.fence c m) s = .next (b.after c 1 id))
        ∧ (m.getLsbD 1 = true → ∀ ok t, b.drainWhile c (fun e => e.tord.isNone) (b.core c).sq.length = (ok, t) →
          t.waits = false →
          ((∀ e ∈ (t.core c).sq, e.tord.isSome) → exec (.fence c m) s = .next (t.after c 1 id))
          ∧ ((∃ e ∈ (t.core c).sq, e.tord = none) → exec (.fence c m) s = .next t))
        ∧ exec (.bpbar c) s = .next (b.after c 1 id)
        ∧ exec (.bpflush c) s = .next (b.after c 16 (fun k => { k with dirTab := [], btb := [], ras := [], ghist := 0 }))
        ∧ (∀ t, b.drainAll c = (true, t) → t.waits = false →
          exec (.ifence c) s = .next (t.after c 6 (fun k => { k with lineBuf := [], loopBuf := none }))))
      ∧ (s.Ready c true [] →
        let b := s.begun c true [] []
        exec (.lbar c) s = .next (b.after c 1 id)
        ∧ ∀ ok t, b.drainAll c = (ok, t) → t.waits = false →
          let own := fun (p : PubEnt) => p.key.core = c % 2
          ((t.core c).sq = [] → (∀ p ∈ (t.block (coreBlock c)).pub, ¬ own p) → exec (.sync c) s = .next (t.after c 2 id))
          ∧ ((t.core c).sq ≠ [] ∨ (∃ p ∈ (t.block (coreBlock c)).pub, own p) → exec (.sync c) s = .next t))
      ∧ (let b := s.begun c false [] [.g rd, .g ra];
        let u := { b with free := b.free + 1 };
        s.Ready c false [] →
        (Config.randomReady b.free = true → exec (.rand c rd ra) s =
          .next (u.after c 200 (fun k => (k.setG rd (Config.random b.free)).setG ra 1)))
        ∧ (Config.randomReady b.free = false → exec (.rand c rd ra) s =
          .next (u.after c 200 (fun k => (k.setG rd 0).setG ra 0)))))

/-- R33, R89, R10: CSRR reads, CSRW, CSRS and CSRC write the bits they name and the last two return the value before;
an access of a number that does not exist, or from a level below the lowest permitted, raises ILLEGAL and writes
nothing. -/
def Obligations.CsrResults : Prop :=
  ∀ (s : State) (c : Nat) (rd ra : Reg) (csr : BitVec 12),
    let n := csr.toNat
    let may := fun (b : State) => n / 256 % 4 ≤ (b.core c).lvl.num
    let writes := fun (i : Instr) (dst : List LDest) (v m : W64 → W64) (ret : W64 → State → State) =>
      let ser := csrSerial n
      let b := s.begun c ser [.g ra] dst
      let a := (b.core c).g[ra]
      let met := (b.core c).csrMet n (v a) (m a)
      s.Ready c ser [.g ra] →
        (∀ old, may b → b.csrRead c n = some old → b.csrHeld c n (v a) (m a) = false →
          let t := ret old ((b.cycles c met).csrWrite c n (v a) (m a))
          t.waits = false → exec i s = .next (t.retireNow c false ((t.core c).pc + 4)))
        ∧ (¬ may b ∨ b.csrRead c n = none →
          exec i s = .next (s.orWait (b.trapped c ((s.core c).csrMet n (v (s.core c).g[ra]) (m (s.core c).g[ra])) illegal)))
    (let b := s.begun c false [] [.g rd];
      s.Ready c false [] →
      (∀ v, may b → b.csrRead c n = some v → exec (.csrr c rd csr) s = .next (b.after c 2 (fun k => k.setG rd v)))
      ∧ (¬ may b ∨ b.csrRead c n = none → exec (.csrr c rd csr) s = .next (s.orWait (b.trapped c 2 illegal))))
    ∧ writes (.csrw c ra csr) [] id (fun _ => BitVec.allOnes 64) (fun _ t => t)
    ∧ writes (.csrs c rd ra csr) [.g rd] id id (fun old t => t.modCore c (fun k => k.setG rd old))
    ∧ writes (.csrc c rd ra csr) [.g rd] (fun _ => 0) id (fun old t => t.modCore c (fun k => k.setG rd old))

/-- R91: DCCLEAN, DCFLUSH, DCINV and ICINV on the line of ra: nothing in device space; elsewhere queued stores to the
line are written first, and then the line is cleaned, flushed, dropped (in a guest flushed), or leaves the instruction
cache. R91, R133, R135, R293, R90: the prefetch hints, dropped where HINTEN is 0, the core is metered or its
translation fails, else a fetch into the side buffer; and the TLB instructions, which wait for the store queue, remove
what the table says and raise ILLEGAL below their level. -/
def Obligations.CacheTlbResults : Prop :=
   (∀ (s : State) (c : Nat) (ra : Reg),
      let b := s.begun c false [.g ra] []
      let op := fun (i : Instr) (a : Acc) (effect : State → Nat → State → Prop) =>
        ∀ h s1, b.checkHalf c a .ignore (b.core c).g[ra].toNat 1 = (.ok h, s1) →
          (h.acc.dev = true → s1.waits = false → exec i s = .next (s1.after c 14 id))
          ∧ (h.acc.dev = false → ∀ s2 t, s1.drainWhile c (fun e => decide (e.pa / 64 = h.acc.pa / 64)) (s1.core c).sq.length
              = (true, s2) → effect (s2.commitHalves c a [h]) (h.acc.pa / 64) t → t.waits = false →
            exec i s = .next (t.after c 14 id))
      let flushed := fun (u : State) (la : Nat) (t : State) =>
        (∃ l, (u.core c).copy la = some l ∧ t = (u.modCore c (fun k => k.dropLine la)).release c l)
        ∨ ((u.core c).copy la = none ∧ (∀ l ∈ (u.core c).l1i, l.la ≠ la) ∧ t = u.modCore c (fun k => k.dropLine la))
      let dropped := fun (u : State) (la : Nat) (t : State) =>
        (∃ l, (u.core c).copy la = some l ∧ t = (u.modCore c (fun k => k.dropLine la)).homeEvn c la)
        ∨ ((u.core c).copy la = none ∧ (∀ l ∈ (u.core c).l1i, l.la ≠ la) ∧ t = u.modCore c (fun k => k.dropLine la))
      let clean := fun (la : Nat) (x : CLine) => if x.la = la then { x with st := .e } else x
      s.Ready c false [.g ra] →
      op (.dcclean c ra) accLoad (fun u la t =>
          (∃ l, (u.core c).copy la = some l ∧ l.st = .m ∧ t = (u.modCore c (fun k =>
            { k with l2 := k.l2.map (clean la), vc := k.vc.map (clean la) })).slcFill la l.td l.ks l.data true l.poison l.stream)
          ∨ ((∀ l, (u.core c).copy la = some l → l.st ≠ .m) ∧ t = u))
      ∧ op (.dcflush c ra) accLoad flushed
      ∧ ((b.core c).lvl = .u → exec (.dcinv c ra) s = .next (s.orWait (b.trapped c 14 illegal)))
      ∧ ((b.core c).lvl ≠ .u → op (.dcinv c ra) accStore (fun u la t =>
          ((u.core c).guest = true ∧ flushed u la t) ∨ ((u.core c).guest = false ∧ dropped u la t)))
      ∧ op (.icinv c ra) accLoad (fun u la t => ∃ v, v = u.modCore c (fun k => { k with
            l1i := k.l1i.filter (fun l => l.la != la), lineBuf := k.lineBuf.filter (· != la)
            lost := if k.l1i.any (fun l => l.la == la && l.locked) then insNat k.lost la else k.lost }) ∧
          (((u.core c).l1i.any (fun l => l.la == la) = true ∧ (u.core c).copy la = none ∧ t = v.homeEvn c la)
          ∨ (((u.core c).l1i.any (fun l => l.la == la) = false ∨ (u.core c).copy la ≠ none) ∧ t = v))))
  ∧(∀ (s : State) (c : Nat) (ra : Reg),
      (let b := s.begun c false [.g ra] [];
        let k := b.core c;
        let look := b.lookup (some c) 0 (k.regime false) accLoad k.g[ra].toNat;
        let hint := fun (i : Instr) (excl stream : Bool) =>
          (k.meter = true ∨ k.pfctl.getLsbD 12 = false → exec i s = .next (b.after c 1 id))
          ∧ (k.meter = false → k.pfctl.getLsbD 12 = true → (k.guest = false ∨ k.hgatp.getLsbD 0 = true) →
            (∀ f t, look = (.error f, t) → t.waits = false → exec i s = .next (t.after c 1 id))
            ∧ ∀ x t, look = (.ok x, t) → t.waits = false →
              let drop := t.homed x.pa = false ∨ t.paFault x.pa ≠ 0 ∨ x.to1 = true ∨ x.to2 = true
                ∨ t.linePoisoned c (x.pa / 64) = true
              let u := t.commitXlat (some c) 0 (k.regime false) accLoad k.g[ra].toNat x
              (drop → exec i s = .next (t.after c 1 id))
              ∧ (¬ drop → u.linePending (x.pa / 64) = false → ∀ v, v = u.prefetch c (x.pa / 64) k.td x.ks excl stream →
                  v.waits = false → exec i s = .next (v.after c 1 id))
              ∧ (¬ drop → u.linePending (x.pa / 64) = true → u.waits = false → exec i s = .next (u.after c 1 id)));
        s.Ready c false [.g ra] →
          hint (.pfl c ra) false false ∧ hint (.pfs c ra) true false ∧ hint (.pfnt c ra) false true)
      ∧ (let tlb := fun (i : Instr) (met : Nat) (low : Nat) (reads : List LDest) (gone : Core → TlbEnt → Bool)
            (goneTable : Core → WalkEnt → Bool) =>
          let b := s.begun c false reads []
          s.Ready c false reads →
          ((b.core c).lvl.num < low → exec i s = .next (s.orWait (b.trapped c met illegal)))
          ∧ (low ≤ (b.core c).lvl.num → ∀ t, b.drainAll c = (true, t) → t.waits = false →
            exec i s = .next (t.after c met (fun k => { k with
              tlb := k.tlb.filter (fun e => !gone k e), wcache := k.wcache.filter (fun e => !goneTable k e) })));
        let cur := fun (k : Core) (reg td : Nat) => reg = (k.regime false).num ∧ td = (k.regime false).td;
        let tables := fun (k : Core) (e : WalkEnt) =>
          decide (cur k e.regime e.td) || (decide ((k.regime false).num = 1) && decide (e.regime = 1 ∧ e.td = 0));
        let page := fun (k : Core) (e : TlbEnt) => decide (e.va = k.g[ra].toNat / 2 ^ e.size * 2 ^ e.size);
        tlb (.tlbiva c ra) 4 1 [.g ra] (fun k e => decide (cur k e.regime e.td) && page k e) tables
        ∧ tlb (.tlbiall c) 24 1 [] (fun k e => decide (cur k e.regime e.td)) tables
        ∧ tlb (.tlbigva c ra) 4 2 [.g ra] (fun k e => decide (e.regime = 1 ∧ e.td = k.tdid) && page k e)
            (fun k e => decide (e.regime = 1 ∧ (e.td = k.tdid ∨ e.td = 0)))
        ∧ tlb (.tlbidom c ra) 24 2 [.g ra]
            (fun k e => decide ((e.regime = 0 ∨ e.regime = 1) ∧ e.td = k.g[ra].toNat % 64))
            (fun k e => decide ((e.regime = 0 ∨ e.regime = 1) ∧ e.td = k.g[ra].toNat % 64 ∨ e.regime = 1 ∧ e.td = 0))))

/-- R80, R81, R91, R93, R168, R169, R181 to R184, R188, R200: the instructions on a block of memory: SHA3F permutes
its 200 bytes, DCZERO stores 64 zeros, NPOST and AMRG post an action or are refused with the first code that applies,
and NRECV takes the oldest message of its domain. -/
def Obligations.BlockInstructionResults : Prop :=
  ∀ (s : State) (c : Nat) (rd ra : Reg) (x : Fin 8),
    let b := s.begun c false [.g ra] []
    let va := (b.core c).g[ra].toNat
    let refused := fun (i : Instr) (t : State) (code : Nat) =>
      exec i s = .next (s.orWait ((t.modCore c (fun k => { k with rsn := code })).trapped c 8 (mkExc 13)))
    (s.Ready c false [.g ra] → va % 8 = 0 → ∀ hl s1 hs s2 got s3 r t,
      b.checkPieces c accLoad .allow (vaPieces va 200) = (.ok hl, s1) →
      s1.checkPieces c accStore .allow (vaPieces va 200) = (.ok hs, s2) →
      s2.loadHalves c 0 0 accLoad none hl = .ok got s3 →
      s3.storeHalves c 0 accStore false false (got.take 200) none hs (keccakBytes (keccakF (keccakLanes (got.take 200))))
        = .ok r t → t.waits = false → (t.core c).detached = false → exec (.sha3f c ra) s = .next (t.after c 40 id))
    ∧ (s.Ready c false [.g ra] → ∀ h s1 r t, b.checkHalf c accStore .refuse va 1 = (.ok h, s1) →
      s1.storeHalves c 14 accStore true true [] none
        [{ h with n := 64, acc := { h.acc with pa := h.acc.pa / 64 * 64 } }] (List.replicate 64 0) = .ok r t →
      t.waits = false → exec (.dczero c ra) s = .next (t.after c 14 id))
    ∧ (s.Ready c false [.g ra] → b.noonHeld c = true →
      exec (.npost c ra) s = .next (b.modCore c (fun k => k.brk 7 k.pc)))
    ∧ (s.Ready c false [.g ra] → b.noonHeld c = false → ∀ hs s1 bs s2,
      b.checkAccess c accLoad .allow va 64 64 = (.ok hs, s1) → s1.loadHalves c 8 progNone accLoad none hs = .ok bs s2 →
      s2.waits = false → ∀ t e, t = s2.modCore c (fun k => { k with half := none }) → e = postEntry bs →
      (t.entryRefusal e ≠ 0 → refused (.npost c ra) t (t.entryRefusal e))
      ∧ (t.entryRefusal e = 0 → ∀ hd data u n, t.entryData c e = (.ok (hd, .ok data u), n) → u.waits = false →
        ∀ body, body = actBodyOf e data (hd.head?.map (·.acc)) →
        (u.postRefusal c e.due (u.core c).td body ≠ 0 →
          refused (.npost c ra) u (u.postRefusal c e.due (u.core c).td body))
        ∧ (u.postRefusal c e.due (u.core c).td body = 0 → ∀ v,
          v = (u.commitHalves c accStore hd).postAct c e.slot e.due (u.core c).td body → v.waits = false →
          exec (.npost c ra) s = .next (v.after c 8 id))))
    ∧ (let b := s.begun c false [.g ra] [.g rd];
      let va := (b.core c).g[ra].toNat;
      let mine := fun (m : Mail) => m.td = (b.core c).td;
      s.Ready c false [.g ra] →
      ((∀ m ∈ b.mailbox c, ¬ mine m) → va % 64 = 0 → exec (.nrecv c rd ra) s = .next (b.after c 20 (fun k => k.setG rd 0)))
      ∧ ((∀ m ∈ b.mailbox c, ¬ mine m) → va % 64 ≠ 0 →
        exec (.nrecv c rd ra) s = .next (s.orWait (b.trapped c 20 (alignExc va))))
      ∧ ∀ younger m older hs s1 r s2, b.mailbox c = older ++ m :: younger → (∀ x ∈ older, ¬ mine x) → mine m → m.bad = false →
        b.checkAccess c accStore .allow va 64 64 = (.ok hs, s1) →
        s1.storeHalves c 20 accStore false false [] none hs (lineBytes m.data 0 64) = .ok r s2 →
        s2.waits = false → s2.mailbox c = b.mailbox c → ∀ t, t = s2.setMailbox c (older ++ younger) → t.waits = false →
        exec (.nrecv c rd ra) s = .next (t.after c 20 (fun k => k.setG rd 1)))
    ∧ (let b := s.begun c false [.a x, .g ra] [];
      s.Ready c false [.a x, .g ra] → b.noonHeld c = false → ∀ hs s1 bs t,
      b.checkAccess c accLoad .refuse (b.core c).g[ra].toNat 16 1 = (.ok hs, s1) →
      s1.loadHalves c 8 progNone accLoad none hs = .ok bs t → t.waits = false →
      let f := fun (o n : Nat) => leNat ((bs.drop o).take n);
      let td := (t.core c).td;
      let mp := t.mergeReg td;
      let pa := 64 * fld mp 6 46 + 64 * (f 8 2 % 4096);
      let body : ActBody := .merge pa (t.core c).acc[x] ((f 0x0B 1).testBit 0);
      let wellFormed := f 8 2 < 4096 ∧ f 0x0A 1 < 64 ∧ f 0x0B 1 < 2 ∧ f 0x0C 4 = 0;
      let inTable := mp.getLsbD 0 = true ∧ f 8 2 ≤ fld mp 52 12 ∧ inDram pa = true ∧ t.dramOk (pa + 63) = true;
      (¬ wellFormed → refused (.amrg c x ra) t 2)
      ∧ (wellFormed → ¬ inTable → refused (.amrg c x ra) t 3)
      ∧ (wellFormed → inTable → t.postRefusal c (f 0 8) td body ≠ 0 →
          refused (.amrg c x ra) t (t.postRefusal c (f 0 8) td body))
      ∧ (wellFormed → inTable → t.postRefusal c (f 0 8) td body = 0 → ∀ v, v = t.postAct c (f 0x0A 1) (f 0 8) td body →
          v.waits = false → exec (.amrg c x ra) s = .next (v.after c 8 id)))

/-- R45, R46, R34: event entry at a level: a frame that does not fit, or whose lines cannot be written, raises
FRAME_OVERFLOW or its own event one level up with the original event's state unchanged, and at M stops the core;
otherwise the frame of 192 bytes enters the store queue, and FRAME, CAUSE, ADDR, STATUS and PC become what the steps
say. -/
def Obligations.EventEntryRule : Prop :=
  ∀ (s : State) (c n : Nat) (e : Exc) (async : Bool) (tgt : Lvl) (pcFrame : W64),
    let k := s.core c
    let b := k.bank tgt
    let t := s.enter c (n + 1) e async tgt pcFrame
    let lines := s.frameLines c tgt accStore (b.frame.toNat - 192)
    tgt ≠ .u →
    (b.frame.toNat < b.lim.toNat + 192 → t = if tgt = .m then s.stopAtM c else s.enter c n (mkExc 16) false tgt.up k.pc)
    ∧ (b.lim.toNat + 192 ≤ b.frame.toNat →
      (∀ f u, lines = (.error f, u) → t = if tgt = .m then u.stopAtM c else u.enter c n f false tgt.up k.pc)
      ∧ ∀ x y z u, lines = (.ok [x, y, z], u) →
        let j := u.core c
        let cause := BitVec.ofNat 64 (e.num + 256 * e.sub)
        let k' := t.core c
        let b' := k'.bank tgt
        (∃ e0 e1 e2 : SqEntry, k'.sq = j.sq ++ [e0, e1, e2] ∧ e0.pa = x.pa ∧ e1.pa = y.pa ∧ e2.pa = z.pa
          ∧ e0.tord = none ∧ e1.tord = none ∧ e2.tord = none ∧ e0.td = j.tdAt tgt ∧ e1.td = j.tdAt tgt ∧ e2.td = j.tdAt tgt
          ∧ e0.bytes ++ e1.bytes ++ e2.bytes = natLe 8 pcFrame.toNat ++ natLe 8 j.status.toNat ++ natLe 8 cause.toNat
            ++ natLe 8 e.addr.toNat ++ ((j.g.toList.take 16).map (fun w => natLe 8 w.toNat)).flatten ++ List.replicate 32 0)
        ∧ b'.frame = b.frame - 192 ∧ b'.cause = cause ∧ b'.addr = e.addr ∧ b'.base = b.base ∧ b'.lim = b.lim
        ∧ (∀ l, l ≠ tgt → k'.bank l = j.bank l)
        ∧ k'.pc = b.base + BitVec.ofNat 64 (32 * e.num)
        ∧ k'.lvl = tgt ∧ k'.ie = false ∧ k'.sum = j.sum ∧ k'.guest = (decide (tgt.num ≤ 1) && j.guest)
        ∧ k'.evlvl = (if async then e.num / 32 else if j.lvl = tgt then j.evlvl else 0)
        ∧ k'.pend = (if async then j.pend.filter (· != pendKey tgt e.num) else j.pend)
        ∧ k'.resv = none ∧ k'.lc = j.lc ∧ k'.ls = j.ls ∧ k'.le = j.le ∧ k'.instret = j.instret
        ∧ k'.g = j.g ∧ k'.v = j.v ∧ k'.acc = j.acc ∧ k'.fpcsr = j.fpcsr ∧ k'.amscl = j.amscl ∧ k'.tdid = j.tdid
        ∧ k'.satp = j.satp ∧ k'.hgatp = j.hgatp ∧ k'.hatp = j.hatp ∧ k'.hdeleg = j.hdeleg ∧ k'.mdeleg = j.mdeleg
        ∧ (∀ d, d ≠ c → t.core d = u.core d) ∧ { t with cores := u.cores, free := u.free } = u)

/-- R43, R45, R92, R101, R102, R105, R117, R133, R134, R151, R153: what a core does between instructions: it takes an
event at a boundary, an operation completes or fails, a store leaves the queue, a replay takes time only, the detector
fetches ahead, an unused line leaves the side buffer, a window is locked, a walk ends. -/
def Obligations.CoreBetweenInstructions : Prop :=
  ∀ (s : State) (c la : Nat) (data : Bool),
    (∀ key, s.coreLive c = true → (s.core c).run ≠ .dev → (s.core c).half = none → (s.core c).asyncPick = some key →
      exec (.eventEntry c) s = .next (s.orWait (s.takeAsync c key)))
    ∧ (s.coreLive c = true → ∀ failed o rest, (s.core c).longs = failed ++ o :: rest → (∀ x ∈ failed, x.failed = true) →
      o.failed = false →
      (o.exc = none → exec (.longOperationComplete c) s = .next (s.modCore c (fun k =>
        { ({ k with fpcsr := k.fpcsr ||| BitVec.ofNat 64 o.flags } : Core).deliver o.dest o.res with longs := failed ++ rest })))
      ∧ (o.exc ≠ none → exec (.longOperationComplete c) s = .next (s.modCore c (fun k =>
        { k with fpcsr := k.fpcsr ||| BitVec.ofNat 64 o.flags, impend := true
                 longs := failed ++ { o with failed := true } :: rest }))))
    ∧ (s.up = true → s.corePresent c = true → ∀ e rest t, (s.core c).sq = e :: rest → e.tord = none →
      (s.homed e.pa = false ∨ s.walkStalls c (e.pa / 64) = false) →
      t = (if s.homed e.pa then (s.modCore c (fun k => { k with sq := rest })).relock c (e.pa / 64)
        else s.modCore c (fun k => { k with sq := rest })).writeStore c e → t.waits = false →
      exec (.storeWriteAfterRetirement c) s = .next t)
    ∧ (s.coreLive c = true → (s.core c).meter = false →
      exec (.memoryOrderReplay c) s = .next ({ s with free := s.free + 1 }.modCore c (fun k =>
        { k with cycle := k.cycle + BitVec.ofNat 64 (Config.freeCycles s.free) })))
    ∧ (s.coreLive c = true → (s.core c).pfctl.getLsbD 0 = true → (s.core c).meter = false → ∀ tr t,
      (s.core c).trackers = [tr] → t = (tr.wants (fld (s.core c).pfctl 1 4)).foldl
        (fun s la => s.prefetch c la tr.td tr.ks tr.store tr.stream) s → t.waits = false →
      exec (.streamPrefetch c) s = .next t)
    ∧ (s.up = true → s.corePresent c = true → ∀ l, (s.core c).sbFind la = some l →
      exec (.sideBufferEntryExpire c la) s =
        .next ((s.modCore c (fun k => { k with sb := k.sb.filter (fun x => x.la != la) })).release c l))
    ∧ (let las := if data then (s.core c).dataLines else (s.core c).codeLines;
      s.coreLive c = true → s.boot.handed = true → las ≠ [] → (s.core c).l2en = true → (s.core c).walk = none →
      (∀ la ∈ las, inDram (64 * la) = true ∧ s.dramOk (64 * la) = true) → ∀ t,
      t = (if data then (las.foldl (fun s la => s.lockData c la) s).modCore c (fun k => { k with mdpa := setFld k.mdpa 5 1 1 })
        else (las.foldl (fun s la => s.lockCode c la) s).modCore c (fun k => { k with mcpa := setFld k.mcpa 2 1 1 })) →
      t.waits = false → exec (.windowLockComplete c data) s = .next t)
    ∧ (s.up = true → s.corePresent c = true →
      ((s.core c).walk = some .disable → exec (.cacheWalkComplete c) s = .next ((s.walkRelease c).modCore c (fun k =>
        { k with cleaning := false, walk := none, l2en := k.reEnable, reEnable := false, resv := none })))
      ∧ ((s.core c).walk = some .wball → exec (.cacheWalkComplete c) s =
        .next ((s.walkClean c).modCore c (fun k => { k with cleaning := false, walk := none }))))

/-- R136, R138, R141: a request at its home: held at its source while the home is replaced, queued while the line is
busy, and otherwise the entry becomes busy with a grant that awaits what the table of R138 names. R136 to R138, R141,
R144: the answers of the protocol: a holder or owner answers its home, the requester acknowledges a grant that awaits
nothing more and installs the line, copies are released, uncached reads and writes, and a way mask. -/
def Obligations.CoherenceResults : Prop :=
   (∀ (s : State) (c la td ks : Nat) (tord stream : Bool),
      let h := s.home la
      let starts := fun (i : Instr) (q : HReq) =>
        let grant := fun (st : Mesi) (fwd : Option Nat) (inv : List Nat) (d : Line) (p : Bool) =>
          some (
            { kind := q.kind, core := c, td := q.td, ks := q.ks, stream := q.stream, pf := false, inv := inv, fwd := fwd,
              st := st, data := d, poison := p } : Grant)
        let data := if q.kind = .rdz then ((0, false), s) else s.homeData la q.td q.ks q.stream
        s.homeLost la = false →
        (s.homeHolds la = true → exec i s = .next (s.modBlock h (fun x => { x with held := x.held ++ [q] })))
        ∧ (s.homeHolds la = false →
          ((s.block h).dirFind la = none → ∀ d p t, data = ((d, p), t) →
            exec i s = .next (t.dirAlloc la { DirEnt.reset with
              la := la, busy := grant (if q.kind = .rds then (if q.tord then .s else .e) else .m) none [] d p }))
          ∧ ∀ e, (s.block h).dirFind la = some e →
            (e.busy ≠ none → exec i s = .next (s.modBlock h (fun x => { x with queue := x.queue ++ [q] })))
            ∧ (e.busy = none → e.x = true → exec i s =
              .next (s.putDir h { e with busy := grant (if q.kind = .rds then .s else .m) e.ids.head? [] 0 false }))
            ∧ (e.busy = none → e.x = false → q.kind = .rds → ∀ d p t, data = ((d, p), t) →
              exec i s = .next (t.putDir h { e with age := 0, busy := grant .s none [] d p }))
            ∧ (e.busy = none → e.x = false → q.kind = .rdx ∨ q.kind = .rdz ∨ q.kind = .upg ∧ c ∉ e.holders →
              ∀ d p t, data = ((d, p), t) →
              exec i s = .next (t.putDir h { e with age := 0, busy := grant .m none (e.holders.filter (· != c)) d p })))
      let req := { HReq.reset with core := c, la, td, ks }
      s.mayRequest c la = true →
      ((s.core c).copy la = none →
        starts (.rds c la td ks tord stream) { req with kind := .rds, tord, stream }
        ∧ (tord = false → starts (.rdx c la td ks tord stream) { req with kind := .rdx, stream })
        ∧ starts (.rdz c la td ks) { req with kind := .rdz })
      ∧ ∀ l, (s.core c).copy la = some l → l.st = .s →
        starts (.upg c la) { req with kind := .upg, td := l.td, ks := l.ks }
        ∧ ∀ e, s.homeLost la = false → s.homeHolds la = false → (s.block h).dirFind la = some e → e.busy = none → e.x = false →
          c ∈ e.holders → exec (.upg c la) s = .next (s.putDir h { e with
            age := 0
            busy := some
              { kind := .upg, core := c, td := l.td, ks := l.ks, stream := false, pf := false, st := .m, fwd := none,
                inv := e.holders.filter (· != c), data := l.data, poison := l.poison } }))
  ∧(∀ (s : State) (c la td ks : Nat),
      (∀ g, s.up = true → s.grantOf la = some g →
        (c ∈ g.inv → exec (.invalidation c la) s =
          .next ((s.modCore c (fun k => k.dropLine la)).setGrant la { g with inv := g.inv.filter (· != c) }))
        ∧ (g.fwd = some c → ∀ l, (s.core c).copy la = some l →
          let a := fun (t : State) => .next (t.setGrant la { g with
            fwd := none, data := if g.kind = .rdz then 0 else l.data, poison := g.kind != .rdz && l.poison })
          let share := fun (x : CLine) => if x.la = la then { x with st := .s } else x
          let kept := s.modCore c (fun k => { k with l2 := k.l2.map share, vc := k.vc.map share, sb := k.sb.map share })
          (g.kind ≠ .rds → exec (.forwardExclusive c la) s = a (s.modCore c (fun k => k.dropLine la)))
          ∧ (g.kind = .rds → l.st ≠ .m → exec (.forwardShared c la) s = a kept)
          ∧ (g.kind = .rds → l.st = .m → exec (.forwardShared c la) s =
              a (kept.slcFill la l.td l.ks l.data true l.poison l.stream)))
        ∧ (g.core = c → g.inv = [] → g.fwd = none → ∀ e, (s.block (s.home la)).dirFind la = some e → e.busy = some g →
          let line : CLine :=
            { la, way := 0, age := if g.stream then 3 else 1, st := g.st, stream := g.stream, poison := g.poison,
              locked := false, td := g.td, ks := g.ks, data := g.data }
          let e' : DirEnt := if g.st = .s then { ({ e with x := false } : DirEnt).addHolder c with busy := none }
            else { e with x := true, ids := [c], vec := none, busy := none }
          let t := (s.putDir (s.home la) e').modCore c (fun k => { k.dropLine la with resv := k.resv, lost := k.lost })
          exec (.grantAcknowledgement c la) s = .next
            ((if g.pf then t.sbInstall c line else t.l2Install c line (t.l2Ways c)).nextQueued la)))
      ∧ (s.up = true → s.corePresent c = true → s.on c = true → ∀ l rest, (s.core c).vc = l :: rest → l.la = la →
        let t := s.modCore c (fun k => { k with vc := rest, resv := if k.resv = some la then none else k.resv })
        (l.st = .m → exec (.wb c la) s = .next ((t.slcFill la l.td l.ks l.data true l.poison l.stream).homeEvn c la))
        ∧ (l.st ≠ .m → exec (.evn c la) s = .next (t.homeEvn c la)))
      ∧ (s.up = true → s.boot.handed = true → inDram (64 * la) = true → s.dramOk (64 * la) = true →
        (s.block (s.home la)).fenced = false → exec (.crd la td ks) s = .next (s.crd la td ks).2)
      ∧ (∀ pa bytes, s.up = true → s.boot.handed = true → inDram pa = true → s.dramOk pa = true →
        (s.block (s.home (pa / 64))).fenced = false → bytes ≠ [] → pa % 64 + bytes.length ≤ 64 →
        exec (.cwr pa td ks bytes) s = .next (s.cwr pa td ks bytes false))
      ∧ (∀ mask : BitVec 12, s.up = true → td < 64 → exec (.slcWaymaskWrite td mask) s =
        .next { s with waymask := SMap.set s.waymask td mask.toNat }))

/-- R174 to R177, R193, R196, R434: the end of a tick: an agent reports at an evaluation point exactly where it fails
no condition, the root orders the boundary when every report is in and otherwise counts one more quantum and ends the
holds of this one, and the ordered boundary counts the tick and its stretch, clears every report, and applies commits,
then the changes of every agent, then the events of the root. R197, R198: WALL and its alignment: the REFCLK periods
up to an edge add 10 ns and TRIM each, an edge within half a second of the last accepted one only counts as a glitch,
an accepted edge captures WALL and its error from the nearest second, and two seconds without one are lost and posted
once. -/
def Obligations.NoonWallResults : Prop :=
   (∀ (s : State) (a : Nat), s.up = true →
      (a ∈ s.allAgents → s.noon.ordered = false →
        let f := s.failing a (212 + 30 * s.noon.k)
        (a < 128 → f = 0 → exec (.readyEvaluation a) s = .next (s.modBlock a (fun x => { x with reported := true })))
        ∧ (a < 128 → f ≠ 0 →
          exec (.readyEvaluation a) s = .next (s.modBlock a (fun x => { x with reported := false, missed := f })))
        ∧ (128 ≤ a → f = 0 →
          exec (.readyEvaluation a) s = .next (s.modRegion (a - 128) (fun x => { x with iosReported := true })))
        ∧ (128 ≤ a → f ≠ 0 →
          exec (.readyEvaluation a) s = .next (s.modRegion (a - 128) (fun x => { x with iosReported := false, iosMissed := f }))))
      ∧ (s.noon.ordered = false →
        ((∀ x ∈ s.allAgents, s.reportedOf x = true) →
          exec .rootSampling s = .next { s with noon := { s.noon with ordered := true } })
        ∧ ((∃ x ∈ s.allAgents, s.reportedOf x = false) → ∃ t, exec .rootSampling s = .next t
          ∧ t.noon = { s.noon with k := s.noon.k + 1, early := t.noon.early }
          ∧ (∀ x, x ∈ t.noon.early ↔ x ∈ s.noon.early ∨ x ∈ s.allAgents ∧ s.reportedOf x = true)
          ∧ ∀ x ∈ s.allAgents, t.reportedOf x = false))
      ∧ (s.noon.ordered = true →
        let u := s.countStretch.passTick.newTick
        let now := s.noon.tick + 1
        let due := u.slate.pends.filter (fun p => decide (p.tick ≤ now))
        let v := (u.applyCommits now).modNoon (fun n => { n with twWall := n.wall })
        let w := v.allAgents.foldl (fun t x => t.applyAgent x now ((due.map (commitCost x)).sum)) v
        let x := (w.applyRoot now).preChangeNext.meetTimers.driveOut
        let y := (List.range 16).foldl (fun t ch => if t.chanPresent ch then t.modChan ch Chan.atTick else t) x
        let z := (List.range 8).foldl State.stackTick y
        u.noon.tick = now ∧ u.noon.k = 0 ∧ u.noon.ordered = false ∧ u.noon.early = []
        ∧ u.noon.rootT = s.noon.rootT + 120 * (8 + s.noon.k)
        ∧ (s.noon.k = 0 → u.noon.strcnt = s.noon.strcnt ∧ u.noon.strq = s.noon.strq ∧ u.noon.strlast = s.noon.strlast)
        ∧ (s.noon.k ≠ 0 → u.noon.strcnt = (s.noon.strcnt + 1) % 2 ^ 64 ∧ u.noon.strq = (s.noon.strq + s.noon.k) % 2 ^ 64)
        ∧ (∀ b ∈ s.allBlocks, (u.block b).reported = false ∧ (u.block b).missed = 0 ∧ (u.block b).pubCount = 0)
        ∧ (z.waits = false → exec .tickBoundary s = .next z)))
  ∧(∀ (s : State) (refs : Nat), s.pins.aon = true →
      (s.noon.refs ≤ refs →
        let w := s.noon
        let n := refs - w.refs
        let p := s.passRefs n
        let total : Int := (w.wall : Int) * 2 ^ 32 + w.wfrac + n * (10 * 2 ^ 32 + w.trim)
        p.noon.refs = refs ∧ p.noon.trim = w.trim
        ∧ (w.slew = 0 → 0 ≤ (n : Int) * (10 * 2 ^ 32 + w.trim) → w.wfrac < 2 ^ 32 →
          ((p.noon.wall : Int) * 2 ^ 32 + p.noon.wfrac) = total % 2 ^ 96)
        ∧ (w.ppsAny = true → refs - w.ppsAt < 50000000 → exec (.ppsEdge refs) s = .next (p.modNoon (fun x =>
            { x with glitch := (x.glitch + 1) % 2 ^ 32 })))
        ∧ (w.ppsAny = false ∨ 50000000 ≤ refs - w.ppsAt → ∃ t, exec (.ppsEdge refs) s = .next t
          ∧ t.noon.cap = p.noon.wall ∧ t.noon.e = (p.noon.wall : Int) - nearestSec p.noon.wall
          ∧ 1000000000 ∣ nearestSec p.noon.wall ∧ -500000000 ≤ -t.noon.e ∧ -t.noon.e < 500000000
          ∧ t.noon.lost = false ∧ t.noon.lostPosted = false ∧ t.noon.ppsAt = refs ∧ t.noon.ppsAny = true
          ∧ (s.settingN 0x5100 2 0 = 0 →
              t.noon.wall = p.noon.wall ∧ t.noon.trim = p.noon.trim ∧ t.noon.slew = p.noon.slew ∧ t.noon.slewN = p.noon.slewN)
          ∧ (s.settingN 0x5100 2 0 ≠ 0 → t.noon.e ≤ -1000000 →
              (t.noon.wall : Int) = ((p.noon.wall : Int) - t.noon.e) % 2 ^ 64 ∧ t.noon.trim = p.noon.trim)
          ∧ (s.settingN 0x5100 2 0 ≠ 0 → -1000000 < t.noon.e → t.noon.wall = p.noon.wall ∧ t.noon.slew = -t.noon.e * 2 ^ 32)))
      ∧ (s.noon.lostPosted = false → exec .ppsLost s =
        .next (({ s with noon := { s.noon with lost := true, lostPosted := true } } : State).post 3200)))

/-- R178, R186, R194, R195, R201, R202: the agents during a tick: a home stages a published store once its line has no
private copy, an acknowledged entry is freed, an action reaches its applying agent, a returned action comes back, a
timer is posted once, and a domain that holds the boundary for too long is slipped. -/
def Obligations.NoonAgentResults : Prop :=
  ∀ (s : State) (a b c td : Nat), s.up = true →
    (s.blockPresent b = true → s.replacing b = false → (s.block b).fenced = false →
      ∀ q pre post ps p qs, s.allBlocks = pre ++ q :: post → (s.block q).pub = ps ++ p :: qs →
      let waiting := fun (y : PubEnt) => !y.staged && decide (s.home (y.gran / 2) = b)
      (∀ x ∈ pre, ∀ y ∈ (s.block x).pub, waiting y = false) → (∀ y ∈ ps, waiting y = false) → waiting p = true →
      s.homeLost (p.gran / 2) = false →
      exec (.toStoreStage b) s = .next (
        (((s.preChange (p.gran / 2)).modBlock b (fun x => { x with staging := x.staging ++ [{ p with staged := true }] })).modBlock
          q (fun x => { x with pub := x.pub.modify ps.length (fun y => { y with staged := true }) }))))
    ∧ (s.blockPresent b = true → ∀ ps p qs, (s.block b).pub = ps ++ p :: qs → (∀ y ∈ ps, y.staged = false) → p.staged = true →
      exec (.publishAcknowledgement b) s = .next (s.modBlock b (fun x => { x with pub := ps ++ qs })))
    ∧ (s.blockPresent b = true → ∀ pre x post, (s.block b).acts = pre ++ x :: post → (∀ y ∈ pre, y.reg = true) → x.reg = false →
      let r := s.modAct b x.key (fun y => { y with reg := true, kept := true })
      let full := (r.buffer (s.applier x.body)).drop 64
      (full = [] → (actLine x.body = none ∨ x.due ≠ s.noon.tick + 1) → exec (.actionRegister b) s = .next r)
      ∧ (full = [] → ∀ la, actLine x.body = some la → x.due = s.noon.tick + 1 →
        exec (.actionRegister b) s = .next (r.preChange la))
      ∧ (∀ b' z rest, full = (b', z) :: rest → (actLine x.body = none ∨ x.due ≠ s.noon.tick + 1) →
        exec (.actionRegister b) s = .next (r.modAct b' z.key (fun y => { y with kept := false }))))
    ∧ (a ∈ s.allAgents → s.returnedDue a = true → (a < 128 → (s.block a).fenced = false) → (s.resend a).waits = false →
      exec (.actionResendRound a) s = .next (s.resend a))
    ∧ (s.corePresent c = true → (s.core c).timerDue = true → exec (.tickTimerPost c) s =
      .next ((s.modCore c (fun k => { k with timerDue := false })).post (384 * (c / 32) + 320 + c % 32)))
    ∧ (td < 64 → s.noon.ordered = false → 240 * s.quotaHold td < 30 * s.noon.k →
      ∃ t, exec (.holdLimitSlip td) s = .next t ∧ (∀ d ∈ s.allCores,
        ((s.core d).tdid = td → s.holds d = true → (t.core d).bind = false ∧ (t.core d).slip = true)
        ∧ ((s.core d).tdid ≠ td ∨ s.holds d = false → (t.core d).bind = (s.core d).bind ∧ (t.core d).slip = (s.core d).slip)))

/-- R51 to R53: a post is counted as dropped where its entry cannot deliver, held by PEND where the core sleeps or
runs another domain at level S (then H gets event 63), and otherwise sets the pending bit; a message is a 4-byte write
of an index at the base of the window by the domain of its entry; a held post is delivered when its conditions hold; a
rewrite keeps PEND unless the new fields cannot deliver. R226, R231 to R233: a record takes the slot at HEAD of its
log with the next sequence number, or is dropped and counted as lost where that slot is protected; a reader's pointer
moves only within its unread span. -/
def Obligations.RouterLogResults : Prop :=
   (∀ (s : State), s.up = true →
      let posts := fun (i : Instr) (msg : Bool) (n : Nat) (router : Nat) =>
        let e := s.routeEntry msg n
        let c := routeCore e
        let held := s.setRoute msg n (setFld e 25 1 1)
        (s.routeOk e = false → exec i s = .next (s.countDrop router))
        ∧ (s.routeOk e = true → routePend e = true → exec i s = .next s)
        ∧ (s.routeOk e = true → routePend e = false → s.coreAwake c = false → exec i s = .next (held.wakeCore c 2))
        ∧ (s.routeOk e = true → routePend e = false → s.coreAwake c = true → routeLevel e = 1 → (s.core c).tdid ≠ routeTd e →
          exec i s = .next (held.modCore c (fun k => k.setPend .h 63)))
        ∧ (s.routeOk e = true → routePend e = false → s.coreAwake c = true → (routeLevel e ≠ 1 ∨ (s.core c).tdid = routeTd e) →
          exec i s = .next
            ((s.modCore c (fun k => k.setPend (Lvl.ofNum (routeLevel e)) (routeVector e))).wakeCore c 2))
      (∀ src, src < 4096 → posts (.routerPost src) false src (if src < 3072 then src / 384 else 8))
      ∧ (∀ td rid off bytes, off = 0 → bytes.length = 4 → leNat bytes < 2 ^ 15 →
        let n := leNat bytes
        (routeTd (s.routeEntry true n) = td → posts (.msiMessage td rid off bytes) true n 8)
        ∧ (routeTd (s.routeEntry true n) ≠ td → exec (.msiMessage td rid off bytes) s =
          .next ((s.countDrop 8).record
            (recAt (srcId 9 0 0 0 1) 3 0 0x0901 (some td) none
              [n % 256, n / 256 % 256, 1, routeTd (s.routeEntry true n), rid % 256, rid / 256] 0))))
      ∧ (∀ td rid off bytes, ¬ (off = 0 ∧ bytes.length = 4 ∧ leNat bytes < 2 ^ 15) →
        exec (.msiMessage td rid off bytes) s = .next (s.countDrop 8))
      ∧ (∀ msg n, let e := s.routeEntry msg n
        let c := routeCore e
        let ready := s.coreAwake c = true ∧ s.routeOk e = true
          ∧ (routeLevel e = 1 → (s.core c).lvl.num ≤ 1 ∧ (s.core c).tdid = routeTd e)
        (routePend e = true → ready → exec (.heldPostDelivery msg n) s =
          .next ((s.setRoute msg n (setFld e 25 1 0)).modCore c
            (fun k => k.setPend (Lvl.ofNum (routeLevel e)) (routeVector e))))
        ∧ (routePend e = false ∨ ¬ ready → exec (.heldPostDelivery msg n) s = .next s))
      ∧ (∀ msg n (v : W64), n < (if msg then 32768 else 4096) →
        let e := s.routeEntry msg n
        let w : W64 := BitVec.ofNat 64 (v.toNat % 2 ^ 25)
        (routePend e = false → exec (.routeWrite msg n v) s = .next (s.setRoute msg n (setFld w 25 1 0)))
        ∧ (routePend e = true → s.routeOk (setFld w 25 1 1) = true →
          exec (.routeWrite msg n v) s = .next (s.setRoute msg n (setFld w 25 1 1)))
        ∧ (routePend e = true → s.routeOk (setFld w 25 1 1) = false → exec (.routeWrite msg n v) s =
          .next ((s.setRoute msg n (setFld (setFld w 25 1 1) 25 1 0)).countDrop (if msg then 8 else if n < 3072 then n / 384 else 8)))))
  ∧(∀ (s : State) (log p : Nat) (r : RecIn), log ≤ 8 →
      let size := logSize log
      let g := s.log log
      (s.noon.run = true → ∃ t, exec (.logRecordWrite log r) s = .next t ∧
        let e := { s.mkRec r with seq := g.seq, ovf := g.ovf.contains r.src }
        ((∀ o, g.slot g.head = some o → g.protects size g.head o = false) →
          (t.log log).slot g.head = some e ∧ (t.log log).head = (g.head + 1) % size ∧ (t.log log).seq = (g.seq + 1) % 2 ^ 32
          ∧ (∀ i, i ≠ g.head → (t.log log).slot i = g.slot i) ∧ (t.log log).count = if g.count = size then size else g.count + 1)
        ∧ (∀ o, g.slot g.head = some o → g.protects size g.head o = true →
          t.log log = { g with
            seq := (g.seq + 1) % 2 ^ 32, lost := min (2 ^ 32 - 1) (g.lost + 1), ovf := insNat g.ovf r.src }))
      ∧ (s.up = true →
        (p < size → ringDist size g.htail p ≤ g.count → exec (.logHtailWrite log p) s =
          .next (s.modLog log (fun g => { g with htail := p, count := g.count - ringDist size g.htail p })))
        ∧ (size ≤ p ∨ g.count < ringDist size g.htail p →
          exec (.logHtailWrite log p) s = .next (s.modLog log (fun g => g))))
      ∧ (s.pins.resetN = true → s.scan = false →
        (p < size → ringDist size g.fld p ≤ g.fldCount → exec (.logFldPointerWrite log p) s =
          .next (s.modLog log (fun g => { g with fld := p, fldCount := g.fldCount - ringDist size g.fld p })))
        ∧ (size ≤ p ∨ g.fldCount < ringDist size g.fld p → exec (.logFldPointerWrite log p) s = .next s)))

/-- R147, R216, R217, R234: flits of the mesh and of the die links: what a mesh flit's errors are recorded as, a good
flit of a die link ends its run of replays, a bad one counts in the bucket and the sixteenth in a row starts a
retrain, which ends with up to two lanes on the spares or in a chip-fatal stop; LEAK ticks take 1 from a bucket. R229,
R230, R234, R235: a loss of state is contained at the lowest level that can: a core stops, the lines of a set are
poisoned, an action is dropped with its record, a block, a channel or a translation unit is fenced, a port or a
function freezes; what no level contains stops the chip, which keeps the record of class 4. -/
def Obligations.LinkLossResults : Prop :=
   (∀ (s : State), s.up = true →
      (∀ b input td, s.blockPresent b = true → input ≤ 5 →
        let src := srcId 3 (b / 16) (b % 16) 0 input
        let synd := (Config.recordSynd 3).map (·.toNat)
        exec (.meshFlitError b input .single td) s = .next (s.record (recAt src 0 1 (openType 3 0) none none synd 0))
        ∧ exec (.meshFlitError b input .headerOne td) s = .next (s.record (recAt src 0 1 (openType 3 1) none none synd 0))
        ∧ exec (.meshFlitError b input .dataDouble td) s = .next (s.record (recAt src 0 2 0x0301 (some td) none synd 0))
        ∧ exec (.meshFlitError b input .headerBoth td) s = .next (s.chipFatal src 0x0302 synd))
      ∧ (∀ r link, r < 8 → link < 16 → link ∉ (s.region r).retrain →
        let x := s.region r
        let old := SMap.get Bucket.reset x.links link
        let depth := s.settingN 0x7102 1 32
        let n := SMap.get 0 x.replays link + 1
        let bad := fun (bk : Bucket) => ({ s with replayT := some s.noon.tick } : State).modRegion r (fun x => { x with
          links := SMap.set x.links link bk
          replays := if 16 ≤ n then SMap.del x.replays link else SMap.set x.replays link n
          retrain := if 16 ≤ n then insNat x.retrain link else x.retrain })
        exec (.dieLinkFlitReceive r link true) s = .next (s.modRegion r (fun x => { x with replays := SMap.del x.replays link }))
        ∧ (old.count < depth → exec (.dieLinkFlitReceive r link false) s = .next (bad { old with count := old.count + 1 }))
        ∧ (depth ≤ old.count → ∃ stamps, exec (.dieLinkFlitReceive r link false) s =
          .next ((bad { count := 0, stamps }).record
            (recAt (srcId 4 r 0 0 link) 2 1 0x0401 none none ((Config.recordSynd 4).map (fun (w : BitVec 8) => w.toNat)) 0))))
      ∧ (∀ r link failed, link ∈ (s.region r).retrain →
        let lanes := countOnes 64 failed
        let synd := ((Config.recordSynd 4).map (fun (w : BitVec 8) => w.toNat) ++ List.replicate 5 0).take 5 ++ [failed % 256, failed / 256 % 256]
        (lanes ≤ 2 → exec (.linkRetrainComplete r link failed true) s =
          .next ((s.modRegion r (fun x => { x with
            retrain := x.retrain.filter (· != link), spares := SMap.set x.spares link lanes })).record
            (recAt (srcId 4 r 0 0 link) 2 1 0x0402 none none synd 0)))
        ∧ (2 < lanes → exec (.linkRetrainComplete r link failed true) s = .next (s.chipFatal (srcId 4 r 0 0 link) 0x0403 synd))
        ∧ exec (.linkRetrainComplete r link failed false) s = .next (s.chipFatal (srcId 4 r 0 0 link) 0x0403 synd))
      ∧ (let dec := fun (bs : List (Nat × Bucket)) k => ∀ bk, (∃ x ∈ bs, x.1 = k) → SMap.get Bucket.reset bs k = bk →
          leakAt bs k = SMap.set bs k { bk with count := bk.count - 1 }
        (∀ c w, exec (.leakyBucketLeak (.l2 c w)) s =
            .next (s.modBlock (c / 2) (fun x => { x with l2bkt := leakAt x.l2bkt (16 * (c % 2) + w) }))
          ∧ dec (s.block (c / 2)).l2bkt (16 * (c % 2) + w))
        ∧ (∀ b w, exec (.leakyBucketLeak (.slc b w)) s = .next (s.modBlock b (fun x => { x with slcbkt := leakAt x.slcbkt w }))
          ∧ dec (s.block b).slcbkt w)
        ∧ (∀ r l, exec (.leakyBucketLeak (.die r l)) s = .next (s.modRegion r (fun x => { x with links := leakAt x.links l }))
          ∧ dec (s.region r).links l)
        ∧ (∀ ch, exec (.leakyBucketLeak (.mem ch)) s =
          .next (s.modChan ch (fun c => { c with link := { c.link with count := c.link.count - 1 } })))
        ∧ (∀ r f, s.portPresent r f = true → exec (.leakyBucketLeak (.port r f)) s =
          .next (s.modPort r f (fun p => { p with bkt := { p.bkt with count := p.bkt.count - 1 } })))))
  ∧(∀ (s : State), s.up = true →
      let loses := fun (e : StateErr) (t : State) => exec (.stateErrorDetected e) s = .next t
      let fatal := fun (i : Instr) (src typ : Nat) (t : State) => exec i s = .next (t.chipFatal src typ [])
        ∧ (t.stopped = false → (t.chipFatal src typ []).boot.fatal = true
          ∧ ∃ e, (t.chipFatal src typ []).boot.fatalRec = some e ∧ e.src = src ∧ e.typ = typ ∧ e.cls = 4)
      (∀ c, s.corePresent c = true →
        loses (.coreState c) ((s.stopCore c).lossRecord 0 (srcCore c) 0 1 (some (s.core c).td))
        ∧ loses (.l2Tag c) ((s.stopCore c).lossRecord 0 (srcCore c) 0 1 (some (s.core c).td))
        ∧ ((s.core c).run ≠ .stopped → (s.core c).bind = false → ∀ t, s.walkAllArrays c = t →
          s.stopCore c = t.modCore c (fun k => { k with run := .stopped, pend := [], longs := [], resv := none })))
      ∧ (∀ b, s.blockPresent b = true →
        (∀ set, loses (.dirSet b set) ((((s.block b).setLines (set % 4096)).foldl (fun s (la, td, ks) => s.poisonLine la td ks) s).record
          { src := srcId 1 (b / 16) (b % 16) 0 0xFF, lvl := 0, clvl := 1, cls := 2, typ := openType 1 1,
            td := none, addr := none, synd := [], prog := 0 }))
        ∧ loses (.blockControl b) ((s.fenceBlock b).lossRecord 1 (srcId 1 (b / 16) (b % 16) 0 0xFF) 1 2 none)
        ∧ ((s.fenceBlock b).block b).fenced = true)
      ∧ (∀ b i a, (s.block b).acts[i]? = some a → ∀ domOk, loses (.action b i domOk)
        ((s.modBlock b (fun x => { x with acts := x.acts.filter (fun y => y.key ≠ a.key) })).record
          { src := srcAgent b, lvl := 0, clvl := 1, cls := 3, typ := 0x0204, td := if domOk then some a.td else none,
            addr := none, prog := 3 * 2 ^ 62,
            synd := if domOk then [0, a.key.slot, a.key.block, a.key.core] ++ (natLe 4 a.key.seq).map (·.toNat)
              ++ (natLe 8 a.key.tick).map (·.toNat) else [] }))
      ∧ (∀ ch, s.chanPresent ch = true → loses (.channel ch) ((s.modChan ch (fun c => { c with
          st := 8, rdq := [], wrq := [], merge := [], reread := none, rows := [], scrubRun := false })).lossRecord 5
          (srcId 5 (ch / 2) 0 0 ch) 2 2 none))
      ∧ (∀ r, r < 8 →
        (∀ f, s.portPresent r f = true → loses (.port r f) (s.dpcEnter r f 8 []))
        ∧ loses (.function r) (s.contain r 1 7 0xFF)
        ∧ loses (.iotu r) ((s.fenceIotu r).lossRecord 8 (srcId 8 r 0 0 0) 2 2 none)
        ∧ loses (.morning r) ((s.modRegion r (fun x => { x with morning := false })).lossRecord 10 (srcId 10 r 0 0 0) 2 3 none)
        ∧ ((s.region r).morning = false → s.boot.lacks = false → exec (.morningRestartComplete r) s = .next
          (((s.region r).mwork.map (·.2)).foldl (fun s ch => s.startRetrain ch)
            (s.modRegion r (fun x => { x with morning := true, mwork := [] })))))
      ∧ loses (.treeCopies 0) s
      ∧ loses (.treeCopies 1) (({ s with treeT := some s.noon.tick } : State).record
        (recAt (srcId 11 0 0 0 0) 3 1 (openType 11 0) none none [] 0))
      ∧ (∀ n, 2 ≤ n → fatal (.stateErrorDetected (.treeCopies n)) (srcId 11 0 0 0 0) (openType 11 1) s)
      ∧ (∀ b, fatal (.stateErrorDetected (.stopRouting b)) (srcId 3 (b / 16) (b % 16) 0 0) (openType 3 2) s)
      ∧ (∀ w, loses (.mram w true) (s.record (recAt (srcId 12 0 0 0 1) 3 1 0x0C05 none none ((natLe 4 w).map (·.toNat)) 0))
        ∧ loses (.mram w false) (s.record (recAt (srcId 12 0 0 0 1) 3 3 0x0C06 none none ((natLe 4 w).map (·.toNat)) 0)))
      ∧ (∀ src typ, fatal (.chipFatalStop src typ) src typ s)
      ∧ fatal .pllLossOfLock (srcId 11 0 0 0 0) (openType 11 2)
        ((s.lbEndAll 4).modSlate (fun x => { x with canPll := false })))

/-- R223, R230, R244 to R249, R257, R262 to R266, R274, R276: reads, writes and merges at a channel: a read is served
from a queued write of its line or from the cells, whose answer is delivered, counted, delivered as poison, or read a
second time and then declared uncorrectable; a write replaces a queued one or enters the queue; partial writes gather.
R237 to R239, R243, R244, R253 to R257, R268, R270 to R273, R278, R279: what else happens at a channel: rows close,
banks are refreshed, calibration windows open and close, a retrain starts and ends, the channel rests and wakes, it
trains and is filled, buckets leak, a mark is confirmed or refused, and a row is repaired. -/
def Obligations.ChannelResults : Prop :=
   (∀ (s : State) (ch la td ks : Nat) (errs : List (Nat × Nat)), s.up = true →
      let demand := fun (i : Instr) (u : State) (q : MReq) (again : Bool) =>
        let w := (u.chan ch).wrq.find? (fun w => w.la == q.la)
        let key := u.keyOf q.td q.ks
        (∀ x, w = some x → exec i s = .next (u.deliverRead q (xtsCross x.key key q.la x.data) x.poison))
        ∧ (w = none →
          (∀ ct, u.cellRead ch q.la errs = .ok ct [] → exec i s = .next (u.deliverRead q (xtsDecrypt key q.la ct) false))
          ∧ (∀ ct p ps, u.cellRead ch q.la errs = .ok ct (p :: ps) → exec i s =
            .next (let v := u.countCorrected ch (u.locOf q.la) (p :: ps)
              v.deliverRead q (xtsDecrypt (v.keyOf q.td q.ks) q.la ct) false))
          ∧ (u.cellRead ch q.la errs = .poison → exec i s = .next (u.deliverRead q 0 true))
          ∧ (u.cellRead ch q.la errs = .bad →
            (again = false → exec i s = .next (u.modChan ch (fun c => { c with reread := some (q, errs) })))
            ∧ (again = true → exec i s = .next ((u.declareBad ch q.la (some q.td)).deliverRead q 0 true))))
      let here := s.boot.handed = true ∧ inDram (64 * la) = true ∧ s.dramOk (64 * la) = true ∧ s.chanOf (64 * la) = ch
      (here →
        let q := { MReq.reset with la, td, ks }
        let u := (s.chanTouch ch).mergeClose ch la
        ((s.chan ch).st = 8 → exec (.memRead ch la td ks errs) s = .next (s.deliverRead q 0 true))
        ∧ ((s.chan ch).st ≠ 8 → (u.chan ch).bankFree (u.locOf la).bankNo = true → (u.chan ch).reread = none →
          demand (.memRead ch la td ks errs) u q false)
        ∧ ((s.chan ch).st ≠ 8 → (u.chan ch).bankFree (u.locOf la).bankNo = false ∨ (u.chan ch).reread ≠ none →
          (u.chan ch).accepts = true → ((u.chan ch).rdq.filter (fun r => u.subOf r.la == u.subOf la)).length < 64 →
          exec (.memRead ch la td ks errs) s = .next ((u.modChan ch (fun c => { c with rdq := c.rdq ++ [q] })).setDrains ch)))
      ∧ (∀ q e0, (s.chan ch).reread = some (q, e0) → (s.chan ch).st = 4 →
        let u := s.modChan ch (fun c => { c with reread := none })
        (q.scrub = false → demand (.dramReread ch errs) u q true)
        ∧ (q.scrub = true → exec (.dramReread ch errs) s = .next (u.scrubCell ch q.la errs true)))
      ∧ (∀ data poison, here → (s.chan ch).st ≠ 8 →
        let u := s.chanTouch ch
        let q := { MReq.reset with wr := true, la, td, ks, data, poison, key := u.keyOf td ks }
        let c := u.chan ch
        c.accepts = true →
        ((∃ w ∈ c.wrq, w.la = la) → exec (.memWrite ch la td ks data poison) s = .next (u.modChan ch (fun c => { c with
          merge := c.merge.filter (fun m => m.la != la)
          wrq := c.wrq.map (fun w => if w.la == la then { q with passed := w.passed } else w) })))
        ∧ ((∀ w ∈ c.wrq, w.la ≠ la) → (c.wrq.filter (fun w => s.subOf w.la == s.subOf la)).length < 64 →
          exec (.memWrite ch la td ks data poison) s = .next ((u.modChan ch (fun c => { c with
            merge := c.merge.filter (fun m => m.la != la), wrq := c.wrq ++ [q] })).setDrains ch)))
      ∧ (∀ pa bytes, s.boot.handed = true → inDram pa = true → s.dramOk pa = true → s.chanOf pa = ch →
        s.chanOf (64 * (pa / 64)) = ch → bytes ≠ [] → pa % 64 + bytes.length ≤ 64 → (s.chan ch).st ≠ 8 →
        let u := s.chanTouch ch
        let m := (u.chan ch).merge
        let fresh := { la := pa / 64, mask := BitVec.ofNat 64 ((2 ^ bytes.length - 1) <<< (pa % 64)), data := linePut 0 (pa % 64) bytes, td, ks }
        ((∀ x ∈ m, x.la ≠ pa / 64) → m.length < 32 → exec (.partialWrite ch pa td ks bytes) s =
          .next (u.modChan ch (fun c => { c with merge := c.merge ++ [fresh] })))
        ∧ ((∀ x ∈ m, x.la ≠ pa / 64) → ∀ o rest, m = o :: rest → 32 ≤ m.length →
          exec (.partialWrite ch pa td ks bytes) s =
            .next ((u.mergeClose ch o.la).modChan ch (fun c => { c with merge := c.merge ++ [fresh] })))
        ∧ (∀ x, m.find? (fun x => x.la == pa / 64) = some x →
          (x.td ≠ td ∨ x.ks ≠ ks → exec (.partialWrite ch pa td ks bytes) s =
            .next ((u.mergeClose ch (pa / 64)).modChan ch (fun c => { c with merge := c.merge ++ [fresh] })))
          ∧ (x.td = td → x.ks = ks →
            let y := { x with
              mask := BitVec.ofNat 64 (x.mask.toNat ||| (2 ^ bytes.length - 1) <<< (pa % 64)), data := linePut x.data (pa % 64) bytes }
            let v := u.modChan ch (fun c => { c with merge := c.merge.map (fun z => if z.la == pa / 64 then y else z) })
            exec (.partialWrite ch pa td ks bytes) s = .next (if y.mask.toNat = 2 ^ 64 - 1 then v.mergeClose ch (pa / 64) else v))))
      ∧ (∀ m, (s.chan ch).merge.find? (fun m => m.la == la) = some m →
        (m.mask.toNat = 2 ^ 64 - 1 ∨ errs = [] ∨ (∃ w ∈ (s.chan ch).wrq, w.la = la) ∨ s.cellRead ch la errs = .poison →
          exec (.mergeEntryClose ch la errs) s = .next (s.mergeClose ch la))
        ∧ (m.mask.toNat ≠ 2 ^ 64 - 1 → errs ≠ [] → (∀ w ∈ (s.chan ch).wrq, w.la ≠ la) →
          (∀ ct ps, s.cellRead ch la errs = .ok ct ps → exec (.mergeEntryClose ch la errs) s = .next (
            let u := if ps = [] then s else s.countCorrected ch (s.locOf la) ps
            (u.modChan ch (fun c => { c with merge := c.merge.filter (fun m => m.la != la) })).memWrite la m.td m.ks
              (lineMask (xtsDecrypt (u.keyOf m.td m.ks) la ct) m.data m.mask.toNat) false))
          ∧ (s.cellRead ch la errs = .bad → exec (.mergeEntryClose ch la errs) s =
            .next ((s.declareBad ch la (some m.td)).mergeClose ch la))))
      ∧ (s.chanPresent ch = true → exec (.commandSlot ch) s = .next (s.slot ch)
        ∧ ((s.chan ch).st ≠ 4 → s.slot ch = s)
        ∧ ((s.chan ch).st = 4 → (s.chan ch).rdq = [] → (s.chan ch).wrq = [] → (s.chan ch).scrubRun = false →
          s.slot ch = s.modChan ch (fun c => { c with slots := (c.slots + 1) % 64 })))
      ∧ (s.chanPresent ch = true → exec (.scrubRead ch errs) s = .next (s.scrubNext ch errs)
        ∧ ((s.chan ch).scrubRun = true → (s.chan ch).st = 4 → (s.chan ch).reread = none →
          s.scrubNext ch errs = (s.modChan ch (fun c => if s.usedLines ≤ c.done + 1 then
              { c with scrubRun := false, done := c.done + 1, passes := satAdd 32 c.passes } else { c with done := c.done + 1 })).scrubCell
            ch (s.lineAt ch (s.chan ch).done) errs false))
      ∧ (s.boot.handed = true → (s.chan ch).st = 4 → (s.chan ch).scrubRun = false → s.usedLines ≠ 0 →
        (s.chan ch).scrubbed = false ∨ (s.chan ch).scrubStart + (s.chan ch).scrubP ≤ s.noon.tick →
        exec (.scrubPassStart ch) s = .next (s.modChan ch (fun c => { c with
          scrubRun := true, scrubbed := true, done := 0, scrubStart := s.noon.tick, scrubSkip := 0
          scrubP := s.settingN 0x3200 1 864000000000 }))))
  ∧(∀ (s : State) (ch bank : Nat),
      let goes := fun (i : Instr) (f : Chan → Chan) => exec i s = .next (s.modChan ch f)
      let none0 : DLoc := { sub := 0, bg := 0, col := 0, bank := 0, rank := 0, row := 0 }
      (s.up = true → s.chanPresent ch = true →
        goes (.rowIdleClose ch bank) (fun c => { c with rows := SMap.del c.rows bank })
        ∧ ((s.chan ch).st = 4 → goes (.refreshBank ch bank) (fun c => { c with
            rows := SMap.del c.rows bank, refresh := insNat c.refresh bank }))
        ∧ ((s.chan ch).st = 4 → s.calPhase ch = 0 → goes (.calibrationWindowOpen ch) (fun c => { c with st := 5 }))
        ∧ ((s.chan ch).st = 5 → 8 ≤ s.calPhase ch → goes (.calibrationWindowClose ch) (fun c => { c with st := 4 }))
        ∧ ((s.region (ch / 2)).morning = true → (s.chan ch).st = 4 ∨ (s.chan ch).st = 5 →
          goes (.retrainChan ch) (fun c => { c with st := 6, retry := false, rows := [] }))
        ∧ ((s.region (ch / 2)).morning = false → (1, ch) ∉ (s.region (ch / 2)).mwork → exec (.retrainChan ch) s =
          .next (s.modRegion (ch / 2) (fun x => { x with mwork := x.mwork ++ [(1, ch)] })))
        ∧ ((s.chan ch).st = 7 → exec (.channelWake ch) s = .next
          ((s.modChan ch (fun c => { c with idle := 0, st := 4 })).modDom (392 + ch) (fun d => { d with st := 0, wake := 4 })))
        ∧ ((s.chan ch).st ≠ 7 → goes (.channelWake ch) (fun c => { c with idle := 0 }))
        ∧ (let drop := fun (m : List (Nat × Nat)) => (m.map (fun e => (e.1, e.2 - 1))).filter (fun e => e.2 != 0)
          goes (.deviceBankBucketLeak ch) (fun c => { c with
            devBkt := if s.noon.tick % s.settingN 0x3100 2 10000000 = 0 then drop c.devBkt else c.devBkt
            bankBkt := if s.noon.tick % s.settingN 0x3101 2 10000000 = 0 then drop c.bankBkt else c.bankBkt }))
        ∧ ((s.region (ch / 2)).morning = true → s.settingN 0x3110 1 1 = 1 → (s.chan ch).prop.getLsbD 0 = true →
          (s.chan ch).prop.getLsbD 1 = false →
          let p := (s.chan ch).prop
          let sub := fld p 2 1
          let rank := fld p 3 3
          let dev := fld p 6 4
          let m := mkMark sub rank dev
          let refused := s.devcorr = false ∨ 2 ≤ (s.chan ch).marks.length ∨ m ∈ (s.chan ch).marks ∨ (s.chan ch).ranks < rank ∨ 9 < dev
          (refused → exec (.markConfirm ch) s = .next (s.chanRecord ch 1 0x0513 none none { none0 with sub, rank } dev 0 0))
          ∧ (¬ refused → exec (.markConfirm ch) s = .next (((s.modChan ch (fun c =>
              if c.mark0.getLsbD 0 then { c with mark1 := m } else { c with mark0 := m })).chanRecord ch 1 0x0512 none none
              { none0 with sub, rank } dev 0 0).modChan ch (fun c => { c with prop := setFld c.prop 0 1 0 }))))
        ∧ goes (.proposalReject ch) (fun c => { c with prop := setFld c.prop 0 1 0 }))
      ∧ (∀ e bad ok, s.up = true → (s.chan ch).sppr = some e → (s.region (ch / 2)).morning = true →
        let l := rowLoc e
        let u := s.modChan ch (fun c => { c with sppr := none, held := c.held.filter (· != l.bankNo) })
        let v := (bad.filter (· < 128)).foldl (fun s i =>
            let cla := (s.chan ch).claOf { l with col := i }
            if cla < s.usedLines then s.dramStore (s.lineAt ch cla) (s.lineKeyOf (s.lineAt ch cla)) 0 true else s) u
        let rows := (SMap.get [] v.mram.rows ch).map (fun x =>
            if rowLoc x = l ∧ x.getLsbD 0 = true then (if ok then setFld x 37 1 1 else setFld x 38 1 1) else x)
        exec (.rowRepairLive ch ok bad) s =
          .next (({ v with mram := { v.mram with rows := SMap.set v.mram.rows ch rows } } : State).chanRecord ch 1 0x0518 none none l 0xFF 0 0))
      ∧ (s.up = true → (s.chan ch).st = 6 →
        let c := s.chan ch
        exec (.retrainComplete ch true) s =
          .next ((s.modChan ch (fun c => { c with st := 4, retry := false })).linkRecord ch 1 0x0502 0 0 none)
        ∧ (c.retry = false → c.speed < 2 →
          goes (.retrainComplete ch false) (fun c => { c with retry := true, speed := c.speed + 1 }))
        ∧ (c.retry = true ∨ 2 ≤ c.speed → exec (.retrainComplete ch false) s = .next ((s.modChan ch (fun c => { c with
            st := 8, rdq := [], wrq := [], merge := [], reread := none, rows := [], scrubRun := false })).linkRecord ch 3 0x0503 0 0 none)))
      ∧ (s.up = true → (s.chan ch).st = 4 → (s.chan ch).rdq = [] → (s.chan ch).wrq = [] → (s.chan ch).merge = [] →
        (s.chan ch).reread = none →
        (s.chan ch).retReq = true ∨ 0 < s.settingN 0x3010 7 0 ∧ s.settingN 0x3010 7 0 ≤ (s.chan ch).idle →
        exec (.channelIdleRet ch) s = .next ((s.modChan ch (fun c => { c with st := 7, retReq := false, rows := [] })).modDom (392 + ch)
          (fun d => { d with st := 1 })))
      ∧ (∀ la, s.noon.run = true → s.stopped = false → s.chanPresent ch = true →
        ((s.chan ch).st = 3 → (s.chan ch).crcTries < 4 →
          goes (.writeCrcError ch la) (fun c => { c with crcTries := c.crcTries + 1 }))
        ∧ ((s.chan ch).st = 3 → 4 ≤ (s.chan ch).crcTries → exec (.writeCrcError ch la) s = .next
          ((((s.modChan ch (fun c => { c with crcTries := 0 })).dramStore la s.keys.null 0 true).linkRecord ch 2 0x0506 0
            (s.subOf la) (some (64 * la))).post (384 * (ch / 2) + 262 + ch % 2)))
        ∧ ((s.chan ch).accepts = true → (s.chan ch).link.count < s.settingN 0x3050 1 16 →
          goes (.writeCrcError ch la) (fun c => { c with link := { (s.chan ch).link with count := (s.chan ch).link.count + 1 } }))
        ∧ ((s.chan ch).accepts = true → s.settingN 0x3050 1 16 ≤ (s.chan ch).link.count → ∃ stamps,
          let u := s.modChan ch (fun c => { c with link := { count := 0, stamps } })
          exec (.writeCrcError ch la) s = .next ((u.linkRecord ch 1 0x0501 0 (u.subOf la) none).startRetrain ch)))
      ∧ (∀ speed, s.noon.run = true → s.stopped = false → s.chanPresent ch = true → s.boot.phase = 3 →
        (s.chan ch).st = 0 ∨ (s.chan ch).st = 2 →
        let u := s.dimmRecords ch
        ((s.chan ch).used = none → exec (.trainChan ch speed) s = .next (u.modChan ch (fun c => { c with st := 1 })))
        ∧ ∀ d two, (s.chan ch).used = some (d, two) →
          let first := max (u.settingN 0x3010 1 0) d.speed
          let got := max first speed
          let v := u.fallbacks ch (min got 3 - first) first
          let n := if two then 2 else 1
          (3 ≤ got → exec (.trainChan ch speed) s = .next (v.modChan ch (fun c => { c with st := 1, speed := 2 })))
          ∧ (got < 3 → exec (.trainChan ch speed) s = .next ((((v.modChan ch (fun c => { c with
              st := 3, speed := got, dpc2 := two, ranks := n * d.ranks - 1, dens := d.dens, cap := n * d.cap })).restoreMarks ch).applyRows
              ch).layOut)))
      ∧ (s.noon.run = true → s.stopped = false → s.boot.filled = false → s.boot.phase = 3 → s.chansUsed ≠ [] →
        (∀ c, s.chanPresent c = true → (s.chan c).st ≠ 0 ∧ (s.chan c).st ≠ 2) → ∃ t, exec .fillComplete s = .next t
        ∧ t.boot = { s.boot with filled := true } ∧ t.dram = [] ∧ t.fillKey = s.keys.null
        ∧ t.lineKey = s.lineKey.filter (fun e => s.poison.contains e.1) ∧ t.poison = s.poison
        ∧ (∀ c, s.chanPresent c = true → c < 16 → t.chan c = if (s.chan c).st = 3 then
            { s.chan c with st := 4, filled := s.usedLines, crcTries := 0 } else s.chan c)))

/-- R250 to R252: the key engine: a pair whose halves are equal is refused, every other command is outstanding until
every channel holds its key, KEY_DATA is cleared, and merge entries of the slot are written under the old key first.
-/
def Obligations.KeyResults : Prop :=
  ∀ (s : State), s.up = true →
    let slot := 4 * s.keys.td + s.keys.sel
    let begins := fun (op : Nat) (t : State) (key : W512) =>
      { t with keys := { t.keys with data := [], op := op, busy := true, next := some (slot, key) } }
    (s.keys.busy = false →
      (fld s.keys.pair 0 256 = fld s.keys.pair 256 256 → exec .keyLoad s =
        .next { s with keys := { s.keys with data := [], op := 1, err := true } })
      ∧ (fld s.keys.pair 0 256 ≠ fld s.keys.pair 256 256 → exec .keyLoad s = .next (begins 1 s s.keys.pair))
      ∧ exec .keyGenerate s = .next (begins 2 { s with free := s.free + 1 } (Config.randomKey s.free))
      ∧ exec .keyNull s = .next (begins 3 s s.keys.null))
    ∧ (s.keys.busy = true → exec .keyLoad s = .next s ∧ exec .keyGenerate s = .next s ∧ exec .keyNull s = .next s)
    ∧ (∀ n key, s.keys.next = some (n, key) →
      let t := (List.range 16).foldl (fun s ch =>
        (((s.chan ch).merge.filter (fun m => 4 * m.td + m.ks == n)).map (·.la)).foldl (fun s la => s.mergeClose ch la) s) s
      exec .keyCommandComplete s =
        .next { t with keys := { t.keys with busy := false, next := none, slots := SMap.set t.keys.slots n key } })

/-- R293 to R295, R299 to R301: a shootdown is applied to every core and, with IO, to every translation unit, stays
busy until older stores, outstanding reads and invalidations are done, and a second one meanwhile is ignored; an
invalidation that is not answered blocks its function and is reported; the base of an event queue and a page response.
R296 to R300, R338: requests of devices at a translation unit: an untranslated request is performed under its context,
faults with an entry of type 1, or finds no target; a translated one needs ATS; a translation request is answered with
the page and its permissions; a page request enters the event queue or is answered with Response Failure. -/
def Obligations.DeviceAccessResults : Prop :=
   (∀ (s : State), s.up = true →
      (s.sd.busy = true → exec .tlbShootdown s = .next s)
      ∧ (s.sd.busy = false → ∃ t, exec .tlbShootdown s = .next t ∧ t.sd.busy = true
        ∧ (∀ c, t.core c = if c ∈ s.allCores then { s.core c with
              tlb := s.sd.dropTlb (s.core c).tlb, wcache := s.sd.dropWc (s.core c).wcache
              sq := (s.core c).sq.map (fun e => { e with old := true }) } else s.core c)
        ∧ (s.sd.io = false → t.regions = s.regions ∧ t.sd.wait = s.sd.wait ∧ t.out = s.out)
        ∧ (s.sd.io = true → ∀ r, r < 8 → (t.iotu r).ctx = [] ∧ (t.iotu r).tlb = s.sd.dropTlb (s.iotu r).tlb
          ∧ (t.iotu r).wcache = s.sd.dropWc (s.iotu r).wcache))
      ∧ (let stores := ∃ c ∈ s.allCores, ∃ e ∈ (s.core c).sq, e.old = true ∧ e.tord = none
        let reads := s.sd.io = true ∧ ∃ r, r < 8 ∧ ∃ e ∈ (s.region r).fn.insts, e.2.pipe = true ∧ e.2.peer ≠ []
        s.sd.busy = true →
        (¬ stores → ¬ reads → s.sd.wait = [] → exec .shootdownComplete s = .next { s with sd := { s.sd with busy := false } })
        ∧ (stores ∨ reads ∨ s.sd.wait ≠ [] → exec .shootdownComplete s = .next s))
      ∧ (∀ r rid, exec (.atsInvalidateCompletion r rid) s =
        .next { s with sd := { s.sd with wait := s.sd.wait.filter (fun e => e != (r, rid)) } })
      ∧ (∀ r rid, (r, rid) ∈ s.sd.wait →
        let c := wordsOf (s.readPa (s.ctxAddr r rid) 32 0 0).1.1
        let u := { s with sd := { s.sd with wait := s.sd.wait.filter (fun e => e != (r, rid)), atsto := true } }
        let t := ((u.modIotu r (fun x => { x with blocked := (rid, c) :: x.blocked.filter (fun e => e.1 != rid) })).iotEvent r 4 0 rid 0 0).2
        t.waits = false → exec (.atsInvalidationTimeout r rid) s = .next t)
      ∧ (∀ r (v : W64), r < 8 →
        exec (.iotEqbWrite r v) s = .next (s.modIotu r (fun u => { u with
          head := 0, tail := 0
          eqb := BitVec.ofNat 64 ((if 9 ≤ fld v 0 4 then fld u.eqb 0 4 else fld v 0 4) + fld v 12 40 * 4096) }))
        ∧ (let code := fld v 46 4
          (code = 0 ∨ code = 1 ∨ code = 15 → exec (.pageRequestGroupResponse r v) s =
            .next (s.emit (.prg r (fld v 0 16) (fld v 37 9) code)))
          ∧ (code ≠ 0 → code ≠ 1 → code ≠ 15 → exec (.pageRequestGroupResponse r v) s = .next s))))
  ∧(∀ (s : State) (r rid : Nat) (pasid : Option Nat) (addr len : Nat) (wr : Option (List (BitVec 8))),
      s.up = true → r < 8 → (s.iotu r).fenced = false →
      let op := dmaOpOf wr
      let n := match wr with | some bs => bs.length | none => len
      let answers := fun (i : Instr) (t : State) (o : CplKind) (bs : List Byte) => t.waits = false →
        exec i s = .next (if wr.isSome then t else t.emit (.completion r rid o bs))
      (∀ c s1, s.dmaContext r rid = (.ok c, s1) →
        (∀ f s2, s1.ioRegime r c pasid = (.error f, s2) →
          answers (.dmaRequest r rid pasid addr wr len) (s2.dmaFault r rid pasid addr f.kind f.stage wr.isSome) .ur [])
        ∧ (∀ g s2, s1.ioRegime r c pasid = (.ok g, s2) →
          (∀ f va s3, s2.ioXlats r g op.acc (piecesOf addr n) = (.error (f, va), s3) →
            answers (.dmaRequest r rid pasid addr wr len) (s3.dmaFault r rid pasid va f.kind f.stage wr.isSome) .ur [])
          ∧ (∀ l s3, s2.ioXlats r g op.acc (piecesOf addr n) = (.ok l, s3) →
            let route := s3.dmaRoute (ctxTd c) rid addr op [] (l.map (fun e => (e.1, e.2.1, e.2.2.pa, e.2.2.ks)))
            (∀ b p s4, route = (.done b p, s4) →
              answers (.dmaRequest r rid pasid addr wr len) (s4.ioCommit r g op.acc l) (if p then .poisoned else .ok) b)
            ∧ (∀ s4, route = (.urRec, s4) → answers (.dmaRequest r rid pasid addr wr len)
              (s4.portRecord r (s.portOfRid r rid) 0 0x0603 none []) .ur [])))
        ∧ (let route := s1.dmaRoute (ctxTd c) rid addr op [] ((piecesOf addr n).map (fun e => (e.1, e.2, e.1, 0)))
          let blocked := ∃ e ∈ (s1.iotu r).blocked, e.1 = rid ∧ e.2 = c
          let space := inDram addr = true ∨ inEndpoint addr = true ∨ inPcie addr = true
          (ctxAts c = true → ¬ blocked → space → ∀ b p s4, route = (.done b p, s4) →
            answers (.translatedRequest r rid pasid addr wr len) s4 (if p then .poisoned else .ok) b)
          ∧ (ctxAts c = false ∨ blocked ∨ ¬ space → answers (.translatedRequest r rid pasid addr wr len)
            (s1.portRecord r (s.portOfRid r rid) 0 0x0603 none []) .ur []))
        ∧ (ctxAts c = true → ∀ g s2, s1.ioRegime r c pasid = (.ok g, s2) →
          (∀ x s3, s2.ioLookup r g accProbe addr = (.ok x, s3) → s3.waits = false →
            (x.ks = 0 → exec (.atsTranslationRequest r rid pasid addr) s =
              .next (s3.emit (.atsReply r rid (x.pa / 2 ^ x.size * 2 ^ x.size) x.size x.r x.w)))
            ∧ (x.ks ≠ 0 → exec (.atsTranslationRequest r rid pasid addr) s = .next (s3.emit (.atsReply r rid 0 x.size false false))))
          ∧ (∀ f s3, s2.ioLookup r g accProbe addr = (.error f, s3) → s3.waits = false →
            exec (.atsTranslationRequest r rid pasid addr) s = .next (s3.emit (.atsReply r rid 0 12 false false))))
        ∧ (∀ group write last, ctxPri c = true → ∀ placed s2,
          s1.iotEvent r 2 (eqFlags 0 0 write pasid.isSome last) rid (pasid.getD 0 % 2 ^ 20 + 2 ^ 20 * (group % 512)) addr = (placed, s2) →
          s2.waits = false → exec (.pageRequest r rid pasid addr group write last) s =
            .next (if placed = false ∧ last = true then s2.emit (.prg r rid (group % 512) 15) else s2))
        ∧ (∀ group write last, ctxPri c = false →
          let t := (s1.modPort r (s1.portOfRid r rid) (fun p => { p with cnt3 := min (2 ^ 32 - 1) (p.cnt3 + 1) })).portRecord r (s1.portOfRid r rid) 0 0x0609 none []
          t.waits = false → exec (.pageRequest r rid pasid addr group write last) s = .next t))
      ∧ (∀ k s1, s.dmaContext r rid = (.error k, s1) →
        answers (.dmaRequest r rid pasid addr wr len) (s1.dmaFault r rid pasid addr k 0 wr.isSome) .ur []
        ∧ answers (.translatedRequest r rid pasid addr wr len) (s1.dmaFault r rid pasid addr k 0 wr.isSome) .ur []))

/-- R309, R314, R316, R318, R320: the life of a Cobalt instance: doorbells are judged and those of another domain only
recorded; RESUME and SKIP restart a stopped instance; ENABLE, QUIESCE, RUN, RESET, SAVE and RESTORE act in their
states and answer in RES; nothing acts while a command is BUSY. R302, R305, R307, R310 to R313, R318, R319: the work
of a Cobalt instance: a descriptor is read at HEAD and checked, a free pipe takes the next chunk, a chunk writes only
what it has read and computed whole, and the completion advances HEAD and stops or runs the instance. -/
def Obligations.InstanceResults : Prop :=
   (∀ (s : State) (r i td t : Nat), s.instOpen r i = true →
      let x := s.inst r i
      let goes := fun (c : Instr) (f : Inst → Inst) => exec c s = .next (s.modInst r i f)
      let own := td = 0 ∨ td = x.td
      let tail := t % 65536
      let used := (x.tail + 65536 - x.head) % 65536
      let next := (tail + 65536 - x.head) % 65536
      (own →
        (x.st ≠ 0 → used ≤ next → next ≤ x.qlim → next ≤ x.depth →
          goes (.dbTailWrite r i td t) (fun x => { x with tail := tail, dbres := 0, lastp := 0 }))
        ∧ (x.st ≠ 0 → used ≤ next → x.qlim < next ∨ x.depth < next → goes (.dbTailWrite r i td t) (fun x => { x with dbres := 1 }))
        ∧ (x.st ≠ 0 → next < used → goes (.dbTailWrite r i td t) (fun x => { x with dbres := 2 }))
        ∧ (x.st = 0 → goes (.dbTailWrite r i td t) (fun x => { x with dbres := 3 }))
        ∧ (x.st = 2 → goes (.resumeDesc r i td) (fun x => { x with st := 1, cwf := false, drf := false })
          ∧ goes (.skipDesc r i td) (fun x => { x with st := 1, cwf := false, drf := false, needParam := false, fin := some (4, 0) }))
        ∧ (x.st = 3 → goes (.resumeDesc r i td) (fun x => { x with st := 1 }) ∧ goes (.skipDesc r i td) (fun x => { x with st := 1 }))
        ∧ (x.st ≠ 2 → x.st ≠ 3 → goes (.resumeDesc r i td) (fun x => { x with dbres := 4 })
          ∧ goes (.skipDesc r i td) (fun x => { x with dbres := 4 })))
      ∧ (¬ own → exec (.dbTailWrite r i td t) s =
          .next (s.cobRecord r i 0 0x0706 (some td) [tail % 256, tail / 256 % 256, td] 0)
        ∧ exec (.resumeDesc r i td) s = .next (s.cobRecord r i 0 0x0706 (some td) [255, 255, td] 0)
        ∧ exec (.skipDesc r i td) s = .next (s.cobRecord r i 0 0x0706 (some td) [255, 255, td] 0))
      ∧ (x.busy = true → ∀ desc op, exec (.enableInst r i) s = .next s ∧ exec (.quiesceInst r i desc) s = .next s
        ∧ exec (.runInst r i) s = .next s ∧ exec (.resetInst r i) s = .next s ∧ exec (.instCmdUndefined r i op) s = .next s
        ∧ (s.waits = false → exec (.saveInst r i) s = .next s ∧ exec (.restoreInst r i) s = .next s))
      ∧ (x.busy = false →
        let res := fun (c : Instr) (n : Nat) => goes c (fun x => { x with res := n })
        (x.st = 0 → x.configOk = true → goes (.enableInst r i) (fun x => { x with st := 1, res := 0 }))
        ∧ (x.st = 0 → x.configOk = false → res (.enableInst r i) 3)
        ∧ (x.st ≠ 0 → res (.enableInst r i) 2)
        ∧ (∀ desc, (x.st = 1 ∨ x.st = 2 ∨ x.st = 3 →
            goes (.quiesceInst r i desc) (fun x => { x with st := 4, prev := x.st, qdesc := desc, res := 0 }))
          ∧ (x.st ≠ 1 → x.st ≠ 2 → x.st ≠ 3 → res (.quiesceInst r i desc) 2))
        ∧ (x.st = 5 → goes (.runInst r i) (fun x => { x with st := x.prev, res := 0 }))
        ∧ (x.st ≠ 5 → res (.runInst r i) 2)
        ∧ (x.st = 0 ∨ x.st = 5 → goes (.resetInst r i) (fun x => { x with
            st := 0, head := 0, tail := 0, lastp := 0, prog := 0, op := OpSt.reset, desc := none, fin := none, hold := none
            cwf := false, drf := false, needParam := false, pipe := false, peer := [], res := 0 }))
        ∧ (x.st ≠ 0 → x.st ≠ 5 → res (.resetInst r i) 1)
        ∧ (∀ op, 7 ≤ op → op ≤ 15 → res (.instCmdUndefined r i op) 6)
        ∧ (s.waits = false →
          let pa := fld x.ctxa 6 46 * 64
          let there := inDram pa = true ∧ s.dramOk pa = true ∧ s.dramOk (pa + 511) = true
          let bme := (s.fn r).bme
          (x.st ≠ 5 → res (.saveInst r i) 2) ∧ (x.st ≠ 0 → res (.restoreInst r i) 2)
          ∧ (bme = false → (x.st = 5 → goes (.saveInst r i) (fun x => { x with busy := true }))
            ∧ (x.st = 0 → goes (.restoreInst r i) (fun x => { x with busy := true })))
          ∧ (bme = true → ¬ there → (x.st = 5 → goes (.saveInst r i) (fun x => { x with res := 4, busy := false }))
            ∧ (x.st = 0 → goes (.restoreInst r i) (fun x => { x with res := 4, busy := false })))
          ∧ (bme = true → there → x.st = 5 →
            let u := s.memStore pa 0 0 (x.saveBody ++ (sha384 x.saveBody).take 16) false
            u.waits = false → exec (.saveInst r i) s = .next (u.modInst r i (fun x => { x with res := 0, busy := false })))
          ∧ (bme = true → there → x.st = 0 → ∀ b bad u, s.memRange pa 512 0 0 = ((b, bad), u) → u.waits = false →
            (bad = true → exec (.restoreInst r i) s = .next (u.modInst r i (fun x => { x with res := 4, busy := false })))
            ∧ (bad = false → saveOk b x = false →
              exec (.restoreInst r i) s = .next (u.modInst r i (fun x => { x with res := 5, busy := false })))
            ∧ (bad = false → saveOk b x = true → ∃ v, exec (.restoreInst r i) s = .next v
              ∧ (let y := v.inst r i
                y.st = 5 ∧ y.prev = (b.getD 2 0).toNat ∧ y.status = (b.getD 3 0).toNat ∧ y.head = leNat ((b.drop 4).take 2)
                ∧ y.tail = leNat ((b.drop 6).take 2) ∧ y.cwf = (b.getD 0x20 0).toNat.testBit 0
                ∧ y.drf = (b.getD 0x20 0).toNat.testBit 1 ∧ y.prog = nat8 b 0x28 % 2 ^ 62 ∧ y.res = 0 ∧ y.busy = false
                ∧ (y.desc = if (b.getD 0x20 0).toNat.testBit 2 then some (parseDesc ((b.drop 0x30).take 64)) else none))))))
      ∧ (x.st = 4 → x.pipe = false → x.fin = none → (x.qdesc = false ∨ x.prev ≠ 1 ∨ x.desc = none) →
        goes (.quiesceComplete r i) (fun x => { x with st := 5, qdesc := false })))
  ∧(∀ (s : State) (r i : Nat),
      let x := s.inst r i
      (s.fnRuns r = true → i < 64 → (s.fn r).holdUcode = false → x.st = 1 → x.fin = none →
        (∀ d, x.desc = some d → x.needParam = true → (s.descBegin r i d).waits = false →
          exec (.descriptorStart r i) s = .next (s.descBegin r i d))
        ∧ (x.desc = none → (x.tail + 65536 - x.head) % 65536 ≠ 0 →
          (∀ bs u, s.instRead r x (x.base + 64 * (x.head % x.depth)) 64 = (.ok bs, u) → (u.descBegin r i (parseDesc bs)).waits = false →
            exec (.descriptorStart r i) s = .next (u.descBegin r i (parseDesc bs)))
          ∧ (∀ f u, s.instRead r x (x.base + 64 * (x.head % x.depth)) 64 = (.error f, u) →
            let t := ((u.stopFault r i f 0).modInst r i (fun x => { (x.goTo 2) with status := 0x10, drf := true })).postVec r i 0x10 false
            t.waits = false → exec (.descriptorStart r i) s = .next t)))
      ∧ (∀ (d : Desc) (u : State), d.op ≠ 5 → d.op ≠ 6 → u.descBegin r i d = u.modInst r i (fun x =>
          let y := { x with desc := some d, prog := 0, needParam := false }
          if d.invalid then { y with fin := some (0x20, 0) }
          else if d.overlaps then { y with fin := some (0x21, 0) }
          else if d.op = 8 ∧ bits d.param 8 6 < bits d.param 0 6 then { y with fin := some (0x25, 3) }
          else if d.op = 9 then { y with fin := some (if d.aux1 ≠ 0 ∧ d.aux1 = x.lastp.toNat then (1, 0) else (0x26, 0)) }
          else { y with op := d.start }))
      ∧ (s.fnRuns r = true → (s.fn r).holdUcode = false → ((s.fn r).insts.filter (fun e => e.2.pipe)).length < 4 →
        s.waits = false →
        ((s.fn r).candidates = [] → exec (.chunkDispatch r) s = .next s)
        ∧ (∀ j rest d, (s.fn r).candidates = j :: rest → (s.inst r j).desc = some d →
          ∀ u, (s.modInst r j (fun x => { x with peer := [] })).sendPeers r j (s.peerReads r (s.inst r j) d) = (u, true) →
          u.waits = false → exec (.chunkDispatch r) s = .next (u.modFn r (fun f => f.count j))))
      ∧ (s.up = true → s.fnOn r = true → i < 64 → x.pipe = true → (∀ p ∈ x.peer, p.st ≠ 0) → ∀ d, x.desc = some d →
        let ends := fun (t : State) (f : Nat × Nat) => t.waits = false →
          exec (.chunkComplete r i) s = .next (t.modInst r i (fun x => { x with pipe := false, peer := [], fin := some f }))
        (∀ k st w va u, s.chunkPlan r x d = (.error (.xlat k st w va), u) →
          ends (u.stopFault r i (.xlat k st w va) d.op) (0x10, k + 8 * st))
        ∧ (∀ va u, s.chunkPlan r x d = (.error (.addr va), u) → ends u (0x22, 0))
        ∧ (∀ va u, s.chunkPlan r x d = (.error (.poison va), u) → ends (u.cobPoison r i x d.op) (0x23, 0))
        ∧ (∀ u, s.chunkPlan r x d = (.error .cto, u) → ends u (0x24, 0))
        ∧ (∀ p u, s.chunkPlan r x d = (.ok p, u) → u.canWrite p = true →
          let t := p.pieces.foldl (fun s e => s.writePiece x.td (decide (d.op = 3)) e) u
          t.waits = false → exec (.chunkComplete r i) s = .next (t.modInst r i (fun x => { x with
            pipe := false, peer := [], op := p.out.op, prog := x.prog + p.out.adv, fin := p.out.fin }))))
      ∧ (s.fnRuns r = true → i < 64 → x.st = 1 ∨ x.st = 4 → x.cwf = false → ∀ status detail, x.fin = some (status, detail) →
        let d := x.desc.getD Desc.reset
        let bs := natLe 8 (status + 256 * detail) ++ natLe 8 ((if d.op = 8 then 2 else 1) * 2 ^ 62 + x.prog)
        let va := x.base + 64 * (x.head % x.depth) + 0x30
        (∀ f u, s.instWrite r x va bs = (.error f, u) →
          let t := ((u.stopFault r i f d.op).modInst r i (fun x => { (x.goTo 2) with status := 0x10, cwf := true })).postVec r i 0x10 d.irq
          t.waits = false → exec (.descriptorCompletion r i) s = .next t)
        ∧ (∀ u, s.instWrite r x va bs = (.ok (), u) →
          let moved := fun (x : Inst) (st : Nat) => { x with
            head := (x.head + 1) % 65536, desc := none, prog := 0, op := OpSt.reset, needParam := false }.goTo st
          let t := (u.modInst r i (fun x =>
            let y := { x with fin := none, status := if 16 ≤ status then status else x.status }
            if status = 0x10 ∨ status = 0x11 then y.goTo 2 else if 0x20 ≤ status then moved y 3 else moved y 1)).postVec r i status d.irq
          t.waits = false → exec (.descriptorCompletion r i) s = .next t)))

/-- R318, R321 to R323, R341 to R347: the Cobalt function: transactions through its windows, the commit of the
windows, containment and its release, its power state, its Command register, its PME status and the mask of a message.
-/
def Obligations.FunctionResults : Prop :=
  ∀ (s : State) (r : Nat), s.up = true → r < 8 →
    let x := s.fn r
    let goes := fun (c : Instr) (f : Fn → Fn) => exec c s = .next (s.modFn r f)
    (∀ w td rid off rd bytes hdr, w < 16 →
      (x.mse = false → exec (.apertureWrite r w td rid off rd bytes hdr) s = .next (if rd then s.emit (.completion r rid .ur []) else s))
      ∧ (x.mse = true → ∀ refused u, s.aperture r w td off rd bytes hdr = (refused, u) →
        exec (.apertureWrite r w td rid off rd bytes hdr) s =
          .next (if refused = true ∧ rd = true then u.emit (.completion r rid .ur []) else u))
      ∧ (let v := SMap.get 0 x.live w
        let i := fld v 1 6
        let q := s.inst r i
        (rd = true ∨ v.getLsbD 0 = false ∨ fld v 15 9 * 64 < off + bytes.length ∨ q.st = 0 ∨ x.bme = false
          ∨ (td ≠ 0 ∧ td ≠ q.td) ∨ x.frozen = true → s.fnOn r = true →
          s.aperture r w td off rd bytes hdr = (true, s.cobRecord r i 0 0x0703 (some td) (hdr.take 16) 0))))
    ∧ (s.fnOn r = true → x.frozen = false → ∀ mask : BitVec 16,
      goes (.ibwCommit r mask) (fun x => { x with cmask := mask.toNat, cbusy := true }))
    ∧ (x.cbusy = true → ∃ t, exec (.ibwCommitPoint r) s = .next t ∧ (t.fn r).cbusy = false
      ∧ t.fn r = { x with cbusy := false, live := (t.fn r).live }
      ∧ ∀ w, SMap.get 0 (t.fn r).live w = if w < 16 ∧ x.cmask.testBit w = true then SMap.get 0 x.shd w else SMap.get 0 x.live w)
    ∧ (∀ cause unit pipe, 1 ≤ cause → cause ≤ 3 →
      (x.frozen = false →
        let a := s.modFn r (fun x => { x with
          frozen := true, cause, entries := satAdd 16 x.entries, aer := if cause = 1 then x.aer ||| 2 ^ 22 else x.aer })
        let t := ((((a.fn r).insts.map (·.1)).foldl (fun s i => s.containInst r i) a).cobRecord r 0xFF 3 0x0702 none
          [cause, unit, pipe] 0).post (384 * r + 281)
        t.waits = false → exec (.functionContainment r cause unit pipe) s = .next t)
      ∧ (x.frozen = true → cause ≠ 3 → s.waits = false →
        goes (.functionContainment r cause unit pipe) (fun x => { x with crel := false })))
    ∧ goes (.containmentRelease r) (fun x => { x with crel := x.crel || x.frozen })
    ∧ (x.crel = true → x.reads = 0 → (s.iotu r).fenced = false → exec (.containmentReleaseEffect r) s =
      .next (((s.modFn r (fun x => { x with frozen := false, crel := false })).cobRecord r 0xFF 0 0x0707 none
        [x.entries % 256, x.entries / 256] 0).msixFlush r))
    ∧ (x.pm ≠ 3 → (∃ e ∈ x.insts, 1 ≤ e.2.st ∧ e.2.st ≤ 4) →
      exec (.powerstateWrite r 3) s = .next (s.cobRecord r 0xFF 0 0x0709 none [3] 0))
    ∧ (x.pm ≠ 3 → (∀ e ∈ x.insts, e.2.st = 0 ∨ 4 < e.2.st) → (s.dom (384 + r)).st = 0 → exec (.powerstateWrite r 3) s =
      .next ((s.modFn r (fun x => { x with pm := 3 })).modDom (384 + r) (fun d => { d with st := 3, dest := 1, src := 0 })))
    ∧ (x.pm = 3 → exec (.powerstateWrite r 3) s = .next s)
    ∧ exec (.powerstateWrite r 0) s = .next ((s.modFn r (fun x => { x with pm := 0 })).wakeDom (384 + r) 9)
    ∧ (∀ v, v ≠ 0 → v ≠ 3 → exec (.powerstateWrite r v) s = .next s)
    ∧ goes (.pmeStatusClear r) (fun x => { x with pmeStatus := false })
    ∧ (∀ v, let u := s.modFn r (fun x => { x with mse := v.testBit 1, bme := v.testBit 2, serr := v.testBit 8 })
      let t := ((u.fn r).insts.map (·.1)).foldl (fun s i =>
        if (s.inst r i).busy then (if (s.inst r i).st = 5 then s.opSave r i else s.opRestore r i) else s) u
      (t.msixFlush r).waits = false → exec (.commandRegisterWrite r v) s = .next (t.msixFlush r))
    ∧ (∀ e, e < 2048 → s.fnOn r = true → x.frozen = false → exec (.msixEntryUnmask r e) s =
      .next ((s.modFn r (fun x => { x with msix := SMap.set x.msix e (setFld (x.entry e) 96 1 0) })).msixFlush r))

/-- R319, R334 to R338: a completion at a root port completes the request whose tag it carries: data reach the core or
the chunk, poison is POISON_USE or the chunk's status, a retry status is held or answered visibly, an error ends it
with all ones; one that carries no outstanding tag is counted and recorded; a request older than its limit times out
and its tag stays in quarantine. R329, R331 to R333, R338 to R340: what else arrives at a root port: a link trains,
messages are recorded or logged, error messages may trigger containment, corrected errors count in the bucket,
containment starts and ends, and a request of a device is refused or performed. -/
def Obligations.RootPortResults : Prop :=
   (∀ (s : State) (r f tag : Nat),
      (s.linkOpen r f = true →
        (∀ k data hdr, (s.port r f).reqOf tag = none →
          exec (.completionReceived r f tag k data hdr) s = .next ((s.lateCpl r f tag hdr).aerError r f 16 0 hdr))
        ∧ (∀ q, (s.port r f).reqOf tag = some q →
          let u := s.modPort r f (fun p => { p with reqs := SMap.del p.reqs tag })
          (∀ data hdr, let bs := (data ++ List.replicate q.size 0).take q.size
            let receives := fun (k : CplKind) (t : State) => exec (.completionReceived r f tag k data hdr) s = .next t
            (q.who < 256 → receives .ok (u.coreDone q bs))
            ∧ (256 ≤ q.who → receives .ok (u.peerDone r f tag q 1 bs))
            ∧ (q.write = true → receives .poisoned ((u.aerError r f 12 1 hdr).coreDone q bs))
            ∧ (q.write = false → q.who < 256 → receives .poisoned ((u.aerError r f 12 1 hdr).corePoison q))
            ∧ (q.write = false → 256 ≤ q.who → receives .poisoned ((u.aerError r f 12 1 hdr).peerDone r f tag q 4 []))
            ∧ (inEcam q.pa = true → q.vid = true → (s.port r f).crsVis = true → receives .crs (u.coreDone q
                ((List.range q.size).map (fun j => if (q.pa + j) % 4096 = 0 then 1 else if (q.pa + j) % 4096 = 1 then 0 else 0xFF))))
            ∧ (inEcam q.pa = true → q.vid = false ∨ (s.port r f).crsVis = false →
              receives .crs (s.modPort r f (fun p => { p with reqs := SMap.set p.reqs tag { q with crs := true } })))
            ∧ (∀ k, (k = .ur ∨ k = .ca ∨ k = .crs ∧ inEcam q.pa = false) →
              (q.who < 256 → receives k (u.coreFail r f 0x0607 q hdr)) ∧ (256 ≤ q.who → receives k (u.peerDone r f tag q 2 []))))
          ∧ (q.crs = true → exec (.crsRetry r f tag) s = .next ((s.modPort r f (fun p => { p with
              reqs := SMap.set p.reqs tag { q with crs := false } })).emit (.request r f tag (if q.write then 3 else 2) q.pa [])))
          ∧ (q.crs = false → exec (.crsRetry r f tag) s = .next s)))
      ∧ (∀ (q : PReq) (bs : List Byte) (t : State), (t.core q.who).run = .dev → q.more = false →
        t.coreDone q bs = (t.setCore q.who { (t.core q.who).putDest q.rd ((t.core q.who).half.getD [] ++ bs) with run := .run }).retire q.who
          q.met false ((t.core q.who).pc + 4))
      ∧ (s.up = true → r < 8 → s.portPresent r f = true →
        (∀ q, (s.port r f).reqOf tag = some q →
          (s.noon.wall < q.sent + q.limit → exec (.completionTimeout r f tag) s = .next s)
          ∧ (q.sent + q.limit ≤ s.noon.wall →
            let u := ((s.modPort r f (fun p => { p with reqs := SMap.del p.reqs tag })).modPort r f (fun p => { p with
              cnt2 := min (2 ^ 32 - 1) (p.cnt2 + 1), quar := p.quar ++ [(tag, s.noon.wall + 2 * q.limit, q.who)] })).aerError r f 14 1 q.hdr
            (q.who < 256 → exec (.completionTimeout r f tag) s = .next (u.coreFail r f 0x0605 q q.hdr))
            ∧ (256 ≤ q.who → exec (.completionTimeout r f tag) s = .next (u.peerDone r f tag q 3 []))))
        ∧ exec (.tagQuarantineEnd r f tag) s = .next (s.modPort r f (fun p => { p with
            quar := p.quar.filter (fun e => !(e.1 == tag && decide (e.2.1 ≤ s.noon.wall))) }))))
  ∧(∀ (s : State) (r f : Nat),
      let p := s.port r f
      let goes := fun (c : Instr) (g : Port → Port) => exec c s = .next (s.modPort r f g)
      (∀ width rate cap failed, s.up = true → r < 8 → s.portPresent r f = true → p.dpc = false → p.perst = false →
        s.on (408 + r) = true →
        let lanes := if (s.region r).bifurc = 0 then 16 else if (s.region r).bifurc = 1 then 8 else 4
        let best := max (s.settingN 0x6110 (4 * r + f + 1) 0) cap
        let u := s.modPort r f (fun p => { p with up := true, width, rate := max best rate, inL12 := false })
        0 < width → width ≤ lanes →
        (width = lanes → rate ≤ best → exec (.linkTraining r f width rate cap failed) s = .next u)
        ∧ (width < lanes ∨ best < rate → exec (.linkTraining r f width rate cap failed) s =
          .next (u.portRecord r f 1 0x0608 none [width, rate, failed % 256, failed / 256 % 256])))
      ∧ (s.linkOpen r f = true →
        (∀ k hdr, (k = .errCor ∨ k = .errNonfatal ∨ k = .errFatal → exec (.pcieMessageReceived r f k hdr) s = .next s)
          ∧ (k ≠ .errCor → k ≠ .errNonfatal → k ≠ .errFatal → exec (.pcieMessageReceived r f k hdr) s =
            .next ((s.modPort r f (fun p => { p with cnt3 := min (2 ^ 32 - 1) (p.cnt3 + 1) })).portRecord r f 0 0x0609 none hdr)))
        ∧ (∀ hdr,
          let logs := fun (k : MsgKind) (sev : Nat) => exec (.errorMessageReceived r f k hdr) s =
            .next (let t := s.modPort r f (fun p => { p with rootErr := rootStatus p.rootErr k });
              if p.rootCmd.testBit sev then t.post (384 * r + 272 + f) else t)
          logs .errCor 0
          ∧ (p.dpcEn ≠ 2 → logs .errNonfatal 1) ∧ (p.dpcEn = 2 → exec (.errorMessageReceived r f .errNonfatal hdr) s = .next (s.dpcEnter r f 6 hdr))
          ∧ (p.dpcEn = 0 → logs .errFatal 2) ∧ (p.dpcEn ≠ 0 → exec (.errorMessageReceived r f .errFatal hdr) s = .next (s.dpcEnter r f 5 hdr)))
        ∧ (∀ rid, let t := s.modPort r f (fun p => { p with pmeStat := some (p.pmeStat.getD rid) })
          exec (.pmeMessageReceived r f rid) s = .next (if p.pmeInt then t.post (384 * r + 282 + f) else t))
        ∧ (∀ which, let cor := p.aerCor ||| 2 ^ (which % 32)
          let t := fun (b : Bucket) => (s.modPort r f (fun p => { p with bkt := b, aerCor := cor })).aerPost r f 0
          (p.bkt.count < s.settingN 0x6030 1 64 →
            exec (.linkErrorCorrected r f which) s = .next (t { p.bkt with count := p.bkt.count + 1 }))
          ∧ (s.settingN 0x6030 1 64 ≤ p.bkt.count → ∃ stamps, exec (.linkErrorCorrected r f which) s =
            .next (let u := t { count := 0, stamps }
              u.portRecord r f 1 0x0601 none ((natLe 4 (u.port r f).aerCor).map (fun (w : BitVec 8) => w.toNat)))))
        ∧ (∀ rid pasid k addr bytes len hdr, (s.iotu r).fenced = false →
          let below := p.sec ≠ 0 ∧ p.sec ≤ rid / 256 ∧ rid / 256 ≤ p.sub
          let refused := fun (bit : Nat) =>
            let t := (s.aerError r f bit (if dsPosted k then 1 else 0) hdr).portRecord r f 0 0x0603 none hdr
            t.waits = false →
            exec (.downstreamRequest r f rid pasid k addr bytes len hdr) s =
              .next (if dsPosted k then t else t.emit (.completion r rid .ur []))
          (¬ below → refused 21) ∧ (below → p.bme = false → refused 20) ∧ (below → p.bme = true → dsOp k bytes len = none → refused 20)
          ∧ (below → p.bme = true → ∀ op n, dsOp k bytes len = some (op, n) → ∀ b poison u,
            s.dmaUntranslated r rid pasid addr n op hdr = (.done b poison, u) →
            let t := if op.posted then u else u.emit (.completion r rid (if poison then .poisoned else .ok) b)
            (k ≠ .poisonedWrite → t.waits = false → exec (.downstreamRequest r f rid pasid k addr bytes len hdr) s = .next t)
            ∧ (k = .poisonedWrite →
              let v := (t.aerError r f 12 1 hdr).portRecord r f 2 0x0606 none hdr
              v.waits = false → exec (.downstreamRequest r f rid pasid k addr bytes len hdr) s = .next v))))
      ∧ (s.up = true → r < 8 → s.portPresent r f = true →
        (p.dpc = true → (p.dpcFence = false ∨ (s.iotu r).fenced = false) →
          goes (.dpcTriggerStatusClear r f) (fun p => { p with dpc := false, dpcFence := false }))
        ∧ (p.dpc = false ∨ p.dpcFence = true ∧ (s.iotu r).fenced = true → exec (.dpcTriggerStatusClear r f) s = .next s)
        ∧ (∀ hdr, p.dpcEn ≠ 0 →
          (exec (.dpcTrigger r f 7 hdr) s = .next (s.dpcEnter r f 7 hdr))
          ∧ (p.dpc = false → ∀ cause, 1 ≤ cause → cause ≤ 4 → exec (.dpcTrigger r f cause hdr) s =
            .next ((s.aerError r f (if cause = 1 then 18 else if cause = 2 then 13 else if cause = 3 then 17 else 5) 2 hdr).dpcEnter r f cause hdr)))
        ∧ (∀ cause hdr, p.dpc = true → cause ≠ 8 → s.dpcEnter r f cause hdr = s)
        ∧ (∀ cause hdr, p.dpc = false → p.reqs = [] → s.dpcEnter r f cause hdr =
          ((s.modPort r f (fun p => { p with
            dpc := true, up := false, dpcFence := decide (cause = 8), cnt4 := min (2 ^ 32 - 1) (p.cnt4 + 1), reqs := [] })).portRecord r f 3
            0x0602 none (cause :: (hdr ++ List.replicate 15 0).take 15)).post (384 * r + 276 + f))))

/-- R350, R351, R354 to R356, R358 to R362, R365: a domain arrives in ON, RET or OFF with what each state keeps; a
core in RET wakes for a held post or a message; pads are released by command; a quiet stack enters RET; a stack and
the field responder wake; a telemetry sample posts source 3,202 once per crossing upward. -/
def Obligations.PowerResults : Prop :=
  ∀ (s : State),
    (s.up = true →
      (∀ c, c < 256 → let d := s.dom c
        let patch := (SMap.get Img.reset (s.region (coreRegion c)).fw 4).build
        let w := if (s.core c).walk.isSome then s.walkAllArrays c else s
        let ret := (w.modCore c (fun k => { k with walk := none, retcnt := satAdd 32 k.retcnt })).modDom c (fun d => { d with st := 1 })
        (d.st = 3 → d.dest = 1 → d.wakeReq = false → exec (.retEntryComplete c) s = .next (ret.nextDom c))
        ∧ (d.st = 3 → d.dest = 1 → d.wakeReq = true → exec (.retEntryComplete c) s = .next
            ((((s.walkAllArrays c).modCore c (fun k => { k with walk := none })).modDom c
              (fun d => { d with st := 0, wakeReq := false, viaWfe := false })).deliverAllHeld c))
        ∧ (let held := s.route.any (fun e => routePend e.2 && decide (routeCore e.2 = c))
              || s.mroute.any (fun e => routePend e.2 && decide (routeCore e.2 = c))
          let woken := fun (cause : Nat) => exec (.coreWake c) s =
            .next (s.modDom c (fun d => { d with st := 3, dest := 0, src := 1, cause := cause }))
          d.st = 1 → d.viaWfe = true → (held = true → woken 2) ∧ (held = false → s.mailbox c ≠ [] → woken 3)
            ∧ (held = false → s.mailbox c = [] → exec (.coreWake c) s = .next s))
        ∧ (s.corePresent c = true → d.st = 3 →
          let arrives := fun (t : State) => exec (.powerTransitionComplete c) s = .next (t.nextDom c)
          (d.dest = 0 → d.src = 1 → arrives (((s.modDom c (fun d => { d with st := 0, wake := d.cause })).modCore c
            (fun k => let k := k.brk 6 k.pc; { k with woke := true, patch })).deliverAllHeld c))
          ∧ (d.dest = 0 → d.src ≠ 1 → arrives (((s.modDom c (fun d => { d with st := 0, wake := d.cause })).setCore c
            { Core.reset with patch }).deliverAllHeld c))
          ∧ (d.dest = 1 → (s.core c).walk = none → arrives ret)
          ∧ (d.dest = 2 → arrives ((w.setCore c Core.reset).modDom c (fun d => { d with st := 2 })))))
      ∧ (∀ i, 384 ≤ i → s.domPresent i = true → let d := s.dom i
        let on := s.modDom i (fun e => { e with st := 0, wake := e.cause, held := e.held || (decide (392 ≤ i) && decide (d.src = 2)) })
        let dst := s.modDom i (fun e => { e with st := d.dest })
        (d.st = 3 → let arrives := fun (t : State) => exec (.powerTransitionComplete i) s = .next (t.nextDom i)
          (i < 392 → (d.dest = 0 → d.src = 2 → arrives (on.modFn (i - 384) (fun x => { Fn.reset with ucode := x.ucode })))
            ∧ (d.dest = 0 → d.src ≠ 2 → arrives (on.modFn (i - 384) (fun x => { x with pm := 0 })))
            ∧ (d.dest = 1 → arrives (dst.modFn (i - 384) (fun x => { x with pm := 3 })))
            ∧ (d.dest = 2 → arrives (dst.modFn (i - 384) (fun x => { Fn.reset with pm := 3, ucode := x.ucode }))))
          ∧ (392 ≤ i → i < 408 → (d.dest = 0 → arrives (on.modChan (i - 392) (fun c => { c with st := if c.st = 7 then 4 else c.st })))
            ∧ (d.dest = 1 → arrives (dst.modChan (i - 392) (fun c => { c with st := if c.st = 4 then 7 else c.st, rows := [] }))))
          ∧ (408 ≤ i → d.dest = 0 → arrives on) ∧ (408 ≤ i → i < 416 → d.dest = 2 → arrives (dst.stackOff (i - 408)))
          ∧ (408 ≤ i → d.dest = 1 → arrives dst))
        ∧ (d.st = 0 → d.held = true → i < 408 → exec (.padholdRel i) s = .next (s.modDom i (fun d => { d with held := false })))
        ∧ (d.st = 0 → d.held = true → 408 ≤ i → i < 416 → exec (.padholdRel i) s = .next ((List.range 4).foldl (fun s f =>
            if s.portPresent (i - 408) f then s.modPort (i - 408) f (fun p => { p with perst := false }) else s)
            (s.modDom i (fun d => { d with held := false }))))
        ∧ (d.st ≠ 0 ∨ d.held = false → exec (.padholdRel i) s = .next s))
      ∧ (∀ n, n < 8 → let d := s.dom (408 + n)
        let lim := s.settingN 0x2210 (n + 1) 0
        (d.st = 0 → lim ≠ 0 → lim ≤ (s.region n).stackIdle → s.stackQuiet n = true → exec (.stackIdleRet n) s =
          .next (s.modDom (408 + n) (fun d => { d with st := 3, dest := 1, src := d.st, cause := 0, viaWfe := false, wakeReq := false })))
        ∧ (lim = 0 ∨ (s.region n).stackIdle < lim ∨ s.stackQuiet n = false → exec (.stackIdleRet n) s = .next s)
        ∧ (∀ cause, cause = 5 ∨ cause = 6 → (d.st = 1 → exec (.stackWake n cause) s =
            .next (s.modDom (408 + n) (fun d => { d with st := 3, dest := 0, src := 1, cause := cause })))
          ∧ (d.st = 0 ∨ d.st = 2 → exec (.stackWake n cause) s = .next s)))
      ∧ (∀ power temp regs, let t : State := { s with pins := { s.pins with
            power, temp, above := decide (s.setting 0x2300 3 100000 ≤ temp)
            regPower := (List.range regs.length).map (fun r => (r, (regs.getD r (0, 0, 0)).1))
            regTemp := (List.range regs.length).map (fun r => (r, (regs.getD r (0, 0, 0)).2.1))
            regMv := (List.range regs.length).map (fun r => (r, (regs.getD r (0, 0, 0)).2.2)) } }
        (s.setting 0x2300 3 100000 ≤ temp → s.pins.above = false → exec (.telemetrySample power temp regs) s = .next (t.post 3202))
        ∧ (temp < s.setting 0x2300 3 100000 ∨ s.pins.above = true → exec (.telemetrySample power temp regs) s = .next t)))
    ∧ (∀ frame, s.pins.aon = true → s.scan = false → (frame = true ∨ s.settingN 0x2220 1 0 ≠ 0) →
      let cause := if frame then 7 else 8
      ((s.dom 416).st = 1 → exec (.daybreak frame) s =
        .next (s.modDom 416 (fun d => { d with st := 3, dest := 0, src := 1, cause := cause })))
      ∧ ((s.dom 416).st = 2 → exec (.daybreak frame) s =
        .next (s.modDom 416 (fun d => { d with st := 3, dest := 0, src := d.st, cause, viaWfe := false, wakeReq := false }))))
    ∧ (∀ (t : State) i, (t.dom i).wakeReq = false → (t.dom i).queue = [] → t.nextDom i = t)

/-- R197, R425 to R430: RESET_N low and the loss of power leave what each of them keeps; supplies in range raise
PWRGOOD; a die of 115 degrees or more trips THERMTRIP_N and, like the loss of PWRGOOD with RESET_N high, is the chip-
fatal stop. -/
def Obligations.ElectricalResults : Prop :=
  ∀ (s : State),
    let kept := fun (t : State) => t.fuses = s.fuses ∧ t.flash = s.flash ∧ t.cores = [] ∧ t.dram = [] ∧ t.keys = Keys.reset
      ∧ t.boot = s.boot.kept ∧ t.slate = { Slate.reset with pers := s.slate.pers } ∧ t.pins.resetN = false
    (s.pins.aon = true →
      (∃ t, exec .resetNAssert s = .next t ∧ kept t ∧ t.noon.wall = s.noon.wall ∧ t.noon.run = false ∧ t.pins.aon = true)
      ∧ (∃ t, exec .powerRemoved s = .next t ∧ kept t ∧ t.noon = Noon.reset ∧ t.pins.aon = false ∧ t.pins.trip = false)
      ∧ (∀ b inRange, b < 7 → let t : State := { s with pins := { s.pins with rails := setBits s.pins.rails b 1 (bit inRange) } }
        (t.pins.rails ≠ 127 ∨ s.pins.pwrgood = true → exec (.railRangeChange b inRange) s = .next t)
        ∧ (t.pins.rails = 127 → s.pins.pwrgood = false →
          let u : State := { t with pins := { t.pins with pwrgood := true } }
          (s.boot.waitRel = true → s.pins.refclk = true → exec (.railRangeChange b inRange) s = .next u.begin)
          ∧ (s.boot.waitRel = false ∨ s.pins.refclk = false → exec (.railRangeChange b inRange) s = .next u)))
      ∧ (∀ die, die < 115000 → exec (.thermalTrip die) s = .next s)
      ∧ (∀ die, 115000 ≤ die → exec (.thermalTrip die) s =
          .next (({ s with pins := { s.pins with trip := true } }).chipFatal (srcId 12 0 0 0 0) 0x0C0A []))
      ∧ (s.pins.pwrgood = true → let t : State := { s with pins := { s.pins with pwrgood := false } }
        (s.pins.resetN = true → exec .pwrgoodLoss s = .next (t.chipFatal (srcId 12 0 0 0 0) 0x0C0B []))
        ∧ (s.pins.resetN = false → exec .pwrgoodLoss s = .next t)))
    ∧ (s.pins.aon = false → ∃ t, exec .powerOn s = .next t ∧ kept t ∧ t.noon = Noon.reset ∧ t.noon.wall = 0 ∧ t.pins.aon = true)
    ∧ (∀ src typ synd, s.stopped = false → let t := s.chipFatal src typ synd
      t.boot.fatal = true ∧ ∃ e, t.boot.fatalRec = some e ∧ e.src = src ∧ e.typ = typ ∧ e.cls = 4)

/-- R128, R174, R251, R353, R370 to R374, R377, R427, R428: the phases of a start, each with its condition and its
effect; an overrun is recorded; without a usable slot Dawn enters recovery. -/
def Obligations.BootResults : Prop :=
  ∀ (s : State),
    (s.pins.aon = true → s.pins.resetN = false → s.boot.waitRel = false →
      (s.pins.pwrgood = true → s.pins.refclk = true → exec .startDevice s = .next s.begin)
      ∧ (s.pins.pwrgood = false ∨ s.pins.refclk = false → exec .startDevice s = .next (s.modBoot (fun b => { b with waitRel := true }))))
    ∧ (s.begin.boot.counter = s.boot.counter + 1 ∧ s.begin.pins.resetN = true ∧ s.begin.slate.node = s.pins.straps % 16)
    ∧ (s.pins.aon = true → s.pins.resetN = true → s.pins.refclk = true → s.stopped = false → s.scan = false →
      s.noon.run = false → s.boot.phase = 0 → s.pins.rails = 127 → ∃ t,
        exec .pllLock s = .next (if t.settingN 0x9000 1 0 = 1 then t.lbistAtStart else t)
        ∧ t.noon.run = true ∧ t.noon.tick = 0 ∧ t.boot.phase = 1 ∧ ∀ r, r < 8 → (t.dom (408 + r)).st = 0)
    ∧ (s.pins.resetN = true → s.stopped = false → s.scan = false → s.boot.phase ≠ 5 → s.boot.phase ≠ 7 →
      exec .phaseOverrun s = .next (s.record (recAt (srcId 12 0 0 0 0) 3 3 0x0C03 none none [s.boot.phase] 0)))
    ∧ (s.up = true → s.boot.phase = 1 → s.lbist.any (fun e => e.2.status == 1) = false →
      let d := s.draw
      let u : State := { d.2 with
        keys := { d.2.keys with null := Config.randomKey d.1, slots := [] }
        boot := { d.2.boot with phase := 2, keyDerived := true, lbistRes := d.2.lbistByte } }
      (∀ t, u.trySlots u.slotOrder = (none, t) → exec .slotSelection s = .next
        ((t.modBoot (fun b => { b with phase := 7 })).record (recAt (srcId 12 0 0 0 0) 3 0 0x0C03 none none [7] 0)))
      ∧ (∀ t slot imgs, u.trySlots u.slotOrder = (some (slot, imgs), t) →
        let v := t.modBoot (fun b => { b with slot })
        ∃ w, exec .slotSelection s = .next (w.bringUp imgs)
          ∧ (v.directory (1 - slot) = none → ∀ im off hdr, imgFind imgs 5 = some im → v.slotHdr slot 5 = some (off, hdr) →
            w = v.placeMonitor im (v.slotBody slot off im.len))
          ∧ (v.directory (1 - slot) = none → imgFind imgs 5 = none → w = v)))
    ∧ (∀ (t : State) imgs, let u := t.bringUp imgs
      u.boot.phase = 3 ∧ (u.dom 0).st = 0 ∧ u.core 0 = { Core.reset with patch := (u.core 0).patch } ∧ u.boot.store = imgs.filter (fun i => i.comp != 5))
    ∧ (s.up = true → s.boot.phase = 3 →
      (s.boot.filled = true → s.boot.handed = false → let w := s.walkClean 0
        ∃ t, exec .handover s = .next t ∧ t.boot.handed = true ∧ t.slcRam = []
          ∧ t.dram = w.slcRam.filter (fun e => e.1 < 0x2000000) ++ w.dram.filter (fun e => 0x2000000 ≤ e.1)
          ∧ (w.keyOf 0 0 ≠ w.fillKey → ∀ l, l < 524288 → (l, w.keyOf 0 0) ∈ t.lineKey))
      ∧ (s.boot.filled = false ∨ s.boot.handed = true → exec .handover s = .next s)
      ∧ (s.boot.handed = false → exec .releaseBoot s = .next s)
      ∧ (s.boot.handed = true →
        let ports := (List.range 8).foldl (fun s r => (List.range 4).foldl (fun s f =>
          if s.portPresent r f then s.modPort r f (fun p => { p with perst := false }) else s) s) (s.modBoot (fun b => { b with phase := 4 }))
        exec .releaseBoot s = .next (if ports.settingN 0x2100 0 0 = 2 then ports else ports.modCore 0 (fun k => k.brk 5 k.pc))))
    ∧ (s.up = true → s.boot.phase = 5 →
      (exec .lockBoot s = .next (s.modBoot (fun b => { b with locked := true, lockW := true })))
      ∧ (s.boot.phase5 + 600000000 ≤ s.noon.tick → exec .bootLockTimeout s = .next (s.modBoot (fun b => { b with locked := true })))
      ∧ (s.noon.tick < s.boot.phase5 + 600000000 → exec .bootLockTimeout s = .next s))
    ∧ (s.up = true → s.boot.phase = 4 →
      (s.boot.lacks = true → exec .releaseComplete s = .next s)
      ∧ (s.boot.lacks = false →
        ∃ t, exec .releaseComplete s = .next t ∧ t.boot.phase = 5 ∧ t.boot.vesperN = s.boot.vesperN + 1 ∧ t.boot.scanFlag = false
          ∧ (∀ c, c ≠ 0 → s.corePresent c = true → (t.dom c).st = 0 ∧ t.core c = { Core.reset with patch := (t.core c).patch })
          ∧ (∀ im, imgFind s.boot.store 3 = some im → ∀ r, r < 8 → (t.dom (384 + r)).st = 0)))

/-- R366 to R369, R375 to R382: image sessions: a header is accepted only where its part, key, security version and
signatures allow it, a body only where its length and hash are the header's; finalizing, live restarts, monitor
placement and the signature over a nonce. -/
def Obligations.ImageResults : Prop :=
  ∀ (s : State),
    let code := fun (n : Nat) => s.modBoot (fun b => { b with sessRes := n })
    (s.svcOpen = true →
      (∀ dest, dest ≤ 1 →
        (dest = 1 → s.boot.phase ≠ 7 → s.boot.lacks = false → exec (.imageSessionOpen dest) s = .next (code 14))
        ∧ (dest = 0 ∨ s.boot.phase = 7 ∨ s.boot.lacks = true → exec (.imageSessionOpen dest) s = .next (s.modBoot (fun b => { b with
          sess := some dest, sessImgs := [], sessHdr := none, sessRes := 0, flashOff := 4096, dirList := [] }))))
      ∧ (s.boot.sess = none → (∀ bs, exec (.imageHeader bs) s = .next (code 14) ∧ exec (.imageBody bs) s = .next (code 14))
        ∧ exec .finalizeImg s = .next (code 14))
      ∧ (∀ dest, s.boot.sess = some dest →
        (∀ hdr, hdr.length ≠ 4096 → exec (.imageHeader hdr) s = .next ((code 12).rejectImage 12 (natAt hdr 6 2) 2))
        ∧ (∀ hdr, hdr.length = 4096 → (dest = 0 ∨ s.boot.phase = 7) →
          (s.checkHdr hdr none ≠ 0 → exec (.imageHeader hdr) s =
            .next ((code (s.checkHdr hdr none)).rejectImage (s.checkHdr hdr none) (natAt hdr 6 2) 2))
          ∧ (s.checkHdr hdr none = 0 → exec (.imageHeader hdr) s =
            .next ((if dest = 0 then s.flashWrite (slotBase s.inactiveSlot) [0, 0, 0, 0] else s).modBoot
              (fun b => { b with sessHdr := some (imgOf hdr 2), sessRes := 0 }))))
        ∧ (∀ im body, s.boot.sessHdr = some im →
          let fail := fun (n : Nat) => exec (.imageBody body) s = .next
            (((s.modBoot (fun b => { b with sessHdr := none })).modBoot (fun b => { b with sessRes := n })).rejectImage n im.comp 2)
          (body.length ≠ im.len → fail 12)
          ∧ (body.length = im.len → sha384 body ≠ im.hash → fail 11)
          ∧ (body.length = im.len → sha384 body = im.hash → dest = 0 →
            let off := s.boot.flashOff
            (0x2000000 < off + 4096 + im.len → fail 12)
            ∧ (off + 4096 + im.len ≤ 0x2000000 → exec (.imageBody body) s = .next
              ((s.flashWrite (slotBase s.inactiveSlot + off) (im.hdr ++ body)).modBoot (fun b => { b with
                sessHdr := none, sessRes := 0, sessImgs := imgPut b.sessImgs im
                dirList := b.dirList.filter (fun e => e.1 != im.comp) ++ [(im.comp, off)]
                flashOff := off + 4096 + (im.len + 4095) / 4096 * 4096 }))))
          ∧ (body.length = im.len → sha384 body = im.hash → dest ≠ 0 → s.boot.phase = 7 →
            let t := s.modBoot (fun b => { b with sessHdr := none, sessRes := 0, sessImgs := imgPut b.sessImgs im })
            exec (.imageBody body) s = .next (if im.comp = 5 then t.placeMonitor im body else t)))
        ∧ (dest = 0 → (s.boot.liveRun = true → exec .finalizeImg s = .next (code 14))
          ∧ (s.boot.liveRun = false → s.boot.liveImgs = [] → complete s.boot.sessImgs = false → exec .finalizeImg s = .next (code 15))
          ∧ (s.boot.liveRun = false → s.boot.liveImgs = [] → complete s.boot.sessImgs = true →
            let slot := s.inactiveSlot
            ∀ seq, seq = (match s.directory (1 - slot) with | some (q, _) => q + 1 | none => 1) →
            let d := dirBytes seq s.boot.dirList
            exec .finalizeImg s = .next ((s.flashWrite (slotBase slot) (d ++ List.replicate (4096 - d.length) 0)).modBoot
              (fun b => { b with sess := none, sessImgs := [], sessHdr := none, sessRes := 0 }))))
        ∧ (dest = 1 → s.boot.phase = 7 → (complete s.boot.sessImgs = false → exec .finalizeImg s = .next (code 15))
          ∧ (complete s.boot.sessImgs = true → exec .finalizeImg s = .next
            ((s.modBoot (fun b => { b with sess := none, sessImgs := [], sessHdr := none, sessRes := 0, recov := true })).bringUp s.boot.sessImgs)))))
    ∧ (∀ hdr want, s.checkHdr hdr want = 0 → SMap.get 0 s.boot.floors (natAt hdr 6 2) ≤ natAt hdr 0x0C 4
      ∧ s.boot.revoked.testBit (byteAt hdr 9) = false ∧ (byteAt hdr 8).testBit (partBit s.part) = true
      ∧ Config.signatureValid hdr 0 = true ∧ Config.signatureValid hdr 1 = true
      ∧ natAt hdr 0x18 8 ≠ 0 ∧ natAt hdr 0x18 8 ≤ maxBody (natAt hdr 6 2))
    ∧ (s.up = true → s.boot.liveRun = true → s.boot.lacks = false →
      let b := s.boot
      let r := b.liveReg
      (b.liveMask.testBit 2 = true → (s.fn r).insts.any (fun e => e.2.pipe) = true → exec .liveRestartComplete s = .next s)
      ∧ (b.liveMask.testBit 2 = false ∨ (s.fn r).insts.any (fun e => e.2.pipe) = false →
        let t := s.modRegion r (fun x => { x with
          fw := b.liveImgs.foldl (fun m i => SMap.set m i.comp i) x.fw
          fn := { x.fn with holdUcode := false, ucode := match imgFind b.liveImgs 3 with | some i => i.build | none => x.fn.ucode } })
        let u := if b.liveMask % 4 = 0 then t else t.morningBack r
        let v := (u.vesper 2 r (u.regionEntries r)).modBoot (fun b' => { b' with
          liveRun := false, liveRes := 0, liveImgs := [], store := b'.liveImgs.foldl (fun l i => l ++ [i]) b'.store })
        exec .liveRestartComplete s = .next ((v.trimStore.post 3204).record
          (recAt (srcId 12 0 0 0 0) 3 0 0x0C04 none none [2, r, b.liveMask] 0))))
    ∧ (s.up = true → s.boot.monPend = true →
      (∀ n t, s.placeNow = (n, t) → t.waits = false →
        exec .monitorPlacement s = .next (t.modBoot (fun b => { b with monPend := false, placeRes := n })))
      ∧ (s.boot.placeDst % 4096 ≠ 0 ∨ s.boot.liveRun = true ∨ s.capacity ≤ s.boot.placeDst → s.placeNow = (14, s)))
    ∧ (s.pins.resetN = true → s.scan = false → s.boot.keyDerived = true → ∀ port nonce, port = 1 ∨ port = 2 → nonce.length = 32 →
      let head := match s.boot.vesperHead with | some h => sha384 h | none => List.replicate 48 0
      ∀ m, m = head ++ nonce ++ natLe 8 s.boot.counter →
      exec (.nonceSign port nonce) s = .next (s.modBoot (fun b => { b with nonce := nonce, nonceOut := m ++ sigBytes 1 3309 m })))

/-- R392 to R401: a Slate message on a port that can be reached is handled in full and its response is kept for, or
sent over, that port's transport; on the service port a message while a response waits is refused and counted;
timeouts drop a port's snapshot or write buffer. R364, R392, R398 to R401, R409, R414: the transports: the status byte
of the service port clears NAK, a message is handled or refused, and a response read whole frees the port; a field
request is answered with one frame; the CAN error counters; the host mailbox; the debug scan. -/
def Obligations.SlateTransportResults : Prop :=
   (∀ (s : State) (seq idx sub : Nat) (data : List Byte), data.length ≤ 4096 →
      let sends := fun (port : Nat) (t : State) (op : Nat) =>
        (op = 1 → exec (.slateRead port seq idx sub data) s = .next t)
        ∧ (op = 2 → exec (.slateWrite port seq idx sub data) s = .next t)
        ∧ (op = 3 → exec (.slateStage port seq idx sub data) s = .next t)
        ∧ (op = 4 → idx = 0 → sub = 0 → exec (.slateCommit port seq data) s = .next t)
        ∧ (op = 5 → idx = 0 → sub = 0 → exec (.slateDiscard port seq data) s = .next t)
      (∀ op,
        let msg := slateMsg op seq idx sub data
        (∀ port, s.portUp port = false → sends port s op)
        ∧ (s.portUp 0 = true →
          (s.slate.svcRdy = false →
            sends 0 ((s.slateHandle 0 0 msg).2.modSlate (fun x => { x with svcRdy := true, svcRsp := (s.slateHandle 0 0 msg).1 })) op)
          ∧ (s.slate.svcRdy = true → sends 0 ((s.slateBad 0 msg).modSlate (fun x => { x with svcNak := true })) op))
        ∧ (s.portUp 3 = true →
          (s.slate.dbgRdy = false →
            sends 3 ((s.slateHandle 3 0 msg).2.modSlate (fun x => { x with dbgRdy := true, dbgRsp := (s.slateHandle 3 0 msg).1 })) op)
          ∧ (s.slate.dbgRdy = true → sends 3 ((s.slateBad 3 msg).modSlate (fun x => { x with dbgNak := true })) op))
        ∧ (s.portUp 2 = true →
          let t := (s.slateHandle 2 0 msg).2.modSlate (fun x => { x with hrsp := (s.slateHandle 2 0 msg).1, hdone := true })
          (t.slate.nen = true → sends 2 (t.post 3205) op) ∧ (t.slate.nen = false → sends 2 t op))
        ∧ (s.portUp 1 = true → data.length ≤ 56 → s.slate.recv ≤ 127 →
          let h := (s.modSlate (fun x => { x with recv := s.slate.recv - 1 })).slateHandle 1 0 msg
          let f : CanFrame :=
            { ident := 0x6B0 + h.2.slate.node, extended := false, remote := false, fd := true, brs := true,
              data := h.1 ++ List.replicate (dlcLen h.1.length - h.1.length) 0 }
          sends 1 ((h.2.emit (.can f)).modSlate (fun x => { x with tec := x.tec - 1 })) op))
      ∧ (∀ port, port < 4 →
        exec (.snapshotTimeout port) s = .next (s.modStage port (fun st => { st with snapKey := none, snap := [] }))
        ∧ exec (.writeBufferTimeout port) s = .next (s.modStage port (fun st => { st with wbuf := none, wdata := [] }))))
  ∧(∀ (s : State),
      (s.portUp 0 = true →
        (exec .spiReadStatus s = .next ((s.emit (.spi [BitVec.ofNat 8 (2 * bit s.slate.svcRdy + 4 * bit s.slate.svcNak)])).modSlate
          (fun x => { x with svcNak := false })))
        ∧ (∀ msg t, (t = exec (.spiWriteMessage msg) s ∨ t = exec (.spiWriteMessageQuad msg) s) →
          (s.slate.svcRdy = true ∨ slateMalformed 0 msg = true → t = .next ((s.slateBad 0 msg).modSlate (fun x => { x with svcNak := true })))
          ∧ (s.slate.svcRdy = false → slateMalformed 0 msg = false → t =
            .next ((s.slateHandle 0 0 msg).2.modSlate (fun x => { x with svcRdy := true, svcRsp := (s.slateHandle 0 0 msg).1 }))))
        ∧ (∀ n t, (t = exec (.spiReadResponse n) s ∨ t = exec (.spiReadResponseQuad n) s) →
          let rsp := s.slate.svcRsp
          let u := s.emit (.spi (rsp.take n ++ List.replicate (n - rsp.length) 0))
          (s.slate.svcRdy = true → rsp.length ≤ n → t = .next (u.modSlate (fun x => { x with svcRdy := false, svcRsp := [] })))
          ∧ (s.slate.svcRdy = false ∨ n < rsp.length → t = .next u))
        ∧ (∀ opcode bytes, exec (.spiTransactionNak opcode bytes) s =
          .next ((s.slateBad 0 (BitVec.ofNat 8 opcode :: bytes)).modSlate (fun x => { x with svcNak := true }))))
      ∧ (s.portUp 1 = true →
        (∀ f, f.ident ≠ 0x6A0 + s.slate.node ∨ f.extended = true ∨ f.remote = true → exec (.fieldFrame f) s = .next s)
        ∧ (∀ f, f.ident = 0x6A0 + s.slate.node → f.extended = false → f.remote = false → s.slate.recv ≤ 127 →
          let v := s.modSlate (fun x => { x with recv := s.slate.recv - 1 })
          let answers := fun (rsp : List Byte) (t : State) =>
            let g : CanFrame :=
              { ident := 0x6B0 + t.slate.node, extended := false, remote := false, fd := true, brs := f.brs,
                data := rsp ++ List.replicate (dlcLen rsp.length - rsp.length) 0 }
            exec (.fieldFrame f) s = .next ((t.emit (.can g)).modSlate (fun x => { x with tec := x.tec - 1 }))
          (fieldFramed f = true → let h := v.slateHandle 1 0 (f.data.take (8 + natAt f.data 6 2))
            answers h.1 h.2)
          ∧ (fieldFramed f = false → answers
            [BitVec.ofNat 8 (byteAt f.data 0 ||| 0x80), BitVec.ofNat 8 (byteAt f.data 1), BitVec.ofNat 8 (byteAt f.data 2),
              BitVec.ofNat 8 (byteAt f.data 3), BitVec.ofNat 8 (byteAt f.data 4), 0x1C, 0, 0]
            ((v.modSlate (fun x => { x with ptr := 2 })).slateBad 1 f.data)))
        ∧ (∀ inc, inc = 1 ∨ inc = 8 →
          exec (.busError true inc) s = .next (s.modSlate (fun x => { x with
            tec := s.slate.tec + inc, busOff := decide (256 ≤ s.slate.tec + inc) }))
          ∧ exec (.busError false inc) s = .next (s.modSlate (fun x => { x with recv := s.slate.recv + inc }))))
      ∧ (s.slate.busOff = true → s.portUp 1 = false)
      ∧ (s.pins.aon = true → s.pins.resetN = true → s.scan = false → (s.dom 416).st = 0 → s.slate.busOff = true →
        exec .busOffRecovery s = .next ((s.modSlate (fun x => { x with busOff := false, tec := 0, recv := 0 })).record
          (recAt (srcId 12 0 0 0 4) 3 0 0x0C08 none none [s.slate.tec % 256, s.slate.tec / 256 % 256, s.slate.node] 0)))
      ∧ (s.up = true → exec .canFdClockSwitch s = .next (s.modSlate (fun x => { x with canPll := true })))
      ∧ (s.portUp 2 = true → ∀ td, let h := s.slateHandle 2 td s.hostBuffer
        let t := h.2.modSlate (fun x => { x with hrsp := h.1, hdone := true })
        (t.slate.nen = true → exec (.hostMailboxGo td) s = .next (t.post 3205))
        ∧ (t.slate.nen = false → exec (.hostMailboxGo td) s = .next t))
      ∧ (s.portUp 3 = true → ∀ bytes n,
        let rdy := s.slate.dbgRdy
        let whole := BitVec.ofNat 8 (2 * bit rdy + 4 * bit s.slate.dbgNak) :: (if rdy then s.slate.dbgRsp else [])
        let u := (s.emit (.tdo (whole.take n ++ List.replicate (n - whole.length) 0))).modSlate (fun x => { x with ir := 2 })
        let msg := bytes.take n
        0 < n →
        (rdy = false → msg = [] ∨ byteAt msg 0 = 0 → exec (.slateTap bytes (8 * n)) s = .next (u.modSlate (fun x => { x with dbgNak := false })))
        ∧ (rdy = true → whole.length ≤ n → msg = [] ∨ byteAt msg 0 = 0 →
          exec (.slateTap bytes (8 * n)) s = .next (u.modSlate (fun x => { x with dbgNak := false, dbgRdy := false, dbgRsp := [] })))
        ∧ (rdy = false → msg ≠ [] → byteAt msg 0 ≠ 0 →
          let h := (u.modSlate (fun x => { x with dbgNak := false })).slateHandle 3 0 msg
          exec (.slateTap bytes (8 * n)) s = .next (h.2.modSlate (fun x => { x with dbgRdy := true, dbgRsp := h.1 })))))

/-- R389 to R397, R402 to R404: the response to a well-formed message repeats its header with bit 7 of OP set, and
carries the result and the data of its operation: an object that is not there, a right that the port lacks, a read or
write of a value of fixed size, a stage of at most 256 entries, a commit, and a discard. -/
def Obligations.SlateAnswerResults : Prop :=
  ∀ (s : State) (port op seq idx sub : Nat) (data : List Byte),
    port < 4 → op < 256 → seq < 256 → idx < 65536 → sub < 256 → data.length ≤ segMax port →
    let msg := slateMsg op seq idx sub data
    let answers := fun (r : Nat) (d : List Byte) (t : State) => s.slateAnswer port msg = ((r, d), t)
    (1 ≤ op → op ≤ 5 → (4 ≤ op → idx = 0 ∧ sub = 0) →
      let u := s.modSlate (fun x => { x with ptr := (port + 1) % 4 })
      ∀ r d t, u.slateAnswer port msg = ((r, d), t) → r ≠ 0x1C → s.slateHandle port 0 msg =
        ([BitVec.ofNat 8 (op ||| 0x80), BitVec.ofNat 8 seq, BitVec.ofNat 8 idx, BitVec.ofNat 8 (idx / 256), BitVec.ofNat 8 sub,
          BitVec.ofNat 8 r] ++ natLe 2 d.length ++ d, t))
    ∧ (1 ≤ op → op ≤ 3 →
      (s.obj idx sub = none → answers 0x10 [] s)
      ∧ (∀ o, s.obj idx sub = some o →
        (s.hasRight port op idx o = false → answers 0x11 [] s)
        ∧ (s.hasRight port op idx o = true → ∀ n, o.ty.size = some n →
          (op = 1 → data = [] → answers 0 ((s.value idx sub o).bytes o.ty) s)
          ∧ (op = 1 → data ≠ [] → answers 0x1C [] s)
          ∧ (op ≠ 1 → data.length ≠ n → answers 0x12 [] s)
          ∧ (op ≠ 1 → data.length = n → o.ty.admits (o.ty.parse data) = false → answers 0x13 [] s)
          ∧ (op = 2 → data.length = n → o.ty.admits (o.ty.parse data) = true →
            s.slateAnswer port msg = s.writeNow idx sub (o.ty.parse data))
          ∧ (op = 3 → data.length = n → o.ty.admits (o.ty.parse data) = true →
            let es := SMap.set (s.stage port).ents (256 * idx + sub) (o.ty.parse data)
            (es.length ≤ 256 → s.stageBytes es ≤ 16384 → answers 0 [] (s.modStage port (fun st => { st with ents := es })))
            ∧ (256 < es.length ∨ 16384 < s.stageBytes es → answers 0x18 [] s)))))
    ∧ (op = 4 →
      (s.mayChange port = false → answers 0x11 [] (s.commitResult port 0 0 0x11))
      ∧ (s.mayChange port = true → data.length = 8 → ∀ r tick key reason t,
        s.commitNow port (leNat data) = (r, tick, key, reason, t) →
        answers r (if r = 0 then natLe 8 tick else []) (t.commitResult port key reason r)))
    ∧ (op = 5 → (s.mayChange port = false → answers 0x11 [] s)
      ∧ (s.mayChange port = true → data = [] → answers 0 [] (s.modStage port (fun st => { st with ents := [], stale := false })))
      ∧ (s.mayChange port = true → data ≠ [] → answers 0x1C [] s))

/-- R129, R192, R281, R411 to R420: LBIST runs on spare, tested or failed positions after zeroization and ends with a
result; a replacement first moves the Noon state and then exchanges the positions; a test makes a position a spare or
failed; the test access port; a write to a register space. -/
def Obligations.TestResults : Prop :=
  ∀ (s : State),
    (s.testOpen = true → ∀ r u, r < 8 →
      (u < 18 → 1 ≤ s.role r u → s.role r u ≤ 3 → (SMap.get Lb.reset s.lbist (19 * r + u)).status ≠ 1 →
        let z := s.zeroize 1
        exec (.lbistDemandStart r u) s = .next { z with lbist := SMap.set z.lbist (19 * r + u) { Lb.reset with status := 1 } })
      ∧ (u < 18 → s.role r u = 0 ∨ s.role r u = 4 → exec (.lbistDemandStart r u) s = .next s)
      ∧ (u < 19 → let d := s.draw
        let cut := fun (cause : Nat) => d.2.lbEnd r u (fld (Config.freeWord d.1) 0 32) ((Config.freeWord d.1).extractLsb' 64 64) cause
        exec (.lbistAbort r u) s = .next (cut 3) ∧ exec (.lbistPatternTimeout r u) s = .next (cut 5))
      ∧ (u < 19 → (SMap.get Lb.reset s.lbist (19 * r + u)).status = 1 → ∀ pat sig,
        let target := if u < 18 then 65536 else 16384
        let good := sig = SMap.get 0 s.fuses.lbistExp (19 * r + u)
        let ended := fun (cause status : Nat) (done : Bool) => { s with
          lbist := SMap.set s.lbist (19 * r + u) { status, done, cause, pat := pat % 2 ^ 32, sig } }
        let note := fun (cause status cls typ : Nat) =>
          recAt (srcId 10 r 0 0 0) 2 cls typ none none ([u, status, cause, 0, 0, 0, 0, 0] ++ (natLe 8 sig.toNat).map (fun (w : Byte) => w.toNat)) 0
        (pat = target → good → exec (.lbistRunEnd r u pat sig 0) s = .next (ended 0 2 true))
        ∧ (pat = target → ¬ good → exec (.lbistRunEnd r u pat sig 0) s = .next ((ended 0 3 true).record (note 0 3 3 0x0A01)))
        ∧ (∀ cause, 1 ≤ cause → cause ≤ 5 →
          exec (.lbistRunEnd r u pat sig cause) s = .next ((ended cause 4 false).record (note cause 4 0 0x0A02)))))
    ∧ (∀ r b p old, s.up = true → r < 8 → (s.region r).sparing = some (b, p, old) → let g := 16 * r + b
      ((s.block g).moving = false → exec (.blockReplacementComplete r) s = .next (s.modBlock g (fun x => { x with moving := true })))
      ∧ ((s.block g).moving = true → ∃ t : State, exec (.blockReplacementComplete r) s = .next
          ((t.releaseHeld g).record (recAt (srcId 10 r 0 0 0) 2 0 0x0A03 none none ((Config.recordSynd 10).map (fun (w : Byte) => w.toNat)) 0))
        ∧ t.core (2 * g) = Core.reset ∧ t.core (2 * g + 1) = Core.reset ∧ (t.dom (256 + g)).st = 0
        ∧ (t.region r).sparing = none ∧ (t.block g).moving = false ∧ (t.block g).fenced = false
        ∧ (p ≠ old → p < 18 → t.mapByte r p = b) ∧ (p ≠ old → old < 18 → t.mapByte r old = 64 + 31)))
    ∧ (s.testOpen = true → ∀ r p, r < 8 → p < 18 → s.role r p = 2 → (s.region r).sparing = none → ∀ repairs,
      (exec (.blockTestEnd r p true repairs) s = .next (let t := s.setMap r p (32 + 31)
        { t with mram := { t.mram with supp := (t.mram.supp ++ repairs).take 4096 } }))
      ∧ exec (.blockTestEnd r p false repairs) s = .next ((s.setMap r p (96 + 31)).record
        (recAt (srcId 10 r 0 0 0) 2 3 0x0A04 none none ((Config.recordSynd 10).map (fun (w : Byte) => w.toNat)) 0)))
    ∧ (s.pins.aon = true →
      (exec .idcodeTap s = .next (({ s with slate := { s.slate with ir := 1 } }).emit
        (.tdo (natLe 4 (2 ^ 28 * (s.fuses.stepL % 16) + 4096 * Config.deviceId s.part + 2 * 0x3D5 + 1)))))
      ∧ (∀ ir : BitVec 8, 4 < ir.toNat ∨ ir = 0 → exec (.bypassTap ir) s = .next (s.modSlate (fun x => { x with ir := ir.toNat })))
      ∧ (s.scan = false → exec .clearTap s = .next ((s.zeroize 3).modSlate (fun x => { x with ir := 3 })))
      ∧ (s.scan = false → exec .scanTap s = .next { (s.zeroize 2).modSlate (fun x => { x with ir := 4 }) with scan := true }))
    ∧ (∀ (t : State) kind, ∃ z : State, t.zeroize kind = z.record (recAt (srcId 12 0 0 0 0) 3 0 0x0C09 none none [z.boot.scanKinds] 0)
      ∧ z.keys.slots = [] ∧ z.keys.data = [] ∧ z.boot.scanFlag = true ∧ z.boot.zeroized = true
      ∧ z.boot.scanKinds = t.boot.scanKinds ||| 2 ^ kind
      ∧ (t.boot.phase ≤ 1 → z.keys.null = 0 ∧ z.boot.store = []) ∧ (1 < t.boot.phase → z.keys.null = Config.randomKey t.draw.1))
    ∧ (s.up = true → ∀ td pa bytes, bytes ≠ [] → bytes.length ≤ 8 →
      let writes := fun (t : State) => t.waits = false → exec (.registerWrite td pa bytes) s = .next t
      (inRegion pa = true ∨ inChip pa = true → writes (s.spaceWrite td pa bytes))
      ∧ (inRegion pa = false → inChip pa = false → inEcam pa = true → (ecamBdf pa).1 = 0 → writes (s.bus0Write pa bytes))
      ∧ (inRegion pa = false → inChip pa = false → inEcam pa = false → inEndpoint pa = true → writes (s.endpointWrite td pa bytes []).2))

/-- R391: the debug port always reads; it writes, stages, commits and discards only once zeroization has completed
within the start in progress, and is answered DENIED before. -/
def Obligations.DebugPortRights : Prop :=
  ∀ (s : State),
    (∀ idx o, s.hasRight 3 1 idx o = true)
    ∧ (s.boot.zeroized = false → ∀ op seq idx sub data, op < 256 → seq < 256 → idx < 65536 → sub < 256 →
      let msg := slateMsg op seq idx sub data
      (∀ o, s.obj idx sub = some o → op = 2 ∨ op = 3 → s.slateAnswer 3 msg = ((0x11, []), s))
      ∧ (op = 4 → s.slateAnswer 3 msg = ((0x11, []), s.commitResult 3 0 0 0x11))
      ∧ (op = 5 → s.slateAnswer 3 msg = ((0x11, []), s)))
    ∧ (s.boot.zeroized = true → s.mayChange 3 = true
      ∧ ∀ idx o, s.hasRight 3 2 idx o = o.w.contains 3 ∧ s.hasRight 3 3 idx o = o.st.contains 3)
    ∧ (∀ kind, (s.zeroize kind).boot.zeroized = true)
    ∧ s.resetKeep.boot.zeroized = false

/-- R392: a mailbox command carries the domain of the write of GO that issues it; one of a domain other than TD0 is
answered DOMAIN (0x1D) and changes nothing but the response. -/
def Obligations.MailboxDomain : Prop :=
  ∀ (s : State) (td : Nat), s.portUp 2 = true →
    (td ≠ 0 → let m := s.hostBuffer
      let t := s.modSlate (fun x => { x with
        ptr := 3, hdone := true
        hrsp := [BitVec.ofNat 8 (byteAt m 0 ||| 0x80), BitVec.ofNat 8 (byteAt m 1), BitVec.ofNat 8 (byteAt m 2),
          BitVec.ofNat 8 (byteAt m 3), BitVec.ofNat 8 (byteAt m 4), 0x1D, 0, 0] })
      exec (.hostMailboxGo td) s = .next (if s.slate.nen then t.post 3205 else t))
    ∧ (∀ (v : W64) (m : Nat), m.testBit 0 = true → v.getLsbD 0 = true → v.getLsbD 1 = s.slate.nen →
      exec (.hostMailboxGo td) s = .next (s.mailboxWrite td 0 v m))

/-- R316: a write of DB_TAIL or DB_CTL by a requester of a domain that is neither TD0 nor the instance's is ignored
and recorded as an advisory record (class 0, TYPE 0x0706) that carries the tail, or 0xFFFF for DB_CTL. -/
def Obligations.DoorbellDomain : Prop :=
  ∀ (s : State) (r i td : Nat), s.instOpen r i = true → td ≠ 0 → td ≠ (s.inst r i).td →
    let ignored := fun (tail : Nat) => s.cobRecord r i 0 0x0706 (some td) [tail % 256, tail / 256 % 256, td] 0
    (∀ tail, exec (.dbTailWrite r i td tail) s = .next (ignored (tail % 65536)))
    ∧ (exec (.resumeDesc r i td) s = .next (ignored 0xFFFF)) ∧ exec (.skipDesc r i td) s = .next (ignored 0xFFFF)
end

