-- ==== Sys2Proof/Laws/Bytes.lean ====
section
/-! SUPPORT. The bytes of a number and the number of its bytes. -/

namespace Sys2Proof.Machine

@[simp] theorem natLe_length (n v : Nat) : (natLe n v).length = n := by
  induction n generalizing v with
  | zero => rfl
  | succ n ih => simp [natLe, ih]

theorem natLe_getD (n v i : Nat) (h : i < n) : (natLe n v).getD i 0 = BitVec.ofNat 8 (v / 256 ^ i) := by
  induction n generalizing v i with
  | zero => omega
  | succ n ih =>
    cases i with
    | zero => simp [natLe]
    | succ i =>
      rw [natLe, List.getD_cons_succ, ih _ _ (by omega), Nat.div_div_eq_div_mul, Nat.pow_succ, Nat.mul_comm]

theorem leNat_digit (bs : List Byte) (i : Nat) : leNat bs / 256 ^ i % 256 = (bs.getD i 0).toNat := by
  induction bs generalizing i with
  | nil => simp [leNat]
  | cons b t ih =>
    have hb := b.isLt
    cases i with
    | zero => simp [leNat, Nat.add_mul_mod_self_left]; omega
    | succ i =>
      have h : (b.toNat + 256 * leNat t) / 256 = leNat t := by omega
      rw [List.getD_cons_succ, ← ih i, leNat, Nat.pow_succ, Nat.mul_comm (256 ^ i), ← Nat.div_div_eq_div_mul, h]

theorem leNat_natLe (n v : Nat) : leNat (natLe n v) = v % 256 ^ n := by
  induction n generalizing v with
  | zero => simp [natLe, leNat, Nat.mod_one]
  | succ n ih =>
    rw [natLe, leNat, ih, BitVec.toNat_ofNat, Nat.pow_succ 256 n, Nat.mul_comm (256 ^ n), Nat.mod_mul]

theorem leNat_lt (bs : List Byte) : leNat bs < 256 ^ bs.length := by
  induction bs with
  | nil => simp [leNat]
  | cons b t ih =>
    have hb := b.isLt
    simp only [leNat, List.length_cons, Nat.pow_succ]
    omega

end Sys2Proof.Machine
end

