-- ==== Sys2Proof/Laws/Memory.lean ====
section
/-! SUPPORT. Laws of the sparse maps and the canonical memories. -/

namespace Sys2Proof.Machine

@[simp] theorem SMap.get_set_self {α : Type} (d : α) (m : List (Nat × α)) (k : Nat) (v : α) :
    SMap.get d (SMap.set m k v) k = v := by
  induction m with
  | nil => simp [SMap.set, SMap.get]
  | cons e t ih =>
    obtain ⟨i, x⟩ := e
    by_cases h : i = k
    · simp [SMap.set, SMap.get, h]
    · by_cases h2 : k < i <;> simp [SMap.set, SMap.get, h, h2, ih]

@[simp] theorem SMap.get_set_ne {α : Type} (d : α) (m : List (Nat × α)) {k j : Nat} (v : α) (h : j ≠ k) :
    SMap.get d (SMap.set m k v) j = SMap.get d m j := by
  induction m with
  | nil => simp [SMap.set, SMap.get, h.symm]
  | cons e t ih =>
    obtain ⟨i, x⟩ := e
    by_cases hi : i = k
    · subst hi; simp [SMap.set, SMap.get, h.symm]
    · by_cases h2 : k < i <;> simp [SMap.set, SMap.get, hi, h2, ih, h.symm]

theorem SMap.set_set {α : Type} (m : List (Nat × α)) (k : Nat) (v w : α) :
    SMap.set (SMap.set m k v) k w = SMap.set m k w := by
  induction m with
  | nil => simp [SMap.set]
  | cons e t ih =>
    obtain ⟨i, a⟩ := e
    simp only [SMap.set]
    split
    · simp [SMap.set]
    · split
      · simp [SMap.set]
      · rename_i h1 h2
        simp [SMap.set, h1, h2, ih]

theorem SMap.get_set {α : Type} (d : α) (m : List (Nat × α)) (k j : Nat) (v : α) :
    SMap.get d (SMap.set m k v) j = if j = k then v else SMap.get d m j := by
  by_cases h : j = k
  · subst h; simp
  · simp [h]

/-! ### Canonical memories -/

theorem Mem.wfFrom_mono {lo lo' : Nat} (h : lo' ≤ lo) {m : Mem} (hm : Mem.wfFrom lo m = true) :
    Mem.wfFrom lo' m = true := by
  cases m with
  | nil => rfl
  | cons e t =>
    obtain ⟨i, x⟩ := e
    simp only [Mem.wfFrom, Bool.and_eq_true, decide_eq_true_eq] at hm ⊢
    exact ⟨⟨by omega, hm.1.2⟩, hm.2⟩

/-- An address below every listed one reads 0. -/
theorem Mem.byte_of_lt {lo a : Nat} {m : Mem} (hm : Mem.wfFrom lo m = true) (h : a < lo) : Mem.byte m a = 0 := by
  induction m generalizing lo with
  | nil => rfl
  | cons e t ih =>
    obtain ⟨i, x⟩ := e
    simp only [Mem.wfFrom, Bool.and_eq_true, decide_eq_true_eq] at hm
    have hne : i ≠ a := by omega
    simp only [Mem.byte, if_neg hne]
    exact ih hm.2 (by omega)

/-- A write keeps the canonical form. -/
theorem Mem.wfFrom_put {lo a : Nat} {m : Mem} (b : Byte) (hm : Mem.wfFrom lo m = true) (h : lo ≤ a) :
    Mem.wfFrom lo (Mem.put m a b) = true := by
  induction m generalizing lo with
  | nil =>
    rw [Mem.put]
    split
    · rfl
    · rename_i hb
      simp only [Mem.wfFrom, Bool.and_eq_true, decide_eq_true_eq]; exact ⟨⟨h, hb⟩, trivial⟩
  | cons e t ih =>
    obtain ⟨i, x⟩ := e
    have hm' := hm
    simp only [Mem.wfFrom, Bool.and_eq_true, decide_eq_true_eq] at hm'
    obtain ⟨⟨h1, h2⟩, h3⟩ := hm'
    by_cases hai : a < i
    · by_cases hb : b = 0
      · simpa [Mem.put, hai, hb] using hm
      · have : Mem.wfFrom (a + 1) ((i, x) :: t) = true := by
          simp only [Mem.wfFrom, Bool.and_eq_true, decide_eq_true_eq]; exact ⟨⟨by omega, h2⟩, h3⟩
        simp only [Mem.put, if_pos hai, if_neg hb]
        show (decide (lo ≤ a) && decide (b ≠ 0) && Mem.wfFrom (a + 1) ((i, x) :: t)) = true
        rw [this, decide_eq_true h, decide_eq_true hb]; rfl
    · by_cases hia : i = a
      · subst hia
        by_cases hb : b = 0
        · simp only [Mem.put, if_neg hai, if_pos hb, ↓reduceIte]
          exact Mem.wfFrom_mono (by omega) h3
        · simp only [Mem.put, if_neg hai, if_neg hb, ↓reduceIte]
          simp only [Mem.wfFrom, Bool.and_eq_true, decide_eq_true_eq]; exact ⟨⟨h, hb⟩, h3⟩
      · simp only [Mem.put, if_neg hai, if_neg hia, Mem.wfFrom, Bool.and_eq_true, decide_eq_true_eq]
        exact ⟨⟨h1, h2⟩, ih h3 (by omega)⟩

/-- The byte read after a write of one byte. -/
theorem Mem.byte_put {lo : Nat} {m : Mem} (a a' : Nat) (b : Byte) (hm : Mem.wfFrom lo m = true) :
    Mem.byte (Mem.put m a b) a' = if a' = a then b else Mem.byte m a' := by
  induction m generalizing lo with
  | nil =>
    rw [Mem.put]
    split
    · rename_i hb; simp [Mem.byte, hb]
    · by_cases h : a' = a
      · simp [Mem.byte, h]
      · simp [Mem.byte, h, Ne.symm h]
  | cons e t ih =>
    obtain ⟨i, x⟩ := e
    have hm' := hm
    simp only [Mem.wfFrom, Bool.and_eq_true, decide_eq_true_eq] at hm'
    obtain ⟨⟨h1, h2⟩, h3⟩ := hm'
    by_cases hai : a < i
    · have hz : Mem.byte ((i, x) :: t) a = 0 := by
        have : Mem.wfFrom i ((i, x) :: t) = true := by
          simp only [Mem.wfFrom, Bool.and_eq_true, decide_eq_true_eq]; exact ⟨⟨le_refl i, h2⟩, h3⟩
        exact Mem.byte_of_lt this hai
      by_cases hb : b = 0
      · simp only [Mem.put, if_pos hai, if_pos hb]
        by_cases h : a' = a
        · subst h; simp [hz, hb]
        · simp [h]
      · simp only [Mem.put, if_pos hai, if_neg hb]
        by_cases h : a' = a
        · subst h; simp [Mem.byte]
        · rw [if_neg h]; conv => lhs; rw [Mem.byte, if_neg (Ne.symm h)]
    · by_cases hia : i = a
      · subst hia
        have hz : Mem.byte t i = 0 := Mem.byte_of_lt h3 (by omega)
        by_cases hb : b = 0
        · simp only [Mem.put, if_neg hai, if_pos hb, ↓reduceIte]
          by_cases h : a' = i
          · subst h; simp [hz, hb]
          · simp [Mem.byte, h, Ne.symm h]
        · simp only [Mem.put, if_neg hai, if_neg hb, ↓reduceIte]
          by_cases h : a' = i
          · subst h; simp [Mem.byte]
          · simp [Mem.byte, h, Ne.symm h]
      · simp only [Mem.put, if_neg hai, if_neg hia, Mem.byte]
        by_cases h : i = a'
        · subst h; simp [hia]
        · simp [h, ih h3]

theorem Mem.wf_put {m : Mem} (a : Nat) (b : Byte) (hm : m.wf = true) : (m.put a b).wf = true :=
  Mem.wfFrom_put b hm (Nat.zero_le a)

theorem Mem.wf_write {m : Mem} (a : Nat) (bs : List Byte) (hm : m.wf = true) : (m.write a bs).wf = true := by
  induction bs generalizing m a with
  | nil => exact hm
  | cons b t ih => exact ih (a + 1) (Mem.wf_put a b hm)

/-- The byte read after a write of several bytes. -/
theorem Mem.byte_write {m : Mem} (a a' : Nat) (bs : List Byte) (hm : m.wf = true) :
    Mem.byte (m.write a bs) a' = if a ≤ a' ∧ a' < a + bs.length then bs.getD (a' - a) 0 else Mem.byte m a' := by
  induction bs generalizing m a with
  | nil => simp [Mem.write]
  | cons b t ih =>
    have := ih (a + 1) (Mem.wf_put a b hm)
    simp only [Mem.write, this, Mem.byte_put a a' b hm]
    by_cases h : a' = a
    · subst h; simp
    · by_cases h2 : a ≤ a' ∧ a' < a + (b :: t).length
      · have h3 : a + 1 ≤ a' ∧ a' < a + 1 + t.length := by simp only [List.length_cons] at h2; omega
        obtain ⟨n, hn⟩ : ∃ n, a' - a = n + 1 := ⟨a' - a - 1, by omega⟩
        have hn' : a' - (a + 1) = n := by omega
        rw [if_pos h3, if_pos h2, hn, hn']; rfl
      · have h3 : ¬ (a + 1 ≤ a' ∧ a' < a + 1 + t.length) := by simp only [List.length_cons] at h2; omega
        rw [if_neg h3, if_neg h2, if_neg h]

/-- A canonical memory restricted to a range of addresses, then another above it, is canonical. -/
theorem Mem.wfFrom_filter {lo : Nat} {m : Mem} (p : Nat → Bool) (hm : Mem.wfFrom lo m = true) :
    Mem.wfFrom lo (m.filter (fun e => p e.1)) = true := by
  induction m generalizing lo with
  | nil => rfl
  | cons e t ih =>
    obtain ⟨i, x⟩ := e
    simp only [Mem.wfFrom, Bool.and_eq_true, decide_eq_true_eq] at hm
    by_cases h : p i = true
    · simp only [List.filter, h, Mem.wfFrom, Bool.and_eq_true, decide_eq_true_eq]; exact ⟨hm.1, ih hm.2⟩
    · simp only [List.filter, h]; exact ih (Mem.wfFrom_mono (by omega) hm.2)

theorem Mem.wfFrom_append {lo k : Nat} {m n : Mem} (hm : Mem.wfFrom lo m = true) (hlt : ∀ e ∈ m, e.1 < k)
    (hn : Mem.wfFrom lo n = true) (hge : ∀ e ∈ n, k ≤ e.1) : Mem.wfFrom lo (m ++ n) = true := by
  induction m generalizing lo with
  | nil => exact hn
  | cons e t ih =>
    obtain ⟨i, x⟩ := e
    simp only [Mem.wfFrom, Bool.and_eq_true, decide_eq_true_eq] at hm
    simp only [List.cons_append, Mem.wfFrom, Bool.and_eq_true, decide_eq_true_eq]
    refine ⟨hm.1, ih hm.2 (fun e he => hlt e (by simp [he])) ?_⟩
    have hik : i < k := hlt (i, x) (by simp)
    cases n with
    | nil => rfl
    | cons f u =>
      obtain ⟨j, y⟩ := f
      have hj : k ≤ j := hge (j, y) (by simp)
      simp only [Mem.wfFrom, Bool.and_eq_true, decide_eq_true_eq] at hn ⊢
      exact ⟨⟨by omega, hn.1.2⟩, hn.2⟩

end Sys2Proof.Machine
end

