-- ==== Sys2Proof/Laws/State.lean ====
section
/-! SUPPORT. One lemma for each field of the state under each named update, and the units by number: a later proof
unfolds no record update. -/

namespace Sys2Proof.Machine

variable (s : State)

section setCore
variable (c : Nat) (k : Core)
@[simp] theorem State.setCore_pending : (s.setCore c k).pending = s.pending := rfl
@[simp] theorem State.setCore_free : (s.setCore c k).free = s.free := rfl
@[simp] theorem State.setCore_waits : (s.setCore c k).waits = s.waits := rfl
@[simp] theorem State.setCore_fuses : (s.setCore c k).fuses = s.fuses := rfl
@[simp] theorem State.setCore_mram : (s.setCore c k).mram = s.mram := rfl
@[simp] theorem State.setCore_pins : (s.setCore c k).pins = s.pins := rfl
@[simp] theorem State.setCore_stopped : (s.setCore c k).stopped = s.stopped := rfl
@[simp] theorem State.setCore_scan : (s.setCore c k).scan = s.scan := rfl
@[simp] theorem State.setCore_blocks : (s.setCore c k).blocks = s.blocks := rfl
@[simp] theorem State.setCore_regions : (s.setCore c k).regions = s.regions := rfl
@[simp] theorem State.setCore_chans : (s.setCore c k).chans = s.chans := rfl
@[simp] theorem State.setCore_pwr : (s.setCore c k).pwr = s.pwr := rfl
@[simp] theorem State.setCore_dram : (s.setCore c k).dram = s.dram := rfl
@[simp] theorem State.setCore_lineKey : (s.setCore c k).lineKey = s.lineKey := rfl
@[simp] theorem State.setCore_fillKey : (s.setCore c k).fillKey = s.fillKey := rfl
@[simp] theorem State.setCore_poison : (s.setCore c k).poison = s.poison := rfl
@[simp] theorem State.setCore_capacity : (s.setCore c k).capacity = s.capacity := rfl
@[simp] theorem State.setCore_nchan : (s.setCore c k).nchan = s.nchan := rfl
@[simp] theorem State.setCore_gran : (s.setCore c k).gran = s.gran := rfl
@[simp] theorem State.setCore_devcorr : (s.setCore c k).devcorr = s.devcorr := rfl
@[simp] theorem State.setCore_sram : (s.setCore c k).sram = s.sram := rfl
@[simp] theorem State.setCore_slcRam : (s.setCore c k).slcRam = s.slcRam := rfl
@[simp] theorem State.setCore_flash : (s.setCore c k).flash = s.flash := rfl
@[simp] theorem State.setCore_noon : (s.setCore c k).noon = s.noon := rfl
@[simp] theorem State.setCore_waymask : (s.setCore c k).waymask = s.waymask := rfl
@[simp] theorem State.setCore_ambmp : (s.setCore c k).ambmp = s.ambmp := rfl
@[simp] theorem State.setCore_route : (s.setCore c k).route = s.route := rfl
@[simp] theorem State.setCore_mroute : (s.setCore c k).mroute = s.mroute := rfl
@[simp] theorem State.setCore_chipDrops : (s.setCore c k).chipDrops = s.chipDrops := rfl
@[simp] theorem State.setCore_chipLog : (s.setCore c k).chipLog = s.chipLog := rfl
@[simp] theorem State.setCore_replayT : (s.setCore c k).replayT = s.replayT := rfl
@[simp] theorem State.setCore_treeT : (s.setCore c k).treeT = s.treeT := rfl
@[simp] theorem State.setCore_keys : (s.setCore c k).keys = s.keys := rfl
@[simp] theorem State.setCore_sd : (s.setCore c k).sd = s.sd := rfl
@[simp] theorem State.setCore_boot : (s.setCore c k).boot = s.boot := rfl
@[simp] theorem State.setCore_slate : (s.setCore c k).slate = s.slate := rfl
@[simp] theorem State.setCore_lbist : (s.setCore c k).lbist = s.lbist := rfl
@[simp] theorem State.setCore_lbistSel : (s.setCore c k).lbistSel = s.lbistSel := rfl
@[simp] theorem State.setCore_out : (s.setCore c k).out = s.out := rfl
end setCore

section modCore
variable (c : Nat) (f : Core → Core)
@[simp] theorem State.modCore_pending : (s.modCore c f).pending = s.pending := rfl
@[simp] theorem State.modCore_free : (s.modCore c f).free = s.free := rfl
@[simp] theorem State.modCore_waits : (s.modCore c f).waits = s.waits := rfl
@[simp] theorem State.modCore_fuses : (s.modCore c f).fuses = s.fuses := rfl
@[simp] theorem State.modCore_mram : (s.modCore c f).mram = s.mram := rfl
@[simp] theorem State.modCore_pins : (s.modCore c f).pins = s.pins := rfl
@[simp] theorem State.modCore_stopped : (s.modCore c f).stopped = s.stopped := rfl
@[simp] theorem State.modCore_scan : (s.modCore c f).scan = s.scan := rfl
@[simp] theorem State.modCore_blocks : (s.modCore c f).blocks = s.blocks := rfl
@[simp] theorem State.modCore_regions : (s.modCore c f).regions = s.regions := rfl
@[simp] theorem State.modCore_chans : (s.modCore c f).chans = s.chans := rfl
@[simp] theorem State.modCore_pwr : (s.modCore c f).pwr = s.pwr := rfl
@[simp] theorem State.modCore_dram : (s.modCore c f).dram = s.dram := rfl
@[simp] theorem State.modCore_lineKey : (s.modCore c f).lineKey = s.lineKey := rfl
@[simp] theorem State.modCore_fillKey : (s.modCore c f).fillKey = s.fillKey := rfl
@[simp] theorem State.modCore_poison : (s.modCore c f).poison = s.poison := rfl
@[simp] theorem State.modCore_capacity : (s.modCore c f).capacity = s.capacity := rfl
@[simp] theorem State.modCore_nchan : (s.modCore c f).nchan = s.nchan := rfl
@[simp] theorem State.modCore_gran : (s.modCore c f).gran = s.gran := rfl
@[simp] theorem State.modCore_devcorr : (s.modCore c f).devcorr = s.devcorr := rfl
@[simp] theorem State.modCore_sram : (s.modCore c f).sram = s.sram := rfl
@[simp] theorem State.modCore_slcRam : (s.modCore c f).slcRam = s.slcRam := rfl
@[simp] theorem State.modCore_flash : (s.modCore c f).flash = s.flash := rfl
@[simp] theorem State.modCore_noon : (s.modCore c f).noon = s.noon := rfl
@[simp] theorem State.modCore_waymask : (s.modCore c f).waymask = s.waymask := rfl
@[simp] theorem State.modCore_ambmp : (s.modCore c f).ambmp = s.ambmp := rfl
@[simp] theorem State.modCore_route : (s.modCore c f).route = s.route := rfl
@[simp] theorem State.modCore_mroute : (s.modCore c f).mroute = s.mroute := rfl
@[simp] theorem State.modCore_chipDrops : (s.modCore c f).chipDrops = s.chipDrops := rfl
@[simp] theorem State.modCore_chipLog : (s.modCore c f).chipLog = s.chipLog := rfl
@[simp] theorem State.modCore_replayT : (s.modCore c f).replayT = s.replayT := rfl
@[simp] theorem State.modCore_treeT : (s.modCore c f).treeT = s.treeT := rfl
@[simp] theorem State.modCore_keys : (s.modCore c f).keys = s.keys := rfl
@[simp] theorem State.modCore_sd : (s.modCore c f).sd = s.sd := rfl
@[simp] theorem State.modCore_boot : (s.modCore c f).boot = s.boot := rfl
@[simp] theorem State.modCore_slate : (s.modCore c f).slate = s.slate := rfl
@[simp] theorem State.modCore_lbist : (s.modCore c f).lbist = s.lbist := rfl
@[simp] theorem State.modCore_lbistSel : (s.modCore c f).lbistSel = s.lbistSel := rfl
@[simp] theorem State.modCore_out : (s.modCore c f).out = s.out := rfl
end modCore

section setBlock
variable (b : Nat) (x : Block)
@[simp] theorem State.setBlock_pending : (s.setBlock b x).pending = s.pending := rfl
@[simp] theorem State.setBlock_free : (s.setBlock b x).free = s.free := rfl
@[simp] theorem State.setBlock_waits : (s.setBlock b x).waits = s.waits := rfl
@[simp] theorem State.setBlock_fuses : (s.setBlock b x).fuses = s.fuses := rfl
@[simp] theorem State.setBlock_mram : (s.setBlock b x).mram = s.mram := rfl
@[simp] theorem State.setBlock_pins : (s.setBlock b x).pins = s.pins := rfl
@[simp] theorem State.setBlock_stopped : (s.setBlock b x).stopped = s.stopped := rfl
@[simp] theorem State.setBlock_scan : (s.setBlock b x).scan = s.scan := rfl
@[simp] theorem State.setBlock_cores : (s.setBlock b x).cores = s.cores := rfl
@[simp] theorem State.setBlock_regions : (s.setBlock b x).regions = s.regions := rfl
@[simp] theorem State.setBlock_chans : (s.setBlock b x).chans = s.chans := rfl
@[simp] theorem State.setBlock_pwr : (s.setBlock b x).pwr = s.pwr := rfl
@[simp] theorem State.setBlock_dram : (s.setBlock b x).dram = s.dram := rfl
@[simp] theorem State.setBlock_lineKey : (s.setBlock b x).lineKey = s.lineKey := rfl
@[simp] theorem State.setBlock_fillKey : (s.setBlock b x).fillKey = s.fillKey := rfl
@[simp] theorem State.setBlock_poison : (s.setBlock b x).poison = s.poison := rfl
@[simp] theorem State.setBlock_capacity : (s.setBlock b x).capacity = s.capacity := rfl
@[simp] theorem State.setBlock_nchan : (s.setBlock b x).nchan = s.nchan := rfl
@[simp] theorem State.setBlock_gran : (s.setBlock b x).gran = s.gran := rfl
@[simp] theorem State.setBlock_devcorr : (s.setBlock b x).devcorr = s.devcorr := rfl
@[simp] theorem State.setBlock_sram : (s.setBlock b x).sram = s.sram := rfl
@[simp] theorem State.setBlock_slcRam : (s.setBlock b x).slcRam = s.slcRam := rfl
@[simp] theorem State.setBlock_flash : (s.setBlock b x).flash = s.flash := rfl
@[simp] theorem State.setBlock_noon : (s.setBlock b x).noon = s.noon := rfl
@[simp] theorem State.setBlock_waymask : (s.setBlock b x).waymask = s.waymask := rfl
@[simp] theorem State.setBlock_ambmp : (s.setBlock b x).ambmp = s.ambmp := rfl
@[simp] theorem State.setBlock_route : (s.setBlock b x).route = s.route := rfl
@[simp] theorem State.setBlock_mroute : (s.setBlock b x).mroute = s.mroute := rfl
@[simp] theorem State.setBlock_chipDrops : (s.setBlock b x).chipDrops = s.chipDrops := rfl
@[simp] theorem State.setBlock_chipLog : (s.setBlock b x).chipLog = s.chipLog := rfl
@[simp] theorem State.setBlock_replayT : (s.setBlock b x).replayT = s.replayT := rfl
@[simp] theorem State.setBlock_treeT : (s.setBlock b x).treeT = s.treeT := rfl
@[simp] theorem State.setBlock_keys : (s.setBlock b x).keys = s.keys := rfl
@[simp] theorem State.setBlock_sd : (s.setBlock b x).sd = s.sd := rfl
@[simp] theorem State.setBlock_boot : (s.setBlock b x).boot = s.boot := rfl
@[simp] theorem State.setBlock_slate : (s.setBlock b x).slate = s.slate := rfl
@[simp] theorem State.setBlock_lbist : (s.setBlock b x).lbist = s.lbist := rfl
@[simp] theorem State.setBlock_lbistSel : (s.setBlock b x).lbistSel = s.lbistSel := rfl
@[simp] theorem State.setBlock_out : (s.setBlock b x).out = s.out := rfl
end setBlock

section modBlock
variable (b : Nat) (f : Block → Block)
@[simp] theorem State.modBlock_pending : (s.modBlock b f).pending = s.pending := rfl
@[simp] theorem State.modBlock_free : (s.modBlock b f).free = s.free := rfl
@[simp] theorem State.modBlock_waits : (s.modBlock b f).waits = s.waits := rfl
@[simp] theorem State.modBlock_fuses : (s.modBlock b f).fuses = s.fuses := rfl
@[simp] theorem State.modBlock_mram : (s.modBlock b f).mram = s.mram := rfl
@[simp] theorem State.modBlock_pins : (s.modBlock b f).pins = s.pins := rfl
@[simp] theorem State.modBlock_stopped : (s.modBlock b f).stopped = s.stopped := rfl
@[simp] theorem State.modBlock_scan : (s.modBlock b f).scan = s.scan := rfl
@[simp] theorem State.modBlock_cores : (s.modBlock b f).cores = s.cores := rfl
@[simp] theorem State.modBlock_regions : (s.modBlock b f).regions = s.regions := rfl
@[simp] theorem State.modBlock_chans : (s.modBlock b f).chans = s.chans := rfl
@[simp] theorem State.modBlock_pwr : (s.modBlock b f).pwr = s.pwr := rfl
@[simp] theorem State.modBlock_dram : (s.modBlock b f).dram = s.dram := rfl
@[simp] theorem State.modBlock_lineKey : (s.modBlock b f).lineKey = s.lineKey := rfl
@[simp] theorem State.modBlock_fillKey : (s.modBlock b f).fillKey = s.fillKey := rfl
@[simp] theorem State.modBlock_poison : (s.modBlock b f).poison = s.poison := rfl
@[simp] theorem State.modBlock_capacity : (s.modBlock b f).capacity = s.capacity := rfl
@[simp] theorem State.modBlock_nchan : (s.modBlock b f).nchan = s.nchan := rfl
@[simp] theorem State.modBlock_gran : (s.modBlock b f).gran = s.gran := rfl
@[simp] theorem State.modBlock_devcorr : (s.modBlock b f).devcorr = s.devcorr := rfl
@[simp] theorem State.modBlock_sram : (s.modBlock b f).sram = s.sram := rfl
@[simp] theorem State.modBlock_slcRam : (s.modBlock b f).slcRam = s.slcRam := rfl
@[simp] theorem State.modBlock_flash : (s.modBlock b f).flash = s.flash := rfl
@[simp] theorem State.modBlock_noon : (s.modBlock b f).noon = s.noon := rfl
@[simp] theorem State.modBlock_waymask : (s.modBlock b f).waymask = s.waymask := rfl
@[simp] theorem State.modBlock_ambmp : (s.modBlock b f).ambmp = s.ambmp := rfl
@[simp] theorem State.modBlock_route : (s.modBlock b f).route = s.route := rfl
@[simp] theorem State.modBlock_mroute : (s.modBlock b f).mroute = s.mroute := rfl
@[simp] theorem State.modBlock_chipDrops : (s.modBlock b f).chipDrops = s.chipDrops := rfl
@[simp] theorem State.modBlock_chipLog : (s.modBlock b f).chipLog = s.chipLog := rfl
@[simp] theorem State.modBlock_replayT : (s.modBlock b f).replayT = s.replayT := rfl
@[simp] theorem State.modBlock_treeT : (s.modBlock b f).treeT = s.treeT := rfl
@[simp] theorem State.modBlock_keys : (s.modBlock b f).keys = s.keys := rfl
@[simp] theorem State.modBlock_sd : (s.modBlock b f).sd = s.sd := rfl
@[simp] theorem State.modBlock_boot : (s.modBlock b f).boot = s.boot := rfl
@[simp] theorem State.modBlock_slate : (s.modBlock b f).slate = s.slate := rfl
@[simp] theorem State.modBlock_lbist : (s.modBlock b f).lbist = s.lbist := rfl
@[simp] theorem State.modBlock_lbistSel : (s.modBlock b f).lbistSel = s.lbistSel := rfl
@[simp] theorem State.modBlock_out : (s.modBlock b f).out = s.out := rfl
end modBlock

section modRegion
variable (r : Nat) (f : Region → Region)
@[simp] theorem State.modRegion_pending : (s.modRegion r f).pending = s.pending := rfl
@[simp] theorem State.modRegion_free : (s.modRegion r f).free = s.free := rfl
@[simp] theorem State.modRegion_waits : (s.modRegion r f).waits = s.waits := rfl
@[simp] theorem State.modRegion_fuses : (s.modRegion r f).fuses = s.fuses := rfl
@[simp] theorem State.modRegion_mram : (s.modRegion r f).mram = s.mram := rfl
@[simp] theorem State.modRegion_pins : (s.modRegion r f).pins = s.pins := rfl
@[simp] theorem State.modRegion_stopped : (s.modRegion r f).stopped = s.stopped := rfl
@[simp] theorem State.modRegion_scan : (s.modRegion r f).scan = s.scan := rfl
@[simp] theorem State.modRegion_cores : (s.modRegion r f).cores = s.cores := rfl
@[simp] theorem State.modRegion_blocks : (s.modRegion r f).blocks = s.blocks := rfl
@[simp] theorem State.modRegion_chans : (s.modRegion r f).chans = s.chans := rfl
@[simp] theorem State.modRegion_pwr : (s.modRegion r f).pwr = s.pwr := rfl
@[simp] theorem State.modRegion_dram : (s.modRegion r f).dram = s.dram := rfl
@[simp] theorem State.modRegion_lineKey : (s.modRegion r f).lineKey = s.lineKey := rfl
@[simp] theorem State.modRegion_fillKey : (s.modRegion r f).fillKey = s.fillKey := rfl
@[simp] theorem State.modRegion_poison : (s.modRegion r f).poison = s.poison := rfl
@[simp] theorem State.modRegion_capacity : (s.modRegion r f).capacity = s.capacity := rfl
@[simp] theorem State.modRegion_nchan : (s.modRegion r f).nchan = s.nchan := rfl
@[simp] theorem State.modRegion_gran : (s.modRegion r f).gran = s.gran := rfl
@[simp] theorem State.modRegion_devcorr : (s.modRegion r f).devcorr = s.devcorr := rfl
@[simp] theorem State.modRegion_sram : (s.modRegion r f).sram = s.sram := rfl
@[simp] theorem State.modRegion_slcRam : (s.modRegion r f).slcRam = s.slcRam := rfl
@[simp] theorem State.modRegion_flash : (s.modRegion r f).flash = s.flash := rfl
@[simp] theorem State.modRegion_noon : (s.modRegion r f).noon = s.noon := rfl
@[simp] theorem State.modRegion_waymask : (s.modRegion r f).waymask = s.waymask := rfl
@[simp] theorem State.modRegion_ambmp : (s.modRegion r f).ambmp = s.ambmp := rfl
@[simp] theorem State.modRegion_route : (s.modRegion r f).route = s.route := rfl
@[simp] theorem State.modRegion_mroute : (s.modRegion r f).mroute = s.mroute := rfl
@[simp] theorem State.modRegion_chipDrops : (s.modRegion r f).chipDrops = s.chipDrops := rfl
@[simp] theorem State.modRegion_chipLog : (s.modRegion r f).chipLog = s.chipLog := rfl
@[simp] theorem State.modRegion_replayT : (s.modRegion r f).replayT = s.replayT := rfl
@[simp] theorem State.modRegion_treeT : (s.modRegion r f).treeT = s.treeT := rfl
@[simp] theorem State.modRegion_keys : (s.modRegion r f).keys = s.keys := rfl
@[simp] theorem State.modRegion_sd : (s.modRegion r f).sd = s.sd := rfl
@[simp] theorem State.modRegion_boot : (s.modRegion r f).boot = s.boot := rfl
@[simp] theorem State.modRegion_slate : (s.modRegion r f).slate = s.slate := rfl
@[simp] theorem State.modRegion_lbist : (s.modRegion r f).lbist = s.lbist := rfl
@[simp] theorem State.modRegion_lbistSel : (s.modRegion r f).lbistSel = s.lbistSel := rfl
@[simp] theorem State.modRegion_out : (s.modRegion r f).out = s.out := rfl
end modRegion

section modFn
variable (r : Nat) (f : Fn → Fn)
@[simp] theorem State.modFn_pending : (s.modFn r f).pending = s.pending := rfl
@[simp] theorem State.modFn_free : (s.modFn r f).free = s.free := rfl
@[simp] theorem State.modFn_waits : (s.modFn r f).waits = s.waits := rfl
@[simp] theorem State.modFn_fuses : (s.modFn r f).fuses = s.fuses := rfl
@[simp] theorem State.modFn_mram : (s.modFn r f).mram = s.mram := rfl
@[simp] theorem State.modFn_pins : (s.modFn r f).pins = s.pins := rfl
@[simp] theorem State.modFn_stopped : (s.modFn r f).stopped = s.stopped := rfl
@[simp] theorem State.modFn_scan : (s.modFn r f).scan = s.scan := rfl
@[simp] theorem State.modFn_cores : (s.modFn r f).cores = s.cores := rfl
@[simp] theorem State.modFn_blocks : (s.modFn r f).blocks = s.blocks := rfl
@[simp] theorem State.modFn_chans : (s.modFn r f).chans = s.chans := rfl
@[simp] theorem State.modFn_pwr : (s.modFn r f).pwr = s.pwr := rfl
@[simp] theorem State.modFn_dram : (s.modFn r f).dram = s.dram := rfl
@[simp] theorem State.modFn_lineKey : (s.modFn r f).lineKey = s.lineKey := rfl
@[simp] theorem State.modFn_fillKey : (s.modFn r f).fillKey = s.fillKey := rfl
@[simp] theorem State.modFn_poison : (s.modFn r f).poison = s.poison := rfl
@[simp] theorem State.modFn_capacity : (s.modFn r f).capacity = s.capacity := rfl
@[simp] theorem State.modFn_nchan : (s.modFn r f).nchan = s.nchan := rfl
@[simp] theorem State.modFn_gran : (s.modFn r f).gran = s.gran := rfl
@[simp] theorem State.modFn_devcorr : (s.modFn r f).devcorr = s.devcorr := rfl
@[simp] theorem State.modFn_sram : (s.modFn r f).sram = s.sram := rfl
@[simp] theorem State.modFn_slcRam : (s.modFn r f).slcRam = s.slcRam := rfl
@[simp] theorem State.modFn_flash : (s.modFn r f).flash = s.flash := rfl
@[simp] theorem State.modFn_noon : (s.modFn r f).noon = s.noon := rfl
@[simp] theorem State.modFn_waymask : (s.modFn r f).waymask = s.waymask := rfl
@[simp] theorem State.modFn_ambmp : (s.modFn r f).ambmp = s.ambmp := rfl
@[simp] theorem State.modFn_route : (s.modFn r f).route = s.route := rfl
@[simp] theorem State.modFn_mroute : (s.modFn r f).mroute = s.mroute := rfl
@[simp] theorem State.modFn_chipDrops : (s.modFn r f).chipDrops = s.chipDrops := rfl
@[simp] theorem State.modFn_chipLog : (s.modFn r f).chipLog = s.chipLog := rfl
@[simp] theorem State.modFn_replayT : (s.modFn r f).replayT = s.replayT := rfl
@[simp] theorem State.modFn_treeT : (s.modFn r f).treeT = s.treeT := rfl
@[simp] theorem State.modFn_keys : (s.modFn r f).keys = s.keys := rfl
@[simp] theorem State.modFn_sd : (s.modFn r f).sd = s.sd := rfl
@[simp] theorem State.modFn_boot : (s.modFn r f).boot = s.boot := rfl
@[simp] theorem State.modFn_slate : (s.modFn r f).slate = s.slate := rfl
@[simp] theorem State.modFn_lbist : (s.modFn r f).lbist = s.lbist := rfl
@[simp] theorem State.modFn_lbistSel : (s.modFn r f).lbistSel = s.lbistSel := rfl
@[simp] theorem State.modFn_out : (s.modFn r f).out = s.out := rfl
end modFn

section modInst
variable (r i : Nat) (f : Inst → Inst)
@[simp] theorem State.modInst_pending : (s.modInst r i f).pending = s.pending := rfl
@[simp] theorem State.modInst_free : (s.modInst r i f).free = s.free := rfl
@[simp] theorem State.modInst_waits : (s.modInst r i f).waits = s.waits := rfl
@[simp] theorem State.modInst_fuses : (s.modInst r i f).fuses = s.fuses := rfl
@[simp] theorem State.modInst_mram : (s.modInst r i f).mram = s.mram := rfl
@[simp] theorem State.modInst_pins : (s.modInst r i f).pins = s.pins := rfl
@[simp] theorem State.modInst_stopped : (s.modInst r i f).stopped = s.stopped := rfl
@[simp] theorem State.modInst_scan : (s.modInst r i f).scan = s.scan := rfl
@[simp] theorem State.modInst_cores : (s.modInst r i f).cores = s.cores := rfl
@[simp] theorem State.modInst_blocks : (s.modInst r i f).blocks = s.blocks := rfl
@[simp] theorem State.modInst_chans : (s.modInst r i f).chans = s.chans := rfl
@[simp] theorem State.modInst_pwr : (s.modInst r i f).pwr = s.pwr := rfl
@[simp] theorem State.modInst_dram : (s.modInst r i f).dram = s.dram := rfl
@[simp] theorem State.modInst_lineKey : (s.modInst r i f).lineKey = s.lineKey := rfl
@[simp] theorem State.modInst_fillKey : (s.modInst r i f).fillKey = s.fillKey := rfl
@[simp] theorem State.modInst_poison : (s.modInst r i f).poison = s.poison := rfl
@[simp] theorem State.modInst_capacity : (s.modInst r i f).capacity = s.capacity := rfl
@[simp] theorem State.modInst_nchan : (s.modInst r i f).nchan = s.nchan := rfl
@[simp] theorem State.modInst_gran : (s.modInst r i f).gran = s.gran := rfl
@[simp] theorem State.modInst_devcorr : (s.modInst r i f).devcorr = s.devcorr := rfl
@[simp] theorem State.modInst_sram : (s.modInst r i f).sram = s.sram := rfl
@[simp] theorem State.modInst_slcRam : (s.modInst r i f).slcRam = s.slcRam := rfl
@[simp] theorem State.modInst_flash : (s.modInst r i f).flash = s.flash := rfl
@[simp] theorem State.modInst_noon : (s.modInst r i f).noon = s.noon := rfl
@[simp] theorem State.modInst_waymask : (s.modInst r i f).waymask = s.waymask := rfl
@[simp] theorem State.modInst_ambmp : (s.modInst r i f).ambmp = s.ambmp := rfl
@[simp] theorem State.modInst_route : (s.modInst r i f).route = s.route := rfl
@[simp] theorem State.modInst_mroute : (s.modInst r i f).mroute = s.mroute := rfl
@[simp] theorem State.modInst_chipDrops : (s.modInst r i f).chipDrops = s.chipDrops := rfl
@[simp] theorem State.modInst_chipLog : (s.modInst r i f).chipLog = s.chipLog := rfl
@[simp] theorem State.modInst_replayT : (s.modInst r i f).replayT = s.replayT := rfl
@[simp] theorem State.modInst_treeT : (s.modInst r i f).treeT = s.treeT := rfl
@[simp] theorem State.modInst_keys : (s.modInst r i f).keys = s.keys := rfl
@[simp] theorem State.modInst_sd : (s.modInst r i f).sd = s.sd := rfl
@[simp] theorem State.modInst_boot : (s.modInst r i f).boot = s.boot := rfl
@[simp] theorem State.modInst_slate : (s.modInst r i f).slate = s.slate := rfl
@[simp] theorem State.modInst_lbist : (s.modInst r i f).lbist = s.lbist := rfl
@[simp] theorem State.modInst_lbistSel : (s.modInst r i f).lbistSel = s.lbistSel := rfl
@[simp] theorem State.modInst_out : (s.modInst r i f).out = s.out := rfl
end modInst

section modPort
variable (r i : Nat) (f : Port → Port)
@[simp] theorem State.modPort_pending : (s.modPort r i f).pending = s.pending := rfl
@[simp] theorem State.modPort_free : (s.modPort r i f).free = s.free := rfl
@[simp] theorem State.modPort_waits : (s.modPort r i f).waits = s.waits := rfl
@[simp] theorem State.modPort_fuses : (s.modPort r i f).fuses = s.fuses := rfl
@[simp] theorem State.modPort_mram : (s.modPort r i f).mram = s.mram := rfl
@[simp] theorem State.modPort_pins : (s.modPort r i f).pins = s.pins := rfl
@[simp] theorem State.modPort_stopped : (s.modPort r i f).stopped = s.stopped := rfl
@[simp] theorem State.modPort_scan : (s.modPort r i f).scan = s.scan := rfl
@[simp] theorem State.modPort_cores : (s.modPort r i f).cores = s.cores := rfl
@[simp] theorem State.modPort_blocks : (s.modPort r i f).blocks = s.blocks := rfl
@[simp] theorem State.modPort_chans : (s.modPort r i f).chans = s.chans := rfl
@[simp] theorem State.modPort_pwr : (s.modPort r i f).pwr = s.pwr := rfl
@[simp] theorem State.modPort_dram : (s.modPort r i f).dram = s.dram := rfl
@[simp] theorem State.modPort_lineKey : (s.modPort r i f).lineKey = s.lineKey := rfl
@[simp] theorem State.modPort_fillKey : (s.modPort r i f).fillKey = s.fillKey := rfl
@[simp] theorem State.modPort_poison : (s.modPort r i f).poison = s.poison := rfl
@[simp] theorem State.modPort_capacity : (s.modPort r i f).capacity = s.capacity := rfl
@[simp] theorem State.modPort_nchan : (s.modPort r i f).nchan = s.nchan := rfl
@[simp] theorem State.modPort_gran : (s.modPort r i f).gran = s.gran := rfl
@[simp] theorem State.modPort_devcorr : (s.modPort r i f).devcorr = s.devcorr := rfl
@[simp] theorem State.modPort_sram : (s.modPort r i f).sram = s.sram := rfl
@[simp] theorem State.modPort_slcRam : (s.modPort r i f).slcRam = s.slcRam := rfl
@[simp] theorem State.modPort_flash : (s.modPort r i f).flash = s.flash := rfl
@[simp] theorem State.modPort_noon : (s.modPort r i f).noon = s.noon := rfl
@[simp] theorem State.modPort_waymask : (s.modPort r i f).waymask = s.waymask := rfl
@[simp] theorem State.modPort_ambmp : (s.modPort r i f).ambmp = s.ambmp := rfl
@[simp] theorem State.modPort_route : (s.modPort r i f).route = s.route := rfl
@[simp] theorem State.modPort_mroute : (s.modPort r i f).mroute = s.mroute := rfl
@[simp] theorem State.modPort_chipDrops : (s.modPort r i f).chipDrops = s.chipDrops := rfl
@[simp] theorem State.modPort_chipLog : (s.modPort r i f).chipLog = s.chipLog := rfl
@[simp] theorem State.modPort_replayT : (s.modPort r i f).replayT = s.replayT := rfl
@[simp] theorem State.modPort_treeT : (s.modPort r i f).treeT = s.treeT := rfl
@[simp] theorem State.modPort_keys : (s.modPort r i f).keys = s.keys := rfl
@[simp] theorem State.modPort_sd : (s.modPort r i f).sd = s.sd := rfl
@[simp] theorem State.modPort_boot : (s.modPort r i f).boot = s.boot := rfl
@[simp] theorem State.modPort_slate : (s.modPort r i f).slate = s.slate := rfl
@[simp] theorem State.modPort_lbist : (s.modPort r i f).lbist = s.lbist := rfl
@[simp] theorem State.modPort_lbistSel : (s.modPort r i f).lbistSel = s.lbistSel := rfl
@[simp] theorem State.modPort_out : (s.modPort r i f).out = s.out := rfl
end modPort

section modChan
variable (c : Nat) (f : Chan → Chan)
@[simp] theorem State.modChan_pending : (s.modChan c f).pending = s.pending := rfl
@[simp] theorem State.modChan_free : (s.modChan c f).free = s.free := rfl
@[simp] theorem State.modChan_waits : (s.modChan c f).waits = s.waits := rfl
@[simp] theorem State.modChan_fuses : (s.modChan c f).fuses = s.fuses := rfl
@[simp] theorem State.modChan_mram : (s.modChan c f).mram = s.mram := rfl
@[simp] theorem State.modChan_pins : (s.modChan c f).pins = s.pins := rfl
@[simp] theorem State.modChan_stopped : (s.modChan c f).stopped = s.stopped := rfl
@[simp] theorem State.modChan_scan : (s.modChan c f).scan = s.scan := rfl
@[simp] theorem State.modChan_cores : (s.modChan c f).cores = s.cores := rfl
@[simp] theorem State.modChan_blocks : (s.modChan c f).blocks = s.blocks := rfl
@[simp] theorem State.modChan_regions : (s.modChan c f).regions = s.regions := rfl
@[simp] theorem State.modChan_pwr : (s.modChan c f).pwr = s.pwr := rfl
@[simp] theorem State.modChan_dram : (s.modChan c f).dram = s.dram := rfl
@[simp] theorem State.modChan_lineKey : (s.modChan c f).lineKey = s.lineKey := rfl
@[simp] theorem State.modChan_fillKey : (s.modChan c f).fillKey = s.fillKey := rfl
@[simp] theorem State.modChan_poison : (s.modChan c f).poison = s.poison := rfl
@[simp] theorem State.modChan_capacity : (s.modChan c f).capacity = s.capacity := rfl
@[simp] theorem State.modChan_nchan : (s.modChan c f).nchan = s.nchan := rfl
@[simp] theorem State.modChan_gran : (s.modChan c f).gran = s.gran := rfl
@[simp] theorem State.modChan_devcorr : (s.modChan c f).devcorr = s.devcorr := rfl
@[simp] theorem State.modChan_sram : (s.modChan c f).sram = s.sram := rfl
@[simp] theorem State.modChan_slcRam : (s.modChan c f).slcRam = s.slcRam := rfl
@[simp] theorem State.modChan_flash : (s.modChan c f).flash = s.flash := rfl
@[simp] theorem State.modChan_noon : (s.modChan c f).noon = s.noon := rfl
@[simp] theorem State.modChan_waymask : (s.modChan c f).waymask = s.waymask := rfl
@[simp] theorem State.modChan_ambmp : (s.modChan c f).ambmp = s.ambmp := rfl
@[simp] theorem State.modChan_route : (s.modChan c f).route = s.route := rfl
@[simp] theorem State.modChan_mroute : (s.modChan c f).mroute = s.mroute := rfl
@[simp] theorem State.modChan_chipDrops : (s.modChan c f).chipDrops = s.chipDrops := rfl
@[simp] theorem State.modChan_chipLog : (s.modChan c f).chipLog = s.chipLog := rfl
@[simp] theorem State.modChan_replayT : (s.modChan c f).replayT = s.replayT := rfl
@[simp] theorem State.modChan_treeT : (s.modChan c f).treeT = s.treeT := rfl
@[simp] theorem State.modChan_keys : (s.modChan c f).keys = s.keys := rfl
@[simp] theorem State.modChan_sd : (s.modChan c f).sd = s.sd := rfl
@[simp] theorem State.modChan_boot : (s.modChan c f).boot = s.boot := rfl
@[simp] theorem State.modChan_slate : (s.modChan c f).slate = s.slate := rfl
@[simp] theorem State.modChan_lbist : (s.modChan c f).lbist = s.lbist := rfl
@[simp] theorem State.modChan_lbistSel : (s.modChan c f).lbistSel = s.lbistSel := rfl
@[simp] theorem State.modChan_out : (s.modChan c f).out = s.out := rfl
end modChan

section modDom
variable (i : Nat) (f : Pwr → Pwr)
@[simp] theorem State.modDom_pending : (s.modDom i f).pending = s.pending := rfl
@[simp] theorem State.modDom_free : (s.modDom i f).free = s.free := rfl
@[simp] theorem State.modDom_waits : (s.modDom i f).waits = s.waits := rfl
@[simp] theorem State.modDom_fuses : (s.modDom i f).fuses = s.fuses := rfl
@[simp] theorem State.modDom_mram : (s.modDom i f).mram = s.mram := rfl
@[simp] theorem State.modDom_pins : (s.modDom i f).pins = s.pins := rfl
@[simp] theorem State.modDom_stopped : (s.modDom i f).stopped = s.stopped := rfl
@[simp] theorem State.modDom_scan : (s.modDom i f).scan = s.scan := rfl
@[simp] theorem State.modDom_cores : (s.modDom i f).cores = s.cores := rfl
@[simp] theorem State.modDom_blocks : (s.modDom i f).blocks = s.blocks := rfl
@[simp] theorem State.modDom_regions : (s.modDom i f).regions = s.regions := rfl
@[simp] theorem State.modDom_chans : (s.modDom i f).chans = s.chans := rfl
@[simp] theorem State.modDom_dram : (s.modDom i f).dram = s.dram := rfl
@[simp] theorem State.modDom_lineKey : (s.modDom i f).lineKey = s.lineKey := rfl
@[simp] theorem State.modDom_fillKey : (s.modDom i f).fillKey = s.fillKey := rfl
@[simp] theorem State.modDom_poison : (s.modDom i f).poison = s.poison := rfl
@[simp] theorem State.modDom_capacity : (s.modDom i f).capacity = s.capacity := rfl
@[simp] theorem State.modDom_nchan : (s.modDom i f).nchan = s.nchan := rfl
@[simp] theorem State.modDom_gran : (s.modDom i f).gran = s.gran := rfl
@[simp] theorem State.modDom_devcorr : (s.modDom i f).devcorr = s.devcorr := rfl
@[simp] theorem State.modDom_sram : (s.modDom i f).sram = s.sram := rfl
@[simp] theorem State.modDom_slcRam : (s.modDom i f).slcRam = s.slcRam := rfl
@[simp] theorem State.modDom_flash : (s.modDom i f).flash = s.flash := rfl
@[simp] theorem State.modDom_noon : (s.modDom i f).noon = s.noon := rfl
@[simp] theorem State.modDom_waymask : (s.modDom i f).waymask = s.waymask := rfl
@[simp] theorem State.modDom_ambmp : (s.modDom i f).ambmp = s.ambmp := rfl
@[simp] theorem State.modDom_route : (s.modDom i f).route = s.route := rfl
@[simp] theorem State.modDom_mroute : (s.modDom i f).mroute = s.mroute := rfl
@[simp] theorem State.modDom_chipDrops : (s.modDom i f).chipDrops = s.chipDrops := rfl
@[simp] theorem State.modDom_chipLog : (s.modDom i f).chipLog = s.chipLog := rfl
@[simp] theorem State.modDom_replayT : (s.modDom i f).replayT = s.replayT := rfl
@[simp] theorem State.modDom_treeT : (s.modDom i f).treeT = s.treeT := rfl
@[simp] theorem State.modDom_keys : (s.modDom i f).keys = s.keys := rfl
@[simp] theorem State.modDom_sd : (s.modDom i f).sd = s.sd := rfl
@[simp] theorem State.modDom_boot : (s.modDom i f).boot = s.boot := rfl
@[simp] theorem State.modDom_slate : (s.modDom i f).slate = s.slate := rfl
@[simp] theorem State.modDom_lbist : (s.modDom i f).lbist = s.lbist := rfl
@[simp] theorem State.modDom_lbistSel : (s.modDom i f).lbistSel = s.lbistSel := rfl
@[simp] theorem State.modDom_out : (s.modDom i f).out = s.out := rfl
end modDom

section modNoon
variable (f : Noon → Noon)
@[simp] theorem State.modNoon_pending : (s.modNoon f).pending = s.pending := rfl
@[simp] theorem State.modNoon_free : (s.modNoon f).free = s.free := rfl
@[simp] theorem State.modNoon_waits : (s.modNoon f).waits = s.waits := rfl
@[simp] theorem State.modNoon_fuses : (s.modNoon f).fuses = s.fuses := rfl
@[simp] theorem State.modNoon_mram : (s.modNoon f).mram = s.mram := rfl
@[simp] theorem State.modNoon_pins : (s.modNoon f).pins = s.pins := rfl
@[simp] theorem State.modNoon_stopped : (s.modNoon f).stopped = s.stopped := rfl
@[simp] theorem State.modNoon_scan : (s.modNoon f).scan = s.scan := rfl
@[simp] theorem State.modNoon_cores : (s.modNoon f).cores = s.cores := rfl
@[simp] theorem State.modNoon_blocks : (s.modNoon f).blocks = s.blocks := rfl
@[simp] theorem State.modNoon_regions : (s.modNoon f).regions = s.regions := rfl
@[simp] theorem State.modNoon_chans : (s.modNoon f).chans = s.chans := rfl
@[simp] theorem State.modNoon_pwr : (s.modNoon f).pwr = s.pwr := rfl
@[simp] theorem State.modNoon_dram : (s.modNoon f).dram = s.dram := rfl
@[simp] theorem State.modNoon_lineKey : (s.modNoon f).lineKey = s.lineKey := rfl
@[simp] theorem State.modNoon_fillKey : (s.modNoon f).fillKey = s.fillKey := rfl
@[simp] theorem State.modNoon_poison : (s.modNoon f).poison = s.poison := rfl
@[simp] theorem State.modNoon_capacity : (s.modNoon f).capacity = s.capacity := rfl
@[simp] theorem State.modNoon_nchan : (s.modNoon f).nchan = s.nchan := rfl
@[simp] theorem State.modNoon_gran : (s.modNoon f).gran = s.gran := rfl
@[simp] theorem State.modNoon_devcorr : (s.modNoon f).devcorr = s.devcorr := rfl
@[simp] theorem State.modNoon_sram : (s.modNoon f).sram = s.sram := rfl
@[simp] theorem State.modNoon_slcRam : (s.modNoon f).slcRam = s.slcRam := rfl
@[simp] theorem State.modNoon_flash : (s.modNoon f).flash = s.flash := rfl
@[simp] theorem State.modNoon_waymask : (s.modNoon f).waymask = s.waymask := rfl
@[simp] theorem State.modNoon_ambmp : (s.modNoon f).ambmp = s.ambmp := rfl
@[simp] theorem State.modNoon_route : (s.modNoon f).route = s.route := rfl
@[simp] theorem State.modNoon_mroute : (s.modNoon f).mroute = s.mroute := rfl
@[simp] theorem State.modNoon_chipDrops : (s.modNoon f).chipDrops = s.chipDrops := rfl
@[simp] theorem State.modNoon_chipLog : (s.modNoon f).chipLog = s.chipLog := rfl
@[simp] theorem State.modNoon_replayT : (s.modNoon f).replayT = s.replayT := rfl
@[simp] theorem State.modNoon_treeT : (s.modNoon f).treeT = s.treeT := rfl
@[simp] theorem State.modNoon_keys : (s.modNoon f).keys = s.keys := rfl
@[simp] theorem State.modNoon_sd : (s.modNoon f).sd = s.sd := rfl
@[simp] theorem State.modNoon_boot : (s.modNoon f).boot = s.boot := rfl
@[simp] theorem State.modNoon_slate : (s.modNoon f).slate = s.slate := rfl
@[simp] theorem State.modNoon_lbist : (s.modNoon f).lbist = s.lbist := rfl
@[simp] theorem State.modNoon_lbistSel : (s.modNoon f).lbistSel = s.lbistSel := rfl
@[simp] theorem State.modNoon_out : (s.modNoon f).out = s.out := rfl
end modNoon

section modBoot
variable (f : Boot → Boot)
@[simp] theorem State.modBoot_pending : (s.modBoot f).pending = s.pending := rfl
@[simp] theorem State.modBoot_free : (s.modBoot f).free = s.free := rfl
@[simp] theorem State.modBoot_waits : (s.modBoot f).waits = s.waits := rfl
@[simp] theorem State.modBoot_fuses : (s.modBoot f).fuses = s.fuses := rfl
@[simp] theorem State.modBoot_mram : (s.modBoot f).mram = s.mram := rfl
@[simp] theorem State.modBoot_pins : (s.modBoot f).pins = s.pins := rfl
@[simp] theorem State.modBoot_stopped : (s.modBoot f).stopped = s.stopped := rfl
@[simp] theorem State.modBoot_scan : (s.modBoot f).scan = s.scan := rfl
@[simp] theorem State.modBoot_cores : (s.modBoot f).cores = s.cores := rfl
@[simp] theorem State.modBoot_blocks : (s.modBoot f).blocks = s.blocks := rfl
@[simp] theorem State.modBoot_regions : (s.modBoot f).regions = s.regions := rfl
@[simp] theorem State.modBoot_chans : (s.modBoot f).chans = s.chans := rfl
@[simp] theorem State.modBoot_pwr : (s.modBoot f).pwr = s.pwr := rfl
@[simp] theorem State.modBoot_dram : (s.modBoot f).dram = s.dram := rfl
@[simp] theorem State.modBoot_lineKey : (s.modBoot f).lineKey = s.lineKey := rfl
@[simp] theorem State.modBoot_fillKey : (s.modBoot f).fillKey = s.fillKey := rfl
@[simp] theorem State.modBoot_poison : (s.modBoot f).poison = s.poison := rfl
@[simp] theorem State.modBoot_capacity : (s.modBoot f).capacity = s.capacity := rfl
@[simp] theorem State.modBoot_nchan : (s.modBoot f).nchan = s.nchan := rfl
@[simp] theorem State.modBoot_gran : (s.modBoot f).gran = s.gran := rfl
@[simp] theorem State.modBoot_devcorr : (s.modBoot f).devcorr = s.devcorr := rfl
@[simp] theorem State.modBoot_sram : (s.modBoot f).sram = s.sram := rfl
@[simp] theorem State.modBoot_slcRam : (s.modBoot f).slcRam = s.slcRam := rfl
@[simp] theorem State.modBoot_flash : (s.modBoot f).flash = s.flash := rfl
@[simp] theorem State.modBoot_noon : (s.modBoot f).noon = s.noon := rfl
@[simp] theorem State.modBoot_waymask : (s.modBoot f).waymask = s.waymask := rfl
@[simp] theorem State.modBoot_ambmp : (s.modBoot f).ambmp = s.ambmp := rfl
@[simp] theorem State.modBoot_route : (s.modBoot f).route = s.route := rfl
@[simp] theorem State.modBoot_mroute : (s.modBoot f).mroute = s.mroute := rfl
@[simp] theorem State.modBoot_chipDrops : (s.modBoot f).chipDrops = s.chipDrops := rfl
@[simp] theorem State.modBoot_chipLog : (s.modBoot f).chipLog = s.chipLog := rfl
@[simp] theorem State.modBoot_replayT : (s.modBoot f).replayT = s.replayT := rfl
@[simp] theorem State.modBoot_treeT : (s.modBoot f).treeT = s.treeT := rfl
@[simp] theorem State.modBoot_keys : (s.modBoot f).keys = s.keys := rfl
@[simp] theorem State.modBoot_sd : (s.modBoot f).sd = s.sd := rfl
@[simp] theorem State.modBoot_slate : (s.modBoot f).slate = s.slate := rfl
@[simp] theorem State.modBoot_lbist : (s.modBoot f).lbist = s.lbist := rfl
@[simp] theorem State.modBoot_lbistSel : (s.modBoot f).lbistSel = s.lbistSel := rfl
@[simp] theorem State.modBoot_out : (s.modBoot f).out = s.out := rfl
end modBoot

section modSlate
variable (f : Slate → Slate)
@[simp] theorem State.modSlate_pending : (s.modSlate f).pending = s.pending := rfl
@[simp] theorem State.modSlate_free : (s.modSlate f).free = s.free := rfl
@[simp] theorem State.modSlate_waits : (s.modSlate f).waits = s.waits := rfl
@[simp] theorem State.modSlate_fuses : (s.modSlate f).fuses = s.fuses := rfl
@[simp] theorem State.modSlate_mram : (s.modSlate f).mram = s.mram := rfl
@[simp] theorem State.modSlate_pins : (s.modSlate f).pins = s.pins := rfl
@[simp] theorem State.modSlate_stopped : (s.modSlate f).stopped = s.stopped := rfl
@[simp] theorem State.modSlate_scan : (s.modSlate f).scan = s.scan := rfl
@[simp] theorem State.modSlate_cores : (s.modSlate f).cores = s.cores := rfl
@[simp] theorem State.modSlate_blocks : (s.modSlate f).blocks = s.blocks := rfl
@[simp] theorem State.modSlate_regions : (s.modSlate f).regions = s.regions := rfl
@[simp] theorem State.modSlate_chans : (s.modSlate f).chans = s.chans := rfl
@[simp] theorem State.modSlate_pwr : (s.modSlate f).pwr = s.pwr := rfl
@[simp] theorem State.modSlate_dram : (s.modSlate f).dram = s.dram := rfl
@[simp] theorem State.modSlate_lineKey : (s.modSlate f).lineKey = s.lineKey := rfl
@[simp] theorem State.modSlate_fillKey : (s.modSlate f).fillKey = s.fillKey := rfl
@[simp] theorem State.modSlate_poison : (s.modSlate f).poison = s.poison := rfl
@[simp] theorem State.modSlate_capacity : (s.modSlate f).capacity = s.capacity := rfl
@[simp] theorem State.modSlate_nchan : (s.modSlate f).nchan = s.nchan := rfl
@[simp] theorem State.modSlate_gran : (s.modSlate f).gran = s.gran := rfl
@[simp] theorem State.modSlate_devcorr : (s.modSlate f).devcorr = s.devcorr := rfl
@[simp] theorem State.modSlate_sram : (s.modSlate f).sram = s.sram := rfl
@[simp] theorem State.modSlate_slcRam : (s.modSlate f).slcRam = s.slcRam := rfl
@[simp] theorem State.modSlate_flash : (s.modSlate f).flash = s.flash := rfl
@[simp] theorem State.modSlate_noon : (s.modSlate f).noon = s.noon := rfl
@[simp] theorem State.modSlate_waymask : (s.modSlate f).waymask = s.waymask := rfl
@[simp] theorem State.modSlate_ambmp : (s.modSlate f).ambmp = s.ambmp := rfl
@[simp] theorem State.modSlate_route : (s.modSlate f).route = s.route := rfl
@[simp] theorem State.modSlate_mroute : (s.modSlate f).mroute = s.mroute := rfl
@[simp] theorem State.modSlate_chipDrops : (s.modSlate f).chipDrops = s.chipDrops := rfl
@[simp] theorem State.modSlate_chipLog : (s.modSlate f).chipLog = s.chipLog := rfl
@[simp] theorem State.modSlate_replayT : (s.modSlate f).replayT = s.replayT := rfl
@[simp] theorem State.modSlate_treeT : (s.modSlate f).treeT = s.treeT := rfl
@[simp] theorem State.modSlate_keys : (s.modSlate f).keys = s.keys := rfl
@[simp] theorem State.modSlate_sd : (s.modSlate f).sd = s.sd := rfl
@[simp] theorem State.modSlate_boot : (s.modSlate f).boot = s.boot := rfl
@[simp] theorem State.modSlate_lbist : (s.modSlate f).lbist = s.lbist := rfl
@[simp] theorem State.modSlate_lbistSel : (s.modSlate f).lbistSel = s.lbistSel := rfl
@[simp] theorem State.modSlate_out : (s.modSlate f).out = s.out := rfl
end modSlate

section emit
variable (o : Out)
@[simp] theorem State.emit_pending : (s.emit o).pending = s.pending := rfl
@[simp] theorem State.emit_free : (s.emit o).free = s.free := rfl
@[simp] theorem State.emit_waits : (s.emit o).waits = s.waits := rfl
@[simp] theorem State.emit_fuses : (s.emit o).fuses = s.fuses := rfl
@[simp] theorem State.emit_mram : (s.emit o).mram = s.mram := rfl
@[simp] theorem State.emit_pins : (s.emit o).pins = s.pins := rfl
@[simp] theorem State.emit_stopped : (s.emit o).stopped = s.stopped := rfl
@[simp] theorem State.emit_scan : (s.emit o).scan = s.scan := rfl
@[simp] theorem State.emit_cores : (s.emit o).cores = s.cores := rfl
@[simp] theorem State.emit_blocks : (s.emit o).blocks = s.blocks := rfl
@[simp] theorem State.emit_regions : (s.emit o).regions = s.regions := rfl
@[simp] theorem State.emit_chans : (s.emit o).chans = s.chans := rfl
@[simp] theorem State.emit_pwr : (s.emit o).pwr = s.pwr := rfl
@[simp] theorem State.emit_dram : (s.emit o).dram = s.dram := rfl
@[simp] theorem State.emit_lineKey : (s.emit o).lineKey = s.lineKey := rfl
@[simp] theorem State.emit_fillKey : (s.emit o).fillKey = s.fillKey := rfl
@[simp] theorem State.emit_poison : (s.emit o).poison = s.poison := rfl
@[simp] theorem State.emit_capacity : (s.emit o).capacity = s.capacity := rfl
@[simp] theorem State.emit_nchan : (s.emit o).nchan = s.nchan := rfl
@[simp] theorem State.emit_gran : (s.emit o).gran = s.gran := rfl
@[simp] theorem State.emit_devcorr : (s.emit o).devcorr = s.devcorr := rfl
@[simp] theorem State.emit_sram : (s.emit o).sram = s.sram := rfl
@[simp] theorem State.emit_slcRam : (s.emit o).slcRam = s.slcRam := rfl
@[simp] theorem State.emit_flash : (s.emit o).flash = s.flash := rfl
@[simp] theorem State.emit_noon : (s.emit o).noon = s.noon := rfl
@[simp] theorem State.emit_waymask : (s.emit o).waymask = s.waymask := rfl
@[simp] theorem State.emit_ambmp : (s.emit o).ambmp = s.ambmp := rfl
@[simp] theorem State.emit_route : (s.emit o).route = s.route := rfl
@[simp] theorem State.emit_mroute : (s.emit o).mroute = s.mroute := rfl
@[simp] theorem State.emit_chipDrops : (s.emit o).chipDrops = s.chipDrops := rfl
@[simp] theorem State.emit_chipLog : (s.emit o).chipLog = s.chipLog := rfl
@[simp] theorem State.emit_replayT : (s.emit o).replayT = s.replayT := rfl
@[simp] theorem State.emit_treeT : (s.emit o).treeT = s.treeT := rfl
@[simp] theorem State.emit_keys : (s.emit o).keys = s.keys := rfl
@[simp] theorem State.emit_sd : (s.emit o).sd = s.sd := rfl
@[simp] theorem State.emit_boot : (s.emit o).boot = s.boot := rfl
@[simp] theorem State.emit_slate : (s.emit o).slate = s.slate := rfl
@[simp] theorem State.emit_lbist : (s.emit o).lbist = s.lbist := rfl
@[simp] theorem State.emit_lbistSel : (s.emit o).lbistSel = s.lbistSel := rfl
end emit

section await
@[simp] theorem State.await_pending : (s.await).pending = s.pending := rfl
@[simp] theorem State.await_free : (s.await).free = s.free := rfl
@[simp] theorem State.await_fuses : (s.await).fuses = s.fuses := rfl
@[simp] theorem State.await_mram : (s.await).mram = s.mram := rfl
@[simp] theorem State.await_pins : (s.await).pins = s.pins := rfl
@[simp] theorem State.await_stopped : (s.await).stopped = s.stopped := rfl
@[simp] theorem State.await_scan : (s.await).scan = s.scan := rfl
@[simp] theorem State.await_cores : (s.await).cores = s.cores := rfl
@[simp] theorem State.await_blocks : (s.await).blocks = s.blocks := rfl
@[simp] theorem State.await_regions : (s.await).regions = s.regions := rfl
@[simp] theorem State.await_chans : (s.await).chans = s.chans := rfl
@[simp] theorem State.await_pwr : (s.await).pwr = s.pwr := rfl
@[simp] theorem State.await_dram : (s.await).dram = s.dram := rfl
@[simp] theorem State.await_lineKey : (s.await).lineKey = s.lineKey := rfl
@[simp] theorem State.await_fillKey : (s.await).fillKey = s.fillKey := rfl
@[simp] theorem State.await_poison : (s.await).poison = s.poison := rfl
@[simp] theorem State.await_capacity : (s.await).capacity = s.capacity := rfl
@[simp] theorem State.await_nchan : (s.await).nchan = s.nchan := rfl
@[simp] theorem State.await_gran : (s.await).gran = s.gran := rfl
@[simp] theorem State.await_devcorr : (s.await).devcorr = s.devcorr := rfl
@[simp] theorem State.await_sram : (s.await).sram = s.sram := rfl
@[simp] theorem State.await_slcRam : (s.await).slcRam = s.slcRam := rfl
@[simp] theorem State.await_flash : (s.await).flash = s.flash := rfl
@[simp] theorem State.await_noon : (s.await).noon = s.noon := rfl
@[simp] theorem State.await_waymask : (s.await).waymask = s.waymask := rfl
@[simp] theorem State.await_ambmp : (s.await).ambmp = s.ambmp := rfl
@[simp] theorem State.await_route : (s.await).route = s.route := rfl
@[simp] theorem State.await_mroute : (s.await).mroute = s.mroute := rfl
@[simp] theorem State.await_chipDrops : (s.await).chipDrops = s.chipDrops := rfl
@[simp] theorem State.await_chipLog : (s.await).chipLog = s.chipLog := rfl
@[simp] theorem State.await_replayT : (s.await).replayT = s.replayT := rfl
@[simp] theorem State.await_treeT : (s.await).treeT = s.treeT := rfl
@[simp] theorem State.await_keys : (s.await).keys = s.keys := rfl
@[simp] theorem State.await_sd : (s.await).sd = s.sd := rfl
@[simp] theorem State.await_boot : (s.await).boot = s.boot := rfl
@[simp] theorem State.await_slate : (s.await).slate = s.slate := rfl
@[simp] theorem State.await_lbist : (s.await).lbist = s.lbist := rfl
@[simp] theorem State.await_lbistSel : (s.await).lbistSel = s.lbistSel := rfl
@[simp] theorem State.await_out : (s.await).out = s.out := rfl
end await

/-! ### Units by number -/

@[simp] theorem State.core_setCore (c : Nat) (k : Core) : (s.setCore c k).core c = k := SMap.get_set_self ..
@[simp] theorem State.setCore_setCore (c : Nat) (k k' : Core) : (s.setCore c k).setCore c k' = s.setCore c k' := by
  simp [State.setCore, SMap.set_set]
theorem State.core_setCore_ne {c d : Nat} (k : Core) (h : d ≠ c) : (s.setCore c k).core d = s.core d :=
  SMap.get_set_ne _ _ _ h
@[simp] theorem State.core_modCore (c : Nat) (f : Core → Core) : (s.modCore c f).core c = f (s.core c) :=
  SMap.get_set_self ..
theorem State.core_modCore_ne {c d : Nat} (f : Core → Core) (h : d ≠ c) : (s.modCore c f).core d = s.core d :=
  SMap.get_set_ne _ _ _ h
@[simp] theorem State.block_setBlock (b : Nat) (x : Block) : (s.setBlock b x).block b = x := SMap.get_set_self ..
@[simp] theorem State.block_modBlock (b : Nat) (f : Block → Block) : (s.modBlock b f).block b = f (s.block b) :=
  SMap.get_set_self ..
theorem State.block_modBlock_ne {b d : Nat} (f : Block → Block) (h : d ≠ b) : (s.modBlock b f).block d = s.block d :=
  SMap.get_set_ne _ _ _ h
@[simp] theorem State.region_modRegion (r : Nat) (f : Region → Region) : (s.modRegion r f).region r = f (s.region r) :=
  SMap.get_set_self ..
theorem State.region_modRegion_ne {r d : Nat} (f : Region → Region) (h : d ≠ r) :
    (s.modRegion r f).region d = s.region d := SMap.get_set_ne _ _ _ h
@[simp] theorem State.chan_modChan (c : Nat) (f : Chan → Chan) : (s.modChan c f).chan c = f (s.chan c) :=
  SMap.get_set_self ..
theorem State.chan_modChan_ne {c d : Nat} (f : Chan → Chan) (h : d ≠ c) : (s.modChan c f).chan d = s.chan d :=
  SMap.get_set_ne _ _ _ h
@[simp] theorem State.dom_modDom (i : Nat) (f : Pwr → Pwr) : (s.modDom i f).dom i = f (s.dom i) := SMap.get_set_self ..
theorem State.dom_modDom_ne {i d : Nat} (f : Pwr → Pwr) (h : d ≠ i) : (s.modDom i f).dom d = s.dom d :=
  SMap.get_set_ne _ _ _ h
@[simp] theorem State.noon_modNoon (f : Noon → Noon) : (s.modNoon f).noon = f s.noon := rfl
@[simp] theorem State.boot_modBoot (f : Boot → Boot) : (s.modBoot f).boot = f s.boot := rfl
@[simp] theorem State.slate_modSlate (f : Slate → Slate) : (s.modSlate f).slate = f s.slate := rfl
@[simp] theorem State.out_emit (o : Out) : (s.emit o).out = o :: s.out := rfl
@[simp] theorem State.fn_modFn (r : Nat) (f : Fn → Fn) : (s.modFn r f).fn r = f (s.fn r) := by
  simp [State.fn, State.modFn]
@[simp] theorem State.inst_modInst (r i : Nat) (f : Inst → Inst) : (s.modInst r i f).inst r i = f (s.inst r i) := by
  simp [State.inst, State.modInst]
@[simp] theorem State.port_modPort (r i : Nat) (f : Port → Port) : (s.modPort r i f).port r i = f (s.port r i) := by
  simp [State.port, State.modPort]
@[simp] theorem State.core_emit (o : Out) (c : Nat) : (s.emit o).core c = s.core c := rfl
@[simp] theorem State.block_setCore (c : Nat) (k : Core) (j : Nat) : (s.setCore c k).block j = s.block j := rfl
@[simp] theorem State.region_setCore (c : Nat) (k : Core) (j : Nat) : (s.setCore c k).region j = s.region j := rfl
@[simp] theorem State.chan_setCore (c : Nat) (k : Core) (j : Nat) : (s.setCore c k).chan j = s.chan j := rfl
@[simp] theorem State.dom_setCore (c : Nat) (k : Core) (j : Nat) : (s.setCore c k).dom j = s.dom j := rfl
@[simp] theorem State.fn_setCore (c : Nat) (k : Core) (j : Nat) : (s.setCore c k).fn j = s.fn j := rfl
@[simp] theorem State.block_modCore (c : Nat) (f : Core → Core) (j : Nat) : (s.modCore c f).block j = s.block j := rfl
@[simp] theorem State.region_modCore (c : Nat) (f : Core → Core) (j : Nat) : (s.modCore c f).region j = s.region j := rfl
@[simp] theorem State.chan_modCore (c : Nat) (f : Core → Core) (j : Nat) : (s.modCore c f).chan j = s.chan j := rfl
@[simp] theorem State.dom_modCore (c : Nat) (f : Core → Core) (j : Nat) : (s.modCore c f).dom j = s.dom j := rfl
@[simp] theorem State.fn_modCore (c : Nat) (f : Core → Core) (j : Nat) : (s.modCore c f).fn j = s.fn j := rfl
@[simp] theorem State.core_setBlock (b : Nat) (x : Block) (j : Nat) : (s.setBlock b x).core j = s.core j := rfl
@[simp] theorem State.region_setBlock (b : Nat) (x : Block) (j : Nat) : (s.setBlock b x).region j = s.region j := rfl
@[simp] theorem State.chan_setBlock (b : Nat) (x : Block) (j : Nat) : (s.setBlock b x).chan j = s.chan j := rfl
@[simp] theorem State.dom_setBlock (b : Nat) (x : Block) (j : Nat) : (s.setBlock b x).dom j = s.dom j := rfl
@[simp] theorem State.fn_setBlock (b : Nat) (x : Block) (j : Nat) : (s.setBlock b x).fn j = s.fn j := rfl
@[simp] theorem State.core_modBlock (b : Nat) (f : Block → Block) (j : Nat) : (s.modBlock b f).core j = s.core j := rfl
@[simp] theorem State.region_modBlock (b : Nat) (f : Block → Block) (j : Nat) : (s.modBlock b f).region j = s.region j := rfl
@[simp] theorem State.chan_modBlock (b : Nat) (f : Block → Block) (j : Nat) : (s.modBlock b f).chan j = s.chan j := rfl
@[simp] theorem State.dom_modBlock (b : Nat) (f : Block → Block) (j : Nat) : (s.modBlock b f).dom j = s.dom j := rfl
@[simp] theorem State.fn_modBlock (b : Nat) (f : Block → Block) (j : Nat) : (s.modBlock b f).fn j = s.fn j := rfl
@[simp] theorem State.core_modRegion (r : Nat) (f : Region → Region) (j : Nat) : (s.modRegion r f).core j = s.core j := rfl
@[simp] theorem State.block_modRegion (r : Nat) (f : Region → Region) (j : Nat) : (s.modRegion r f).block j = s.block j := rfl
@[simp] theorem State.chan_modRegion (r : Nat) (f : Region → Region) (j : Nat) : (s.modRegion r f).chan j = s.chan j := rfl
@[simp] theorem State.dom_modRegion (r : Nat) (f : Region → Region) (j : Nat) : (s.modRegion r f).dom j = s.dom j := rfl
@[simp] theorem State.core_modFn (r : Nat) (f : Fn → Fn) (j : Nat) : (s.modFn r f).core j = s.core j := rfl
@[simp] theorem State.block_modFn (r : Nat) (f : Fn → Fn) (j : Nat) : (s.modFn r f).block j = s.block j := rfl
@[simp] theorem State.chan_modFn (r : Nat) (f : Fn → Fn) (j : Nat) : (s.modFn r f).chan j = s.chan j := rfl
@[simp] theorem State.dom_modFn (r : Nat) (f : Fn → Fn) (j : Nat) : (s.modFn r f).dom j = s.dom j := rfl
@[simp] theorem State.core_modInst (r i : Nat) (f : Inst → Inst) (j : Nat) : (s.modInst r i f).core j = s.core j := rfl
@[simp] theorem State.block_modInst (r i : Nat) (f : Inst → Inst) (j : Nat) : (s.modInst r i f).block j = s.block j := rfl
@[simp] theorem State.chan_modInst (r i : Nat) (f : Inst → Inst) (j : Nat) : (s.modInst r i f).chan j = s.chan j := rfl
@[simp] theorem State.dom_modInst (r i : Nat) (f : Inst → Inst) (j : Nat) : (s.modInst r i f).dom j = s.dom j := rfl
@[simp] theorem State.core_modPort (r i : Nat) (f : Port → Port) (j : Nat) : (s.modPort r i f).core j = s.core j := rfl
@[simp] theorem State.block_modPort (r i : Nat) (f : Port → Port) (j : Nat) : (s.modPort r i f).block j = s.block j := rfl
@[simp] theorem State.chan_modPort (r i : Nat) (f : Port → Port) (j : Nat) : (s.modPort r i f).chan j = s.chan j := rfl
@[simp] theorem State.dom_modPort (r i : Nat) (f : Port → Port) (j : Nat) : (s.modPort r i f).dom j = s.dom j := rfl
@[simp] theorem State.core_modChan (c : Nat) (f : Chan → Chan) (j : Nat) : (s.modChan c f).core j = s.core j := rfl
@[simp] theorem State.block_modChan (c : Nat) (f : Chan → Chan) (j : Nat) : (s.modChan c f).block j = s.block j := rfl
@[simp] theorem State.region_modChan (c : Nat) (f : Chan → Chan) (j : Nat) : (s.modChan c f).region j = s.region j := rfl
@[simp] theorem State.dom_modChan (c : Nat) (f : Chan → Chan) (j : Nat) : (s.modChan c f).dom j = s.dom j := rfl
@[simp] theorem State.fn_modChan (c : Nat) (f : Chan → Chan) (j : Nat) : (s.modChan c f).fn j = s.fn j := rfl
@[simp] theorem State.core_modDom (i : Nat) (f : Pwr → Pwr) (j : Nat) : (s.modDom i f).core j = s.core j := rfl
@[simp] theorem State.block_modDom (i : Nat) (f : Pwr → Pwr) (j : Nat) : (s.modDom i f).block j = s.block j := rfl
@[simp] theorem State.region_modDom (i : Nat) (f : Pwr → Pwr) (j : Nat) : (s.modDom i f).region j = s.region j := rfl
@[simp] theorem State.chan_modDom (i : Nat) (f : Pwr → Pwr) (j : Nat) : (s.modDom i f).chan j = s.chan j := rfl
@[simp] theorem State.fn_modDom (i : Nat) (f : Pwr → Pwr) (j : Nat) : (s.modDom i f).fn j = s.fn j := rfl
@[simp] theorem State.core_modNoon (f : Noon → Noon) (j : Nat) : (s.modNoon f).core j = s.core j := rfl
@[simp] theorem State.block_modNoon (f : Noon → Noon) (j : Nat) : (s.modNoon f).block j = s.block j := rfl
@[simp] theorem State.region_modNoon (f : Noon → Noon) (j : Nat) : (s.modNoon f).region j = s.region j := rfl
@[simp] theorem State.chan_modNoon (f : Noon → Noon) (j : Nat) : (s.modNoon f).chan j = s.chan j := rfl
@[simp] theorem State.dom_modNoon (f : Noon → Noon) (j : Nat) : (s.modNoon f).dom j = s.dom j := rfl
@[simp] theorem State.fn_modNoon (f : Noon → Noon) (j : Nat) : (s.modNoon f).fn j = s.fn j := rfl
@[simp] theorem State.core_modBoot (f : Boot → Boot) (j : Nat) : (s.modBoot f).core j = s.core j := rfl
@[simp] theorem State.block_modBoot (f : Boot → Boot) (j : Nat) : (s.modBoot f).block j = s.block j := rfl
@[simp] theorem State.region_modBoot (f : Boot → Boot) (j : Nat) : (s.modBoot f).region j = s.region j := rfl
@[simp] theorem State.chan_modBoot (f : Boot → Boot) (j : Nat) : (s.modBoot f).chan j = s.chan j := rfl
@[simp] theorem State.dom_modBoot (f : Boot → Boot) (j : Nat) : (s.modBoot f).dom j = s.dom j := rfl
@[simp] theorem State.fn_modBoot (f : Boot → Boot) (j : Nat) : (s.modBoot f).fn j = s.fn j := rfl
@[simp] theorem State.core_modSlate (f : Slate → Slate) (j : Nat) : (s.modSlate f).core j = s.core j := rfl
@[simp] theorem State.block_modSlate (f : Slate → Slate) (j : Nat) : (s.modSlate f).block j = s.block j := rfl
@[simp] theorem State.region_modSlate (f : Slate → Slate) (j : Nat) : (s.modSlate f).region j = s.region j := rfl
@[simp] theorem State.chan_modSlate (f : Slate → Slate) (j : Nat) : (s.modSlate f).chan j = s.chan j := rfl
@[simp] theorem State.dom_modSlate (f : Slate → Slate) (j : Nat) : (s.modSlate f).dom j = s.dom j := rfl
@[simp] theorem State.fn_modSlate (f : Slate → Slate) (j : Nat) : (s.modSlate f).fn j = s.fn j := rfl
@[simp] theorem State.block_emit (o : Out) (j : Nat) : (s.emit o).block j = s.block j := rfl
@[simp] theorem State.region_emit (o : Out) (j : Nat) : (s.emit o).region j = s.region j := rfl
@[simp] theorem State.chan_emit (o : Out) (j : Nat) : (s.emit o).chan j = s.chan j := rfl
@[simp] theorem State.dom_emit (o : Out) (j : Nat) : (s.emit o).dom j = s.dom j := rfl
@[simp] theorem State.fn_emit (o : Out) (j : Nat) : (s.emit o).fn j = s.fn j := rfl
@[simp] theorem State.core_await (j : Nat) : (s.await).core j = s.core j := rfl
@[simp] theorem State.block_await (j : Nat) : (s.await).block j = s.block j := rfl
@[simp] theorem State.region_await (j : Nat) : (s.await).region j = s.region j := rfl
@[simp] theorem State.chan_await (j : Nat) : (s.await).chan j = s.chan j := rfl
@[simp] theorem State.dom_await (j : Nat) : (s.await).dom j = s.dom j := rfl
@[simp] theorem State.fn_await (j : Nat) : (s.await).fn j = s.fn j := rfl

end Sys2Proof.Machine
end

