-- ==== Sys2Proof/Laws/Issue.lean ====
section
/-! SUPPORT. What an instruction does once its core executes it: the boundary before it is passed once, here, and later
proofs cite these lemmas and never unfold the issue of an instruction. -/

namespace Sys2Proof.Machine

variable {s : State} {c met : Nat} {ser : Bool} {reads writes : List LDest} {body : State → Done}

theorem State.orWait_of (s : State) {t : State} (h : t.waits = false) : s.orWait t = t := by simp [State.orWait, h]

/-- A core that executes an instruction does the instruction's own work. -/
theorem State.issueAs_ready {w : RunState} (h : s.Ready c ser reads) :
    s.issueAs c met w ser reads writes body = s.orWait (State.finish c met (body (s.begun c ser reads writes))) := by
  obtain ⟨live, runs, quiet, whole, fetched, -⟩ := h
  unfold State.issueAs
  have hq : (if (s.core c).half.isSome then none else (s.core c).asyncPick) = none := by
    rcases quiet with q | q <;> simp [q]
  simp only [live, runs, hq, Bool.not_true, Bool.false_or]
  rw [if_neg (by simp), if_neg (by simp)]
  change State.orWait s (match ((s.arrived c ser reads).core c).longs.find? _ with | some _ => _ | none => _) = _
  rw [whole]
  dsimp only
  change State.orWait s (match (s.arrived c ser reads).fetchCheck c with | (.error e, s) => _ | (.ok _, s) => _) = _
  rcases hf : (s.arrived c ser reads).fetchCheck c with ⟨_ | _, s'⟩
  · rw [hf] at fetched; cases fetched
  · dsimp only
    unfold State.begun
    rw [hf]

theorem State.issue_ready (h : s.Ready c ser reads) :
    s.issue c met ser reads writes body = s.orWait (State.finish c met (body (s.begun c ser reads writes))) :=
  State.issueAs_ready h

@[simp] theorem State.cycles_waits (s : State) (c met : Nat) : (s.cycles c met).waits = s.waits := by
  unfold State.cycles; dsimp only; split <;> rfl

@[simp] theorem State.retire_waits (s : State) (c met : Nat) (taken : Bool) (next : W64) :
    (s.retire c met taken next).waits = s.waits := by simp [State.retire, State.retireNow]

theorem State.begun_waits (h : s.Ready c ser reads) : (s.begun c ser reads writes).waits = false := by
  simp [State.begun, h.served]

/-- An instruction whose work ends with its core changed by `f` and nothing else. -/
theorem State.issue_after (h : s.Ready c ser reads) {f : Core → Core}
    (hb : body (s.begun c ser reads writes) = .ok ((s.begun c ser reads writes).modCore c f))
    (hpc : (f ((s.begun c ser reads writes).core c)).pc = ((s.begun c ser reads writes).core c).pc) :
    s.issue c met ser reads writes body = (s.begun c ser reads writes).after c met f := by
  rw [State.issue_ready h, hb, State.finish, State.core_modCore, hpc]
  exact State.orWait_of _ (by simp [State.begun_waits h])

/-- An instruction whose work ends in a state that waits for nothing. -/
theorem State.issue_ok (h : s.Ready c ser reads) {t : State} (hb : body (s.begun c ser reads writes) = .ok t)
    (hw : t.waits = false) :
    s.issue c met ser reads writes body = t.retire c met false ((t.core c).pc + 4) := by
  rw [State.issue_ready h, hb]
  exact State.orWait_of _ (by simp [State.finish, hw])

/-- A core that changes nothing else retires. -/
theorem State.after_id (b : State) (c met : Nat) : b.after c met id = b.retire c met false ((b.core c).pc + 4) := by
  simp only [State.after, State.retire, State.retireNow, State.modCore, State.core_setCore, State.setCore_setCore, id]

/-- An instruction that changes no register of its core by itself. -/
theorem State.issue_id (h : s.Ready c ser reads) {t : State} (hb : body (s.begun c ser reads writes) = .ok t)
    (hw : t.waits = false) : s.issue c met ser reads writes body = t.after c met id :=
  (State.issue_ok h hb hw).trans (State.after_id ..).symm

/-- An instruction that jumps. -/
theorem State.issue_jump (h : s.Ready c ser reads) {t : State} {a : W64}
    (hb : body (s.begun c ser reads writes) = .jump t a) (hw : t.waits = false) :
    s.issue c met ser reads writes body = t.retire c met true a := by
  rw [State.issue_ready h, hb]
  exact State.orWait_of _ (by simp [State.finish, hw])

/-- An instruction that raises an event. -/
theorem State.issue_exc (h : s.Ready c ser reads) {t : State} {e : Exc}
    (hb : body (s.begun c ser reads writes) = .exc t e) :
    s.issue c met ser reads writes body = s.orWait (t.trapped c met e) := by
  rw [State.issue_ready h, hb]; rfl

/-- An instruction of registers only. -/
theorem State.compute_ready {f : Core → Core} (h : s.Ready c false reads) (hpc : ∀ k, (f k).pc = k.pc) :
    s.compute c met reads writes f = (s.begun c false reads writes).after c met f :=
  State.issue_after h rfl (hpc _)

/-- An operation of the register file (R62). -/
theorem State.alu_ready {rd : Reg} {f : Core → W64} (h : s.Ready c false reads) :
    s.alu c met rd reads f = (s.begun c false reads [.g rd]).after c met (fun k => k.setG rd (f k)) :=
  State.compute_ready h (fun _ => rfl)

end Sys2Proof.Machine
end

