-- ==== Sys2Proof/Laws/Keeps.lean ====
section
/-! SUPPORT. What no command of the device undoes (State.Keeps), and its lemmas for updates, sequences and results: every
operation of Machine has one lemma of this kind in Laws/Keeps*.lean, and a proof over exec cites them. -/

namespace Sys2Proof.Machine

/-- The later state `t` keeps of `s`: the queue and the fuses as they were; free values are not drawn again; no
anti-rollback floor, boot counter or number of Vesper records has fallen and no key pair is valid again (R368, R372, R382);
and the memories stay in canonical form. -/
structure State.Keeps (s t : State) : Prop where
  pending : t.pending = s.pending
  fuses : t.fuses = s.fuses
  free : s.free ≤ t.free
  counter : s.boot.counter ≤ t.boot.counter
  floors : ∀ k, SMap.get 0 s.boot.floors k ≤ SMap.get 0 t.boot.floors k
  revoked : ∀ i, s.boot.revoked.testBit i = true → t.boot.revoked.testBit i = true
  vesper : s.boot.vesperN ≤ t.boot.vesperN
  mem : s.MemOk → t.MemOk

theorem State.Keeps.refl (s : State) : s.Keeps s :=
  ⟨rfl, rfl, le_refl _, le_refl _, fun _ => le_refl _, fun _ h => h, le_refl _, fun h => h⟩

theorem State.Keeps.trans {a s t : State} (h : a.Keeps s) (g : s.Keeps t) : a.Keeps t :=
  ⟨g.pending.trans h.pending, g.fuses.trans h.fuses, h.free.trans g.free, h.counter.trans g.counter,
    fun k => (h.floors k).trans (g.floors k), fun i e => g.revoked i (h.revoked i e), h.vesper.trans g.vesper,
    fun m => g.mem (h.mem m)⟩

/-- An update of fields that Keeps does not speak of. -/
theorem State.Keeps.upd {a s : State} (h : a.Keeps s) {xwaits : Bool} {xmram : Mram} {xpins : Pins} {xstopped : Bool} {xscan : Bool} {xcores : List (Nat × Core)} {xblocks : List (Nat × Block)} {xregions : List (Nat × Region)} {xchans : List (Nat × Chan)} {xpwr : List (Nat × Pwr)} {xlineKey : List (Nat × W512)} {xfillKey : W512} {xpoison : List Nat} {xcapacity : Nat} {xnchan : Nat} {xgran : Nat} {xdevcorr : Bool} {xnoon : Noon} {xwaymask : List (Nat × Nat)} {xambmp : List (Nat × W64)} {xroute : List (Nat × W64)} {xmroute : List (Nat × W64)} {xchipDrops : Nat} {xchipLog : Log} {xreplayT : Option Nat} {xtreeT : Option Nat} {xkeys : Keys} {xsd : Sd} {xslate : Slate} {xlbist : List (Nat × Lb)} {xlbistSel : Nat × Nat} {xout : List Out} :
    a.Keeps ⟨s.pending, s.free, xwaits, s.fuses, xmram, xpins, xstopped, xscan, xcores, xblocks, xregions, xchans, xpwr, s.dram, xlineKey, xfillKey, xpoison, xcapacity, xnchan, xgran, xdevcorr, s.sram, s.slcRam, s.flash, xnoon, xwaymask, xambmp, xroute, xmroute, xchipDrops, xchipLog, xreplayT, xtreeT, xkeys, xsd, s.boot, xslate, xlbist, xlbistSel, xout⟩ :=
  ⟨h.pending, h.fuses, h.free, h.counter, h.floors, h.revoked, h.vesper, h.mem⟩

/-- An update of Dawn that leaves its counters, floors and revocations. -/
theorem State.Keeps.updBoot {a s : State} (h : a.Keeps s) {xwaits : Bool} {xmram : Mram} {xpins : Pins} {xstopped : Bool} {xscan : Bool} {xcores : List (Nat × Core)} {xblocks : List (Nat × Block)} {xregions : List (Nat × Region)} {xchans : List (Nat × Chan)} {xpwr : List (Nat × Pwr)} {xlineKey : List (Nat × W512)} {xfillKey : W512} {xpoison : List Nat} {xcapacity : Nat} {xnchan : Nat} {xgran : Nat} {xdevcorr : Bool} {xnoon : Noon} {xwaymask : List (Nat × Nat)} {xambmp : List (Nat × W64)} {xroute : List (Nat × W64)} {xmroute : List (Nat × W64)} {xchipDrops : Nat} {xchipLog : Log} {xreplayT : Option Nat} {xtreeT : Option Nat} {xkeys : Keys} {xsd : Sd} {xslate : Slate} {xlbist : List (Nat × Lb)} {xlbistSel : Nat × Nat} {xout : List Out} {b : Boot}
    (e : b.counter = s.boot.counter ∧ b.floors = s.boot.floors ∧ b.revoked = s.boot.revoked ∧ b.vesperN = s.boot.vesperN) :
    a.Keeps ⟨s.pending, s.free, xwaits, s.fuses, xmram, xpins, xstopped, xscan, xcores, xblocks, xregions, xchans, xpwr, s.dram, xlineKey, xfillKey, xpoison, xcapacity, xnchan, xgran, xdevcorr, s.sram, s.slcRam, s.flash, xnoon, xwaymask, xambmp, xroute, xmroute, xchipDrops, xchipLog, xreplayT, xtreeT, xkeys, xsd, b, xslate, xlbist, xlbistSel, xout⟩ := by
  obtain ⟨e1, e2, e3, e4⟩ := e
  exact ⟨h.pending, h.fuses, h.free, by rw [e1]; exact h.counter, by rw [e2]; exact h.floors, by rw [e3]; exact h.revoked,
    by rw [e4]; exact h.vesper, h.mem⟩

/-- An update of the memories that keeps their canonical form. -/
theorem State.Keeps.updMem {a s : State} (h : a.Keeps s) {xwaits : Bool} {xmram : Mram} {xpins : Pins} {xstopped : Bool} {xscan : Bool} {xcores : List (Nat × Core)} {xblocks : List (Nat × Block)} {xregions : List (Nat × Region)} {xchans : List (Nat × Chan)} {xpwr : List (Nat × Pwr)} {xlineKey : List (Nat × W512)} {xfillKey : W512} {xpoison : List Nat} {xcapacity : Nat} {xnchan : Nat} {xgran : Nat} {xdevcorr : Bool} {xnoon : Noon} {xwaymask : List (Nat × Nat)} {xambmp : List (Nat × W64)} {xroute : List (Nat × W64)} {xmroute : List (Nat × W64)} {xchipDrops : Nat} {xchipLog : Log} {xreplayT : Option Nat} {xtreeT : Option Nat} {xkeys : Keys} {xsd : Sd} {xslate : Slate} {xlbist : List (Nat × Lb)} {xlbistSel : Nat × Nat} {xout : List Out} {d m r f : Mem}
    (e : s.MemOk → d.wf = true ∧ m.wf = true ∧ r.wf = true ∧ f.wf = true) :
    a.Keeps ⟨s.pending, s.free, xwaits, s.fuses, xmram, xpins, xstopped, xscan, xcores, xblocks, xregions, xchans, xpwr, d, xlineKey, xfillKey, xpoison, xcapacity, xnchan, xgran, xdevcorr, m, r, f, xnoon, xwaymask, xambmp, xroute, xmroute, xchipDrops, xchipLog, xreplayT, xtreeT, xkeys, xsd, s.boot, xslate, xlbist, xlbistSel, xout⟩ :=
  ⟨h.pending, h.fuses, h.free, h.counter, h.floors, h.revoked, h.vesper, fun k => e (h.mem k)⟩

/-- Writes of the boot SRAM, SLC-as-RAM and the flash. -/
theorem State.Keeps.updSram {a s : State} (h : a.Keeps s) {xwaits : Bool} {xmram : Mram} {xpins : Pins} {xstopped : Bool} {xscan : Bool} {xcores : List (Nat × Core)} {xblocks : List (Nat × Block)} {xregions : List (Nat × Region)} {xchans : List (Nat × Chan)} {xpwr : List (Nat × Pwr)} {xlineKey : List (Nat × W512)} {xfillKey : W512} {xpoison : List Nat} {xcapacity : Nat} {xnchan : Nat} {xgran : Nat} {xdevcorr : Bool} {xnoon : Noon} {xwaymask : List (Nat × Nat)} {xambmp : List (Nat × W64)} {xroute : List (Nat × W64)} {xmroute : List (Nat × W64)} {xchipDrops : Nat} {xchipLog : Log} {xreplayT : Option Nat} {xtreeT : Option Nat} {xkeys : Keys} {xsd : Sd} {xslate : Slate} {xlbist : List (Nat × Lb)} {xlbistSel : Nat × Nat} {xout : List Out} {i : Nat} {bs : List Byte} : a.Keeps ⟨s.pending, s.free, xwaits, s.fuses, xmram, xpins, xstopped, xscan, xcores, xblocks, xregions, xchans, xpwr, s.dram, xlineKey, xfillKey, xpoison, xcapacity, xnchan, xgran, xdevcorr, s.sram.write i bs, s.slcRam, s.flash, xnoon, xwaymask, xambmp, xroute, xmroute, xchipDrops, xchipLog, xreplayT, xtreeT, xkeys, xsd, s.boot, xslate, xlbist, xlbistSel, xout⟩ :=
  State.Keeps.updMem h (fun m => ⟨m.1, Mem.wf_write _ _ m.2.1, m.2.2⟩)

theorem State.Keeps.updRam {a s : State} (h : a.Keeps s) {xwaits : Bool} {xmram : Mram} {xpins : Pins} {xstopped : Bool} {xscan : Bool} {xcores : List (Nat × Core)} {xblocks : List (Nat × Block)} {xregions : List (Nat × Region)} {xchans : List (Nat × Chan)} {xpwr : List (Nat × Pwr)} {xlineKey : List (Nat × W512)} {xfillKey : W512} {xpoison : List Nat} {xcapacity : Nat} {xnchan : Nat} {xgran : Nat} {xdevcorr : Bool} {xnoon : Noon} {xwaymask : List (Nat × Nat)} {xambmp : List (Nat × W64)} {xroute : List (Nat × W64)} {xmroute : List (Nat × W64)} {xchipDrops : Nat} {xchipLog : Log} {xreplayT : Option Nat} {xtreeT : Option Nat} {xkeys : Keys} {xsd : Sd} {xslate : Slate} {xlbist : List (Nat × Lb)} {xlbistSel : Nat × Nat} {xout : List Out} {i : Nat} {bs : List Byte} : a.Keeps ⟨s.pending, s.free, xwaits, s.fuses, xmram, xpins, xstopped, xscan, xcores, xblocks, xregions, xchans, xpwr, s.dram, xlineKey, xfillKey, xpoison, xcapacity, xnchan, xgran, xdevcorr, s.sram, s.slcRam.write i bs, s.flash, xnoon, xwaymask, xambmp, xroute, xmroute, xchipDrops, xchipLog, xreplayT, xtreeT, xkeys, xsd, s.boot, xslate, xlbist, xlbistSel, xout⟩ :=
  State.Keeps.updMem h (fun m => ⟨m.1, m.2.1, Mem.wf_write _ _ m.2.2.1, m.2.2.2⟩)

theorem State.Keeps.updFlash {a s : State} (h : a.Keeps s) {xwaits : Bool} {xmram : Mram} {xpins : Pins} {xstopped : Bool} {xscan : Bool} {xcores : List (Nat × Core)} {xblocks : List (Nat × Block)} {xregions : List (Nat × Region)} {xchans : List (Nat × Chan)} {xpwr : List (Nat × Pwr)} {xlineKey : List (Nat × W512)} {xfillKey : W512} {xpoison : List Nat} {xcapacity : Nat} {xnchan : Nat} {xgran : Nat} {xdevcorr : Bool} {xnoon : Noon} {xwaymask : List (Nat × Nat)} {xambmp : List (Nat × W64)} {xroute : List (Nat × W64)} {xmroute : List (Nat × W64)} {xchipDrops : Nat} {xchipLog : Log} {xreplayT : Option Nat} {xtreeT : Option Nat} {xkeys : Keys} {xsd : Sd} {xslate : Slate} {xlbist : List (Nat × Lb)} {xlbistSel : Nat × Nat} {xout : List Out} {i : Nat} {bs : List Byte} : a.Keeps ⟨s.pending, s.free, xwaits, s.fuses, xmram, xpins, xstopped, xscan, xcores, xblocks, xregions, xchans, xpwr, s.dram, xlineKey, xfillKey, xpoison, xcapacity, xnchan, xgran, xdevcorr, s.sram, s.slcRam, s.flash.write i bs, xnoon, xwaymask, xambmp, xroute, xmroute, xchipDrops, xchipLog, xreplayT, xtreeT, xkeys, xsd, s.boot, xslate, xlbist, xlbistSel, xout⟩ :=
  State.Keeps.updMem h (fun m => ⟨m.1, m.2.1, m.2.2.1, Mem.wf_write _ _ m.2.2.2⟩)

/-- The state component of a pair. -/
theorem State.Keeps.snd {a t : State} {α : Type} {x : α} {p : α × State} (e : p = (x, t)) (h : a.Keeps p.2) : a.Keeps t := by
  rw [e] at h; exact h

theorem State.Keeps.fst {a t : State} {α : Type} {x : α} {p : State × α} (e : p = (t, x)) (h : a.Keeps p.1) : a.Keeps t := by
  rw [e] at h; exact h

/-- Every state that a result holds has the property. -/
def Done.Holds (P : State → Prop) : Done → Prop
  | .ok s => P s | .jump s _ => P s | .exc s _ => P s | .call s _ => P s | .stay s => P s

def Got.Holds (P : State → Prop) : Got → Prop
  | .ok _ s => P s | .exc s _ => P s | .stay s => P s

def LinkAcc.Holds (P : State → Prop) : LinkAcc → Prop
  | .wait s => P s | .done s _ => P s | .sent s => P s

def DevAcc.Holds (P : State → Prop) : DevAcc → Prop
  | .fault _ => True | .link l => l.Holds P

def Sent.Holds (P : State → Prop) : Sent → Prop
  | .wait s => P s | .ur s => P s | .ok s _ => P s

def Option.Holds (P : State → Prop) : Option State → Prop
  | some s => P s | none => True

theorem Got.Holds.ok {P : State → Prop} {g : Got} {bs : List Byte} {s : State} (e : g = .ok bs s) (h : g.Holds P) : P s := by
  rw [e] at h; exact h
theorem Got.Holds.exc {P : State → Prop} {g : Got} {x : Exc} {s : State} (e : g = .exc s x) (h : g.Holds P) : P s := by
  rw [e] at h; exact h
theorem Got.Holds.stay {P : State → Prop} {g : Got} {s : State} (e : g = .stay s) (h : g.Holds P) : P s := by
  rw [e] at h; exact h
theorem LinkAcc.Holds.wait {P : State → Prop} {g : LinkAcc} {s : State} (e : g = .wait s) (h : g.Holds P) : P s := by
  rw [e] at h; exact h
theorem LinkAcc.Holds.done {P : State → Prop} {g : LinkAcc} {bs : List Byte} {s : State} (e : g = .done s bs) (h : g.Holds P) :
    P s := by
  rw [e] at h; exact h
theorem LinkAcc.Holds.sent {P : State → Prop} {g : LinkAcc} {s : State} (e : g = .sent s) (h : g.Holds P) : P s := by
  rw [e] at h; exact h
theorem DevAcc.Holds.wait {P : State → Prop} {g : DevAcc} {s : State} (e : g = .link (.wait s)) (h : g.Holds P) : P s := by
  rw [e] at h; exact h
theorem DevAcc.Holds.done {P : State → Prop} {g : DevAcc} {bs : List Byte} {s : State} (e : g = .link (.done s bs))
    (h : g.Holds P) : P s := by
  rw [e] at h; exact h
theorem DevAcc.Holds.sent {P : State → Prop} {g : DevAcc} {s : State} (e : g = .link (.sent s)) (h : g.Holds P) : P s := by
  rw [e] at h; exact h
theorem DevAcc.Holds.mkLink {P : State → Prop} {l : LinkAcc} (h : l.Holds P) : DevAcc.Holds P (.link l) := h
theorem DevAcc.Holds.mkFault {P : State → Prop} {n : Nat} : DevAcc.Holds P (.fault n) := trivial
theorem Sent.Holds.wait {P : State → Prop} {g : Sent} {s : State} (e : g = .wait s) (h : g.Holds P) : P s := by
  rw [e] at h; exact h
theorem Sent.Holds.ur {P : State → Prop} {g : Sent} {s : State} (e : g = .ur s) (h : g.Holds P) : P s := by
  rw [e] at h; exact h
theorem Sent.Holds.ok {P : State → Prop} {g : Sent} {s : State} {n : Nat} (e : g = .ok s n) (h : g.Holds P) : P s := by
  rw [e] at h; exact h
theorem Sent.Holds.mkWait {P : State → Prop} {s : State} (h : P s) : Sent.Holds P (.wait s) := h
theorem Sent.Holds.mkUr {P : State → Prop} {s : State} (h : P s) : Sent.Holds P (.ur s) := h
theorem Sent.Holds.mkOk {P : State → Prop} {s : State} {n : Nat} (h : P s) : Sent.Holds P (.ok s n) := h
theorem Sent.Holds.ite {P : State → Prop} {c : Prop} [Decidable c] {x y : Sent} (hx : x.Holds P) (hy : y.Holds P) :
    Sent.Holds P (if c then x else y) := by
  split
  · exact hx
  · exact hy

theorem State.Keeps.getD {a : State} {g : Option State} {s : State} (h : Option.Holds a.Keeps g) (hs : a.Keeps s) :
    a.Keeps (g.getD s) := by
  cases g with
  | none => exact hs
  | some t => exact h
theorem Option.Holds.some {P : State → Prop} {g : Option State} {s : State} (e : g = Option.some s)
    (h : Option.Holds P g) : P s := by
  rw [e] at h; exact h

theorem State.Keeps.ite {a : State} {c : Prop} [Decidable c] {x y : State} (hx : a.Keeps x) (hy : a.Keeps y) :
    a.Keeps (if c then x else y) := by
  split
  · exact hx
  · exact hy

/-- The state of a pair has the property. -/
def SndHolds {α : Type} (P : State → Prop) (p : α × State) : Prop := P p.2
theorem SndHolds.mk {α : Type} {P : State → Prop} {x : α} {s : State} (h : P s) : SndHolds P (x, s) := h

theorem SndHolds.ite {α : Type} {P : State → Prop} {c : Prop} [Decidable c] {x y : α × State} (hx : SndHolds P x)
    (hy : SndHolds P y) : SndHolds P (if c then x else y) := by
  split
  · exact hx
  · exact hy

/-- A result holds what its state holds. -/
theorem Done.Holds.mkOk {P : State → Prop} {s : State} (h : P s) : Done.Holds P (.ok s) := h
theorem Done.Holds.mkJump {P : State → Prop} {s : State} {t : W64} (h : P s) : Done.Holds P (.jump s t) := h
theorem Done.Holds.mkExc {P : State → Prop} {s : State} {e : Exc} (h : P s) : Done.Holds P (.exc s e) := h
theorem Done.Holds.mkCall {P : State → Prop} {s : State} {e : Exc} (h : P s) : Done.Holds P (.call s e) := h
theorem Done.Holds.mkStay {P : State → Prop} {s : State} (h : P s) : Done.Holds P (.stay s) := h
theorem Got.Holds.mkOk {P : State → Prop} {s : State} {bs : List Byte} (h : P s) : Got.Holds P (.ok bs s) := h
theorem Got.Holds.mkExc {P : State → Prop} {s : State} {e : Exc} (h : P s) : Got.Holds P (.exc s e) := h
theorem Got.Holds.mkStay {P : State → Prop} {s : State} (h : P s) : Got.Holds P (.stay s) := h
theorem LinkAcc.Holds.mkWait {P : State → Prop} {s : State} (h : P s) : LinkAcc.Holds P (.wait s) := h
theorem LinkAcc.Holds.mkDone {P : State → Prop} {s : State} {bs : List Byte} (h : P s) : LinkAcc.Holds P (.done s bs) := h
theorem LinkAcc.Holds.mkSent {P : State → Prop} {s : State} (h : P s) : LinkAcc.Holds P (.sent s) := h
theorem Option.Holds.mkSome {P : State → Prop} {s : State} (h : P s) : Option.Holds P (Option.some s) := h
theorem Option.Holds.mkNone {P : State → Prop} : Option.Holds P Option.none := trivial

/-- A fold keeps what every step keeps. -/
theorem State.Keeps.foldl {a : State} {α : Type} {f : State → α → State} {l : List α} {s : State} (h : a.Keeps s)
    (hf : ∀ s x, a.Keeps s → a.Keeps (f s x)) : a.Keeps (l.foldl f s) := by
  induction l generalizing s with
  | nil => exact h
  | cons x t ih => exact ih (hf s x h)

theorem State.Keeps.foldlSnd {a : State} {α β : Type} {f : β × State → α → β × State} {l : List α} {p : β × State}
    (h : a.Keeps p.2) (hf : ∀ p x, a.Keeps p.2 → a.Keeps (f p x).2) : a.Keeps (l.foldl f p).2 := by
  induction l generalizing p with
  | nil => exact h
  | cons x t ih => exact ih (hf p x h)

theorem State.Keeps.foldlFst {a : State} {α β : Type} {f : State × β → α → State × β} {l : List α} {p : State × β}
    (h : a.Keeps p.1) (hf : ∀ p x, a.Keeps p.1 → a.Keeps (f p x).1) : a.Keeps (l.foldl f p).1 := by
  induction l generalizing p with
  | nil => exact h
  | cons x t ih => exact ih (hf p x h)

/-- A floor rises, or stays (R372). -/
theorem State.Keeps.raiseFloor {a s : State} (h : a.Keeps s) (sub n : Nat) :
    a.Keeps (s.modBoot (fun b => { b with floors := SMap.set b.floors sub (max n (SMap.get 0 b.floors sub)) })) := by
  refine ⟨h.pending, h.fuses, h.free, h.counter, fun k => (h.floors k).trans ?_, h.revoked, h.vesper, h.mem⟩
  show _ ≤ SMap.get 0 (SMap.set s.boot.floors sub (max n (SMap.get 0 s.boot.floors sub))) k
  rw [SMap.get_set]
  split
  · rename_i e; rw [e]; exact le_max_right _ _
  · exact le_refl _

/-- A key pair is revoked (R368). -/
theorem State.Keeps.revoke {a s : State} (h : a.Keeps s) (sub n : Nat) :
    a.Keeps (s.modBoot (fun b => { b with revoked := if n = 1 then b.revoked ||| 2 ^ (sub - 1) else b.revoked })) := by
  refine ⟨h.pending, h.fuses, h.free, h.counter, h.floors, fun i e => ?_, h.vesper, h.mem⟩
  show (if n = 1 then s.boot.revoked ||| 2 ^ (sub - 1) else s.boot.revoked).testBit i = true
  split
  · rw [Nat.testBit_or, h.revoked i e]; rfl
  · exact h.revoked i e

theorem State.Keeps.of_map {a : State} {α : Type} {f : α → State} {o : Option α} {s : State} (hs : a.Keeps s)
    (h : ∀ x, a.Keeps (f x)) : a.Keeps (match o with | some x => f x | none => s) := by
  cases o with
  | none => exact hs
  | some x => exact h x

theorem State.Keeps.modBoot {a s : State} (h : a.Keeps s) {f : Boot → Boot}
    (e : ∀ b, (f b).counter = b.counter ∧ (f b).floors = b.floors ∧ (f b).revoked = b.revoked ∧ (f b).vesperN = b.vesperN) :
    a.Keeps (s.modBoot f) := State.Keeps.updBoot h (e s.boot)

end Sys2Proof.Machine
end

