-- ==== Sys2Proof/Laws/KeepsOps.lean ====
section
/-! SUPPORT. What no command undoes (State.Keeps): the shared operations of a core. -/

namespace Sys2Proof.Machine

theorem State.setCore_keeps {a s : State} (h : a.Keeps s) (x1 x2) :
    a.Keeps (State.setCore s x1 x2) := by
  unfold State.setCore
  repeat' (first | with_reducible assumption | fail_if_no_progress (with_reducible apply State.Keeps.upd))

theorem State.modCore_keeps {a s : State} (h : a.Keeps s) (x1 x2) :
    a.Keeps (State.modCore s x1 x2) := by
  unfold State.modCore
  repeat' (first | with_reducible assumption | with_reducible apply State.setCore_keeps)

theorem State.setBlock_keeps {a s : State} (h : a.Keeps s) (x1 x2) :
    a.Keeps (State.setBlock s x1 x2) := by
  unfold State.setBlock
  repeat' (first | with_reducible assumption | fail_if_no_progress (with_reducible apply State.Keeps.upd))

theorem State.modBlock_keeps {a s : State} (h : a.Keeps s) (x1 x2) :
    a.Keeps (State.modBlock s x1 x2) := by
  unfold State.modBlock
  repeat' (first | with_reducible assumption | with_reducible apply State.setBlock_keeps)

theorem State.modRegion_keeps {a s : State} (h : a.Keeps s) (x1 x2) :
    a.Keeps (State.modRegion s x1 x2) := by
  unfold State.modRegion
  repeat' (first | with_reducible assumption | fail_if_no_progress (with_reducible apply State.Keeps.upd))

theorem State.modChan_keeps {a s : State} (h : a.Keeps s) (x1 x2) :
    a.Keeps (State.modChan s x1 x2) := by
  unfold State.modChan
  repeat' (first | with_reducible assumption | fail_if_no_progress (with_reducible apply State.Keeps.upd))

theorem State.modDom_keeps {a s : State} (h : a.Keeps s) (x1 x2) :
    a.Keeps (State.modDom s x1 x2) := by
  unfold State.modDom
  repeat' (first | with_reducible assumption | fail_if_no_progress (with_reducible apply State.Keeps.upd))

theorem State.modNoon_keeps {a s : State} (h : a.Keeps s) (x1) :
    a.Keeps (State.modNoon s x1) := by
  unfold State.modNoon
  repeat' (first | with_reducible assumption | fail_if_no_progress (with_reducible apply State.Keeps.upd))


theorem State.modSlate_keeps {a s : State} (h : a.Keeps s) (x1) :
    a.Keeps (State.modSlate s x1) := by
  unfold State.modSlate
  repeat' (first | with_reducible assumption | fail_if_no_progress (with_reducible apply State.Keeps.upd))

theorem State.modFn_keeps {a s : State} (h : a.Keeps s) (x1 x2) :
    a.Keeps (State.modFn s x1 x2) := by
  unfold State.modFn
  repeat' (first | with_reducible assumption | with_reducible apply State.modRegion_keeps)

theorem State.modInst_keeps {a s : State} (h : a.Keeps s) (x1 x2 x3) :
    a.Keeps (State.modInst s x1 x2 x3) := by
  unfold State.modInst
  repeat' (first | with_reducible assumption | with_reducible apply State.modFn_keeps)

theorem State.modPort_keeps {a s : State} (h : a.Keeps s) (x1 x2 x3) :
    a.Keeps (State.modPort s x1 x2 x3) := by
  unfold State.modPort
  repeat' (first | with_reducible assumption | with_reducible apply State.modRegion_keeps)

theorem State.emit_keeps {a s : State} (h : a.Keeps s) (x1) :
    a.Keeps (State.emit s x1) := by
  unfold State.emit
  repeat' (first | with_reducible assumption | fail_if_no_progress (with_reducible apply State.Keeps.upd))

theorem State.draw_keeps {a s : State} (h : a.Keeps s) : a.Keeps (s.draw).2 :=
  ⟨h.pending, h.fuses, h.free.trans (Nat.le_succ _), h.counter, h.floors, h.revoked, h.vesper, h.mem⟩

theorem State.wakeCore_keeps {a s : State} (h : a.Keeps s) (x1 x2) :
    a.Keeps (State.wakeCore s x1 x2) := by
  unfold State.wakeCore
  repeat' (first | with_reducible assumption | dsimp only | with_reducible apply State.modDom_keeps | split)

theorem State.setRoute_keeps {a s : State} (h : a.Keeps s) (x1 x2 x3) :
    a.Keeps (State.setRoute s x1 x2 x3) := by
  unfold State.setRoute
  repeat' (first | with_reducible assumption | fail_if_no_progress (with_reducible apply State.Keeps.upd) | split)

theorem State.countDrop_keeps {a s : State} (h : a.Keeps s) (x1) :
    a.Keeps (State.countDrop s x1) := by
  unfold State.countDrop
  repeat' (first
      | with_reducible assumption | with_reducible apply State.modRegion_keeps
      | fail_if_no_progress (with_reducible apply State.Keeps.upd) | split)

theorem State.deliverPost_keeps {a s : State} (h : a.Keeps s) (x1 x2) :
    a.Keeps (State.deliverPost s x1 x2) := by
  unfold State.deliverPost
  repeat' (first
      | with_reducible assumption | dsimp only | with_reducible apply State.setRoute_keeps
      | with_reducible apply State.wakeCore_keeps | with_reducible apply State.modCore_keeps | split)

theorem State.post_keeps {a s : State} (h : a.Keeps s) (x1) :
    a.Keeps (State.post s x1) := by
  unfold State.post
  repeat' (first
      | with_reducible assumption | with_reducible apply State.deliverPost_keeps | with_reducible apply State.countDrop_keeps
      | split)

theorem State.posts_keeps {a s : State} (h : a.Keeps s) (x1) :
    a.Keeps (State.posts s x1) := by
  unfold State.posts
  repeat' (first
      | with_reducible assumption | with_reducible apply State.post_keeps | with_reducible apply State.Keeps.foldl | intro _)

theorem State.deliverHeld_keeps {a s : State} (h : a.Keeps s) (x1 x2) :
    a.Keeps (State.deliverHeld s x1 x2) := by
  unfold State.deliverHeld
  repeat' (first
      | with_reducible assumption | dsimp only | with_reducible apply State.modCore_keeps
      | with_reducible apply State.setRoute_keeps | split)

theorem State.writeRoute_keeps {a s : State} (h : a.Keeps s) (x1 x2 x3) :
    a.Keeps (State.writeRoute s x1 x2 x3) := by
  unfold State.writeRoute
  repeat' (first
      | with_reducible assumption | dsimp only | with_reducible apply State.countDrop_keeps
      | with_reducible apply State.setRoute_keeps | split)

theorem State.modLog_keeps {a s : State} (h : a.Keeps s) (x1 x2) :
    a.Keeps (State.modLog s x1 x2) := by
  unfold State.modLog
  repeat' (first
      | with_reducible assumption | with_reducible apply State.modRegion_keeps
      | fail_if_no_progress (with_reducible apply State.Keeps.upd) | split)

theorem State.logRecord_keeps {a s : State} (h : a.Keeps s) (x1 x2) :
    a.Keeps (State.logRecord s x1 x2) := by
  unfold State.logRecord
  repeat' (first
      | with_reducible assumption | dsimp only | with_reducible apply State.modLog_keeps
      | with_reducible apply State.post_keeps | split)

theorem State.record_keeps {a s : State} (h : a.Keeps s) (x1) :
    a.Keeps (State.record s x1) := by
  unfold State.record
  repeat' (first | with_reducible assumption | dsimp only | with_reducible apply State.logRecord_keeps | split)

theorem State.postFrom_keeps {a s : State} (h : a.Keeps s) (x1 x2 x3 x4) :
    a.Keeps (State.postFrom s x1 x2 x3 x4) := by
  unfold State.postFrom
  repeat' (first
      | with_reducible assumption | dsimp only | with_reducible apply State.record_keeps
      | with_reducible apply State.countDrop_keeps | with_reducible apply State.deliverPost_keeps | split)

theorem State.message_keeps {a s : State} (h : a.Keeps s) (x1 x2 x3 x4) :
    a.Keeps (State.message s x1 x2 x3 x4) := by
  unfold State.message
  repeat' (first
      | with_reducible assumption | with_reducible apply State.postFrom_keeps | with_reducible apply State.countDrop_keeps
      | split)

theorem State.poisonProg_keeps {a s : State} (h : a.Keeps s) (x1 x2 x3 x4) :
    a.Keeps (State.poisonProg s x1 x2 x3 x4) := by
  unfold State.poisonProg
  repeat' (first | with_reducible assumption | with_reducible apply State.record_keeps)

theorem State.poisonRecord_keeps {a s : State} (h : a.Keeps s) (x1 x2 x3) :
    a.Keeps (State.poisonRecord s x1 x2 x3) := by
  unfold State.poisonRecord
  repeat' (first | with_reducible assumption | with_reducible apply State.poisonProg_keeps)

end Sys2Proof.Machine
end

