-- ==== Sys2Proof/Laws/KeepsLines.lean ====
section
/-! SUPPORT. What no command undoes (State.Keeps): lines, stores and coherence. -/

namespace Sys2Proof.Machine

theorem State.dramStore_keeps {a s : State} (h : a.Keeps s) (la key d poison) :
    a.Keeps (s.dramStore la key d poison) := by
  unfold State.dramStore
  apply State.Keeps.updMem h
  intro m
  exact ⟨Mem.wf_write _ _ m.1, m.2⟩

theorem State.chanTouch_keeps {a s : State} (h : a.Keeps s) (x1) :
    a.Keeps (State.chanTouch s x1) := by
  unfold State.chanTouch
  repeat' (first
      | with_reducible assumption | dsimp only | with_reducible apply State.modChan_keeps
      | with_reducible apply State.modDom_keeps | split)

theorem State.memWrite_keeps {a s : State} (h : a.Keeps s) (x1 x2 x3 x4 x5) :
    a.Keeps (State.memWrite s x1 x2 x3 x4 x5) := by
  unfold State.memWrite
  repeat' (first
      | with_reducible assumption | dsimp only | with_reducible apply State.chanTouch_keeps
      | with_reducible apply State.dramStore_keeps | with_reducible apply State.modChan_keeps | split)

theorem State.mergeClose_keeps {a s : State} (h : a.Keeps s) (x1 x2) :
    a.Keeps (State.mergeClose s x1 x2) := by
  unfold State.mergeClose
  repeat' (first
      | with_reducible assumption | dsimp only | with_reducible apply State.modChan_keeps
      | with_reducible apply State.memWrite_keeps | split)

theorem State.memRead_keeps {a s : State} (h : a.Keeps s) (x1 x2 x3) :
    a.Keeps (State.memRead s x1 x2 x3).2 := by
  unfold State.memRead
  repeat' (first
      | with_reducible assumption | dsimp only | with_reducible apply State.mergeClose_keeps
      | with_reducible apply State.chanTouch_keeps | split)

theorem State.memPartial_keeps {a s : State} (h : a.Keeps s) (x1 x2 x3 x4 x5) :
    a.Keeps (State.memPartial s x1 x2 x3 x4 x5) := by
  unfold State.memPartial
  repeat' (first
      | with_reducible assumption | dsimp only | with_reducible apply State.chanTouch_keeps
      | with_reducible apply State.modChan_keeps | with_reducible apply State.mergeClose_keeps | split)

theorem State.slcFill_keeps {a s : State} (h : a.Keeps s) (x1 x2 x3 x4 x5 x6 x7) :
    a.Keeps (State.slcFill s x1 x2 x3 x4 x5 x6 x7) := by
  unfold State.slcFill
  repeat' (first
      | with_reducible assumption | dsimp only | with_reducible apply State.setBlock_keeps
      | with_reducible apply State.memWrite_keeps | split)

theorem State.homeData_keeps {a s : State} (h : a.Keeps s) (x1 x2 x3 x4) :
    a.Keeps (State.homeData s x1 x2 x3 x4).2 := by
  unfold State.homeData
  repeat' (first
      | with_reducible assumption | dsimp only | with_reducible apply State.modBlock_keeps
      | with_reducible apply State.memRead_keeps | with_reducible apply State.slcFill_keeps | split)

theorem State.putDir_keeps {a s : State} (h : a.Keeps s) (x1 x2) :
    a.Keeps (State.putDir s x1 x2) := by
  unfold State.putDir
  repeat' (first | with_reducible assumption | with_reducible apply State.modBlock_keeps)

theorem State.delDir_keeps {a s : State} (h : a.Keeps s) (x1 x2) :
    a.Keeps (State.delDir s x1 x2) := by
  unfold State.delDir
  repeat' (first | with_reducible assumption | with_reducible apply State.modBlock_keeps)

theorem State.homeEvn_keeps {a s : State} (h : a.Keeps s) (x1 x2) :
    a.Keeps (State.homeEvn s x1 x2) := by
  unfold State.homeEvn
  repeat' (first
      | with_reducible assumption | dsimp only | with_reducible apply State.delDir_keeps
      | with_reducible apply State.putDir_keeps | split)

theorem State.homeWb_keeps {a s : State} (h : a.Keeps s) (x1 x2) :
    a.Keeps (State.homeWb s x1 x2) := by
  unfold State.homeWb
  repeat' (first
      | with_reducible assumption | with_reducible apply State.homeEvn_keeps | with_reducible apply State.slcFill_keeps)

theorem State.release_keeps {a s : State} (h : a.Keeps s) (x1 x2) :
    a.Keeps (State.release s x1 x2) := by
  unfold State.release
  repeat' (first
      | with_reducible assumption | with_reducible apply State.homeWb_keeps | with_reducible apply State.homeEvn_keeps | split)

theorem State.trimVc_keeps {a s : State} (h : a.Keeps s) (c n : Nat) : a.Keeps (s.trimVc c n) := by
  induction n generalizing s with
  | zero => exact h
  | succ n ih =>
    unfold State.trimVc
    split
    · exact h
    · split
      · exact h
      · exact ih (State.release_keeps (State.setCore_keeps h _ _) _ _)

theorem State.l2Install_keeps {a s : State} (h : a.Keeps s) (x1 x2 x3) :
    a.Keeps (State.l2Install s x1 x2 x3) := by
  unfold State.l2Install
  repeat' (first
      | with_reducible assumption | dsimp only | with_reducible apply State.release_keeps
      | with_reducible apply State.setCore_keeps | with_reducible apply State.trimVc_keeps | split)

theorem State.sbInstall_keeps {a s : State} (h : a.Keeps s) (x1 x2) :
    a.Keeps (State.sbInstall s x1 x2) := by
  unfold State.sbInstall
  repeat' (first
      | with_reducible assumption | dsimp only | with_reducible apply State.release_keeps
      | with_reducible apply State.setCore_keeps | split)

theorem State.recallFrom_keeps {a s : State} (h : a.Keeps s) (x1 x2) :
    a.Keeps (State.recallFrom s x1 x2) := by
  unfold State.recallFrom
  repeat' (first
      | with_reducible assumption | dsimp only | with_reducible apply State.setCore_keeps
      | with_reducible apply State.slcFill_keeps | split)

theorem State.recall_keeps {a s : State} (h : a.Keeps s) (x1) :
    a.Keeps (State.recall s x1) := by
  unfold State.recall
  repeat' (first
      | with_reducible assumption | dsimp only | with_reducible apply State.delDir_keeps
      | with_reducible apply State.recallFrom_keeps | with_reducible apply State.Keeps.foldl | split | intro _)

theorem State.dirAlloc_keeps {a s : State} (h : a.Keeps s) (x1 x2) :
    a.Keeps (State.dirAlloc s x1 x2) := by
  unfold State.dirAlloc
  repeat' (first
      | with_reducible assumption | dsimp only | with_reducible apply State.recall_keeps
      | with_reducible apply State.modBlock_keeps | split)

theorem State.homeStart_keeps {a s : State} (h : a.Keeps s) (x1 x2) :
    a.Keeps (State.homeStart s x1 x2) := by
  unfold State.homeStart
  repeat' (first
      | with_reducible assumption | dsimp only | with_reducible apply State.homeData_keeps
      | with_reducible apply State.dirAlloc_keeps | with_reducible apply State.putDir_keeps | split)

theorem State.await_keeps {a s : State} (h : a.Keeps s) :
    a.Keeps (State.await s) := by
  unfold State.await
  repeat' (first | with_reducible assumption | fail_if_no_progress (with_reducible apply State.Keeps.upd))

theorem State.homeRequest_keeps {a s : State} (h : a.Keeps s) (x1 x2) :
    a.Keeps (State.homeRequest s x1 x2) := by
  unfold State.homeRequest
  repeat' (first
      | with_reducible assumption | dsimp only | with_reducible apply State.modBlock_keeps
      | with_reducible apply State.homeStart_keeps | split)

theorem State.setGrant_keeps {a s : State} (h : a.Keeps s) (x1 x2) :
    a.Keeps (State.setGrant s x1 x2) := by
  unfold State.setGrant
  repeat' (first | with_reducible assumption | with_reducible apply State.putDir_keeps | split)

theorem State.forward_keeps {a s : State} (h : a.Keeps s) (x1 x2) :
    a.Keeps (State.forward s x1 x2) := by
  unfold State.forward
  repeat' (first
      | with_reducible assumption | dsimp only | with_reducible apply State.setCore_keeps
      | with_reducible apply State.slcFill_keeps | with_reducible apply State.setGrant_keeps
      | with_reducible apply State.homeData_keeps | split)

theorem State.invalidate_keeps {a s : State} (h : a.Keeps s) (x1 x2) :
    a.Keeps (State.invalidate s x1 x2) := by
  unfold State.invalidate
  repeat' (first
      | with_reducible assumption | dsimp only | with_reducible apply State.modCore_keeps
      | with_reducible apply State.setGrant_keeps | split)

theorem State.nextQueued_keeps {a s : State} (h : a.Keeps s) (x1) :
    a.Keeps (State.nextQueued s x1) := by
  unfold State.nextQueued
  repeat' (first
      | with_reducible assumption | dsimp only | with_reducible apply State.homeStart_keeps
      | with_reducible apply State.modBlock_keeps | split)

theorem State.ackGrant_keeps {a s : State} (h : a.Keeps s) (x1) :
    a.Keeps (State.ackGrant s x1) := by
  unfold State.ackGrant
  repeat' (first
      | with_reducible assumption | dsimp only | with_reducible apply State.putDir_keeps
      | with_reducible apply State.modCore_keeps | with_reducible apply State.sbInstall_keeps
      | with_reducible apply State.l2Install_keeps | with_reducible apply State.nextQueued_keeps | split)

theorem State.settle_keeps {a s : State} (h : a.Keeps s) (la n : Nat) : a.Keeps (s.settle la n) := by
  induction n generalizing s with
  | zero => exact h
  | succ n ih =>
    unfold State.settle
    split
    · exact h
    · exact ih (State.ackGrant_keeps (State.Keeps.foldl (State.forward_keeps h _ _) (fun _ _ hs => State.invalidate_keeps hs _ _)) _)

theorem State.request_keeps {a s : State} (h : a.Keeps s) (x1 x2) :
    a.Keeps (State.request s x1 x2) := by
  unfold State.request
  repeat' (first
      | with_reducible assumption | dsimp only | with_reducible apply State.settle_keeps
      | with_reducible apply State.homeRequest_keeps)

theorem State.orWait_keeps {a s t : State} (h : a.Keeps s) (ht : a.Keeps t) : a.Keeps (s.orWait t) := by
  unfold State.orWait
  split
  · exact h
  · exact ht

theorem State.crd_keeps {a s : State} (h : a.Keeps s) (x1 x2 x3) :
    a.Keeps (State.crd s x1 x2 x3).2 := by
  unfold State.crd
  repeat' (first
      | with_reducible assumption | dsimp only | with_reducible apply State.await_keeps
      | with_reducible apply State.settle_keeps | with_reducible apply State.setCore_keeps
      | with_reducible apply State.slcFill_keeps | with_reducible apply State.homeData_keeps
      | with_reducible apply State.putDir_keeps | split)

theorem State.cwr_keeps {a s : State} (h : a.Keeps s) (x1 x2 x3 x4 x5) :
    a.Keeps (State.cwr s x1 x2 x3 x4 x5) := by
  unfold State.cwr
  repeat' (first
      | with_reducible assumption | dsimp only | with_reducible apply State.record_keeps
      | with_reducible apply State.await_keeps | with_reducible apply State.recall_keeps
      | with_reducible apply State.settle_keeps | with_reducible apply State.slcFill_keeps
      | with_reducible apply State.memPartial_keeps | with_reducible apply State.homeData_keeps | split)

theorem State.poisonLine_keeps {a s : State} (h : a.Keeps s) (x1 x2 x3) :
    a.Keeps (State.poisonLine s x1 x2 x3) := by
  unfold State.poisonLine
  repeat' (first
      | with_reducible assumption | with_reducible apply State.slcFill_keeps | with_reducible apply State.recall_keeps)

theorem State.readPa_keeps {a s : State} (h : a.Keeps s) (x1 x2 x3 x4) :
    a.Keeps (State.readPa s x1 x2 x3 x4).2 := by
  unfold State.readPa
  repeat' (first | with_reducible assumption | dsimp only | with_reducible apply State.crd_keeps | split)

theorem State.loseResv_keeps {a s : State} (h : a.Keeps s) (x1) :
    a.Keeps (State.loseResv s x1) := by
  unfold State.loseResv
  repeat' (first | with_reducible assumption | dsimp only | fail_if_no_progress (with_reducible apply State.Keeps.upd))

theorem State.writePa_keeps {a s : State} (h : a.Keeps s) (x1 x2 x3 x4 x5) :
    a.Keeps (State.writePa s x1 x2 x3 x4 x5) := by
  unfold State.writePa
  repeat' (first
      | with_reducible assumption | with_reducible apply State.loseResv_keeps | with_reducible apply State.cwr_keeps
      | fail_if_no_progress (with_reducible apply State.Keeps.updSram)
      | fail_if_no_progress (with_reducible apply State.Keeps.updRam) | split)

theorem State.acquire_keeps {a s : State} (h : a.Keeps s) (x1 x2 x3 x4 x5 x6) :
    a.Keeps (State.acquire s x1 x2 x3 x4 x5 x6) := by
  unfold State.acquire
  repeat' (first
      | with_reducible assumption | dsimp only | with_reducible apply State.setCore_keeps
      | with_reducible apply State.l2Install_keeps | with_reducible apply State.request_keeps | split)

theorem State.l1dTouch_keeps {a s : State} (h : a.Keeps s) (x1 x2) :
    a.Keeps (State.l1dTouch s x1 x2) := by
  unfold State.l1dTouch
  repeat' (first | with_reducible assumption | with_reducible apply State.modCore_keeps)

theorem State.loadLine_keeps {a s : State} (h : a.Keeps s) (x1 x2 x3 x4 x5) :
    a.Keeps (State.loadLine s x1 x2 x3 x4 x5).2 := by
  unfold State.loadLine
  repeat' (first
      | with_reducible assumption | dsimp only | with_reducible apply State.crd_keeps
      | with_reducible apply State.l1dTouch_keeps | with_reducible apply State.acquire_keeps | split)

theorem State.storeLine_keeps {a s : State} (h : a.Keeps s) (x1 x2 x3 x4 x5 x6) :
    a.Keeps (State.storeLine s x1 x2 x3 x4 x5 x6) := by
  unfold State.storeLine
  repeat' (first
      | with_reducible assumption | dsimp only | with_reducible apply State.cwr_keeps
      | with_reducible apply State.request_keeps | with_reducible apply State.acquire_keeps
      | with_reducible apply State.modCore_keeps | split)

end Sys2Proof.Machine
end

