-- ==== Sys2Proof/Laws/KeepsCore.lean ====
section
/-! SUPPORT. What no command undoes (State.Keeps): taking events, retiring and issuing. -/

namespace Sys2Proof.Machine

theorem State.ptRead_keeps {a s : State} (h : a.Keeps s) (x1 x2 x3 x4) :
    a.Keeps (State.ptRead s x1 x2 x3 x4).2 := by
  unfold State.ptRead
  repeat' (first
      | with_reducible assumption | dsimp only | with_reducible apply State.loadLine_keeps
      | with_reducible apply State.readPa_keeps | split)

theorem State.setWcache_keeps {a s : State} (h : a.Keeps s) (x1 x2 x3) :
    a.Keeps (State.setWcache s x1 x2 x3) := by
  unfold State.setWcache
  repeat' (first
      | with_reducible assumption | dsimp only | with_reducible apply State.modCore_keeps
      | with_reducible apply State.modRegion_keeps | split)

theorem State.setMarks_keeps {a s : State} (h : a.Keeps s) (x1) :
    a.Keeps (State.setMarks s x1) := by
  unfold State.setMarks
  repeat' (first
      | with_reducible assumption | dsimp only | with_reducible apply State.readPa_keeps
      | with_reducible apply State.writePa_keeps | with_reducible apply State.Keeps.foldl | split | intro _)

theorem State.tableEntry_keeps {a s : State} (h : a.Keeps s) (x1 x2 x3 x4 x5 x6 x7) :
    a.Keeps (State.tableEntry s x1 x2 x3 x4 x5 x6 x7).2 := by
  unfold State.tableEntry
  repeat' (first
      | with_reducible assumption | dsimp only | with_reducible apply State.ptRead_keeps
      | with_reducible apply State.setMarks_keeps | with_reducible apply State.setWcache_keeps
      | with_reducible apply State.draw_keeps | split)

theorem State.walkPhys_keeps {a s : State} (h : a.Keeps s) (x1 x2 x3 x4 x5 x6 x7 x8 x9 x10) :
    a.Keeps (State.walkPhys s x1 x2 x3 x4 x5 x6 x7 x8 x9 x10).2 := by
  induction x9 generalizing s x1 x2 x3 x4 x5 x6 x7 x8 x10 with
  | zero =>
    unfold State.walkPhys
    repeat' (with_reducible assumption)
  | succ n ih =>
    unfold State.walkPhys
    repeat' (first
        | with_reducible assumption | dsimp only | with_reducible apply ih | with_reducible apply State.tableEntry_keeps
        | split)

theorem State.stage2_keeps {a s : State} (h : a.Keeps s) (x1 x2 x3 x4 x5) :
    a.Keeps (State.stage2 s x1 x2 x3 x4 x5).2 := by
  unfold State.stage2
  repeat' (first | with_reducible assumption | dsimp only | with_reducible apply State.walkPhys_keeps | split)

theorem State.walkGuest_keeps {a s : State} (h : a.Keeps s) (x1 x2 x3 x4 x5 x6 x7 x8) :
    a.Keeps (State.walkGuest s x1 x2 x3 x4 x5 x6 x7 x8).2 := by
  induction x7 generalizing s x1 x2 x3 x4 x5 x6 x8 with
  | zero =>
    unfold State.walkGuest
    repeat' (with_reducible assumption)
  | succ n ih =>
    unfold State.walkGuest
    repeat' (first
        | with_reducible assumption | dsimp only | with_reducible apply ih | with_reducible apply State.stage2_keeps
        | with_reducible apply State.tableEntry_keeps | with_reducible refine State.Keeps.snd (by assumption) ?_ | split)

theorem State.walkAll_keeps {a s : State} (h : a.Keeps s) (x1 x2 x3 x4 x5) :
    a.Keeps (State.walkAll s x1 x2 x3 x4 x5).2 := by
  unfold State.walkAll
  repeat' (first
      | with_reducible assumption | dsimp only | with_reducible apply State.walkPhys_keeps
      | with_reducible apply State.stage2_keeps | with_reducible apply State.walkGuest_keeps
      | with_reducible refine State.Keeps.snd (by assumption) ?_ | split)

theorem State.setTlb_keeps {a s : State} (h : a.Keeps s) (x1 x2 x3) :
    a.Keeps (State.setTlb s x1 x2 x3) := by
  unfold State.setTlb
  repeat' (first
      | with_reducible assumption | dsimp only | with_reducible apply State.modCore_keeps
      | with_reducible apply State.modRegion_keeps | split)

theorem State.lookup_keeps {a s : State} (h : a.Keeps s) (x1 x2 x3 x4 x5) :
    a.Keeps (State.lookup s x1 x2 x3 x4 x5).2 := by
  unfold State.lookup
  repeat' (first
      | with_reducible assumption | dsimp only | with_reducible apply State.walkAll_keeps
      | with_reducible apply State.draw_keeps | split)

theorem State.commitXlat_keeps {a s : State} (h : a.Keeps s) (x1 x2 x3 x4 x5 x6) :
    a.Keeps (State.commitXlat s x1 x2 x3 x4 x5 x6) := by
  unfold State.commitXlat
  repeat' (first
      | with_reducible assumption | dsimp only | with_reducible apply State.setMarks_keeps
      | with_reducible apply State.setTlb_keeps | split)

theorem State.cycles_keeps {a s : State} (h : a.Keeps s) (x1 x2) :
    a.Keeps (State.cycles s x1 x2) := by
  unfold State.cycles
  repeat' (first
      | with_reducible assumption | dsimp only | with_reducible apply State.setCore_keeps
      | with_reducible apply State.draw_keeps | split)

theorem State.writeStore_keeps {a s : State} (h : a.Keeps s) (x1 x2) :
    a.Keeps (State.writeStore s x1 x2) := by
  unfold State.writeStore
  repeat' (first
      | with_reducible assumption | with_reducible apply State.storeLine_keeps | with_reducible apply State.modCore_keeps
      | with_reducible apply State.writePa_keeps | split)

theorem State.flushFetch_keeps {a s : State} (h : a.Keeps s) (x1 x2) :
    a.Keeps (State.flushFetch s x1 x2) := by
  unfold State.flushFetch
  repeat' (first | with_reducible assumption | dsimp only | with_reducible apply State.setCore_keeps | split)

theorem State.frameLine_keeps {a s : State} (h : a.Keeps s) (x1 x2 x3 x4) :
    a.Keeps (State.frameLine s x1 x2 x3 x4).2 := by
  unfold State.frameLine
  repeat' (first
      | with_reducible assumption | dsimp only | with_reducible apply State.stage2_keeps
      | with_reducible apply State.setMarks_keeps | with_reducible refine State.Keeps.snd (by assumption) ?_ | split)

theorem State.frameLines_keeps {a s : State} (h : a.Keeps s) (x1 x2 x3 x4) :
    a.Keeps (State.frameLines s x1 x2 x3 x4).2 := by
  unfold State.frameLines
  repeat' (first
      | with_reducible assumption | dsimp only | with_reducible apply State.frameLine_keeps
      | with_reducible refine State.Keeps.snd (by assumption) ?_ | split)

theorem State.stopAtM_keeps {a s : State} (h : a.Keeps s) (x1) :
    a.Keeps (State.stopAtM s x1) := by
  unfold State.stopAtM
  repeat' (first
      | with_reducible assumption | with_reducible apply State.record_keeps | with_reducible apply State.modCore_keeps)

theorem State.enter_keeps {a s : State} (h : a.Keeps s) (x1 x2 x3 x4 x5 x6) :
    a.Keeps (State.enter s x1 x2 x3 x4 x5 x6) := by
  induction x2 generalizing s x1 x3 x4 x5 x6 with
  | zero =>
    unfold State.enter
    repeat' (first | with_reducible assumption | with_reducible apply State.stopAtM_keeps)
  | succ n ih =>
    unfold State.enter
    repeat' (first
        | with_reducible assumption | dsimp only | with_reducible apply ih | with_reducible apply State.stopAtM_keeps
        | with_reducible apply State.frameLines_keeps | with_reducible apply State.cycles_keeps
        | with_reducible apply State.setCore_keeps | with_reducible refine State.Keeps.snd (by assumption) ?_ | split)

theorem State.takeEvent_keeps {a s : State} (h : a.Keeps s) (x1 x2 x3 x4 x5) :
    a.Keeps (State.takeEvent s x1 x2 x3 x4 x5) := by
  unfold State.takeEvent
  repeat' (first
      | with_reducible assumption | dsimp only | with_reducible apply State.modCore_keeps
      | with_reducible apply State.enter_keeps | split)

theorem State.raise_keeps {a s : State} (h : a.Keeps s) (x1 x2) :
    a.Keeps (State.raise s x1 x2) := by
  unfold State.raise
  repeat' (first | with_reducible assumption | dsimp only | with_reducible apply State.takeEvent_keeps)

theorem State.takeAsync_keeps {a s : State} (h : a.Keeps s) (x1 x2) :
    a.Keeps (State.takeAsync s x1 x2) := by
  unfold State.takeAsync
  repeat' (first | with_reducible assumption | with_reducible apply State.takeEvent_keeps)

theorem State.retireNow_keeps {a s : State} (h : a.Keeps s) (x1 x2 x3) :
    a.Keeps (State.retireNow s x1 x2 x3) := by
  unfold State.retireNow
  repeat' (first | with_reducible assumption | dsimp only | with_reducible apply State.modCore_keeps)

theorem State.retire_keeps {a s : State} (h : a.Keeps s) (x1 x2 x3 x4) :
    a.Keeps (State.retire s x1 x2 x3 x4) := by
  unfold State.retire
  repeat' (first
      | with_reducible assumption | with_reducible apply State.cycles_keeps | with_reducible apply State.retireNow_keeps)

theorem State.fetchCheck_keeps {a s : State} (h : a.Keeps s) (x1) :
    a.Keeps (State.fetchCheck s x1).2 := by
  unfold State.fetchCheck
  repeat' (first
      | with_reducible assumption | dsimp only | with_reducible apply State.await_keeps
      | with_reducible apply State.poisonRecord_keeps | with_reducible apply State.modCore_keeps
      | with_reducible apply State.lookup_keeps | with_reducible apply State.commitXlat_keeps
      | with_reducible refine State.Keeps.snd (by assumption) ?_ | split)

theorem State.finish_keeps {a : State} {d : Done} (h : Done.Holds a.Keeps d) (c met) : a.Keeps (State.finish c met d) := by
  cases d with
  | ok s => exact State.retire_keeps h _ _ _ _
  | jump s t => exact State.retire_keeps h _ _ _ _
  | exc s e => exact State.cycles_keeps (State.raise_keeps h _ _) _ _
  | call s e =>
    unfold State.finish
    exact State.cycles_keeps (State.takeEvent_keeps (State.setCore_keeps h _ _) _ _ _ _ _) _ _
  | stay s => exact h

theorem State.issueAs_keeps {a s : State} (h : a.Keeps s) (x1 x2 x3 x4 x5 x6 x7)
    (hx7 : ∀ s, a.Keeps s → Done.Holds a.Keeps (x7 s)) : a.Keeps (State.issueAs s x1 x2 x3 x4 x5 x6 x7) := by
  unfold State.issueAs
  dsimp only
  apply State.orWait_keeps h
  repeat' (first
      | with_reducible assumption | with_reducible apply State.modCore_keeps | with_reducible apply State.takeEvent_keeps
      | with_reducible apply State.takeAsync_keeps | with_reducible apply State.finish_keeps | with_reducible apply hx7
      | with_reducible apply Done.Holds.mkExc | with_reducible refine State.Keeps.snd (by assumption) ?_
      | with_reducible apply State.fetchCheck_keeps | split)

theorem State.issue_keeps {a s : State} (h : a.Keeps s) (x1 x2 x3 x4 x5 x6) (hx6 : ∀ s, a.Keeps s → Done.Holds a.Keeps (x6 s)) :
    a.Keeps (State.issue s x1 x2 x3 x4 x5 x6) := by
  unfold State.issue
  repeat' (first | with_reducible assumption | with_reducible apply State.issueAs_keeps)

theorem State.compute_keeps {a s : State} (h : a.Keeps s) (x1 x2 x3 x4 x5) :
    a.Keeps (State.compute s x1 x2 x3 x4 x5) := by
  unfold State.compute
  repeat' (first
      | with_reducible assumption | with_reducible apply Done.Holds.mkOk | with_reducible apply State.issue_keeps
      | with_reducible apply State.modCore_keeps | intro _)

theorem State.alu_keeps {a s : State} (h : a.Keeps s) (x1 x2 x3 x4 x5) :
    a.Keeps (State.alu s x1 x2 x3 x4 x5) := by
  unfold State.alu
  repeat' (first | with_reducible assumption | with_reducible apply State.compute_keeps)

theorem atLeast_keeps {a s : State} (h : a.Keeps s) (x0 x1 x2) (hx2 : ∀ s, a.Keeps s → Done.Holds a.Keeps (x2 s)) :
    Done.Holds (a.Keeps) (atLeast x0 x1 x2 s) := by
  unfold atLeast
  repeat' (first | with_reducible assumption | with_reducible apply Done.Holds.mkExc | with_reducible apply hx2 | split)

theorem State.readFrame_keeps {a s : State} (h : a.Keeps s) (x1 x2 x3) :
    a.Keeps (State.readFrame s x1 x2 x3).2 := by
  unfold State.readFrame
  repeat' (first
      | with_reducible assumption | dsimp only | with_reducible apply State.loadLine_keeps
      | with_reducible apply State.readPa_keeps | with_reducible apply State.Keeps.foldlSnd | split | intro _)

theorem State.aluRR_keeps {a s : State} (h : a.Keeps s) (x1 x2 x3 x4 x5 x6) :
    a.Keeps (State.aluRR s x1 x2 x3 x4 x5 x6) := by
  unfold State.aluRR
  repeat' (first | with_reducible assumption | with_reducible apply State.alu_keeps)

theorem State.aluR_keeps {a s : State} (h : a.Keeps s) (x1 x2 x3 x4 x5) :
    a.Keeps (State.aluR s x1 x2 x3 x4 x5) := by
  unfold State.aluR
  repeat' (first | with_reducible assumption | with_reducible apply State.alu_keeps)

theorem longDone_keeps {a s : State} (h : a.Keeps s) (x0 x1 x2 x3 x4) :
    Done.Holds (a.Keeps) (longDone x0 x1 x2 x3 x4 s) := by
  unfold longDone
  repeat' (first
      | with_reducible assumption | dsimp only | with_reducible apply Done.Holds.mkOk | with_reducible apply Done.Holds.mkExc
      | with_reducible apply State.setCore_keeps | split)

theorem State.divide_keeps {a s : State} (h : a.Keeps s) (x1 x2 x3 x4 x5) :
    a.Keeps (State.divide s x1 x2 x3 x4 x5) := by
  unfold State.divide
  repeat' (first
      | with_reducible assumption | with_reducible apply State.issue_keeps | with_reducible apply longDone_keeps | intro _)

theorem fpWrite_keeps {a s : State} (h : a.Keeps s) (x0 x1 x3) :
    Done.Holds (a.Keeps) (fpWrite x0 x1 s x3) := by
  unfold fpWrite
  repeat' (first
      | with_reducible assumption | dsimp only | with_reducible apply Done.Holds.mkOk | with_reducible apply Done.Holds.mkExc
      | with_reducible apply State.setCore_keeps | split)

theorem State.fp2_keeps {a s : State} (h : a.Keeps s) (x1 x2 x3 x4 x5 x6 x7) :
    a.Keeps (State.fp2 s x1 x2 x3 x4 x5 x6 x7) := by
  unfold State.fp2
  repeat' (first
      | with_reducible assumption | dsimp only | with_reducible apply State.issue_keeps | with_reducible apply fpWrite_keeps
      | intro _)

theorem State.fp1_keeps {a s : State} (h : a.Keeps s) (x1 x2 x3 x4 x5) :
    a.Keeps (State.fp1 s x1 x2 x3 x4 x5) := by
  unfold State.fp1
  repeat' (first
      | with_reducible assumption | dsimp only | with_reducible apply State.issue_keeps | with_reducible apply fpWrite_keeps
      | intro _)

theorem fpLong_keeps {a s : State} (h : a.Keeps s) (x0 x1 x2) :
    Done.Holds (a.Keeps) (fpLong x0 x1 x2 s) := by
  unfold fpLong
  repeat' (first | with_reducible assumption | with_reducible apply longDone_keeps)

theorem State.vec2_keeps {a s : State} (h : a.Keeps s) (x1 x2 x3 x4 x5 x6) :
    a.Keeps (State.vec2 s x1 x2 x3 x4 x5 x6) := by
  unfold State.vec2
  repeat' (first | with_reducible assumption | with_reducible apply State.compute_keeps)

theorem State.vecE_keeps {a s : State} (h : a.Keeps s) (x1 x2 x3 x4 x5 x6 x7) :
    a.Keeps (State.vecE s x1 x2 x3 x4 x5 x6 x7) := by
  unfold State.vecE
  repeat' (first | with_reducible assumption | with_reducible apply State.vec2_keeps)

theorem State.vecF_keeps {a s : State} (h : a.Keeps s) (x1 x2 x3 x4 x5 x6 x7 x8) :
    a.Keeps (State.vecF s x1 x2 x3 x4 x5 x6 x7 x8) := by
  unfold State.vecF
  repeat' (first
      | with_reducible assumption | dsimp only | with_reducible apply State.issue_keeps | with_reducible apply fpWrite_keeps
      | intro _)

theorem State.cryptoOp_keeps {a s : State} (h : a.Keeps s) (x1 x2 x3 x4 x5 x6 x7) :
    a.Keeps (State.cryptoOp s x1 x2 x3 x4 x5 x6 x7) := by
  unfold State.cryptoOp
  repeat' (first
      | with_reducible assumption | dsimp only | with_reducible apply State.issue_keeps | with_reducible apply longDone_keeps
      | intro _)

theorem accDone_keeps {a s : State} (h : a.Keeps s) (x1 x2 x3 x4) :
    Done.Holds (a.Keeps) (accDone s x1 x2 x3 x4) := by
  unfold accDone
  repeat' (first
      | with_reducible assumption | dsimp only | with_reducible apply Done.Holds.mkOk | with_reducible apply Done.Holds.mkExc
      | with_reducible apply State.modCore_keeps | split)

theorem State.amAdd_keeps {a s : State} (h : a.Keeps s) (x1 x2 x3 x4 x5) :
    a.Keeps (State.amAdd s x1 x2 x3 x4 x5) := by
  unfold State.amAdd
  repeat' (first
      | with_reducible assumption | dsimp only | with_reducible apply Done.Holds.mkExc
      | with_reducible apply State.issue_keeps | with_reducible apply accDone_keeps | split | intro _)

end Sys2Proof.Machine
end

