-- ==== Sys2Proof/Laws/KeepsNoon.lean ====
section
/-! SUPPORT. What no command undoes (State.Keeps): Noon. -/

namespace Sys2Proof.Machine

theorem State.noonKey_keeps {a s : State} (h : a.Keeps s) (x1 x2) :
    a.Keeps (State.noonKey s x1 x2).2 := by
  unfold State.noonKey
  repeat' (first | with_reducible assumption | dsimp only | with_reducible apply State.setCore_keeps)

theorem State.modAct_keeps {a s : State} (h : a.Keeps s) (x1 x2 x3) :
    a.Keeps (State.modAct s x1 x2 x3) := by
  unfold State.modAct
  repeat' (first | with_reducible assumption | with_reducible apply State.modBlock_keeps)

theorem State.delAct_keeps {a s : State} (h : a.Keeps s) (x1 x2) :
    a.Keeps (State.delAct s x1 x2) := by
  unfold State.delAct
  repeat' (first | with_reducible assumption | with_reducible apply State.modBlock_keeps)

theorem State.preChange_keeps {a s : State} (h : a.Keeps s) (x1) :
    a.Keeps (State.preChange s x1) := by
  unfold State.preChange
  repeat' (first
      | with_reducible assumption | with_reducible apply State.recall_keeps | with_reducible apply State.settle_keeps)

theorem State.changeLost_keeps {a s : State} (h : a.Keeps s) (x1 x2 x3 x4) :
    a.Keeps (State.changeLost s x1 x2 x3 x4) := by
  unfold State.changeLost
  repeat' (first | with_reducible assumption | with_reducible apply State.record_keeps)

theorem State.changeLine_keeps {a s : State} (h : a.Keeps s) (x1 x2 x3 x4 x5 x6 x7) :
    a.Keeps (State.changeLine s x1 x2 x3 x4 x5 x6 x7) := by
  unfold State.changeLine
  repeat' (first
      | with_reducible assumption | dsimp only | with_reducible apply State.loseResv_keeps
      | with_reducible apply State.preChange_keeps | with_reducible apply State.slcFill_keeps
      | with_reducible apply State.homeData_keeps | with_reducible apply State.changeLost_keeps
      | fail_if_no_progress (with_reducible apply State.Keeps.updSram)
      | fail_if_no_progress (with_reducible apply State.Keeps.updRam) | split)

theorem State.mergeLine_keeps {a s : State} (h : a.Keeps s) (x1 x2 x3 x4 x5) :
    a.Keeps (State.mergeLine s x1 x2 x3 x4 x5) := by
  unfold State.mergeLine
  repeat' (first
      | with_reducible assumption | dsimp only | with_reducible apply State.preChange_keeps
      | with_reducible apply State.homeData_keeps | with_reducible apply State.changeLost_keeps
      | with_reducible apply State.slcFill_keeps | fail_if_no_progress (with_reducible apply State.Keeps.updRam) | split)

theorem State.setMailbox_keeps {a s : State} (h : a.Keeps s) (x1 x2) :
    a.Keeps (State.setMailbox s x1 x2) := by
  unfold State.setMailbox
  repeat' (first | with_reducible assumption | with_reducible apply State.modBlock_keeps)

theorem State.putMail_keeps {a s : State} (h : a.Keeps s) (x1 x2 x3 x4) :
    Option.Holds (a.Keeps) (State.putMail s x1 x2 x3 x4) := by
  unfold State.putMail
  repeat' (first
      | with_reducible assumption | with_reducible apply Option.Holds.mkSome | with_reducible apply Option.Holds.mkNone
      | with_reducible apply State.wakeCore_keeps | with_reducible apply State.setMailbox_keeps | split)

theorem noonRefuse_keeps {a s : State} (h : a.Keeps s) (x0 x1) :
    Done.Holds (a.Keeps) (noonRefuse x0 x1 s) := by
  unfold noonRefuse
  repeat' (first | with_reducible assumption | with_reducible apply Done.Holds.mkExc | with_reducible apply State.modCore_keeps)

theorem State.postAct_keeps {a s : State} (h : a.Keeps s) (x1 x2 x3 x4 x5) :
    a.Keeps (State.postAct s x1 x2 x3 x4 x5) := by
  unfold State.postAct
  repeat' (first
      | with_reducible assumption | dsimp only | with_reducible apply State.noonKey_keeps
      | with_reducible apply State.modBlock_keeps)

theorem noonWait_keeps {a s : State} (h : a.Keeps s) (x0) :
    Done.Holds (a.Keeps) (noonWait x0 s) := by
  unfold noonWait
  repeat' (first
      | with_reducible assumption | with_reducible apply Done.Holds.mkStay | with_reducible apply State.modCore_keeps)

theorem State.registerAct_keeps {a s : State} (h : a.Keeps s) (x1 x2) :
    a.Keeps (State.registerAct s x1 x2) := by
  unfold State.registerAct
  repeat' (first
      | with_reducible assumption | dsimp only | with_reducible apply State.modAct_keeps
      | with_reducible apply State.preChange_keeps | split)

theorem State.publish_keeps {a s : State} (h : a.Keeps s) (x1 x2 x3) :
    Option.Holds (a.Keeps) (State.publish s x1 x2 x3) := by
  unfold State.publish
  repeat' (first
      | with_reducible assumption | dsimp only | with_reducible apply Option.Holds.mkSome
      | with_reducible apply Option.Holds.mkNone | with_reducible apply State.modBlock_keeps | split)

theorem State.stageEnt_keeps {a s : State} (h : a.Keeps s) (x1 x2) :
    a.Keeps (State.stageEnt s x1 x2) := by
  unfold State.stageEnt
  repeat' (first
      | with_reducible assumption | with_reducible apply State.record_keeps | with_reducible apply State.modBlock_keeps
      | with_reducible apply State.preChange_keeps | split)

theorem State.setReport_keeps {a s : State} (h : a.Keeps s) (x1 x2 x3) :
    a.Keeps (State.setReport s x1 x2 x3) := by
  unfold State.setReport
  repeat' (first
      | with_reducible assumption | with_reducible apply State.modBlock_keeps | with_reducible apply State.modRegion_keeps
      | split)

theorem State.pick_keeps {a s : State} (h : a.Keeps s) (x1 x2) :
    a.Keeps (State.pick s x1 x2).2 := by
  unfold State.pick
  repeat' (first | with_reducible assumption | dsimp only | with_reducible apply State.draw_keeps)

theorem State.stretchWord_keeps {a s : State} (h : a.Keeps s) :
    a.Keeps (State.stretchWord s).2 := by
  unfold State.stretchWord
  repeat' (first | with_reducible assumption | dsimp only | with_reducible apply State.pick_keeps)

theorem State.slipCore_keeps {a s : State} (h : a.Keeps s) (x1 x2) :
    a.Keeps (State.slipCore s x1 x2) := by
  unfold State.slipCore
  repeat' (first
      | with_reducible assumption | dsimp only | with_reducible apply State.modCore_keeps
      | with_reducible apply State.record_keeps | with_reducible apply State.post_keeps | split)

theorem State.passRefs_keeps {a s : State} (h : a.Keeps s) (x1) :
    a.Keeps (State.passRefs s x1) := by
  unfold State.passRefs
  repeat' (first | with_reducible assumption | dsimp only | fail_if_no_progress (with_reducible apply State.Keeps.upd))

theorem State.ppsAccept_keeps {a s : State} (h : a.Keeps s) :
    a.Keeps (State.ppsAccept s) := by
  unfold State.ppsAccept
  repeat' (first | with_reducible assumption | dsimp only | fail_if_no_progress (with_reducible apply State.Keeps.upd))

theorem State.wakeDom_keeps {a s : State} (h : a.Keeps s) (x1 x2) :
    a.Keeps (State.wakeDom s x1 x2) := by
  unfold State.wakeDom
  repeat' (first | with_reducible assumption | dsimp only | with_reducible apply State.modDom_keeps | split)

theorem State.sendReq_keeps {a s : State} (h : a.Keeps s) (x1 x2 x3 x4 x5 x6) :
    Sent.Holds a.Keeps (State.sendReq s x1 x2 x3 x4 x5 x6) := by
  unfold State.sendReq
  refine Sent.Holds.ite h (Sent.Holds.ite (State.wakeDom_keeps h _ _) (Sent.Holds.ite h ?_))
  cases (s.port x1 x2).freeTag with
  | none => exact h
  | some t => exact Sent.Holds.mkOk (State.emit_keeps (State.modPort_keeps (State.modRegion_keeps h _ _) _ _ _) _)

theorem State.sendPosted_keeps {a s : State} (h : a.Keeps s) (x1 x2 x3 x4) :
    Option.Holds (a.Keeps) (State.sendPosted s x1 x2 x3 x4) := by
  unfold State.sendPosted
  repeat' (first
      | with_reducible assumption | dsimp only | with_reducible apply Option.Holds.mkSome
      | with_reducible apply Option.Holds.mkNone | with_reducible apply State.emit_keeps
      | with_reducible apply State.modPort_keeps | with_reducible apply State.modRegion_keeps | split)

theorem State.portRecord_keeps {a s : State} (h : a.Keeps s) (x1 x2 x3 x4 x5 x6) :
    a.Keeps (State.portRecord s x1 x2 x3 x4 x5 x6) := by
  unfold State.portRecord
  repeat' (first | with_reducible assumption | with_reducible apply State.record_keeps)

theorem State.modIotu_keeps {a s : State} (h : a.Keeps s) (x1 x2) :
    a.Keeps (State.modIotu s x1 x2) := by
  unfold State.modIotu
  repeat' (first | with_reducible assumption | with_reducible apply State.modRegion_keeps)

theorem State.iotEvent_keeps {a s : State} (h : a.Keeps s) (x1 x2 x3 x4 x5 x6) :
    a.Keeps (State.iotEvent s x1 x2 x3 x4 x5 x6).2 := by
  unfold State.iotEvent
  repeat' (first
      | with_reducible assumption | dsimp only | with_reducible apply State.post_keeps
      | with_reducible apply State.modIotu_keeps | with_reducible apply State.record_keeps
      | with_reducible apply State.writePa_keeps | split)

theorem State.contextRead_keeps {a s : State} (h : a.Keeps s) (x1 x2) :
    a.Keeps (State.contextRead s x1 x2).2 := by
  change SndHolds a.Keeps (State.contextRead s x1 x2)
  unfold State.contextRead
  repeat' (first
      | with_reducible assumption | extract_lets _ | split | with_reducible apply SndHolds.mk
      | with_reducible apply State.readPa_keeps | with_reducible apply State.record_keeps
      | with_reducible apply State.modIotu_keeps | with_reducible refine State.Keeps.snd (by assumption) ?_)

theorem State.context_keeps {a s : State} (h : a.Keeps s) (x1 x2) :
    a.Keeps (State.context s x1 x2).2 := by
  unfold State.context
  repeat' (first
      | with_reducible assumption | dsimp only | with_reducible apply State.draw_keeps
      | with_reducible apply State.contextRead_keeps | split)

theorem State.ioFault_keeps {a s : State} (h : a.Keeps s) (x1 x2 x3) :
    a.Keeps (State.ioFault s x1 x2 x3).2 := by
  unfold State.ioFault
  repeat' (first | with_reducible assumption | dsimp only | with_reducible apply State.record_keeps | split)

theorem State.ioRegime_keeps {a s : State} (h : a.Keeps s) (x1 x2 x3) :
    a.Keeps (State.ioRegime s x1 x2 x3).2 := by
  unfold State.ioRegime
  repeat' (first
      | with_reducible assumption | dsimp only | with_reducible apply State.stage2_keeps
      | with_reducible apply State.ioFault_keeps | with_reducible apply State.readPa_keeps
      | with_reducible apply State.setMarks_keeps | with_reducible refine State.Keeps.snd (by assumption) ?_ | split)

theorem State.ioLookup_keeps {a s : State} (h : a.Keeps s) (x1 x2 x3 x4) :
    a.Keeps (State.ioLookup s x1 x2 x3 x4).2 := by
  unfold State.ioLookup
  repeat' (first
      | with_reducible assumption | dsimp only | with_reducible apply State.lookup_keeps
      | with_reducible apply State.ioFault_keeps | with_reducible refine State.Keeps.snd (by assumption) ?_ | split)

theorem State.ioXlats_keeps {a s : State} (h : a.Keeps s) (x1 x2 x3 x4) :
    a.Keeps (State.ioXlats s x1 x2 x3 x4).2 := by
  induction x4 generalizing s x1 x2 x3 with
  | nil =>
    unfold State.ioXlats
    repeat' (with_reducible assumption)
  | cons e t ih =>
    unfold State.ioXlats
    repeat' (first
        | with_reducible assumption | dsimp only | with_reducible apply ih | with_reducible apply State.ioLookup_keeps
        | with_reducible refine State.Keeps.snd (by assumption) ?_ | split)

theorem State.ioCommit_keeps {a s : State} (h : a.Keeps s) (x1 x2 x3 x4) :
    a.Keeps (State.ioCommit s x1 x2 x3 x4) := by
  unfold State.ioCommit
  repeat' (first
      | with_reducible assumption | dsimp only | with_reducible apply State.commitXlat_keeps
      | with_reducible apply State.Keeps.foldl | intro _)

theorem State.memRange_keeps {a s : State} (h : a.Keeps s) (x1 x2 x3 x4) :
    a.Keeps (State.memRange s x1 x2 x3 x4).2 := by
  unfold State.memRange
  repeat' (first
      | with_reducible assumption | dsimp only | with_reducible apply State.readPa_keeps
      | with_reducible apply State.Keeps.foldlSnd | intro _)

theorem State.memStore_keeps {a s : State} (h : a.Keeps s) (x1 x2 x3 x4 x5) :
    a.Keeps (State.memStore s x1 x2 x3 x4 x5) := by
  unfold State.memStore
  repeat' (first
      | with_reducible assumption | with_reducible apply State.writePa_keeps | with_reducible apply State.Keeps.foldl
      | intro _)

theorem State.sdGo_keeps {a s : State} (h : a.Keeps s) :
    a.Keeps (State.sdGo s) := by
  unfold State.sdGo
  repeat' (first
      | with_reducible assumption | dsimp only | with_reducible apply State.modCore_keeps
      | with_reducible apply State.modIotu_keeps | with_reducible apply State.emit_keeps
      | fail_if_no_progress (with_reducible apply State.Keeps.upd) | with_reducible apply State.Keeps.foldl | split | intro _)

theorem State.eqbWrite_keeps {a s : State} (h : a.Keeps s) (x1 x2) :
    a.Keeps (State.eqbWrite s x1 x2) := by
  unfold State.eqbWrite
  repeat' (first | with_reducible assumption | dsimp only | with_reducible apply State.modIotu_keeps)

theorem State.prgrWrite_keeps {a s : State} (h : a.Keeps s) (x1 x2) :
    a.Keeps (State.prgrWrite s x1 x2) := by
  unfold State.prgrWrite
  repeat' (first | with_reducible assumption | dsimp only | with_reducible apply State.emit_keeps | split)

theorem State.cobRecord_keeps {a s : State} (h : a.Keeps s) (x1 x2 x3 x4 x5 x6 x7) :
    a.Keeps (State.cobRecord s x1 x2 x3 x4 x5 x6 x7) := by
  unfold State.cobRecord
  repeat' (first | with_reducible assumption | with_reducible apply State.record_keeps)

theorem State.msixSend_keeps {a s : State} (h : a.Keeps s) (x1 x2 x3) :
    a.Keeps (State.msixSend s x1 x2 x3) := by
  unfold State.msixSend
  repeat' (first
      | with_reducible assumption | dsimp only | with_reducible apply State.message_keeps
      | with_reducible apply State.cobRecord_keeps | with_reducible apply State.countDrop_keeps | split)

theorem State.msixRaise_keeps {a s : State} (h : a.Keeps s) (x1 x2 x3) :
    a.Keeps (State.msixRaise s x1 x2 x3) := by
  unfold State.msixRaise
  repeat' (first
      | with_reducible assumption | dsimp only | with_reducible apply State.modFn_keeps
      | with_reducible apply State.msixSend_keeps | split)

theorem State.msixFlush_keeps {a s : State} (h : a.Keeps s) (x1) :
    a.Keeps (State.msixFlush s x1) := by
  unfold State.msixFlush
  repeat' (first
      | with_reducible assumption | dsimp only | with_reducible apply State.msixSend_keeps
      | with_reducible apply State.modFn_keeps | with_reducible apply State.Keeps.foldl | split | intro _)

theorem State.tailWrite_keeps {a s : State} (h : a.Keeps s) (x1 x2 x3 x4) :
    a.Keeps (State.tailWrite s x1 x2 x3 x4) := by
  unfold State.tailWrite
  repeat' (first | with_reducible assumption | dsimp only | with_reducible apply State.modInst_keeps)

theorem State.instRead_keeps {a s : State} (h : a.Keeps s) (x1 x2 x3 x4) :
    a.Keeps (State.instRead s x1 x2 x3 x4).2 := by
  unfold State.instRead
  repeat' (first
      | with_reducible assumption | dsimp only | with_reducible apply State.ioXlats_keeps
      | with_reducible apply State.ioCommit_keeps | with_reducible apply State.memRange_keeps
      | with_reducible apply State.Keeps.foldlSnd | with_reducible refine State.Keeps.snd (by assumption) ?_ | split | intro _)

theorem State.instWrite_keeps {a s : State} (h : a.Keeps s) (x1 x2 x3 x4) :
    a.Keeps (State.instWrite s x1 x2 x3 x4).2 := by
  unfold State.instWrite
  repeat' (first
      | with_reducible assumption | dsimp only | with_reducible apply State.ioXlats_keeps
      | with_reducible apply State.ioCommit_keeps | with_reducible apply State.memStore_keeps
      | with_reducible apply State.Keeps.foldl | with_reducible refine State.Keeps.snd (by assumption) ?_ | split | intro _)

theorem State.cobPoison_keeps {a s : State} (h : a.Keeps s) (x1 x2 x3 x4) :
    a.Keeps (State.cobPoison s x1 x2 x3 x4) := by
  unfold State.cobPoison
  repeat' (first | with_reducible assumption | with_reducible apply State.cobRecord_keeps)

theorem State.cobEvent_keeps {a s : State} (h : a.Keeps s) (x1 x2 x3 x4 x5 x6) :
    a.Keeps (State.cobEvent s x1 x2 x3 x4 x5 x6) := by
  unfold State.cobEvent
  repeat' (first | with_reducible assumption | with_reducible apply State.iotEvent_keeps)

theorem State.pieceRead_keeps {a s : State} (h : a.Keeps s) (x1 x2) :
    a.Keeps (State.pieceRead s x1 x2).2 := by
  unfold State.pieceRead
  repeat' (first | with_reducible assumption | dsimp only | with_reducible apply State.memRange_keeps | split)

theorem State.pieceReads_keeps {a s : State} (h : a.Keeps s) (x1 x2) :
    a.Keeps (State.pieceReads s x1 x2).2 := by
  induction x2 generalizing s x1 with
  | nil =>
    unfold State.pieceReads
    repeat' (with_reducible assumption)
  | cons e t ih =>
    unfold State.pieceReads
    repeat' (first
        | with_reducible assumption | dsimp only | with_reducible apply ih | with_reducible apply State.pieceRead_keeps
        | with_reducible refine State.Keeps.snd (by assumption) ?_ | split)

theorem State.rangeReads_keeps {a s : State} (h : a.Keeps s) (x1 x2 x3 x4) :
    a.Keeps (State.rangeReads s x1 x2 x3 x4).2 := by
  induction x4 generalizing s x1 x2 x3 with
  | nil =>
    unfold State.rangeReads
    repeat' (with_reducible assumption)
  | cons e t ih =>
    unfold State.rangeReads
    repeat' (first
        | with_reducible assumption | dsimp only | with_reducible apply ih | with_reducible apply State.pieceReads_keeps
        | with_reducible apply State.ioCommit_keeps | with_reducible refine State.Keeps.snd (by assumption) ?_ | split)

theorem State.rangeXlats_keeps {a s : State} (h : a.Keeps s) (x1 x2 x3 x4) :
    a.Keeps (State.rangeXlats s x1 x2 x3 x4).2 := by
  induction x4 generalizing s x1 x2 x3 with
  | nil =>
    unfold State.rangeXlats
    repeat' (with_reducible assumption)
  | cons e t ih =>
    unfold State.rangeXlats
    repeat' (first
        | with_reducible assumption | dsimp only | with_reducible apply ih | with_reducible apply State.ioXlats_keeps
        | with_reducible refine State.Keeps.snd (by assumption) ?_ | split)

theorem State.chunkPlan_keeps {a s : State} (h : a.Keeps s) (x1 x2 x3) :
    a.Keeps (State.chunkPlan s x1 x2 x3).2 := by
  unfold State.chunkPlan
  repeat' (first
      | with_reducible assumption | dsimp only | with_reducible apply State.rangeXlats_keeps
      | with_reducible apply State.rangeReads_keeps | with_reducible apply State.ioCommit_keeps
      | with_reducible refine State.Keeps.snd (by assumption) ?_ | split)

end Sys2Proof.Machine
end

