-- ==== Sys2Proof/Laws/KeepsIo.lean ====
section
/-! SUPPORT. What no command undoes (State.Keeps): translation, links and engines. -/

namespace Sys2Proof.Machine

theorem State.abandonWrites_keeps {a s : State} (h : a.Keeps s) (x1 x2 x3) :
    a.Keeps (State.abandonWrites s x1 x2 x3) := by
  unfold State.abandonWrites
  repeat' (first
      | with_reducible assumption | dsimp only | with_reducible apply State.draw_keeps
      | with_reducible apply State.chunkPlan_keeps | with_reducible apply State.memStore_keeps
      | with_reducible apply State.Keeps.foldlFst | with_reducible refine State.Keeps.snd (by assumption) ?_ | split | intro _)

theorem State.containInst_keeps {a s : State} (h : a.Keeps s) (x1 x2) :
    a.Keeps (State.containInst s x1 x2) := by
  unfold State.containInst
  repeat' (first
      | with_reducible assumption | dsimp only | with_reducible apply State.abandonWrites_keeps
      | with_reducible apply State.modInst_keeps | split)

theorem State.contain_keeps {a s : State} (h : a.Keeps s) (x1 x2 x3 x4) :
    a.Keeps (State.contain s x1 x2 x3 x4) := by
  unfold State.contain
  repeat' (first
      | with_reducible assumption | dsimp only | with_reducible apply State.cobRecord_keeps
      | with_reducible apply State.modFn_keeps | with_reducible apply State.containInst_keeps
      | with_reducible apply State.post_keeps | with_reducible apply State.Keeps.foldl | split | intro _)

theorem State.relRequest_keeps {a s : State} (h : a.Keeps s) (x1) :
    a.Keeps (State.relRequest s x1) := by
  unfold State.relRequest
  repeat' (first | with_reducible assumption | with_reducible apply State.modFn_keeps)

theorem State.instRes_keeps {a s : State} (h : a.Keeps s) (x1 x2 x3) :
    a.Keeps (State.instRes s x1 x2 x3) := by
  unfold State.instRes
  repeat' (first | with_reducible assumption | with_reducible apply State.modInst_keeps)

theorem State.opEnable_keeps {a s : State} (h : a.Keeps s) (x1 x2) :
    a.Keeps (State.opEnable s x1 x2) := by
  unfold State.opEnable
  repeat' (first
      | with_reducible assumption | dsimp only | with_reducible apply State.instRes_keeps
      | with_reducible apply State.modInst_keeps | split)

theorem State.opQuiesce_keeps {a s : State} (h : a.Keeps s) (x1 x2 x3) :
    a.Keeps (State.opQuiesce s x1 x2 x3) := by
  unfold State.opQuiesce
  repeat' (first
      | with_reducible assumption | dsimp only | with_reducible apply State.modInst_keeps
      | with_reducible apply State.instRes_keeps | split)

theorem State.opRun_keeps {a s : State} (h : a.Keeps s) (x1 x2) :
    a.Keeps (State.opRun s x1 x2) := by
  unfold State.opRun
  repeat' (first
      | with_reducible assumption | dsimp only | with_reducible apply State.modInst_keeps
      | with_reducible apply State.instRes_keeps | split)

theorem State.opReset_keeps {a s : State} (h : a.Keeps s) (x1 x2) :
    a.Keeps (State.opReset s x1 x2) := by
  unfold State.opReset
  repeat' (first
      | with_reducible assumption | dsimp only | with_reducible apply State.modInst_keeps
      | with_reducible apply State.instRes_keeps | split)

theorem State.opSave_keeps {a s : State} (h : a.Keeps s) (x1 x2) :
    a.Keeps (State.opSave s x1 x2) := by
  unfold State.opSave
  repeat' (first
      | with_reducible assumption | dsimp only | with_reducible apply State.instRes_keeps
      | with_reducible apply State.modInst_keeps | with_reducible apply State.memStore_keeps | split)

theorem State.opRestore_keeps {a s : State} (h : a.Keeps s) (x1 x2) :
    a.Keeps (State.opRestore s x1 x2) := by
  unfold State.opRestore
  repeat' (first
      | with_reducible assumption | dsimp only | with_reducible apply State.instRes_keeps
      | with_reducible apply State.modInst_keeps | with_reducible apply State.memRange_keeps | split)

theorem State.opResume_keeps {a s : State} (h : a.Keeps s) (x1 x2) :
    a.Keeps (State.opResume s x1 x2) := by
  unfold State.opResume
  repeat' (first | with_reducible assumption | dsimp only | with_reducible apply State.modInst_keeps | split)

theorem State.opSkip_keeps {a s : State} (h : a.Keeps s) (x1 x2) :
    a.Keeps (State.opSkip s x1 x2) := by
  unfold State.opSkip
  repeat' (first
      | with_reducible assumption | dsimp only | with_reducible apply State.modInst_keeps
      | with_reducible apply State.opResume_keeps | split)

theorem State.instCmd_keeps {a s : State} (h : a.Keeps s) (x1 x2 x3 x4) :
    a.Keeps (State.instCmd s x1 x2 x3 x4) := by
  unfold State.instCmd
  repeat' (first
      | with_reducible assumption | with_reducible apply State.opEnable_keeps | with_reducible apply State.opQuiesce_keeps
      | with_reducible apply State.opRun_keeps | with_reducible apply State.opReset_keeps
      | with_reducible apply State.opSave_keeps | with_reducible apply State.opRestore_keeps
      | with_reducible apply State.instRes_keeps | split)

theorem State.foreign_keeps {a s : State} (h : a.Keeps s) (x1 x2 x3 x4) :
    Option.Holds (a.Keeps) (State.foreign s x1 x2 x3 x4) := by
  unfold State.foreign
  repeat' (first
      | with_reducible assumption | dsimp only | with_reducible apply Option.Holds.mkSome
      | with_reducible apply Option.Holds.mkNone | with_reducible apply State.cobRecord_keeps | split)

theorem State.dbTail_keeps {a s : State} (h : a.Keeps s) (x1 x2 x3 x4) :
    a.Keeps (State.dbTail s x1 x2 x3 x4) := by
  unfold State.dbTail
  repeat' (first
      | with_reducible assumption | with_reducible apply State.foreign_keeps | with_reducible apply State.tailWrite_keeps
      | with_reducible refine Option.Holds.some (by assumption) ?_ | split)

theorem State.dbCtl_keeps {a s : State} (h : a.Keeps s) (x1 x2 x3 x4 x5) :
    a.Keeps (State.dbCtl s x1 x2 x3 x4 x5) := by
  unfold State.dbCtl
  repeat' (first
      | with_reducible assumption | with_reducible apply State.foreign_keeps | with_reducible apply State.modInst_keeps
      | with_reducible apply State.opResume_keeps | with_reducible apply State.opSkip_keeps
      | with_reducible refine Option.Holds.some (by assumption) ?_ | split)

theorem State.pmeEvent_keeps {a s : State} (h : a.Keeps s) (x1) :
    a.Keeps (State.pmeEvent s x1) := by
  unfold State.pmeEvent
  repeat' (first
      | with_reducible assumption | dsimp only | with_reducible apply State.modFn_keeps
      | with_reducible apply State.post_keeps | split)

theorem State.aperture_keeps {a s : State} (h : a.Keeps s) (x1 x2 x3 x4 x5 x6 x7) :
    a.Keeps (State.aperture s x1 x2 x3 x4 x5 x6 x7).2 := by
  unfold State.aperture
  repeat' (first
      | with_reducible assumption | dsimp only | with_reducible apply State.cobRecord_keeps
      | with_reducible apply State.pmeEvent_keeps | with_reducible apply State.rangeXlats_keeps
      | with_reducible apply State.cobEvent_keeps | with_reducible apply State.modInst_keeps
      | with_reducible apply State.ioCommit_keeps | with_reducible apply State.memStore_keeps
      | with_reducible apply State.Keeps.foldl | with_reducible refine State.Keeps.snd (by assumption) ?_ | split | intro _)

theorem State.writeQos_keeps {a s : State} (h : a.Keeps s) (x1 x2 x3) :
    a.Keeps (State.writeQos s x1 x2 x3) := by
  unfold State.writeQos
  repeat' (first | with_reducible assumption | dsimp only | with_reducible apply State.modInst_keeps)

theorem State.bar0Reg_keeps {a s : State} (h : a.Keeps s) (x1 x2 x3 x4 x5) :
    a.Keeps (State.bar0Reg s x1 x2 x3 x4 x5) := by
  unfold State.bar0Reg
  repeat' (first
      | with_reducible assumption | dsimp only | with_reducible apply State.relRequest_keeps
      | with_reducible apply State.contain_keeps | with_reducible apply State.msixFlush_keeps
      | with_reducible apply State.modFn_keeps | with_reducible apply State.modInst_keeps
      | with_reducible apply State.writeQos_keeps | with_reducible apply State.instCmd_keeps
      | with_reducible apply State.dbTail_keeps | with_reducible apply State.dbCtl_keeps | split)

theorem State.bar0Write_keeps {a s : State} (h : a.Keeps s) (x1 x2 x3 x4) :
    a.Keeps (State.bar0Write s x1 x2 x3 x4) := by
  unfold State.bar0Write
  repeat' (first
      | with_reducible assumption | with_reducible apply State.bar0Reg_keeps | with_reducible apply State.Keeps.foldl
      | intro _)

theorem State.endpointWrite_keeps {a s : State} (h : a.Keeps s) (x1 x2 x3 x4) :
    a.Keeps (State.endpointWrite s x1 x2 x3 x4).2 := by
  unfold State.endpointWrite
  repeat' (first
      | with_reducible assumption | dsimp only | with_reducible apply State.aperture_keeps
      | with_reducible apply State.bar0Write_keeps | split)

theorem State.pcieWrite_keeps {a s : State} (h : a.Keeps s) (x1 x2) :
    Option.Holds (a.Keeps) (State.pcieWrite s x1 x2) := by
  unfold State.pcieWrite
  repeat' (first
      | with_reducible assumption | with_reducible apply Option.Holds.mkSome | with_reducible apply State.sendPosted_keeps
      | split)

theorem State.stopFault_keeps {a s : State} (h : a.Keeps s) (x1 x2 x3 x4) :
    a.Keeps (State.stopFault s x1 x2 x3 x4) := by
  unfold State.stopFault
  repeat' (first
      | with_reducible assumption | dsimp only | with_reducible apply State.cobPoison_keeps
      | with_reducible apply State.cobEvent_keeps | with_reducible apply State.modInst_keeps | split)

theorem State.postVec_keeps {a s : State} (h : a.Keeps s) (x1 x2 x3 x4) :
    a.Keeps (State.postVec s x1 x2 x3 x4) := by
  unfold State.postVec
  repeat' (first | with_reducible assumption | dsimp only | with_reducible apply State.msixRaise_keeps | split)

theorem State.descBegin_keeps {a s : State} (h : a.Keeps s) (x1 x2 x3) :
    a.Keeps (State.descBegin s x1 x2 x3) := by
  unfold State.descBegin
  repeat' (first
      | with_reducible assumption | dsimp only | with_reducible apply State.modInst_keeps
      | with_reducible apply State.instRead_keeps | with_reducible apply State.stopFault_keeps
      | with_reducible refine State.Keeps.snd (by assumption) ?_ | split)

theorem State.sendPeers_keeps {a s : State} (h : a.Keeps s) (x1 x2 x3) :
    a.Keeps (State.sendPeers s x1 x2 x3).1 := by
  induction x3 generalizing s x1 x2 with
  | nil =>
    unfold State.sendPeers
    repeat' (with_reducible assumption)
  | cons e t ih =>
    unfold State.sendPeers
    repeat' (first
        | with_reducible assumption | dsimp only | with_reducible apply ih | with_reducible apply State.modInst_keeps
        | with_reducible apply State.sendReq_keeps | with_reducible apply State.modFn_keeps
        | with_reducible refine Sent.Holds.wait (by assumption) ?_ | with_reducible refine Sent.Holds.ur (by assumption) ?_
        | with_reducible refine Sent.Holds.ok (by assumption) ?_ | split)

theorem State.writePiece_keeps {a s : State} (h : a.Keeps s) (x1 x2 x3) :
    a.Keeps (State.writePiece s x1 x2 x3) := by
  unfold State.writePiece
  repeat' (first
      | with_reducible assumption | with_reducible apply State.memStore_keeps | with_reducible apply State.pcieWrite_keeps
      | with_reducible apply State.endpointWrite_keeps | with_reducible apply State.message_keeps
      | with_reducible apply State.Keeps.getD | split)

theorem State.powerstate_keeps {a s : State} (h : a.Keeps s) (x1 x2) :
    a.Keeps (State.powerstate s x1 x2) := by
  unfold State.powerstate
  repeat' (first
      | with_reducible assumption | dsimp only | with_reducible apply State.cobRecord_keeps
      | with_reducible apply State.modFn_keeps | with_reducible apply State.modDom_keeps
      | with_reducible apply State.wakeDom_keeps | split)

theorem State.bmeRelease_keeps {a s : State} (h : a.Keeps s) (x1) :
    a.Keeps (State.bmeRelease s x1) := by
  unfold State.bmeRelease
  repeat' (first
      | with_reducible assumption | dsimp only | with_reducible apply State.opSave_keeps
      | with_reducible apply State.opRestore_keeps | with_reducible apply State.msixFlush_keeps
      | with_reducible apply State.Keeps.foldl | split | intro _)

theorem State.commandWrite_keeps {a s : State} (h : a.Keeps s) (x1 x2 x3 x4) :
    a.Keeps (State.commandWrite s x1 x2 x3 x4) := by
  unfold State.commandWrite
  repeat' (first
      | with_reducible assumption | with_reducible apply State.bmeRelease_keeps | with_reducible apply State.modFn_keeps)

theorem State.aerPost_keeps {a s : State} (h : a.Keeps s) (x1 x2 x3) :
    a.Keeps (State.aerPost s x1 x2 x3) := by
  unfold State.aerPost
  repeat' (first | with_reducible assumption | with_reducible apply State.post_keeps | split)

theorem State.aerError_keeps {a s : State} (h : a.Keeps s) (x1 x2 x3 x4 x5) :
    a.Keeps (State.aerError s x1 x2 x3 x4 x5) := by
  unfold State.aerError
  repeat' (first
      | with_reducible assumption | with_reducible apply State.aerPost_keeps | with_reducible apply State.modPort_keeps)

theorem State.coreDone_keeps {a s : State} (h : a.Keeps s) (x1 x2) :
    a.Keeps (State.coreDone s x1 x2) := by
  unfold State.coreDone
  repeat' (first
      | with_reducible assumption | dsimp only | with_reducible apply State.setCore_keeps
      | with_reducible apply State.retire_keeps | split)

theorem State.coreFail_keeps {a s : State} (h : a.Keeps s) (x1 x2 x3 x4 x5) :
    a.Keeps (State.coreFail s x1 x2 x3 x4 x5) := by
  unfold State.coreFail
  repeat' (first
      | with_reducible assumption | with_reducible apply State.coreDone_keeps | with_reducible apply State.portRecord_keeps)

theorem State.corePoison_keeps {a s : State} (h : a.Keeps s) (x1) :
    a.Keeps (State.corePoison s x1) := by
  unfold State.corePoison
  repeat' (first
      | with_reducible assumption | with_reducible apply State.raise_keeps | with_reducible apply State.poisonRecord_keeps
      | with_reducible apply State.modCore_keeps | split)

theorem State.peerDone_keeps {a s : State} (h : a.Keeps s) (x1 x2 x3 x4 x5 x6) :
    a.Keeps (State.peerDone s x1 x2 x3 x4 x5 x6) := by
  unfold State.peerDone
  repeat' (first
      | with_reducible assumption | dsimp only | with_reducible apply State.modFn_keeps
      | with_reducible apply State.modInst_keeps)

theorem State.reqError_keeps {a s : State} (h : a.Keeps s) (x1 x2 x3 x4 x5) :
    a.Keeps (State.reqError s x1 x2 x3 x4 x5) := by
  unfold State.reqError
  repeat' (first
      | with_reducible assumption | with_reducible apply State.coreFail_keeps | with_reducible apply State.peerDone_keeps
      | split)

theorem State.dropReq_keeps {a s : State} (h : a.Keeps s) (x1 x2 x3) :
    a.Keeps (State.dropReq s x1 x2 x3) := by
  unfold State.dropReq
  repeat' (first | with_reducible assumption | with_reducible apply State.modPort_keeps)

theorem State.lateCpl_keeps {a s : State} (h : a.Keeps s) (x1 x2 x3 x4) :
    a.Keeps (State.lateCpl s x1 x2 x3 x4) := by
  unfold State.lateCpl
  repeat' (first
      | with_reducible assumption | dsimp only | with_reducible apply State.cobRecord_keeps
      | with_reducible apply State.modRegion_keeps | with_reducible apply State.portRecord_keeps
      | with_reducible apply State.modPort_keeps | split)

theorem State.dpcEnter_keeps {a s : State} (h : a.Keeps s) (x1 x2 x3 x4) :
    a.Keeps (State.dpcEnter s x1 x2 x3 x4) := by
  unfold State.dpcEnter
  repeat' (first
      | with_reducible assumption | dsimp only | with_reducible apply State.modPort_keeps
      | with_reducible apply State.reqError_keeps | with_reducible apply State.post_keeps
      | with_reducible apply State.portRecord_keeps | with_reducible apply State.Keeps.foldl | split | intro _)

theorem State.dpcClear_keeps {a s : State} (h : a.Keeps s) (x1 x2) :
    a.Keeps (State.dpcClear s x1 x2) := by
  unfold State.dpcClear
  repeat' (first | with_reducible assumption | dsimp only | with_reducible apply State.modPort_keeps | split)

theorem State.portWrite_keeps {a s : State} (h : a.Keeps s) (x1 x2 x3 x4 x5) :
    a.Keeps (State.portWrite s x1 x2 x3 x4 x5) := by
  unfold State.portWrite
  repeat' (first
      | with_reducible assumption | dsimp only | with_reducible apply State.modPort_keeps
      | with_reducible apply State.dpcEnter_keeps | with_reducible apply State.dpcClear_keeps | split)

theorem State.fnWrite_keeps {a s : State} (h : a.Keeps s) (x1 x2 x3 x4) :
    a.Keeps (State.fnWrite s x1 x2 x3 x4) := by
  unfold State.fnWrite
  repeat' (first
      | with_reducible assumption | dsimp only | with_reducible apply State.modFn_keeps
      | with_reducible apply State.commandWrite_keeps | with_reducible apply State.powerstate_keeps
      | with_reducible apply State.msixFlush_keeps | split)

theorem State.bus0Write_keeps {a s : State} (h : a.Keeps s) (x1 x2) :
    a.Keeps (State.bus0Write s x1 x2) := by
  unfold State.bus0Write
  repeat' (first
      | with_reducible assumption | dsimp only | with_reducible apply State.portWrite_keeps
      | with_reducible apply State.fnWrite_keeps | with_reducible apply State.Keeps.foldl | split | intro _)

theorem State.linkRead_keeps {a s : State} (h : a.Keeps s) (x1 x2) :
    LinkAcc.Holds (a.Keeps) (State.linkRead s x1 x2) := by
  unfold State.linkRead
  repeat' (first
      | with_reducible assumption | dsimp only | with_reducible apply LinkAcc.Holds.mkWait
      | with_reducible apply LinkAcc.Holds.mkDone | with_reducible apply LinkAcc.Holds.mkSent
      | with_reducible apply State.portRecord_keeps | with_reducible apply State.sendReq_keeps
      | with_reducible apply State.modCore_keeps | with_reducible refine Sent.Holds.wait (by assumption) ?_
      | with_reducible refine Sent.Holds.ur (by assumption) ?_ | with_reducible refine Sent.Holds.ok (by assumption) ?_
      | split)

theorem State.linkWrite_keeps {a s : State} (h : a.Keeps s) (x1 x2 x3) :
    LinkAcc.Holds (a.Keeps) (State.linkWrite s x1 x2 x3) := by
  unfold State.linkWrite
  repeat' (first
      | with_reducible assumption | with_reducible apply LinkAcc.Holds.mkWait | with_reducible apply LinkAcc.Holds.mkDone
      | with_reducible apply LinkAcc.Holds.mkSent | with_reducible apply State.sendPosted_keeps
      | with_reducible apply State.wakeDom_keeps | with_reducible apply State.sendReq_keeps
      | with_reducible apply State.portRecord_keeps | with_reducible apply State.modCore_keeps
      | with_reducible refine Sent.Holds.wait (by assumption) ?_ | with_reducible refine Sent.Holds.ur (by assumption) ?_
      | with_reducible refine Sent.Holds.ok (by assumption) ?_ | with_reducible refine Option.Holds.some (by assumption) ?_
      | split)

theorem State.dmaFault_keeps {a s : State} (h : a.Keeps s) (x1 x2 x3 x4 x5 x6 x7) :
    a.Keeps (State.dmaFault s x1 x2 x3 x4 x5 x6 x7) := by
  unfold State.dmaFault
  repeat' (first | with_reducible assumption | with_reducible apply State.iotEvent_keeps)

theorem State.dmaContext_keeps {a s : State} (h : a.Keeps s) (x1 x2) :
    a.Keeps (State.dmaContext s x1 x2).2 := by
  unfold State.dmaContext
  repeat' (first
      | with_reducible assumption | dsimp only | with_reducible apply State.context_keeps
      | with_reducible refine State.Keeps.snd (by assumption) ?_ | split)

theorem State.poisonRange_keeps {a s : State} (h : a.Keeps s) (x1 x2 x3 x4) :
    a.Keeps (State.poisonRange s x1 x2 x3 x4) := by
  unfold State.poisonRange
  repeat' (first
      | with_reducible assumption | with_reducible apply State.poisonLine_keeps | with_reducible apply State.Keeps.foldl
      | intro _)

theorem State.dmaPiece_keeps {a s : State} (h : a.Keeps s) (x1 x2 x3 x4 x5 x6 x7 x8) :
    a.Keeps (State.dmaPiece s x1 x2 x3 x4 x5 x6 x7 x8).2 := by
  unfold State.dmaPiece
  repeat' (first
      | with_reducible assumption | dsimp only | with_reducible apply State.memRange_keeps
      | with_reducible apply State.memStore_keeps | with_reducible apply State.poisonRange_keeps
      | with_reducible apply State.pcieWrite_keeps | with_reducible apply State.wakeDom_keeps
      | with_reducible apply State.emit_keeps | with_reducible apply State.endpointWrite_keeps
      | with_reducible apply State.aperture_keeps | with_reducible apply State.message_keeps
      | with_reducible apply State.countDrop_keeps | with_reducible refine Option.Holds.some (by assumption) ?_ | split)

theorem State.dmaPieces_keeps {a s : State} (h : a.Keeps s) (x1 x2 x3 x4 x5 x6 x7) :
    a.Keeps (State.dmaPieces s x1 x2 x3 x4 x5 x6 x7).2 := by
  induction x7 generalizing s x1 x2 x3 x4 x5 x6 with
  | nil =>
    unfold State.dmaPieces
    repeat' (with_reducible assumption)
  | cons e t ih =>
    unfold State.dmaPieces
    repeat' (first
        | with_reducible assumption | dsimp only | with_reducible apply ih | with_reducible apply State.dmaPiece_keeps
        | with_reducible refine State.Keeps.snd (by assumption) ?_ | split)

theorem State.dmaRoute_keeps {a s : State} (h : a.Keeps s) (x1 x2 x3 x4 x5 x6) :
    a.Keeps (State.dmaRoute s x1 x2 x3 x4 x5 x6).2 := by
  unfold State.dmaRoute
  repeat' (first | with_reducible assumption | with_reducible apply State.dmaPieces_keeps | split)

theorem State.dmaUntranslated_keeps {a s : State} (h : a.Keeps s) (x1 x2 x3 x4 x5 x6 x7) :
    a.Keeps (State.dmaUntranslated s x1 x2 x3 x4 x5 x6 x7).2 := by
  unfold State.dmaUntranslated
  repeat' (first
      | with_reducible assumption | dsimp only | with_reducible apply State.dmaContext_keeps
      | with_reducible apply State.dmaFault_keeps | with_reducible apply State.ioRegime_keeps
      | with_reducible apply State.ioXlats_keeps | with_reducible apply State.dmaRoute_keeps
      | with_reducible apply State.ioCommit_keeps | with_reducible refine State.Keeps.snd (by assumption) ?_ | split)

theorem State.dmaTranslated_keeps {a s : State} (h : a.Keeps s) (x1 x2 x3 x4 x5 x6 x7) :
    a.Keeps (State.dmaTranslated s x1 x2 x3 x4 x5 x6 x7).2 := by
  unfold State.dmaTranslated
  repeat' (first
      | with_reducible assumption | dsimp only | with_reducible apply State.dmaContext_keeps
      | with_reducible apply State.dmaFault_keeps | with_reducible apply State.dmaRoute_keeps
      | with_reducible refine State.Keeps.snd (by assumption) ?_ | split)

theorem State.dmaAnswer_keeps {a s : State} (h : a.Keeps s) (r f rid op hdr) {p : DmaAns × State} (hp : a.Keeps p.2) :
    a.Keeps (State.dmaAnswer s r f rid op hdr p) := by
  unfold State.dmaAnswer
  split
  · exact State.Keeps.upd h
  · dsimp only at hp ⊢
    split
    · exact hp
    · exact State.emit_keeps hp _
  · dsimp only at hp ⊢
    split
    · exact hp
    · exact State.emit_keeps hp _
  · dsimp only at hp ⊢
    split
    · exact State.portRecord_keeps hp _ _ _ _ _ _
    · exact State.emit_keeps (State.portRecord_keeps hp _ _ _ _ _ _) _

theorem State.vcRelease_keeps {a s : State} (h : a.Keeps s) (x1 x2 x3) :
    a.Keeps (State.vcRelease s x1 x2 x3) := by
  unfold State.vcRelease
  repeat' (first
      | with_reducible assumption | with_reducible apply State.release_keeps | with_reducible apply State.modCore_keeps
      | split)

theorem State.walkRelease_keeps {a s : State} (h : a.Keeps s) (x1) :
    a.Keeps (State.walkRelease s x1) := by
  unfold State.walkRelease
  repeat' (first
      | with_reducible assumption | dsimp only | with_reducible apply State.setCore_keeps
      | with_reducible apply State.release_keeps | with_reducible apply State.Keeps.foldl | intro _)

theorem State.walkAllArrays_keeps {a s : State} (h : a.Keeps s) (x1) :
    a.Keeps (State.walkAllArrays s x1) := by
  unfold State.walkAllArrays
  repeat' (first
      | with_reducible assumption | with_reducible apply State.modCore_keeps | with_reducible apply State.walkRelease_keeps)

theorem State.walkClean_keeps {a s : State} (h : a.Keeps s) (x1) :
    a.Keeps (State.walkClean s x1) := by
  unfold State.walkClean
  repeat' (first
      | with_reducible assumption | dsimp only | with_reducible apply State.setCore_keeps
      | with_reducible apply State.slcFill_keeps | with_reducible apply State.Keeps.foldl | intro _)

theorem State.pin_keeps {a s : State} (h : a.Keeps s) (x1) :
    a.Keeps (State.pin s x1) := by
  unfold State.pin
  repeat' (first | with_reducible assumption | dsimp only | with_reducible apply State.putDir_keeps | split)

theorem State.unpin_keeps {a s : State} (h : a.Keeps s) (x1) :
    a.Keeps (State.unpin s x1) := by
  unfold State.unpin
  repeat' (first | with_reducible assumption | dsimp only | with_reducible apply State.putDir_keeps | split)

theorem State.lockData_keeps {a s : State} (h : a.Keeps s) (x1 x2) :
    a.Keeps (State.lockData s x1 x2) := by
  unfold State.lockData
  repeat' (first
      | with_reducible assumption | dsimp only | with_reducible apply State.acquire_keeps
      | with_reducible apply State.modCore_keeps | with_reducible apply State.pin_keeps
      | with_reducible apply State.l2Install_keeps | with_reducible apply State.setCore_keeps | split)

theorem State.lockCode_keeps {a s : State} (h : a.Keeps s) (x1 x2) :
    a.Keeps (State.lockCode s x1 x2) := by
  unfold State.lockCode
  repeat' (first
      | with_reducible assumption | dsimp only | with_reducible apply State.loadLine_keeps
      | with_reducible apply State.pin_keeps | with_reducible apply State.modCore_keeps)

theorem State.unlockWindow_keeps {a s : State} (h : a.Keeps s) (x1 x2) :
    a.Keeps (State.unlockWindow s x1 x2) := by
  unfold State.unlockWindow
  repeat' (first
      | with_reducible assumption | dsimp only | with_reducible apply State.unpin_keeps
      | with_reducible apply State.setCore_keeps | with_reducible apply State.Keeps.foldl | intro _)

theorem State.prefetch_keeps {a s : State} (h : a.Keeps s) (x1 x2 x3 x4 x5 x6) :
    a.Keeps (State.prefetch s x1 x2 x3 x4 x5 x6) := by
  unfold State.prefetch
  repeat' (first | with_reducible assumption | dsimp only | with_reducible apply State.request_keeps | split)

theorem State.deliverAllHeld_keeps {a s : State} (h : a.Keeps s) (x1) :
    a.Keeps (State.deliverAllHeld s x1) := by
  unfold State.deliverAllHeld
  repeat' (first
      | with_reducible assumption | dsimp only | with_reducible apply State.deliverHeld_keeps
      | with_reducible apply State.Keeps.foldl | intro _)

theorem State.leaveOn_keeps {a s : State} (h : a.Keeps s) (x1 x2) :
    a.Keeps (State.leaveOn s x1 x2) := by
  unfold State.leaveOn
  repeat' (first
      | with_reducible assumption | with_reducible apply State.modCore_keeps | with_reducible apply State.slipCore_keeps)

theorem State.beginDom_keeps {a s : State} (h : a.Keeps s) (x1 x2 x3) :
    a.Keeps (State.beginDom s x1 x2 x3) := by
  unfold State.beginDom
  repeat' (first
      | with_reducible assumption | dsimp only | with_reducible apply State.modDom_keeps
      | with_reducible apply State.leaveOn_keeps | split)

theorem State.requestDom_keeps {a s : State} (h : a.Keeps s) (x1 x2) :
    a.Keeps (State.requestDom s x1 x2) := by
  unfold State.requestDom
  repeat' (first
      | with_reducible assumption | with_reducible apply State.modDom_keeps | with_reducible apply State.beginDom_keeps
      | split)

theorem State.nextDom_keeps {a s : State} (h : a.Keeps s) (x1) :
    a.Keeps (State.nextDom s x1) := by
  unfold State.nextDom
  repeat' (first
      | with_reducible assumption | dsimp only | with_reducible apply State.modDom_keeps
      | with_reducible apply State.beginDom_keeps | split)

theorem State.arriveCore_keeps {a s : State} (h : a.Keeps s) (x1) :
    a.Keeps (State.arriveCore s x1) := by
  unfold State.arriveCore
  repeat' (first
      | with_reducible assumption | dsimp only | with_reducible apply State.modDom_keeps
      | with_reducible apply State.modCore_keeps | with_reducible apply State.setCore_keeps
      | with_reducible apply State.deliverAllHeld_keeps | with_reducible apply State.walkAllArrays_keeps | split)

theorem State.stackOff_keeps {a s : State} (h : a.Keeps s) (x1) :
    a.Keeps (State.stackOff s x1) := by
  unfold State.stackOff
  repeat' (first
      | with_reducible assumption | dsimp only | with_reducible apply State.reqError_keeps
      | with_reducible apply State.dropReq_keeps | with_reducible apply State.modRegion_keeps
      | with_reducible apply State.Keeps.foldl | intro _)

theorem State.arriveUnit_keeps {a s : State} (h : a.Keeps s) (x1) :
    a.Keeps (State.arriveUnit s x1) := by
  unfold State.arriveUnit
  repeat' (first
      | with_reducible assumption | dsimp only | with_reducible apply State.modDom_keeps
      | with_reducible apply State.modFn_keeps | with_reducible apply State.modChan_keeps
      | with_reducible apply State.stackOff_keeps | split)

theorem State.releasePads_keeps {a s : State} (h : a.Keeps s) (x1) :
    a.Keeps (State.releasePads s x1) := by
  unfold State.releasePads
  repeat' (first
      | with_reducible assumption | dsimp only | with_reducible apply State.modDom_keeps
      | with_reducible apply State.modPort_keeps | with_reducible apply State.Keeps.foldl | split | intro _)

end Sys2Proof.Machine
end

