-- ==== Sys2Proof/Laws/KeepsBoot.lean ====
section
/-! SUPPORT. What no command undoes (State.Keeps): Dawn, Slate and power. -/

namespace Sys2Proof.Machine

theorem State.chanRecord_keeps {a s : State} (h : a.Keeps s) (x1 x2 x3 x4 x5 x6 x7 x8 x9) :
    a.Keeps (State.chanRecord s x1 x2 x3 x4 x5 x6 x7 x8 x9) := by
  unfold State.chanRecord
  repeat' (first | with_reducible assumption | with_reducible apply State.record_keeps)

theorem State.linkRecord_keeps {a s : State} (h : a.Keeps s) (x1 x2 x3 x4 x5 x6) :
    a.Keeps (State.linkRecord s x1 x2 x3 x4 x5 x6) := by
  unfold State.linkRecord
  repeat' (first | with_reducible assumption | with_reducible apply State.record_keeps)

theorem State.addMark_keeps {a s : State} (h : a.Keeps s) (x1 x2 x3 x4) :
    a.Keeps (State.addMark s x1 x2 x3 x4) := by
  unfold State.addMark
  repeat' (first
      | with_reducible assumption | dsimp only | with_reducible apply State.chanRecord_keeps
      | with_reducible apply State.modChan_keeps)

theorem State.propose_keeps {a s : State} (h : a.Keeps s) (x1 x2) :
    a.Keeps (State.propose s x1 x2) := by
  unfold State.propose
  repeat' (first | with_reducible assumption | with_reducible apply State.modChan_keeps)

theorem State.countCorrected_keeps {a s : State} (h : a.Keeps s) (x1 x2 x3) :
    a.Keeps (State.countCorrected s x1 x2 x3) := by
  unfold State.countCorrected
  repeat' (first
      | with_reducible assumption | intro _ | dsimp only | with_reducible apply State.modChan_keeps
      | with_reducible apply State.chanRecord_keeps | with_reducible apply State.propose_keeps
      | with_reducible apply State.post_keeps | with_reducible apply State.Keeps.foldl | with_reducible apply State.Keeps.ite)

theorem State.declareBad_keeps {a s : State} (h : a.Keeps s) (x1 x2 x3) :
    a.Keeps (State.declareBad s x1 x2 x3) := by
  unfold State.declareBad
  repeat' (first
      | with_reducible assumption | dsimp only | with_reducible apply State.dramStore_keeps
      | with_reducible apply State.draw_keeps | with_reducible apply State.modChan_keeps
      | with_reducible apply State.post_keeps | with_reducible apply State.chanRecord_keeps)

theorem State.deliverRead_keeps {a s : State} (h : a.Keeps s) (x1 x2 x3) :
    a.Keeps (State.deliverRead s x1 x2 x3) := by
  unfold State.deliverRead
  repeat' (first | with_reducible assumption | with_reducible apply State.slcFill_keeps | with_reducible apply State.Keeps.ite)

theorem State.demandRead_keeps {a s : State} (h : a.Keeps s) (x1 x2 x3 x4) :
    a.Keeps (State.demandRead s x1 x2 x3 x4) := by
  unfold State.demandRead
  repeat' (first
      | with_reducible assumption | dsimp only | with_reducible apply State.deliverRead_keeps
      | with_reducible apply State.countCorrected_keeps | with_reducible apply State.declareBad_keeps
      | with_reducible apply State.modChan_keeps | with_reducible apply State.Keeps.ite | split)

theorem State.scrubCell_keeps {a s : State} (h : a.Keeps s) (x1 x2 x3 x4) :
    a.Keeps (State.scrubCell s x1 x2 x3 x4) := by
  unfold State.scrubCell
  repeat' (first
      | with_reducible assumption | dsimp only | with_reducible apply State.countCorrected_keeps
      | with_reducible apply State.modChan_keeps | with_reducible apply State.declareBad_keeps
      | with_reducible apply State.Keeps.ite | split)

theorem State.scrubNext_keeps {a s : State} (h : a.Keeps s) (x1 x2) :
    a.Keeps (State.scrubNext s x1 x2) := by
  unfold State.scrubNext
  repeat' (first
      | with_reducible assumption | dsimp only | with_reducible apply State.modChan_keeps
      | with_reducible apply State.scrubCell_keeps | with_reducible apply State.Keeps.ite)

theorem State.setDrains_keeps {a s : State} (h : a.Keeps s) (x1) :
    a.Keeps (State.setDrains s x1) := by
  unfold State.setDrains
  repeat' (first | with_reducible assumption | dsimp only | with_reducible apply State.modChan_keeps)

theorem State.issueReq_keeps {a s : State} (h : a.Keeps s) (x1 x2) :
    a.Keeps (State.issueReq s x1 x2) := by
  unfold State.issueReq
  repeat' (first
      | with_reducible assumption | dsimp only | with_reducible apply State.setDrains_keeps
      | with_reducible apply State.modChan_keeps | with_reducible apply State.dramStore_keeps
      | with_reducible apply State.demandRead_keeps | with_reducible apply State.Keeps.ite)

theorem State.slot_keeps {a s : State} (h : a.Keeps s) (x1) :
    a.Keeps (State.slot s x1) := by
  unfold State.slot
  repeat' (first
      | with_reducible assumption | dsimp only | with_reducible apply State.modChan_keeps
      | with_reducible apply State.scrubNext_keeps | with_reducible apply State.issueReq_keeps
      | with_reducible apply State.Keeps.ite | split)

theorem State.dimmRecords_keeps {a s : State} (h : a.Keeps s) (x1) :
    a.Keeps (State.dimmRecords s x1) := by
  unfold State.dimmRecords
  repeat' (first
      | with_reducible assumption | dsimp only | with_reducible apply State.linkRecord_keeps
      | with_reducible apply State.Keeps.ite | split)

theorem State.restoreMarks_keeps {a s : State} (h : a.Keeps s) (ch : Nat) : a.Keeps (s.restoreMarks ch) := by
  unfold State.restoreMarks
  extract_lets one
  have h1 : ∀ t i, a.Keeps t → a.Keeps (one t i) := by
    intro t i ht
    simp only [one]
    refine State.Keeps.ite ht (State.Keeps.ite (State.modChan_keeps ht _ _) (State.Keeps.ite ?_ ht))
    exact State.chanRecord_keeps (State.modChan_keeps ht _ _) _ _ _ _ _ _ _ _ _
  clear_value one
  exact State.Keeps.upd (h1 _ _ (h1 _ _ h))

theorem State.applyRows_keeps {a s : State} (h : a.Keeps s) (x1) :
    a.Keeps (State.applyRows s x1) := by
  unfold State.applyRows
  repeat' (first
      | with_reducible assumption | intro _ | dsimp only | with_reducible apply State.chanRecord_keeps
      | with_reducible apply State.draw_keeps | fail_if_no_progress (with_reducible apply State.Keeps.upd)
      | with_reducible apply State.Keeps.foldlSnd | split)

theorem State.layOut_keeps {a s : State} (h : a.Keeps s) :
    a.Keeps (State.layOut s) := by
  unfold State.layOut
  repeat' (first
      | with_reducible assumption | intro _ | dsimp only | with_reducible apply State.modChan_keeps
      | fail_if_no_progress (with_reducible apply State.Keeps.upd) | with_reducible apply State.Keeps.foldl)

theorem State.fallbacks_keeps {a s : State} (h : a.Keeps s) (x1 x2 x3) :
    a.Keeps (State.fallbacks s x1 x2 x3) := by
  induction x2 generalizing s x1 x3 with
  | zero =>
    unfold State.fallbacks
    repeat' (with_reducible assumption)
  | succ n ih =>
    unfold State.fallbacks
    repeat' (first
        | with_reducible assumption | with_reducible apply ih | with_reducible apply State.linkRecord_keeps
        | with_reducible apply State.modChan_keeps)

theorem State.startRetrain_keeps {a s : State} (h : a.Keeps s) (x1) :
    a.Keeps (State.startRetrain s x1) := by
  unfold State.startRetrain
  repeat' (first
      | with_reducible assumption | with_reducible apply State.modRegion_keeps | with_reducible apply State.modChan_keeps
      | with_reducible apply State.Keeps.ite)

theorem State.morningBack_keeps {a s : State} (h : a.Keeps s) (x1) :
    a.Keeps (State.morningBack s x1) := by
  unfold State.morningBack
  repeat' (first
      | with_reducible assumption | intro _ | dsimp only | with_reducible apply State.startRetrain_keeps
      | with_reducible apply State.modRegion_keeps | with_reducible apply State.Keeps.foldl)

theorem State.fenceChan_keeps {a s : State} (h : a.Keeps s) (x1) :
    a.Keeps (State.fenceChan s x1) := by
  unfold State.fenceChan
  repeat' (first | with_reducible assumption | with_reducible apply State.modChan_keeps)

theorem State.keyCommand_keeps {a s : State} (h : a.Keeps s) (x1) :
    a.Keeps (State.keyCommand s x1) := by
  unfold State.keyCommand
  repeat' (first
      | with_reducible assumption | dsimp only | with_reducible apply State.draw_keeps
      | fail_if_no_progress (with_reducible apply State.Keeps.upd) | with_reducible apply State.Keeps.ite | split)

theorem State.stopCore_keeps {a s : State} (h : a.Keeps s) (x1) :
    a.Keeps (State.stopCore s x1) := by
  unfold State.stopCore
  repeat' (first
      | with_reducible assumption | dsimp only | with_reducible apply State.walkAllArrays_keeps
      | with_reducible apply State.slipCore_keeps | with_reducible apply State.modCore_keeps
      | with_reducible apply State.Keeps.ite)

theorem State.emptySlice_keeps {a s : State} (h : a.Keeps s) (x1) :
    a.Keeps (State.emptySlice s x1) := by
  unfold State.emptySlice
  repeat' (first
      | with_reducible assumption | intro _ | dsimp only | with_reducible apply State.recall_keeps
      | with_reducible apply State.settle_keeps | with_reducible apply State.memWrite_keeps
      | with_reducible apply State.modBlock_keeps | with_reducible apply State.Keeps.foldl)

theorem State.fenceBlock_keeps {a s : State} (h : a.Keeps s) (x1) :
    a.Keeps (State.fenceBlock s x1) := by
  unfold State.fenceBlock
  repeat' (first
      | with_reducible assumption | dsimp only | with_reducible apply State.emptySlice_keeps
      | with_reducible apply State.stopCore_keeps | with_reducible apply State.modBlock_keeps
      | with_reducible apply State.Keeps.ite)

theorem State.fenceIotu_keeps {a s : State} (h : a.Keeps s) (x1) :
    a.Keeps (State.fenceIotu s x1) := by
  unfold State.fenceIotu
  repeat' (first
      | with_reducible assumption | intro _ | dsimp only | with_reducible apply State.modIotu_keeps
      | with_reducible apply State.dpcEnter_keeps | with_reducible apply State.contain_keeps
      | with_reducible apply State.Keeps.foldl | with_reducible apply State.Keeps.ite)

theorem State.parkChan_keeps {a s : State} (h : a.Keeps s) (x1) :
    a.Keeps (State.parkChan s x1) := by
  unfold State.parkChan
  repeat' (first
      | with_reducible assumption | intro _ | dsimp only | with_reducible apply State.dramStore_keeps
      | with_reducible apply State.mergeClose_keeps | with_reducible apply State.modChan_keeps
      | with_reducible apply State.Keeps.foldl | with_reducible apply State.Keeps.ite)

theorem State.carryStores_keeps {a s : State} (h : a.Keeps s) :
    a.Keeps (State.carryStores s) := by
  unfold State.carryStores
  repeat' (first
      | with_reducible assumption | intro _ | dsimp only | with_reducible apply State.writeStore_keeps
      | with_reducible apply State.modCore_keeps | with_reducible apply State.Keeps.foldl)

theorem State.lbEnd_keeps {a s : State} (h : a.Keeps s) (x1 x2 x3 x4 x5) :
    a.Keeps (State.lbEnd s x1 x2 x3 x4 x5) := by
  unfold State.lbEnd
  repeat' (first
      | with_reducible assumption | dsimp only | with_reducible apply State.record_keeps
      | fail_if_no_progress (with_reducible apply State.Keeps.upd) | with_reducible apply State.Keeps.ite)

theorem State.lbEndAll_keeps {a s : State} (h : a.Keeps s) (x1) :
    a.Keeps (State.lbEndAll s x1) := by
  unfold State.lbEndAll
  repeat' (first
      | with_reducible assumption | intro _ | dsimp only | with_reducible apply State.draw_keeps
      | with_reducible apply State.lbEnd_keeps | with_reducible apply State.Keeps.foldl)

theorem State.chipFatal_keeps {a s : State} (h : a.Keeps s) (x1 x2 x3) :
    a.Keeps (State.chipFatal s x1 x2 x3) := by
  unfold State.chipFatal
  repeat' (first
      | with_reducible assumption | intro _ | dsimp only | with_reducible apply State.carryStores_keeps
      | with_reducible apply State.parkChan_keeps | with_reducible apply State.modPort_keeps
      | with_reducible apply State.modDom_keeps | with_reducible apply State.logRecord_keeps
      | (with_reducible apply State.Keeps.modBoot; on_goal 2 => exact fun _ => ⟨rfl, rfl, rfl, rfl⟩)
      | fail_if_no_progress (with_reducible apply State.Keeps.upd) | with_reducible apply State.Keeps.foldl
      | with_reducible apply State.Keeps.ite)

theorem State.lossRecord_keeps {a s : State} (h : a.Keeps s) (x1 x2 x3 x4 x5) :
    a.Keeps (State.lossRecord s x1 x2 x3 x4 x5) := by
  unfold State.lossRecord
  repeat' (first | with_reducible assumption | with_reducible apply State.record_keeps)

theorem State.resetKeep_keeps {a s : State} (h : a.Keeps s) : a.Keeps s.resetKeep :=
  ⟨h.pending, h.fuses, h.free, h.counter, h.floors, h.revoked, h.vesper,
    fun m => ⟨rfl, rfl, rfl, (h.mem m).2.2.2⟩⟩

theorem State.begin_keeps {a s : State} (h : a.Keeps s) : a.Keeps s.begin := by
  unfold State.begin
  extract_lets _ _ _ s1 s2 s3
  have h1 : a.Keeps s1 :=
    ⟨h.pending, h.fuses, h.free, h.counter.trans (Nat.le_succ _), h.floors, h.revoked, h.vesper, h.mem⟩
  have h2 : a.Keeps s2 := State.Keeps.foldl h1 (fun _ _ ht => State.modRegion_keeps ht _ _)
  have h3 : a.Keeps s3 := State.Keeps.upd h2
  exact State.modDom_keeps h3 _ _

theorem State.flashWrite_keeps {a s : State} (h : a.Keeps s) (x1 x2) :
    a.Keeps (State.flashWrite s x1 x2) := by
  unfold State.flashWrite
  repeat' (first | with_reducible assumption | fail_if_no_progress (with_reducible apply State.Keeps.updFlash))

theorem State.rejectImage_keeps {a s : State} (h : a.Keeps s) (x1 x2 x3) :
    a.Keeps (State.rejectImage s x1 x2 x3) := by
  unfold State.rejectImage
  repeat' (first
      | with_reducible assumption | with_reducible apply State.record_keeps
      | (with_reducible apply State.Keeps.modBoot; on_goal 2 => exact fun _ => ⟨rfl, rfl, rfl, rfl⟩))

theorem State.checkSlot_go_keeps {a s : State} (h : a.Keeps s) (slot) (l : List (Nat × Nat)) (acc : List Img) :
    a.Keeps (State.checkSlot.go slot s l acc).2 := by
  induction l generalizing s acc with
  | nil => exact h
  | cons e t ih =>
    unfold State.checkSlot.go
    split
    · exact ih h _
    · exact State.rejectImage_keeps h _ _ _

theorem State.checkSlot_keeps {a s : State} (h : a.Keeps s) (slot) : a.Keeps (s.checkSlot slot).2 := by
  unfold State.checkSlot
  split
  · exact h
  · exact State.checkSlot_go_keeps h _ _ _


theorem State.trySlots_keeps {a s : State} (h : a.Keeps s) (x1) :
    a.Keeps (State.trySlots s x1).2 := by
  induction x1 generalizing s  with
  | nil =>
    unfold State.trySlots
    repeat' (with_reducible assumption)
  | cons e t ih =>
    unfold State.trySlots
    repeat' (first
        | with_reducible assumption | dsimp only | with_reducible apply ih | with_reducible apply State.checkSlot_keeps
        | with_reducible refine State.Keeps.snd (by assumption) ?_ | split)

theorem State.placeMonitor_keeps {a s : State} (h : a.Keeps s) (im body) : a.Keeps (s.placeMonitor im body) := by
  have h1 : a.Keeps ({ s with sram := s.sram.write 0 body } : State) := State.Keeps.updSram h
  exact State.Keeps.updBoot h1 ⟨rfl, rfl, rfl, rfl⟩

theorem State.bringUp_keeps {a s : State} (h : a.Keeps s) (x1) :
    a.Keeps (State.bringUp s x1) := by
  unfold State.bringUp
  repeat' (first
      | with_reducible assumption | intro _ | dsimp only
      | (with_reducible apply State.Keeps.modBoot; on_goal 2 => exact fun _ => ⟨rfl, rfl, rfl, rfl⟩)
      | with_reducible apply State.modRegion_keeps | with_reducible apply State.setCore_keeps
      | with_reducible apply State.modDom_keeps | with_reducible apply State.Keeps.foldl)

theorem State.vesper_keeps {a s : State} (h : a.Keeps s) (typ region entries) : a.Keeps (s.vesper typ region entries) := by
  unfold State.vesper
  extract_lets b flags body
  exact ⟨h.pending, h.fuses, h.free, h.counter, h.floors, h.revoked, h.vesper.trans (Nat.le_succ _), h.mem⟩

theorem State.reloadStore_keeps {a s : State} (h : a.Keeps s) :
    a.Keeps (State.reloadStore s) := by
  unfold State.reloadStore
  repeat' (first
      | with_reducible assumption | dsimp only
      | (with_reducible apply State.Keeps.modBoot; on_goal 2 => exact fun _ => ⟨rfl, rfl, rfl, rfl⟩))

theorem State.zeroize_keeps {a s : State} (h : a.Keeps s) (x1) :
    a.Keeps (State.zeroize s x1) := by
  unfold State.zeroize
  repeat' (first
      | with_reducible assumption | dsimp only | with_reducible apply State.draw_keeps
      | with_reducible apply State.reloadStore_keeps | with_reducible apply State.record_keeps
      | fail_if_no_progress (with_reducible apply State.Keeps.updBoot; on_goal 2 => exact ⟨rfl, rfl, rfl, rfl⟩)
      | with_reducible apply State.Keeps.ite)

theorem State.setMap_keeps {a s : State} (h : a.Keeps s) (x1 x2 x3) :
    a.Keeps (State.setMap s x1 x2 x3) := by
  unfold State.setMap
  repeat' (first | with_reducible assumption | dsimp only | fail_if_no_progress (with_reducible apply State.Keeps.upd))

theorem State.lbistAtStart_keeps {a s : State} (h : a.Keeps s) :
    a.Keeps (State.lbistAtStart s) := by
  unfold State.lbistAtStart
  repeat' (first
      | with_reducible assumption | intro _ | dsimp only | with_reducible apply State.zeroize_keeps
      | with_reducible apply State.setMap_keeps | fail_if_no_progress (with_reducible apply State.Keeps.upd)
      | with_reducible apply State.Keeps.foldl | with_reducible apply State.Keeps.ite)

theorem State.handover_keeps {a s : State} (h : a.Keeps s) : a.Keeps s.handover := by
  unfold State.handover
  refine State.Keeps.ite h ?_
  extract_lets t key keys _ u
  have h1 : a.Keeps t := State.walkClean_keeps h 0
  have h2 : a.Keeps u := by
    refine ⟨h1.pending, h1.fuses, h1.free, h1.counter, h1.floors, h1.revoked, h1.vesper, fun m => ?_⟩
    obtain ⟨m1, m2, m3, m4⟩ := h1.mem m
    refine ⟨?_, m2, rfl, m4⟩
    refine Mem.wfFrom_append (k := 0x2000000) (Mem.wfFrom_filter (fun i => decide (i < 0x2000000)) m3) ?_
      (Mem.wfFrom_filter (fun i => decide (0x2000000 ≤ i)) m1) ?_
    · intro e he
      exact of_decide_eq_true (List.mem_filter.mp he).2
    · intro e he
      exact of_decide_eq_true (List.mem_filter.mp he).2
  exact State.modRegion_keeps h2 _ _

theorem State.releasePhase_keeps {a s : State} (h : a.Keeps s) :
    a.Keeps (State.releasePhase s) := by
  unfold State.releasePhase
  repeat' (first
      | with_reducible assumption | intro _ | dsimp only
      | (with_reducible apply State.Keeps.modBoot; on_goal 2 => exact fun _ => ⟨rfl, rfl, rfl, rfl⟩)
      | with_reducible apply State.modPort_keeps | with_reducible apply State.modCore_keeps
      | with_reducible apply State.Keeps.foldl | with_reducible apply State.Keeps.ite)

theorem State.bootLock_keeps {a s : State} (h : a.Keeps s) :
    a.Keeps (State.bootLock s) := by
  unfold State.bootLock
  repeat' (first
      | with_reducible assumption
      | (with_reducible apply State.Keeps.modBoot; on_goal 2 => exact fun _ => ⟨rfl, rfl, rfl, rfl⟩))

theorem State.sessResult_keeps {a s : State} (h : a.Keeps s) (x1) :
    a.Keeps (State.sessResult s x1) := by
  unfold State.sessResult
  repeat' (first
      | with_reducible assumption
      | (with_reducible apply State.Keeps.modBoot; on_goal 2 => exact fun _ => ⟨rfl, rfl, rfl, rfl⟩))

theorem State.sessionOpen_keeps {a s : State} (h : a.Keeps s) (x1) :
    a.Keeps (State.sessionOpen s x1).2 := by
  unfold State.sessionOpen
  repeat' (first
      | with_reducible assumption | dsimp only | with_reducible apply State.sessResult_keeps
      | (with_reducible apply State.Keeps.modBoot; on_goal 2 => exact fun _ => ⟨rfl, rfl, rfl, rfl⟩) | split)

theorem State.sessionHeader_keeps {a s : State} (h : a.Keeps s) (x1) :
    a.Keeps (State.sessionHeader s x1).2 := by
  unfold State.sessionHeader
  repeat' (first
      | with_reducible assumption | dsimp only | with_reducible apply State.sessResult_keeps
      | with_reducible apply State.rejectImage_keeps | with_reducible apply State.flashWrite_keeps
      | (with_reducible apply State.Keeps.modBoot; on_goal 2 => exact fun _ => ⟨rfl, rfl, rfl, rfl⟩)
      | with_reducible apply State.Keeps.ite | split)

theorem State.sessionBody_keeps {a s : State} (h : a.Keeps s) (x1) :
    a.Keeps (State.sessionBody s x1).2 := by
  unfold State.sessionBody
  repeat' (first
      | with_reducible assumption | dsimp only | with_reducible apply State.rejectImage_keeps
      | with_reducible apply State.sessResult_keeps
      | (with_reducible apply State.Keeps.modBoot; on_goal 2 => exact fun _ => ⟨rfl, rfl, rfl, rfl⟩)
      | with_reducible apply State.flashWrite_keeps | with_reducible apply State.placeMonitor_keeps
      | with_reducible apply State.Keeps.ite | split)

theorem State.finalizeSession_keeps {a s : State} (h : a.Keeps s) :
    a.Keeps (State.finalizeSession s).2 := by
  unfold State.finalizeSession
  repeat' (first
      | with_reducible assumption | dsimp only | with_reducible apply State.sessResult_keeps
      | with_reducible apply State.flashWrite_keeps
      | (with_reducible apply State.Keeps.modBoot; on_goal 2 => exact fun _ => ⟨rfl, rfl, rfl, rfl⟩)
      | with_reducible apply State.bringUp_keeps | split)

theorem State.liveBegin_keeps {a s : State} (h : a.Keeps s) :
    a.Keeps (State.liveBegin s) := by
  unfold State.liveBegin
  repeat' (first
      | with_reducible assumption | dsimp only
      | (with_reducible apply State.Keeps.modBoot; on_goal 2 => exact fun _ => ⟨rfl, rfl, rfl, rfl⟩)
      | with_reducible apply State.modRegion_keeps | with_reducible apply State.Keeps.ite)

theorem State.trimStore_keeps {a s : State} (h : a.Keeps s) :
    a.Keeps (State.trimStore s) := by
  unfold State.trimStore
  repeat' (first
      | with_reducible assumption
      | (with_reducible apply State.Keeps.modBoot; on_goal 2 => exact fun _ => ⟨rfl, rfl, rfl, rfl⟩))

theorem State.placeNow_keeps {a s : State} (h : a.Keeps s) :
    a.Keeps (State.placeNow s).2 := by
  unfold State.placeNow
  repeat' (first
      | with_reducible assumption | dsimp only | with_reducible apply State.memStore_keeps
      | with_reducible apply State.vesper_keeps | with_reducible apply State.record_keeps
      | with_reducible apply State.rejectImage_keeps | split)

theorem State.signNonce_keeps {a s : State} (h : a.Keeps s) (x1) :
    a.Keeps (State.signNonce s x1) := by
  unfold State.signNonce
  repeat' (first
      | with_reducible assumption | dsimp only
      | (with_reducible apply State.Keeps.modBoot; on_goal 2 => exact fun _ => ⟨rfl, rfl, rfl, rfl⟩))

theorem State.lbistStart_keeps {a s : State} (h : a.Keeps s) (x1 x2) :
    Option.Holds (a.Keeps) (State.lbistStart s x1 x2) := by
  unfold State.lbistStart
  repeat' (first
      | with_reducible assumption | dsimp only | with_reducible apply Option.Holds.mkSome
      | with_reducible apply Option.Holds.mkNone | with_reducible apply State.zeroize_keeps
      | fail_if_no_progress (with_reducible apply State.Keeps.upd) | split)

theorem State.lbistCut_keeps {a s : State} (h : a.Keeps s) (x1 x2 x3) :
    a.Keeps (State.lbistCut s x1 x2 x3) := by
  unfold State.lbistCut
  repeat' (first
      | with_reducible assumption | dsimp only | with_reducible apply State.draw_keeps
      | with_reducible apply State.lbEnd_keeps)

theorem State.replaceBegin_keeps {a s : State} (h : a.Keeps s) (x1 x2) :
    a.Keeps (State.replaceBegin s x1 x2) := by
  unfold State.replaceBegin
  repeat' (first
      | with_reducible assumption | dsimp only | with_reducible apply State.emptySlice_keeps
      | with_reducible apply State.modRegion_keeps | with_reducible apply State.setMap_keeps
      | with_reducible apply State.Keeps.ite | split)

theorem State.releaseHeld_keeps {a s : State} (h : a.Keeps s) (x1) :
    a.Keeps (State.releaseHeld s x1) := by
  unfold State.releaseHeld
  repeat' (first
      | with_reducible assumption | intro _ | dsimp only | with_reducible apply State.homeRequest_keeps
      | with_reducible apply State.modBlock_keeps | with_reducible apply State.Keeps.foldl)

theorem State.modStage_keeps {a s : State} (h : a.Keeps s) (x1 x2) :
    a.Keeps (State.modStage s x1 x2) := by
  unfold State.modStage
  repeat' (first | with_reducible assumption | with_reducible apply State.modSlate_keeps)

theorem State.withMarks_keeps {a s : State} (h : a.Keeps s) (x1 x2) :
    a.Keeps (State.withMarks s x1 x2) := by
  unfold State.withMarks
  repeat' (first
      | with_reducible assumption | intro _ | with_reducible apply State.modChan_keeps
      | with_reducible apply State.Keeps.foldl)

theorem State.checkFailed_keeps {a s : State} (h : a.Keeps s) (x1 x2 x3 x4 x5) :
    a.Keeps (State.checkFailed s x1 x2 x3 x4 x5) := by
  unfold State.checkFailed
  repeat' (first
      | with_reducible assumption | dsimp only | with_reducible apply State.chanRecord_keeps
      | with_reducible apply State.rejectImage_keeps
      | (with_reducible apply State.Keeps.modBoot; on_goal 2 => exact fun _ => ⟨rfl, rfl, rfl, rfl⟩)
      | with_reducible apply State.Keeps.ite | split)

theorem State.acceptCommit_keeps {a s : State} (h : a.Keeps s) (x1 x2 x3 x4) :
    a.Keeps (State.acceptCommit s x1 x2 x3 x4) := by
  unfold State.acceptCommit
  repeat' (first
      | with_reducible assumption | intro _ | dsimp only | with_reducible apply State.modSlate_keeps
      | with_reducible apply State.modStage_keeps
      | (with_reducible apply State.Keeps.modBoot; on_goal 2 => exact fun _ => ⟨rfl, rfl, rfl, rfl⟩)
      | with_reducible apply State.Keeps.foldl | with_reducible apply State.Keeps.ite | split)

theorem State.commitNow_keeps {a s : State} (h : a.Keeps s) (x1 x2) :
    a.Keeps (State.commitNow s x1 x2).2.2.2.2 := by
  unfold State.commitNow
  repeat' (first
      | with_reducible assumption | dsimp only | with_reducible apply State.modStage_keeps
      | with_reducible apply State.checkFailed_keeps | with_reducible apply State.acceptCommit_keeps | split)

theorem State.powerApply_keeps {a s : State} (h : a.Keeps s) (x1 x2 x3) :
    a.Keeps (State.powerApply s x1 x2 x3) := by
  unfold State.powerApply
  repeat' (first
      | with_reducible assumption | dsimp only | with_reducible apply State.requestDom_keeps
      | with_reducible apply State.modChan_keeps | with_reducible apply State.modDom_keeps
      | with_reducible apply State.Keeps.ite)

theorem State.rowApply_keeps {a s : State} (h : a.Keeps s) (x1 x2) :
    a.Keeps (State.rowApply s x1 x2) := by
  unfold State.rowApply
  repeat' (first
      | with_reducible assumption | dsimp only | with_reducible apply State.modChan_keeps
      | fail_if_no_progress (with_reducible apply State.Keeps.upd) | with_reducible apply State.Keeps.ite)

theorem State.applyOne_keeps {a s : State} (h : a.Keeps s) (x1 x2 x3) :
    a.Keeps (State.applyOne s x1 x2 x3) := by
  unfold State.applyOne
  repeat' (first
      | with_reducible assumption | intro _ | dsimp only | with_reducible apply State.Keeps.raiseFloor
      | with_reducible apply State.Keeps.revoke | with_reducible apply State.modCore_keeps
      | with_reducible apply State.powerApply_keeps | with_reducible apply State.addMark_keeps
      | with_reducible apply State.rowApply_keeps | with_reducible apply State.replaceBegin_keeps
      | with_reducible apply State.setMap_keeps | with_reducible apply State.modNoon_keeps
      | (with_reducible apply State.Keeps.modBoot; on_goal 2 => exact fun _ => ⟨rfl, rfl, rfl, rfl⟩)
      | with_reducible apply State.liveBegin_keeps | fail_if_no_progress (with_reducible apply State.Keeps.upd)
      | with_reducible apply State.Keeps.foldl | with_reducible apply State.Keeps.ite)

theorem State.holdOne_keeps {a s : State} (h : a.Keeps s) (x1 x2) :
    a.Keeps (State.holdOne s x1 x2) := by
  unfold State.holdOne
  repeat' (first
      | with_reducible assumption | with_reducible apply State.modSlate_keeps | with_reducible apply State.Keeps.ite | split)

theorem State.applyCommit_keeps {a s : State} (h : a.Keeps s) (x1) :
    a.Keeps (State.applyCommit s x1) := by
  unfold State.applyCommit
  repeat' (first
      | with_reducible assumption | intro _ | dsimp only | with_reducible apply State.holdOne_keeps
      | with_reducible apply State.applyOne_keeps | with_reducible apply State.vesper_keeps
      | with_reducible apply State.Keeps.foldl | with_reducible apply State.Keeps.ite)

theorem State.applyCommits_keeps {a s : State} (h : a.Keeps s) (x1) :
    a.Keeps (State.applyCommits s x1) := by
  unfold State.applyCommits
  repeat' (first
      | with_reducible assumption | intro _ | dsimp only | with_reducible apply State.modSlate_keeps
      | with_reducible apply State.applyCommit_keeps | with_reducible apply State.Keeps.foldl)

end Sys2Proof.Machine
end

