-- ==== Sys2Proof/Laws/KeepsRest.lean ====
section
/-! SUPPORT. What no command undoes (State.Keeps): accesses, channels and what remains. -/

namespace Sys2Proof.Machine

theorem State.slateReadObj_keeps {a s : State} (h : a.Keeps s) (x1 x2 x3 x4 x5) :
    a.Keeps (State.slateReadObj s x1 x2 x3 x4 x5).2 := by
  unfold State.slateReadObj
  repeat' (first | with_reducible assumption | dsimp only | with_reducible apply State.modStage_keeps | split)

theorem State.stageNow_keeps {a s : State} (h : a.Keeps s) (x1 x2 x3 x4) :
    a.Keeps (State.stageNow s x1 x2 x3 x4).2 := by
  unfold State.stageNow
  repeat' (first | with_reducible assumption | dsimp only | with_reducible apply State.modStage_keeps | split)

theorem imageAns_keeps {a : State} {p : Nat × State} (h : a.Keeps p.2) : SndHolds a.Keeps (imageAns p) := by
  unfold imageAns
  split
  · exact h
  · exact h

theorem State.writeNow_keeps {a s : State} (h : a.Keeps s) (idx sub v) : a.Keeps (s.writeNow idx sub v).2 := by
  change SndHolds a.Keeps (s.writeNow idx sub v)
  unfold State.writeNow
  extract_lets n done bad state
  have hd : ∀ t, a.Keeps t → SndHolds a.Keeps (done t) := fun t ht => ht
  have hb : SndHolds a.Keeps bad := h
  have hs : SndHolds a.Keeps state := h
  clear_value done bad state n
  repeat' (first
      | with_reducible assumption | with_reducible apply SndHolds.ite | with_reducible apply hd
      | with_reducible apply State.Keeps.ite | with_reducible apply State.startRetrain_keeps
      | with_reducible apply State.modChan_keeps | with_reducible apply State.modLog_keeps
      | with_reducible apply imageAns_keeps | with_reducible apply State.sessionOpen_keeps
      | with_reducible apply State.sessionHeader_keeps | with_reducible apply State.sessionBody_keeps
      | with_reducible apply State.finalizeSession_keeps | with_reducible apply State.signNonce_keeps
      | with_reducible apply State.lbistCut_keeps
      | (with_reducible apply State.Keeps.modBoot; on_goal 2 => exact fun _ => ⟨rfl, rfl, rfl, rfl⟩)
      | with_reducible refine Option.Holds.some (by assumption) ?_ | with_reducible apply State.lbistStart_keeps
      | with_reducible apply Option.Holds.mkNone | split | fail_if_no_progress (with_reducible apply State.Keeps.upd))

theorem State.takeValue_keeps {a s : State} (h : a.Keeps s) (x1 x2 x3 x4 x5 x6) :
    a.Keeps (State.takeValue s x1 x2 x3 x4 x5 x6).2 := by
  unfold State.takeValue
  repeat' (first
      | with_reducible assumption | with_reducible apply State.writeNow_keeps | with_reducible apply State.stageNow_keeps
      | split)

theorem State.slateWriteObj_keeps {a s : State} (h : a.Keeps s) (x1 x2 x3 x4 x5 x6) :
    a.Keeps (State.slateWriteObj s x1 x2 x3 x4 x5 x6).2 := by
  unfold State.slateWriteObj
  repeat' (first
      | with_reducible assumption | dsimp only | with_reducible apply State.takeValue_keeps
      | with_reducible apply State.modStage_keeps | split)

theorem State.slateBad_keeps {a s : State} (h : a.Keeps s) (x1 x2) :
    a.Keeps (State.slateBad s x1 x2) := by
  unfold State.slateBad
  repeat' (first
      | with_reducible assumption | with_reducible apply State.record_keeps | with_reducible apply State.modStage_keeps)

theorem State.commitResult_keeps {a s : State} (h : a.Keeps s) (x1 x2 x3 x4) :
    a.Keeps (State.commitResult s x1 x2 x3 x4) := by
  unfold State.commitResult
  repeat' (first | with_reducible assumption | with_reducible apply State.modStage_keeps)

theorem State.slateAnswer_keeps {a s : State} (h : a.Keeps s) (x1 x2) :
    a.Keeps (State.slateAnswer s x1 x2).2 := by
  unfold State.slateAnswer
  repeat' (first
      | with_reducible assumption | dsimp only | with_reducible apply State.commitResult_keeps
      | with_reducible apply State.commitNow_keeps | with_reducible apply State.modStage_keeps
      | with_reducible apply State.slateReadObj_keeps | with_reducible apply State.slateWriteObj_keeps | split)

theorem State.slateHandle_keeps {a s : State} (h : a.Keeps s) (x1 x2 x3) :
    a.Keeps (State.slateHandle s x1 x2 x3).2 := by
  unfold State.slateHandle
  repeat' (first
      | with_reducible assumption | dsimp only | with_reducible apply State.modSlate_keeps
      | with_reducible apply State.slateAnswer_keeps | with_reducible apply State.slateBad_keeps
      | with_reducible apply State.Keeps.ite | split)

theorem State.svcRefuse_keeps {a s : State} (h : a.Keeps s) (x1) :
    a.Keeps (State.svcRefuse s x1) := by
  unfold State.svcRefuse
  repeat' (first
      | with_reducible assumption | with_reducible apply State.modSlate_keeps | with_reducible apply State.slateBad_keeps)

theorem State.svcMessage_keeps {a s : State} (h : a.Keeps s) (x1) :
    a.Keeps (State.svcMessage s x1) := by
  unfold State.svcMessage
  repeat' (first
      | with_reducible assumption | dsimp only | with_reducible apply State.svcRefuse_keeps
      | with_reducible apply State.slateHandle_keeps | with_reducible apply State.modSlate_keeps
      | with_reducible apply State.Keeps.ite)

theorem State.svcRead_keeps {a s : State} (h : a.Keeps s) (x1) :
    a.Keeps (State.svcRead s x1) := by
  unfold State.svcRead
  repeat' (first
      | with_reducible assumption | dsimp only | with_reducible apply State.emit_keeps
      | with_reducible apply State.modSlate_keeps | with_reducible apply State.Keeps.ite)

theorem State.canReceived_keeps {a s : State} (h : a.Keeps s) :
    a.Keeps (State.canReceived s) := by
  unfold State.canReceived
  repeat' (first
      | with_reducible assumption | dsimp only | with_reducible apply State.modSlate_keeps
      | with_reducible apply State.draw_keeps | with_reducible apply State.Keeps.ite)

theorem State.fieldRequest_keeps {a s : State} (h : a.Keeps s) (x1) :
    a.Keeps (State.fieldRequest s x1) := by
  unfold State.fieldRequest
  repeat' (first
      | with_reducible assumption | dsimp only | with_reducible apply State.canReceived_keeps
      | with_reducible apply State.slateHandle_keeps | with_reducible apply State.slateBad_keeps
      | with_reducible apply State.modSlate_keeps | with_reducible apply State.emit_keeps
      | with_reducible apply State.Keeps.ite | split)

theorem State.hostMessage_keeps {a s : State} (h : a.Keeps s) (x1 x2) :
    a.Keeps (State.hostMessage s x1 x2) := by
  unfold State.hostMessage
  repeat' (first
      | with_reducible assumption | dsimp only | with_reducible apply State.slateHandle_keeps
      | with_reducible apply State.modSlate_keeps | with_reducible apply State.post_keeps
      | with_reducible apply State.Keeps.ite)

theorem State.dbgMessage_keeps {a s : State} (h : a.Keeps s) (x1) :
    a.Keeps (State.dbgMessage s x1) := by
  unfold State.dbgMessage
  repeat' (first
      | with_reducible assumption | dsimp only | with_reducible apply State.modSlate_keeps
      | with_reducible apply State.slateBad_keeps | with_reducible apply State.slateHandle_keeps
      | with_reducible apply State.Keeps.ite)

theorem State.slatePort_keeps {a s : State} (h : a.Keeps s) (x1 x2) :
    a.Keeps (State.slatePort s x1 x2) := by
  unfold State.slatePort
  repeat' (first
      | with_reducible assumption | with_reducible apply State.svcMessage_keeps
      | with_reducible apply State.fieldRequest_keeps | with_reducible apply State.hostMessage_keeps
      | with_reducible apply State.dbgMessage_keeps | split)

theorem State.slateSend_keeps {a s : State} (h : a.Keeps s) (x1 x2) :
    a.Keeps (State.slateSend s x1 x2) := by
  unfold State.slateSend
  repeat' (first
      | with_reducible assumption | with_reducible apply State.slatePort_keeps | with_reducible apply State.Keeps.ite)

theorem State.pwrgoodUp_keeps {a s : State} (h : a.Keeps s) :
    a.Keeps (State.pwrgoodUp s) := by
  unfold State.pwrgoodUp
  repeat' (first
      | with_reducible assumption | dsimp only | with_reducible apply State.begin_keeps
      | fail_if_no_progress (with_reducible apply State.Keeps.upd) | with_reducible apply State.Keeps.ite)

theorem State.cstartRefuse_keeps {a s : State} (h : a.Keeps s) (x1 x2 x3 x4 x5 x6) :
    a.Keeps (State.cstartRefuse s x1 x2 x3 x4 x5 x6) := by
  unfold State.cstartRefuse
  repeat' (first | with_reducible assumption | with_reducible apply State.cobRecord_keeps)

theorem State.cstart_keeps {a s : State} (h : a.Keeps s) (x1 x2 x3 x4 x5) :
    a.Keeps (State.cstart s x1 x2 x3 x4 x5) := by
  unfold State.cstart
  repeat' (first
      | with_reducible assumption | dsimp only | with_reducible apply State.pmeEvent_keeps
      | with_reducible apply State.cstartRefuse_keeps | with_reducible apply State.tailWrite_keeps
      | with_reducible apply State.Keeps.ite | split)

theorem State.applyAct_keeps {a s : State} (h : a.Keeps s) (x1 x2) :
    a.Keeps (State.applyAct s x1 x2) := by
  unfold State.applyAct
  repeat' (first
      | with_reducible assumption | with_reducible apply State.putMail_keeps | with_reducible apply State.delAct_keeps
      | with_reducible apply State.changeLine_keeps | with_reducible apply State.mergeLine_keeps
      | with_reducible apply State.cstart_keeps | with_reducible apply State.postFrom_keeps
      | with_reducible refine Option.Holds.some (by assumption) ?_ | split)

theorem State.applyChange_keeps {a s : State} (h : a.Keeps s) (x1) :
    a.Keeps (State.applyChange s x1) := by
  unfold State.applyChange
  repeat' (first
      | with_reducible assumption | dsimp only | with_reducible apply State.applyAct_keeps
      | with_reducible apply State.poisonLine_keeps | with_reducible apply State.changeLine_keeps
      | with_reducible apply State.Keeps.ite | split)

theorem State.applyAgent_keeps {a s : State} (h : a.Keeps s) (x1 x2 x3) :
    a.Keeps (State.applyAgent s x1 x2 x3) := by
  unfold State.applyAgent
  repeat' (first
      | with_reducible assumption | intro _ | dsimp only | with_reducible apply State.applyChange_keeps
      | with_reducible apply State.modBlock_keeps | with_reducible apply State.modRegion_keeps
      | with_reducible apply State.Keeps.foldl | with_reducible apply State.Keeps.ite)

theorem State.applyRoot_keeps {a s : State} (h : a.Keeps s) (x1) :
    a.Keeps (State.applyRoot s x1) := by
  unfold State.applyRoot
  repeat' (first
      | with_reducible assumption | intro _ | dsimp only | with_reducible apply State.applyAct_keeps
      | with_reducible apply State.Keeps.foldl)

theorem State.preChangeNext_keeps {a s : State} (h : a.Keeps s) :
    a.Keeps (State.preChangeNext s) := by
  unfold State.preChangeNext
  repeat' (first
      | with_reducible assumption | intro _ | with_reducible apply State.preChange_keeps
      | with_reducible apply State.Keeps.foldl | with_reducible apply State.Keeps.ite)

theorem State.meetTimers_keeps {a s : State} (h : a.Keeps s) :
    a.Keeps (State.meetTimers s) := by
  unfold State.meetTimers
  repeat' (first
      | with_reducible assumption | intro _ | dsimp only | with_reducible apply State.setCore_keeps
      | with_reducible apply State.Keeps.foldl | with_reducible apply State.Keeps.ite)

theorem State.driveOut_keeps {a s : State} (h : a.Keeps s) :
    a.Keeps (State.driveOut s) := by
  unfold State.driveOut
  repeat' (first | with_reducible assumption | dsimp only | fail_if_no_progress (with_reducible apply State.Keeps.upd))

theorem State.stackTick_keeps {a s : State} (h : a.Keeps s) (x1) :
    a.Keeps (State.stackTick s x1) := by
  unfold State.stackTick
  repeat' (first
      | with_reducible assumption | intro _ | dsimp only | with_reducible apply State.draw_keeps
      | with_reducible apply State.modPort_keeps | with_reducible apply State.modRegion_keeps
      | with_reducible apply State.Keeps.foldl | with_reducible apply State.Keeps.ite)

theorem State.countStretch_keeps {a s : State} (h : a.Keeps s) :
    a.Keeps (State.countStretch s) := by
  unfold State.countStretch
  repeat' (first
      | with_reducible assumption | dsimp only | with_reducible apply State.stretchWord_keeps
      | with_reducible apply State.modNoon_keeps | with_reducible apply State.Keeps.ite)

theorem State.passTick_keeps {a s : State} (h : a.Keeps s) :
    a.Keeps (State.passTick s) := by
  unfold State.passTick
  repeat' (first
      | with_reducible assumption | dsimp only | with_reducible apply State.passRefs_keeps
      | with_reducible apply State.modNoon_keeps)

theorem State.newTick_keeps {a s : State} (h : a.Keeps s) :
    a.Keeps (State.newTick s) := by
  unfold State.newTick
  repeat' (first
      | with_reducible assumption | intro _ | dsimp only | with_reducible apply State.modNoon_keeps
      | with_reducible apply State.modBlock_keeps | with_reducible apply State.modRegion_keeps
      | with_reducible apply State.Keeps.foldl)

theorem State.boundary_keeps {a s : State} (h : a.Keeps s) :
    a.Keeps (State.boundary s) := by
  unfold State.boundary
  repeat' (first
      | with_reducible assumption | intro _ | dsimp only | with_reducible apply State.newTick_keeps
      | with_reducible apply State.passTick_keeps | with_reducible apply State.countStretch_keeps
      | with_reducible apply State.applyCommits_keeps | with_reducible apply State.modNoon_keeps
      | with_reducible apply State.applyAgent_keeps | with_reducible apply State.driveOut_keeps
      | with_reducible apply State.meetTimers_keeps | with_reducible apply State.preChangeNext_keeps
      | with_reducible apply State.applyRoot_keeps | with_reducible apply State.modChan_keeps
      | with_reducible apply State.stackTick_keeps | with_reducible apply State.Keeps.foldl
      | with_reducible apply State.Keeps.ite)

theorem State.resend_keeps {a s : State} (h : a.Keeps s) (x1) :
    a.Keeps (State.resend s x1) := by
  unfold State.resend
  repeat' (first
      | with_reducible assumption | intro _ | dsimp only | with_reducible apply State.modAct_keeps
      | with_reducible apply State.applyChange_keeps | with_reducible apply State.modBlock_keeps
      | with_reducible apply State.modRegion_keeps | with_reducible apply State.Keeps.foldl
      | with_reducible apply State.Keeps.ite)

theorem State.logRegWrite_keeps {a s : State} (h : a.Keeps s) (x1 x2 x3 x4) :
    a.Keeps (State.logRegWrite s x1 x2 x3 x4) := by
  unfold State.logRegWrite
  repeat' (first
      | with_reducible assumption | dsimp only | with_reducible apply State.modLog_keeps
      | with_reducible apply State.Keeps.ite)

theorem State.iotRegWrite_keeps {a s : State} (h : a.Keeps s) (x1 x2 x3 x4) :
    a.Keeps (State.iotRegWrite s x1 x2 x3 x4) := by
  unfold State.iotRegWrite
  repeat' (first
      | with_reducible assumption | dsimp only | with_reducible apply State.modIotu_keeps
      | with_reducible apply State.eqbWrite_keeps | with_reducible apply State.prgrWrite_keeps
      | with_reducible apply State.Keeps.ite | split)

theorem State.regionWrite_keeps {a s : State} (h : a.Keeps s) (x1 x2 x3 x4) :
    a.Keeps (State.regionWrite s x1 x2 x3 x4) := by
  unfold State.regionWrite
  repeat' (first
      | with_reducible assumption | dsimp only | with_reducible apply State.writeRoute_keeps
      | with_reducible apply State.logRegWrite_keeps | with_reducible apply State.startRetrain_keeps
      | with_reducible apply State.iotRegWrite_keeps | with_reducible apply State.Keeps.ite | split)

theorem State.quotaWrite_keeps {a s : State} (h : a.Keeps s) (x1 x2) :
    a.Keeps (State.quotaWrite s x1 x2) := by
  unfold State.quotaWrite
  repeat' (first | with_reducible assumption | dsimp only | with_reducible apply State.modNoon_keeps)

theorem State.keyWrite_keeps {a s : State} (h : a.Keeps s) (x1 x2 x3) :
    a.Keeps (State.keyWrite s x1 x2 x3) := by
  unfold State.keyWrite
  repeat' (first
      | with_reducible assumption | dsimp only | with_reducible apply State.keyCommand_keeps
      | fail_if_no_progress (with_reducible apply State.Keeps.upd) | with_reducible apply State.Keeps.ite)

theorem State.sdWrite_keeps {a s : State} (h : a.Keeps s) (x1 x2 x3) :
    a.Keeps (State.sdWrite s x1 x2 x3) := by
  unfold State.sdWrite
  repeat' (first
      | with_reducible assumption | dsimp only | with_reducible apply State.sdGo_keeps
      | fail_if_no_progress (with_reducible apply State.Keeps.upd) | with_reducible apply State.Keeps.ite)

theorem State.mailboxWrite_keeps {a s : State} (h : a.Keeps s) (x1 x2 x3 x4) :
    a.Keeps (State.mailboxWrite s x1 x2 x3 x4) := by
  unfold State.mailboxWrite
  repeat' (first
      | with_reducible assumption | intro _ | dsimp only | with_reducible apply State.modSlate_keeps
      | with_reducible apply State.hostMessage_keeps | with_reducible apply State.Keeps.foldl
      | with_reducible apply State.Keeps.ite)

theorem State.bootWrite_keeps {a s : State} (h : a.Keeps s) (x1) :
    a.Keeps (State.bootWrite s x1) := by
  unfold State.bootWrite
  repeat' (first
      | with_reducible assumption | dsimp only | with_reducible apply State.handover_keeps
      | with_reducible apply State.releasePhase_keeps | with_reducible apply State.bootLock_keeps
      | with_reducible apply State.Keeps.ite)

theorem State.chipWrite_keeps {a s : State} (h : a.Keeps s) (x1 x2 x3 x4) :
    a.Keeps (State.chipWrite s x1 x2 x3 x4) := by
  unfold State.chipWrite
  repeat' (first
      | with_reducible assumption | dsimp only | with_reducible apply State.writeRoute_keeps
      | with_reducible apply State.quotaWrite_keeps | with_reducible apply State.logRegWrite_keeps
      | with_reducible apply State.keyWrite_keeps | with_reducible apply State.sdWrite_keeps
      | with_reducible apply State.releasePads_keeps | with_reducible apply State.bootWrite_keeps
      | with_reducible apply State.mailboxWrite_keeps | fail_if_no_progress (with_reducible apply State.Keeps.upd)
      | with_reducible apply State.Keeps.ite | split)

theorem State.spaceWrite_keeps {a s : State} (h : a.Keeps s) (x1 x2 x3) :
    a.Keeps (State.spaceWrite s x1 x2 x3) := by
  unfold State.spaceWrite
  repeat' (first
      | with_reducible assumption | intro _ | with_reducible apply State.message_keeps
      | with_reducible apply State.regionWrite_keeps | with_reducible apply State.chipWrite_keeps
      | with_reducible apply State.Keeps.foldl | with_reducible apply State.Keeps.ite)

theorem State.devRead_keeps {a s : State} (h : a.Keeps s) (x1 x2) :
    DevAcc.Holds (a.Keeps) (State.devRead s x1 x2) := by
  unfold State.devRead
  repeat' (first
      | with_reducible assumption | dsimp only | with_reducible apply DevAcc.Holds.mkLink
      | with_reducible apply DevAcc.Holds.mkFault | with_reducible apply LinkAcc.Holds.mkDone
      | with_reducible apply State.linkRead_keeps | split)

theorem State.devWrite_keeps {a s : State} (h : a.Keeps s) (x1 x2 x3) :
    DevAcc.Holds (a.Keeps) (State.devWrite s x1 x2 x3) := by
  unfold State.devWrite
  repeat' (first
      | with_reducible assumption | with_reducible apply DevAcc.Holds.mkLink | with_reducible apply DevAcc.Holds.mkFault
      | with_reducible apply LinkAcc.Holds.mkDone | with_reducible apply State.linkWrite_keeps
      | with_reducible apply State.bus0Write_keeps | with_reducible apply State.endpointWrite_keeps
      | with_reducible apply State.spaceWrite_keeps | with_reducible refine State.Keeps.snd (by assumption) ?_ | split)

theorem State.checkHalf_keeps {a s : State} (h : a.Keeps s) (x1 x2 x3 x4 x5) :
    a.Keeps (State.checkHalf s x1 x2 x3 x4 x5).2 := by
  unfold State.checkHalf
  repeat' (first
      | with_reducible assumption | dsimp only | with_reducible apply State.modCore_keeps
      | with_reducible apply State.lookup_keeps | with_reducible apply State.poisonRecord_keeps
      | with_reducible refine State.Keeps.snd (by assumption) ?_ | split)

theorem State.checkPieces_keeps {a s : State} (h : a.Keeps s) (x1 x2 x3 x4) :
    a.Keeps (State.checkPieces s x1 x2 x3 x4).2 := by
  induction x4 generalizing s x1 x2 x3 with
  | nil =>
    unfold State.checkPieces
    repeat' (with_reducible assumption)
  | cons e t ih =>
    unfold State.checkPieces
    repeat' (first
        | with_reducible assumption | dsimp only | with_reducible apply ih | with_reducible apply State.checkHalf_keeps
        | with_reducible refine State.Keeps.snd (by assumption) ?_ | split)

theorem State.checkAccess_keeps {a s : State} (h : a.Keeps s) (x1 x2 x3 x4 x5 x6) :
    a.Keeps (State.checkAccess s x1 x2 x3 x4 x5 x6).2 := by
  unfold State.checkAccess
  repeat' (first | with_reducible assumption | dsimp only | with_reducible apply State.checkPieces_keeps | split)

theorem State.commitHalves_keeps {a s : State} (h : a.Keeps s) (x1 x2 x3) :
    a.Keeps (State.commitHalves s x1 x2 x3) := by
  unfold State.commitHalves
  repeat' (first
      | with_reducible assumption | intro _ | dsimp only | with_reducible apply State.commitXlat_keeps
      | with_reducible apply State.Keeps.foldl | split)

theorem State.relock_keeps {a s : State} (h : a.Keeps s) (x1 x2) :
    a.Keeps (State.relock s x1 x2) := by
  unfold State.relock
  repeat' (first
      | with_reducible assumption | dsimp only | with_reducible apply State.lockData_keeps
      | with_reducible apply State.modCore_keeps | with_reducible apply State.Keeps.ite)

theorem State.trainMiss_keeps {a s : State} (h : a.Keeps s) (x1 x2 x3 x4 x5) :
    a.Keeps (State.trainMiss s x1 x2 x3 x4 x5) := by
  unfold State.trainMiss
  repeat' (first
      | with_reducible assumption | dsimp only | with_reducible apply State.setCore_keeps
      | with_reducible apply State.Keeps.ite)

theorem State.drainOne_keeps {a s : State} (h : a.Keeps s) (x1) :
    a.Keeps (State.drainOne s x1).2 := by
  unfold State.drainOne
  repeat' (first
      | with_reducible assumption | dsimp only | with_reducible apply State.setCore_keeps
      | with_reducible apply State.writeStore_keeps | with_reducible apply State.relock_keeps
      | with_reducible apply State.publish_keeps | with_reducible apply State.modCore_keeps
      | with_reducible refine Option.Holds.some (by assumption) ?_ | with_reducible apply State.Keeps.ite | split)

theorem State.drainWhile_keeps {a s : State} (h : a.Keeps s) (x1 x2 x3) :
    a.Keeps (State.drainWhile s x1 x2 x3).2 := by
  induction x3 generalizing s x1 x2 with
  | zero =>
    unfold State.drainWhile
    repeat' (with_reducible assumption)
  | succ n ih =>
    unfold State.drainWhile
    repeat' (first
        | with_reducible assumption | dsimp only | with_reducible apply ih | with_reducible apply State.drainOne_keeps
        | with_reducible refine State.Keeps.snd (by assumption) ?_ | split)

theorem State.drainAll_keeps {a s : State} (h : a.Keeps s) (x1) :
    a.Keeps (State.drainAll s x1).2 := by
  unfold State.drainAll
  repeat' (first | with_reducible assumption | with_reducible apply State.drainWhile_keeps)

theorem State.usePoison_keeps {a s : State} (h : a.Keeps s) (x1 x2 x3 x4) :
    Got.Holds (a.Keeps) (State.usePoison s x1 x2 x3 x4) := by
  unfold State.usePoison
  repeat' (first
      | with_reducible assumption | with_reducible apply Got.Holds.mkExc | with_reducible apply State.poisonProg_keeps)

theorem State.readLine_keeps {a s : State} (h : a.Keeps s) (x1 x2 x3) :
    a.Keeps (State.readLine s x1 x2 x3).2 := by
  unfold State.readLine
  repeat' (first
      | with_reducible assumption | dsimp only | with_reducible apply State.readPa_keeps
      | with_reducible apply State.crd_keeps | with_reducible apply State.loadLine_keeps
      | with_reducible apply State.relock_keeps | with_reducible apply State.trainMiss_keeps
      | with_reducible apply State.Keeps.ite | split)

theorem State.readHalf_keeps {a s : State} (h : a.Keeps s) (x1 x2 x3 x4) :
    Got.Holds (a.Keeps) (State.readHalf s x1 x2 x3 x4) := by
  unfold State.readHalf
  repeat' (first
      | with_reducible assumption | dsimp only | with_reducible apply Got.Holds.mkOk | with_reducible apply Got.Holds.mkStay
      | with_reducible apply State.readLine_keeps | with_reducible apply State.usePoison_keeps
      | with_reducible apply State.drainWhile_keeps | with_reducible refine State.Keeps.snd (by assumption) ?_ | split)

theorem gather_keeps {a s : State} (h : a.Keeps s) (x0 x1 x2 x3 x4 x5 x6 x7) :
    Got.Holds (a.Keeps) (gather x0 x1 x2 x3 x4 x5 x6 x7 s) := by
  induction x5 generalizing s x0 x1 x2 x3 x4 x6 x7 with
  | nil =>
    unfold gather
    repeat' (first | with_reducible assumption | with_reducible apply Got.Holds.mkOk)
  | cons e t ih =>
    unfold gather
    repeat' (first
        | with_reducible assumption | dsimp only | with_reducible apply Got.Holds.mkExc
        | with_reducible apply Got.Holds.mkStay | with_reducible apply ih | with_reducible apply State.modCore_keeps
        | with_reducible apply State.devRead_keeps | with_reducible apply State.readHalf_keeps
        | with_reducible refine Got.Holds.ok (by assumption) ?_ | with_reducible refine Got.Holds.exc (by assumption) ?_
        | with_reducible refine Got.Holds.stay (by assumption) ?_ | with_reducible refine DevAcc.Holds.wait (by assumption) ?_
        | with_reducible refine DevAcc.Holds.done (by assumption) ?_
        | with_reducible refine DevAcc.Holds.sent (by assumption) ?_ | with_reducible apply State.Keeps.ite | split)

theorem State.loadHalves_keeps {a s : State} (h : a.Keeps s) (x1 x2 x3 x4 x5 x6) :
    Got.Holds (a.Keeps) (State.loadHalves s x1 x2 x3 x4 x5 x6) := by
  unfold State.loadHalves
  repeat' (first
      | with_reducible assumption | dsimp only | with_reducible apply State.commitHalves_keeps
      | with_reducible apply gather_keeps)

theorem State.loadTo_keeps {a s : State} (h : a.Keeps s) (x1 x2 x3 x4 x5 x6 x7 x8) :
    Done.Holds (a.Keeps) (State.loadTo s x1 x2 x3 x4 x5 x6 x7 x8) := by
  unfold State.loadTo
  repeat' (first
      | with_reducible assumption | with_reducible apply Done.Holds.mkOk | with_reducible apply Done.Holds.mkExc
      | with_reducible apply Done.Holds.mkStay | with_reducible apply State.checkAccess_keeps
      | with_reducible apply State.loadHalves_keeps | with_reducible apply State.modCore_keeps
      | with_reducible refine State.Keeps.snd (by assumption) ?_ | with_reducible refine Got.Holds.ok (by assumption) ?_
      | with_reducible refine Got.Holds.exc (by assumption) ?_ | with_reducible refine Got.Holds.stay (by assumption) ?_
      | split)

theorem State.pushStore_keeps {a s : State} (h : a.Keeps s) (x1 x2 x3 x4 x5 x6) :
    a.Keeps (State.pushStore s x1 x2 x3 x4 x5 x6) := by
  unfold State.pushStore
  repeat' (first
      | with_reducible assumption | dsimp only | with_reducible apply State.modCore_keeps
      | with_reducible apply State.relock_keeps | with_reducible apply State.trainMiss_keeps
      | with_reducible apply State.flushFetch_keeps | with_reducible apply State.Keeps.ite)

theorem State.toKey_keeps {a s : State} (h : a.Keeps s) (x1 x2 x3) :
    a.Keeps (State.toKey s x1 x2 x3).2 := by
  unfold State.toKey
  repeat' (first | with_reducible assumption | dsimp only | with_reducible apply State.noonKey_keeps | split)

theorem scatter_keeps {a s : State} (h : a.Keeps s) (x0 x1 x2 x3 x4 x5 x6 x7 x8 x9) :
    Got.Holds (a.Keeps) (scatter x0 x1 x2 x3 x4 x5 x6 x7 x8 x9 s) := by
  induction x5 generalizing s x0 x1 x2 x3 x4 x6 x7 x8 x9 with
  | nil =>
    unfold scatter
    repeat' (first | with_reducible assumption | with_reducible apply Got.Holds.mkOk)
  | cons e t ih =>
    unfold scatter
    repeat' (first
        | with_reducible assumption | dsimp only | with_reducible apply Got.Holds.mkExc
        | with_reducible apply Got.Holds.mkStay | with_reducible apply ih | with_reducible apply State.modCore_keeps
        | with_reducible apply State.devWrite_keeps | with_reducible apply State.toKey_keeps
        | with_reducible apply State.pushStore_keeps | with_reducible refine DevAcc.Holds.wait (by assumption) ?_
        | with_reducible refine DevAcc.Holds.done (by assumption) ?_
        | with_reducible refine DevAcc.Holds.sent (by assumption) ?_ | with_reducible apply State.Keeps.ite | split)

theorem State.storeHalves_keeps {a s : State} (h : a.Keeps s) (x1 x2 x3 x4 x5 x6 x7 x8 x9) :
    Got.Holds (a.Keeps) (State.storeHalves s x1 x2 x3 x4 x5 x6 x7 x8 x9) := by
  unfold State.storeHalves
  repeat' (first
      | with_reducible assumption | dsimp only | with_reducible apply Got.Holds.mkStay
      | with_reducible apply State.modCore_keeps | with_reducible apply State.drainWhile_keeps
      | with_reducible apply State.commitHalves_keeps | with_reducible apply scatter_keeps
      | with_reducible refine State.Keeps.snd (by assumption) ?_ | split)

theorem State.storeFrom_keeps {a s : State} (h : a.Keeps s) (x1 x2 x3 x4 x5 x6 x7 x8) :
    Done.Holds (a.Keeps) (State.storeFrom s x1 x2 x3 x4 x5 x6 x7 x8) := by
  unfold State.storeFrom
  repeat' (first
      | with_reducible assumption | with_reducible apply Done.Holds.mkOk | with_reducible apply Done.Holds.mkExc
      | with_reducible apply Done.Holds.mkStay | with_reducible apply State.checkAccess_keeps
      | with_reducible apply State.storeHalves_keeps | with_reducible refine State.Keeps.snd (by assumption) ?_
      | with_reducible refine Got.Holds.ok (by assumption) ?_ | with_reducible refine Got.Holds.exc (by assumption) ?_
      | with_reducible refine Got.Holds.stay (by assumption) ?_ | split)

theorem State.loadG_keeps {a s : State} (h : a.Keeps s) (x1 x2 x3 x4 x5 x6 x7) :
    a.Keeps (State.loadG s x1 x2 x3 x4 x5 x6 x7) := by
  unfold State.loadG
  repeat' (first
      | with_reducible assumption | intro _ | with_reducible apply State.issue_keeps | with_reducible apply State.loadTo_keeps)

theorem State.storeG_keeps {a s : State} (h : a.Keeps s) (x1 x2 x3 x4 x5 x6) :
    a.Keeps (State.storeG s x1 x2 x3 x4 x5 x6) := by
  unfold State.storeG
  repeat' (first
      | with_reducible assumption | intro _ | with_reducible apply State.issue_keeps
      | with_reducible apply State.storeFrom_keeps)

theorem State.checkRmw_keeps {a s : State} (h : a.Keeps s) (x1 x2 x3) :
    a.Keeps (State.checkRmw s x1 x2 x3).2 := by
  unfold State.checkRmw
  repeat' (first
      | with_reducible assumption | dsimp only | with_reducible apply State.checkAccess_keeps
      | with_reducible refine State.Keeps.snd (by assumption) ?_ | split)

theorem State.writeLine_keeps {a s : State} (h : a.Keeps s) (x1 x2 x3) :
    a.Keeps (State.writeLine s x1 x2 x3) := by
  unfold State.writeLine
  repeat' (first
      | with_reducible assumption | dsimp only | with_reducible apply State.flushFetch_keeps
      | with_reducible apply State.writeStore_keeps)

theorem State.ownLine_keeps {a s : State} (h : a.Keeps s) (x1 x2) :
    a.Keeps (State.ownLine s x1 x2) := by
  unfold State.ownLine
  repeat' (first
      | with_reducible assumption | dsimp only | with_reducible apply State.acquire_keeps
      | with_reducible apply State.Keeps.ite)

theorem State.atomic_keeps {a s : State} (h : a.Keeps s) (x1 x2 x3 x4 x5 x6) :
    a.Keeps (State.atomic s x1 x2 x3 x4 x5 x6) := by
  unfold State.atomic
  repeat' (first
      | with_reducible assumption | intro _ | dsimp only | with_reducible apply Done.Holds.mkOk
      | with_reducible apply Done.Holds.mkExc | with_reducible apply Done.Holds.mkStay
      | with_reducible apply State.issue_keeps | with_reducible apply State.checkRmw_keeps
      | with_reducible apply State.drainAll_keeps | with_reducible apply State.ownLine_keeps
      | with_reducible apply State.commitHalves_keeps | with_reducible apply State.readHalf_keeps
      | with_reducible apply State.writeLine_keeps | with_reducible apply State.modCore_keeps
      | with_reducible refine State.Keeps.snd (by assumption) ?_ | with_reducible refine Got.Holds.ok (by assumption) ?_
      | with_reducible refine Got.Holds.exc (by assumption) ?_ | with_reducible refine Got.Holds.stay (by assumption) ?_
      | split)

theorem State.amOp_keeps {a s : State} (h : a.Keeps s) (x1 x2 x3 x4 x5 x6) :
    a.Keeps (State.amOp s x1 x2 x3 x4 x5 x6) := by
  unfold State.amOp
  repeat' (first | with_reducible assumption | with_reducible apply State.atomic_keeps)

theorem strFail_keeps {a s : State} (h : a.Keeps s) (x0 x1 x2 x4) :
    Done.Holds (a.Keeps) (strFail x0 x1 x2 s x4) := by
  unfold strFail
  repeat' (first
      | with_reducible assumption | dsimp only | with_reducible apply Done.Holds.mkStay
      | with_reducible apply State.cycles_keeps | with_reducible apply State.raise_keeps)

theorem strStep_keeps {a s : State} (h : a.Keeps s) (x0 x1 x2 x3) :
    Done.Holds (a.Keeps) (strStep x0 x1 x2 x3 s) := by
  unfold strStep
  repeat' (first
      | with_reducible assumption | dsimp only | with_reducible apply Done.Holds.mkStay
      | with_reducible apply State.modCore_keeps | with_reducible apply State.cycles_keeps
      | with_reducible apply State.retire_keeps | split)

theorem State.strStore_keeps {a s : State} (h : a.Keeps s) (x1 x2 x3 x4) :
    Got.Holds (a.Keeps) (State.strStore s x1 x2 x3 x4) := by
  unfold State.strStore
  repeat' (first
      | with_reducible assumption | dsimp only | with_reducible apply Got.Holds.mkStay
      | with_reducible apply State.storeHalves_keeps | with_reducible apply State.modCore_keeps
      | with_reducible apply State.noonKey_keeps | split)

theorem State.entryData_keeps {a s : State} (h : a.Keeps s) (x1 x2) :
    a.Keeps (State.entryData s x1 x2).2 := by
  unfold State.entryData
  repeat' (first | with_reducible assumption | dsimp only | with_reducible apply State.checkAccess_keeps | split)

theorem State.takeMail_keeps {a s : State} (h : a.Keeps s) (x1 x2) :
    a.Keeps (State.takeMail s x1 x2) := by
  unfold State.takeMail
  repeat' (first | with_reducible assumption | with_reducible apply State.setMailbox_keeps)

theorem State.noonCtlWrite_keeps {a s : State} (h : a.Keeps s) (x1 x2 x3) :
    a.Keeps (State.noonCtlWrite s x1 x2 x3) := by
  unfold State.noonCtlWrite
  repeat' (first | with_reducible assumption | dsimp only | with_reducible apply State.modCore_keeps)

theorem State.tdidWrite_keeps {a s : State} (h : a.Keeps s) (x1 x2 x3) :
    a.Keeps (State.tdidWrite s x1 x2 x3) := by
  unfold State.tdidWrite
  repeat' (first
      | with_reducible assumption | intro _ | dsimp only | with_reducible apply State.setCore_keeps
      | with_reducible apply State.release_keeps | with_reducible apply State.Keeps.foldl
      | with_reducible apply State.Keeps.ite)

theorem State.windowWrite_keeps {a s : State} (h : a.Keeps s) (x1 x2 x3 x4) :
    a.Keeps (State.windowWrite s x1 x2 x3 x4) := by
  unfold State.windowWrite
  repeat' (first
      | with_reducible assumption | dsimp only | with_reducible apply State.modCore_keeps
      | with_reducible apply State.unlockWindow_keeps | with_reducible apply State.Keeps.ite)

theorem State.l2CtlWrite_keeps {a s : State} (h : a.Keeps s) (x1 x2 x3) :
    a.Keeps (State.l2CtlWrite s x1 x2 x3) := by
  unfold State.l2CtlWrite
  repeat' (first
      | with_reducible assumption | intro _ | dsimp only | with_reducible apply State.setCore_keeps
      | with_reducible apply State.homeEvn_keeps | with_reducible apply State.Keeps.foldl
      | with_reducible apply State.Keeps.ite)

theorem State.csrWrite_keeps {a s : State} (h : a.Keeps s) (x1 x2 x3 x4) :
    a.Keeps (State.csrWrite s x1 x2 x3 x4) := by
  unfold State.csrWrite
  repeat' (first
      | with_reducible assumption | dsimp only | with_reducible apply State.setCore_keeps
      | with_reducible apply State.noonCtlWrite_keeps | with_reducible apply State.tdidWrite_keeps
      | with_reducible apply State.windowWrite_keeps | with_reducible apply State.l2CtlWrite_keeps
      | with_reducible apply State.Keeps.ite | split)

theorem State.csrChange_keeps {a s : State} (h : a.Keeps s) (x1 x2 x3 x4 x5) :
    a.Keeps (State.csrChange s x1 x2 x3 x4 x5) := by
  unfold State.csrChange
  repeat' (first
      | with_reducible assumption | intro _ | dsimp only | with_reducible apply Done.Holds.mkExc
      | with_reducible apply Done.Holds.mkStay | with_reducible apply State.issue_keeps
      | with_reducible apply State.modCore_keeps | with_reducible apply State.csrWrite_keeps
      | with_reducible apply State.cycles_keeps | with_reducible apply State.retireNow_keeps | split)

theorem State.chain_keeps {a s : State} (h : a.Keeps s) (x1 x2 x3) :
    a.Keeps (State.chain s x1 x2 x3) := by
  unfold State.chain
  repeat' (first
      | with_reducible assumption | dsimp only | with_reducible apply State.cycles_keeps
      | with_reducible apply State.retireNow_keeps | with_reducible apply State.setCore_keeps)

theorem State.unwind_keeps {a s : State} (h : a.Keeps s) (x1 x2) :
    a.Keeps (State.unwind s x1 x2) := by
  unfold State.unwind
  repeat' (first
      | with_reducible assumption | dsimp only | with_reducible apply State.cycles_keeps
      | with_reducible apply State.retireNow_keeps | with_reducible apply State.setCore_keeps)

theorem State.callTo_keeps {a s : State} (h : a.Keeps s) (x1 x2 x3) :
    a.Keeps (State.callTo s x1 x2 x3) := by
  unfold State.callTo
  repeat' (first
      | with_reducible assumption | intro _ | with_reducible apply Done.Holds.mkExc | with_reducible apply Done.Holds.mkCall
      | with_reducible apply State.issue_keeps | split)

theorem State.checkLine_keeps {a s : State} (h : a.Keeps s) (x1 x2 x3) :
    a.Keeps (State.checkLine s x1 x2 x3).2 := by
  unfold State.checkLine
  repeat' (first | with_reducible assumption | with_reducible apply State.checkHalf_keeps)

theorem State.lineOp_keeps {a s : State} (h : a.Keeps s) (c ac ra f) (hf : ∀ s n, a.Keeps s → a.Keeps (f s n)) :
    Done.Holds a.Keeps (State.lineOp s c ac ra f) := by
  unfold State.lineOp
  repeat' (first
      | with_reducible assumption | with_reducible apply hf | with_reducible apply Done.Holds.mkOk
      | with_reducible apply Done.Holds.mkExc | with_reducible apply Done.Holds.mkStay
      | with_reducible apply State.commitHalves_keeps | with_reducible refine State.Keeps.snd (by assumption) ?_
      | with_reducible apply State.drainWhile_keeps | with_reducible apply State.checkLine_keeps | split)

theorem State.cleanLine_keeps {a s : State} (h : a.Keeps s) (x1 x2) :
    a.Keeps (State.cleanLine s x1 x2) := by
  unfold State.cleanLine
  repeat' (first
      | with_reducible assumption | dsimp only | with_reducible apply State.slcFill_keeps
      | with_reducible apply State.setCore_keeps | with_reducible apply State.Keeps.ite | split)

theorem State.flushLine_keeps {a s : State} (h : a.Keeps s) (x1 x2 x3) :
    a.Keeps (State.flushLine s x1 x2 x3) := by
  unfold State.flushLine
  repeat' (first
      | with_reducible assumption | dsimp only | with_reducible apply State.setCore_keeps
      | with_reducible apply State.release_keeps | with_reducible apply State.homeEvn_keeps
      | with_reducible apply State.Keeps.ite | split)

theorem State.hint_keeps {a s : State} (h : a.Keeps s) (x1 x2 x3 x4) :
    a.Keeps (State.hint s x1 x2 x3 x4) := by
  unfold State.hint
  repeat' (first
      | with_reducible assumption | intro _ | dsimp only | with_reducible apply Done.Holds.mkOk
      | with_reducible apply State.issue_keeps | with_reducible apply State.lookup_keeps
      | with_reducible apply State.commitXlat_keeps | with_reducible apply State.prefetch_keeps
      | with_reducible refine State.Keeps.snd (by assumption) ?_ | with_reducible apply State.Keeps.ite | split)

theorem State.tlbOp_keeps {a s : State} (h : a.Keeps s) (x1 x2 x3 x4 x5) :
    a.Keeps (State.tlbOp s x1 x2 x3 x4 x5) := by
  unfold State.tlbOp
  repeat' (first
      | with_reducible assumption | intro _ | with_reducible apply Done.Holds.mkOk | with_reducible apply Done.Holds.mkStay
      | with_reducible apply State.issue_keeps | with_reducible apply atLeast_keeps
      | with_reducible apply State.drainAll_keeps | with_reducible apply State.modCore_keeps
      | with_reducible refine State.Keeps.snd (by assumption) ?_ | split)

end Sys2Proof.Machine
end

