-- ==== Sys2Proof/Laws/KeepsExec.lean ====
section
/-! SUPPORT. What no command undoes (State.Keeps), for the meaning of every command and for exec. -/

namespace Sys2Proof.Machine

/-- The next state of an outcome, if it has one, has the property. -/
def OutHolds (P : State → Prop) : Host.Outcome State Fault Refusal → Prop
  | .next s => P s | _ => True

theorem OutHolds.mk {P : State → Prop} {s : State} (h : P s) : OutHolds P (.next s) := h

theorem strAfter_keeps {a : State} (c d n len again f) {g : Got} (h : g.Holds a.Keeps) : Done.Holds a.Keeps (strAfter c d n len again f g) := by
  cases g with
  | ok bs s => exact strStep_keeps h _ _ _ _
  | exc s e => exact strFail_keeps h _ _ _ _
  | stay s => exact h

theorem execAdd_keeps {a s : State} (h : a.Keeps s) (x0 x1 x2 x3) :
    OutHolds a.Keeps (execAdd x0 x1 x2 x3 s) := by
  unfold execAdd
  repeat' (first | with_reducible assumption | with_reducible apply OutHolds.mk | with_reducible apply State.aluRR_keeps)

theorem execSub_keeps {a s : State} (h : a.Keeps s) (x0 x1 x2 x3) :
    OutHolds a.Keeps (execSub x0 x1 x2 x3 s) := by
  unfold execSub
  repeat' (first | with_reducible assumption | with_reducible apply OutHolds.mk | with_reducible apply State.aluRR_keeps)

theorem execAndR_keeps {a s : State} (h : a.Keeps s) (x0 x1 x2 x3) :
    OutHolds a.Keeps (execAndR x0 x1 x2 x3 s) := by
  unfold execAndR
  repeat' (first | with_reducible assumption | with_reducible apply OutHolds.mk | with_reducible apply State.aluRR_keeps)

theorem execOrR_keeps {a s : State} (h : a.Keeps s) (x0 x1 x2 x3) :
    OutHolds a.Keeps (execOrR x0 x1 x2 x3 s) := by
  unfold execOrR
  repeat' (first | with_reducible assumption | with_reducible apply OutHolds.mk | with_reducible apply State.aluRR_keeps)

theorem execXorR_keeps {a s : State} (h : a.Keeps s) (x0 x1 x2 x3) :
    OutHolds a.Keeps (execXorR x0 x1 x2 x3 s) := by
  unfold execXorR
  repeat' (first | with_reducible assumption | with_reducible apply OutHolds.mk | with_reducible apply State.aluRR_keeps)

theorem execAndn_keeps {a s : State} (h : a.Keeps s) (x0 x1 x2 x3) :
    OutHolds a.Keeps (execAndn x0 x1 x2 x3 s) := by
  unfold execAndn
  repeat' (first | with_reducible assumption | with_reducible apply OutHolds.mk | with_reducible apply State.aluRR_keeps)

theorem execSll_keeps {a s : State} (h : a.Keeps s) (x0 x1 x2 x3) :
    OutHolds a.Keeps (execSll x0 x1 x2 x3 s) := by
  unfold execSll
  repeat' (first | with_reducible assumption | with_reducible apply OutHolds.mk | with_reducible apply State.aluRR_keeps)

theorem execSrl_keeps {a s : State} (h : a.Keeps s) (x0 x1 x2 x3) :
    OutHolds a.Keeps (execSrl x0 x1 x2 x3 s) := by
  unfold execSrl
  repeat' (first | with_reducible assumption | with_reducible apply OutHolds.mk | with_reducible apply State.aluRR_keeps)

theorem execSra_keeps {a s : State} (h : a.Keeps s) (x0 x1 x2 x3) :
    OutHolds a.Keeps (execSra x0 x1 x2 x3 s) := by
  unfold execSra
  repeat' (first | with_reducible assumption | with_reducible apply OutHolds.mk | with_reducible apply State.aluRR_keeps)

theorem execRor_keeps {a s : State} (h : a.Keeps s) (x0 x1 x2 x3) :
    OutHolds a.Keeps (execRor x0 x1 x2 x3 s) := by
  unfold execRor
  repeat' (first | with_reducible assumption | with_reducible apply OutHolds.mk | with_reducible apply State.aluRR_keeps)

theorem execSlt_keeps {a s : State} (h : a.Keeps s) (x0 x1 x2 x3) :
    OutHolds a.Keeps (execSlt x0 x1 x2 x3 s) := by
  unfold execSlt
  repeat' (first | with_reducible assumption | with_reducible apply OutHolds.mk | with_reducible apply State.aluRR_keeps)

theorem execSltu_keeps {a s : State} (h : a.Keeps s) (x0 x1 x2 x3) :
    OutHolds a.Keeps (execSltu x0 x1 x2 x3 s) := by
  unfold execSltu
  repeat' (first | with_reducible assumption | with_reducible apply OutHolds.mk | with_reducible apply State.aluRR_keeps)

theorem execMinS_keeps {a s : State} (h : a.Keeps s) (x0 x1 x2 x3) :
    OutHolds a.Keeps (execMinS x0 x1 x2 x3 s) := by
  unfold execMinS
  repeat' (first | with_reducible assumption | with_reducible apply OutHolds.mk | with_reducible apply State.aluRR_keeps)

theorem execMaxS_keeps {a s : State} (h : a.Keeps s) (x0 x1 x2 x3) :
    OutHolds a.Keeps (execMaxS x0 x1 x2 x3 s) := by
  unfold execMaxS
  repeat' (first | with_reducible assumption | with_reducible apply OutHolds.mk | with_reducible apply State.aluRR_keeps)

theorem execMinu_keeps {a s : State} (h : a.Keeps s) (x0 x1 x2 x3) :
    OutHolds a.Keeps (execMinu x0 x1 x2 x3 s) := by
  unfold execMinu
  repeat' (first | with_reducible assumption | with_reducible apply OutHolds.mk | with_reducible apply State.aluRR_keeps)

theorem execMaxu_keeps {a s : State} (h : a.Keeps s) (x0 x1 x2 x3) :
    OutHolds a.Keeps (execMaxu x0 x1 x2 x3 s) := by
  unfold execMaxu
  repeat' (first | with_reducible assumption | with_reducible apply OutHolds.mk | with_reducible apply State.aluRR_keeps)

theorem execSel_keeps {a s : State} (h : a.Keeps s) (x0 x1 x2 x3) :
    OutHolds a.Keeps (execSel x0 x1 x2 x3 s) := by
  unfold execSel
  repeat' (first | with_reducible assumption | with_reducible apply OutHolds.mk | with_reducible apply State.alu_keeps)

theorem execClz_keeps {a s : State} (h : a.Keeps s) (x0 x1 x2) : OutHolds a.Keeps (execClz x0 x1 x2 s) := by
  unfold execClz
  repeat' (first | with_reducible assumption | with_reducible apply OutHolds.mk | with_reducible apply State.aluR_keeps)

theorem execCtz_keeps {a s : State} (h : a.Keeps s) (x0 x1 x2) : OutHolds a.Keeps (execCtz x0 x1 x2 s) := by
  unfold execCtz
  repeat' (first | with_reducible assumption | with_reducible apply OutHolds.mk | with_reducible apply State.aluR_keeps)

theorem execPop_keeps {a s : State} (h : a.Keeps s) (x0 x1 x2) : OutHolds a.Keeps (execPop x0 x1 x2 s) := by
  unfold execPop
  repeat' (first | with_reducible assumption | with_reducible apply OutHolds.mk | with_reducible apply State.aluR_keeps)

theorem execBswap_keeps {a s : State} (h : a.Keeps s) (x0 x1 x2) :
    OutHolds a.Keeps (execBswap x0 x1 x2 s) := by
  unfold execBswap
  repeat' (first | with_reducible assumption | with_reducible apply OutHolds.mk | with_reducible apply State.aluR_keeps)

theorem execAddi_keeps {a s : State} (h : a.Keeps s) (x0 x1 x2 x3) :
    OutHolds a.Keeps (execAddi x0 x1 x2 x3 s) := by
  unfold execAddi
  repeat' (first | with_reducible assumption | with_reducible apply OutHolds.mk | with_reducible apply State.aluR_keeps)

theorem execAndi_keeps {a s : State} (h : a.Keeps s) (x0 x1 x2 x3) :
    OutHolds a.Keeps (execAndi x0 x1 x2 x3 s) := by
  unfold execAndi
  repeat' (first | with_reducible assumption | with_reducible apply OutHolds.mk | with_reducible apply State.aluR_keeps)

theorem execOri_keeps {a s : State} (h : a.Keeps s) (x0 x1 x2 x3) :
    OutHolds a.Keeps (execOri x0 x1 x2 x3 s) := by
  unfold execOri
  repeat' (first | with_reducible assumption | with_reducible apply OutHolds.mk | with_reducible apply State.aluR_keeps)

theorem execXori_keeps {a s : State} (h : a.Keeps s) (x0 x1 x2 x3) :
    OutHolds a.Keeps (execXori x0 x1 x2 x3 s) := by
  unfold execXori
  repeat' (first | with_reducible assumption | with_reducible apply OutHolds.mk | with_reducible apply State.aluR_keeps)

theorem execSlti_keeps {a s : State} (h : a.Keeps s) (x0 x1 x2 x3) :
    OutHolds a.Keeps (execSlti x0 x1 x2 x3 s) := by
  unfold execSlti
  repeat' (first | with_reducible assumption | with_reducible apply OutHolds.mk | with_reducible apply State.aluR_keeps)

theorem execSltiu_keeps {a s : State} (h : a.Keeps s) (x0 x1 x2 x3) :
    OutHolds a.Keeps (execSltiu x0 x1 x2 x3 s) := by
  unfold execSltiu
  repeat' (first | with_reducible assumption | with_reducible apply OutHolds.mk | with_reducible apply State.aluR_keeps)

theorem execShi_keeps {a s : State} (h : a.Keeps s) (x0 x1 x2 x3) :
    OutHolds a.Keeps (execShi x0 x1 x2 x3 s) := by
  unfold execShi
  repeat' (first
      | with_reducible assumption | intro _ | with_reducible apply Done.Holds.mkOk | with_reducible apply Done.Holds.mkExc
      | with_reducible apply OutHolds.mk | with_reducible apply State.issue_keeps | with_reducible apply State.modCore_keeps
      | split)

theorem execMovz_keeps {a s : State} (h : a.Keeps s) (x0 x1 x2 x3) :
    OutHolds a.Keeps (execMovz x0 x1 x2 x3 s) := by
  unfold execMovz
  repeat' (first
      | with_reducible assumption | intro _ | with_reducible apply Done.Holds.mkOk | with_reducible apply Done.Holds.mkExc
      | with_reducible apply OutHolds.mk | with_reducible apply State.issue_keeps | with_reducible apply State.modCore_keeps
      | split)

theorem execMovk_keeps {a s : State} (h : a.Keeps s) (x0 x1 x2 x3) :
    OutHolds a.Keeps (execMovk x0 x1 x2 x3 s) := by
  unfold execMovk
  repeat' (first
      | with_reducible assumption | intro _ | with_reducible apply Done.Holds.mkOk | with_reducible apply Done.Holds.mkExc
      | with_reducible apply OutHolds.mk | with_reducible apply State.issue_keeps | with_reducible apply State.modCore_keeps
      | split)

theorem execMul_keeps {a s : State} (h : a.Keeps s) (x0 x1 x2 x3) :
    OutHolds a.Keeps (execMul x0 x1 x2 x3 s) := by
  unfold execMul
  repeat' (first | with_reducible assumption | with_reducible apply OutHolds.mk | with_reducible apply State.aluRR_keeps)

theorem execMulh_keeps {a s : State} (h : a.Keeps s) (x0 x1 x2 x3) :
    OutHolds a.Keeps (execMulh x0 x1 x2 x3 s) := by
  unfold execMulh
  repeat' (first | with_reducible assumption | with_reducible apply OutHolds.mk | with_reducible apply State.aluRR_keeps)

theorem execMulhu_keeps {a s : State} (h : a.Keeps s) (x0 x1 x2 x3) :
    OutHolds a.Keeps (execMulhu x0 x1 x2 x3 s) := by
  unfold execMulhu
  repeat' (first | with_reducible assumption | with_reducible apply OutHolds.mk | with_reducible apply State.aluRR_keeps)

theorem execDivS_keeps {a s : State} (h : a.Keeps s) (x0 x1 x2 x3) :
    OutHolds a.Keeps (execDivS x0 x1 x2 x3 s) := by
  unfold execDivS
  repeat' (first | with_reducible assumption | with_reducible apply OutHolds.mk | with_reducible apply State.divide_keeps)

theorem execDivu_keeps {a s : State} (h : a.Keeps s) (x0 x1 x2 x3) :
    OutHolds a.Keeps (execDivu x0 x1 x2 x3 s) := by
  unfold execDivu
  repeat' (first | with_reducible assumption | with_reducible apply OutHolds.mk | with_reducible apply State.divide_keeps)

theorem execRemS_keeps {a s : State} (h : a.Keeps s) (x0 x1 x2 x3) :
    OutHolds a.Keeps (execRemS x0 x1 x2 x3 s) := by
  unfold execRemS
  repeat' (first | with_reducible assumption | with_reducible apply OutHolds.mk | with_reducible apply State.divide_keeps)

theorem execRemu_keeps {a s : State} (h : a.Keeps s) (x0 x1 x2 x3) :
    OutHolds a.Keeps (execRemu x0 x1 x2 x3 s) := by
  unfold execRemu
  repeat' (first | with_reducible assumption | with_reducible apply OutHolds.mk | with_reducible apply State.divide_keeps)

theorem execFadd_keeps {a s : State} (h : a.Keeps s) (x0 x1 x2 x3 x4) :
    OutHolds a.Keeps (execFadd x0 x1 x2 x3 x4 s) := by
  unfold execFadd
  repeat' (first | with_reducible assumption | with_reducible apply OutHolds.mk | with_reducible apply State.fp2_keeps)

theorem execFsub_keeps {a s : State} (h : a.Keeps s) (x0 x1 x2 x3 x4) :
    OutHolds a.Keeps (execFsub x0 x1 x2 x3 x4 s) := by
  unfold execFsub
  repeat' (first | with_reducible assumption | with_reducible apply OutHolds.mk | with_reducible apply State.fp2_keeps)

theorem execFmul_keeps {a s : State} (h : a.Keeps s) (x0 x1 x2 x3 x4) :
    OutHolds a.Keeps (execFmul x0 x1 x2 x3 x4 s) := by
  unfold execFmul
  repeat' (first | with_reducible assumption | with_reducible apply OutHolds.mk | with_reducible apply State.fp2_keeps)

theorem execFdiv_keeps {a s : State} (h : a.Keeps s) (x0 x1 x2 x3 x4) :
    OutHolds a.Keeps (execFdiv x0 x1 x2 x3 x4 s) := by
  unfold execFdiv
  repeat' (first
      | with_reducible assumption | intro _ | dsimp only | with_reducible apply OutHolds.mk
      | with_reducible apply State.issue_keeps | with_reducible apply fpLong_keeps)

theorem execFsqrt_keeps {a s : State} (h : a.Keeps s) (x0 x1 x2 x3) :
    OutHolds a.Keeps (execFsqrt x0 x1 x2 x3 s) := by
  unfold execFsqrt
  repeat' (first
      | with_reducible assumption | intro _ | dsimp only | with_reducible apply OutHolds.mk
      | with_reducible apply State.issue_keeps | with_reducible apply fpLong_keeps)

theorem execFma_keeps {a s : State} (h : a.Keeps s) (x0 x1 x2 x3 x4) :
    OutHolds a.Keeps (execFma x0 x1 x2 x3 x4 s) := by
  unfold execFma
  repeat' (first
      | with_reducible assumption | intro _ | dsimp only | with_reducible apply OutHolds.mk
      | with_reducible apply State.issue_keeps | with_reducible apply fpWrite_keeps)

theorem execFmin_keeps {a s : State} (h : a.Keeps s) (x0 x1 x2 x3 x4) :
    OutHolds a.Keeps (execFmin x0 x1 x2 x3 x4 s) := by
  unfold execFmin
  repeat' (first | with_reducible assumption | with_reducible apply OutHolds.mk | with_reducible apply State.fp2_keeps)

theorem execFmax_keeps {a s : State} (h : a.Keeps s) (x0 x1 x2 x3 x4) :
    OutHolds a.Keeps (execFmax x0 x1 x2 x3 x4 s) := by
  unfold execFmax
  repeat' (first | with_reducible assumption | with_reducible apply OutHolds.mk | with_reducible apply State.fp2_keeps)

theorem execFceq_keeps {a s : State} (h : a.Keeps s) (x0 x1 x2 x3 x4) :
    OutHolds a.Keeps (execFceq x0 x1 x2 x3 x4 s) := by
  unfold execFceq
  repeat' (first | with_reducible assumption | with_reducible apply OutHolds.mk | with_reducible apply State.fp2_keeps)

theorem execFclt_keeps {a s : State} (h : a.Keeps s) (x0 x1 x2 x3 x4) :
    OutHolds a.Keeps (execFclt x0 x1 x2 x3 x4 s) := by
  unfold execFclt
  repeat' (first | with_reducible assumption | with_reducible apply OutHolds.mk | with_reducible apply State.fp2_keeps)

theorem execFcle_keeps {a s : State} (h : a.Keeps s) (x0 x1 x2 x3 x4) :
    OutHolds a.Keeps (execFcle x0 x1 x2 x3 x4 s) := by
  unfold execFcle
  repeat' (first | with_reducible assumption | with_reducible apply OutHolds.mk | with_reducible apply State.fp2_keeps)

theorem execFcvti_keeps {a s : State} (h : a.Keeps s) (x0 x1 x2 x3) :
    OutHolds a.Keeps (execFcvti x0 x1 x2 x3 s) := by
  unfold execFcvti
  repeat' (first | with_reducible assumption | with_reducible apply OutHolds.mk | with_reducible apply State.fp1_keeps)

theorem execFcvtf_keeps {a s : State} (h : a.Keeps s) (x0 x1 x2 x3) :
    OutHolds a.Keeps (execFcvtf x0 x1 x2 x3 s) := by
  unfold execFcvtf
  repeat' (first | with_reducible assumption | with_reducible apply OutHolds.mk | with_reducible apply State.fp1_keeps)

theorem execFcvtp_keeps {a s : State} (h : a.Keeps s) (x0 x1 x2 x3) :
    OutHolds a.Keeps (execFcvtp x0 x1 x2 x3 s) := by
  unfold execFcvtp
  repeat' (first | with_reducible assumption | with_reducible apply OutHolds.mk | with_reducible apply State.fp1_keeps)

theorem execFclass_keeps {a s : State} (h : a.Keeps s) (x0 x1 x2 x3) :
    OutHolds a.Keeps (execFclass x0 x1 x2 x3 s) := by
  unfold execFclass
  repeat' (first | with_reducible assumption | with_reducible apply OutHolds.mk | with_reducible apply State.aluR_keeps)

theorem execVadd_keeps {a s : State} (h : a.Keeps s) (x0 x1 x2 x3 x4) :
    OutHolds a.Keeps (execVadd x0 x1 x2 x3 x4 s) := by
  unfold execVadd
  repeat' (first | with_reducible assumption | with_reducible apply OutHolds.mk | with_reducible apply State.vecE_keeps)

theorem execVsub_keeps {a s : State} (h : a.Keeps s) (x0 x1 x2 x3 x4) :
    OutHolds a.Keeps (execVsub x0 x1 x2 x3 x4 s) := by
  unfold execVsub
  repeat' (first | with_reducible assumption | with_reducible apply OutHolds.mk | with_reducible apply State.vecE_keeps)

theorem execVsll_keeps {a s : State} (h : a.Keeps s) (x0 x1 x2 x3 x4) :
    OutHolds a.Keeps (execVsll x0 x1 x2 x3 x4 s) := by
  unfold execVsll
  repeat' (first | with_reducible assumption | with_reducible apply OutHolds.mk | with_reducible apply State.vecE_keeps)

theorem execVsrl_keeps {a s : State} (h : a.Keeps s) (x0 x1 x2 x3 x4) :
    OutHolds a.Keeps (execVsrl x0 x1 x2 x3 x4 s) := by
  unfold execVsrl
  repeat' (first | with_reducible assumption | with_reducible apply OutHolds.mk | with_reducible apply State.vecE_keeps)

theorem execVsra_keeps {a s : State} (h : a.Keeps s) (x0 x1 x2 x3 x4) :
    OutHolds a.Keeps (execVsra x0 x1 x2 x3 x4 s) := by
  unfold execVsra
  repeat' (first | with_reducible assumption | with_reducible apply OutHolds.mk | with_reducible apply State.vecE_keeps)

theorem execVmin_keeps {a s : State} (h : a.Keeps s) (x0 x1 x2 x3 x4) :
    OutHolds a.Keeps (execVmin x0 x1 x2 x3 x4 s) := by
  unfold execVmin
  repeat' (first | with_reducible assumption | with_reducible apply OutHolds.mk | with_reducible apply State.vecE_keeps)

theorem execVmax_keeps {a s : State} (h : a.Keeps s) (x0 x1 x2 x3 x4) :
    OutHolds a.Keeps (execVmax x0 x1 x2 x3 x4 s) := by
  unfold execVmax
  repeat' (first | with_reducible assumption | with_reducible apply OutHolds.mk | with_reducible apply State.vecE_keeps)

theorem execVmul_keeps {a s : State} (h : a.Keeps s) (x0 x1 x2 x3 x4) :
    OutHolds a.Keeps (execVmul x0 x1 x2 x3 x4 s) := by
  unfold execVmul
  repeat' (first | with_reducible assumption | with_reducible apply OutHolds.mk | with_reducible apply State.vecE_keeps)

theorem execVceq_keeps {a s : State} (h : a.Keeps s) (x0 x1 x2 x3 x4) :
    OutHolds a.Keeps (execVceq x0 x1 x2 x3 x4 s) := by
  unfold execVceq
  repeat' (first | with_reducible assumption | with_reducible apply OutHolds.mk | with_reducible apply State.vecE_keeps)

theorem execVcgt_keeps {a s : State} (h : a.Keeps s) (x0 x1 x2 x3 x4) :
    OutHolds a.Keeps (execVcgt x0 x1 x2 x3 x4 s) := by
  unfold execVcgt
  repeat' (first | with_reducible assumption | with_reducible apply OutHolds.mk | with_reducible apply State.vecE_keeps)

theorem execVand_keeps {a s : State} (h : a.Keeps s) (x0 x1 x2 x3) :
    OutHolds a.Keeps (execVand x0 x1 x2 x3 s) := by
  unfold execVand
  repeat' (first | with_reducible assumption | with_reducible apply OutHolds.mk | with_reducible apply State.vec2_keeps)

theorem execVor_keeps {a s : State} (h : a.Keeps s) (x0 x1 x2 x3) :
    OutHolds a.Keeps (execVor x0 x1 x2 x3 s) := by
  unfold execVor
  repeat' (first | with_reducible assumption | with_reducible apply OutHolds.mk | with_reducible apply State.vec2_keeps)

theorem execVxor_keeps {a s : State} (h : a.Keeps s) (x0 x1 x2 x3) :
    OutHolds a.Keeps (execVxor x0 x1 x2 x3 s) := by
  unfold execVxor
  repeat' (first | with_reducible assumption | with_reducible apply OutHolds.mk | with_reducible apply State.vec2_keeps)

theorem execVperm_keeps {a s : State} (h : a.Keeps s) (x0 x1 x2 x3) :
    OutHolds a.Keeps (execVperm x0 x1 x2 x3 s) := by
  unfold execVperm
  repeat' (first | with_reducible assumption | with_reducible apply OutHolds.mk | with_reducible apply State.vec2_keeps)

theorem execVsplat_keeps {a s : State} (h : a.Keeps s) (x0 x1 x2 x3) :
    OutHolds a.Keeps (execVsplat x0 x1 x2 x3 s) := by
  unfold execVsplat
  repeat' (first | with_reducible assumption | with_reducible apply OutHolds.mk | with_reducible apply State.compute_keeps)

theorem execVext_keeps {a s : State} (h : a.Keeps s) (x0 x1 x2 x3 x4) :
    OutHolds a.Keeps (execVext x0 x1 x2 x3 x4 s) := by
  unfold execVext
  repeat' (first
      | with_reducible assumption | intro _ | with_reducible apply Done.Holds.mkOk | with_reducible apply Done.Holds.mkExc
      | with_reducible apply OutHolds.mk | with_reducible apply State.issue_keeps | with_reducible apply State.modCore_keeps
      | split)

theorem execVfadd_keeps {a s : State} (h : a.Keeps s) (x0 x1 x2 x3 x4) :
    OutHolds a.Keeps (execVfadd x0 x1 x2 x3 x4 s) := by
  unfold execVfadd
  repeat' (first | with_reducible assumption | with_reducible apply OutHolds.mk | with_reducible apply State.vecF_keeps)

theorem execVfsub_keeps {a s : State} (h : a.Keeps s) (x0 x1 x2 x3 x4) :
    OutHolds a.Keeps (execVfsub x0 x1 x2 x3 x4 s) := by
  unfold execVfsub
  repeat' (first | with_reducible assumption | with_reducible apply OutHolds.mk | with_reducible apply State.vecF_keeps)

theorem execVfmul_keeps {a s : State} (h : a.Keeps s) (x0 x1 x2 x3 x4) :
    OutHolds a.Keeps (execVfmul x0 x1 x2 x3 x4 s) := by
  unfold execVfmul
  repeat' (first | with_reducible assumption | with_reducible apply OutHolds.mk | with_reducible apply State.vecF_keeps)

theorem execVfmin_keeps {a s : State} (h : a.Keeps s) (x0 x1 x2 x3 x4) :
    OutHolds a.Keeps (execVfmin x0 x1 x2 x3 x4 s) := by
  unfold execVfmin
  repeat' (first | with_reducible assumption | with_reducible apply OutHolds.mk | with_reducible apply State.vecF_keeps)

theorem execVfmax_keeps {a s : State} (h : a.Keeps s) (x0 x1 x2 x3 x4) :
    OutHolds a.Keeps (execVfmax x0 x1 x2 x3 x4 s) := by
  unfold execVfmax
  repeat' (first | with_reducible assumption | with_reducible apply OutHolds.mk | with_reducible apply State.vecF_keeps)

theorem execVfma_keeps {a s : State} (h : a.Keeps s) (x0 x1 x2 x3 x4) :
    OutHolds a.Keeps (execVfma x0 x1 x2 x3 x4 s) := by
  unfold execVfma
  repeat' (first | with_reducible assumption | with_reducible apply OutHolds.mk | with_reducible apply State.vecF_keeps)

theorem execVfdiv_keeps {a s : State} (h : a.Keeps s) (x0 x1 x2 x3 x4) :
    OutHolds a.Keeps (execVfdiv x0 x1 x2 x3 x4 s) := by
  unfold execVfdiv
  repeat' (first
      | with_reducible assumption | intro _ | dsimp only | with_reducible apply OutHolds.mk
      | with_reducible apply State.issue_keeps | with_reducible apply longDone_keeps)

theorem execAese_keeps {a s : State} (h : a.Keeps s) (x0 x1 x2 x3) :
    OutHolds a.Keeps (execAese x0 x1 x2 x3 s) := by
  unfold execAese
  repeat' (first | with_reducible assumption | with_reducible apply OutHolds.mk | with_reducible apply State.cryptoOp_keeps)

theorem execAesel_keeps {a s : State} (h : a.Keeps s) (x0 x1 x2 x3) :
    OutHolds a.Keeps (execAesel x0 x1 x2 x3 s) := by
  unfold execAesel
  repeat' (first | with_reducible assumption | with_reducible apply OutHolds.mk | with_reducible apply State.cryptoOp_keeps)

theorem execAesd_keeps {a s : State} (h : a.Keeps s) (x0 x1 x2 x3) :
    OutHolds a.Keeps (execAesd x0 x1 x2 x3 s) := by
  unfold execAesd
  repeat' (first | with_reducible assumption | with_reducible apply OutHolds.mk | with_reducible apply State.cryptoOp_keeps)

theorem execAesdl_keeps {a s : State} (h : a.Keeps s) (x0 x1 x2 x3) :
    OutHolds a.Keeps (execAesdl x0 x1 x2 x3 s) := by
  unfold execAesdl
  repeat' (first | with_reducible assumption | with_reducible apply OutHolds.mk | with_reducible apply State.cryptoOp_keeps)

theorem execGmul_keeps {a s : State} (h : a.Keeps s) (x0 x1 x2 x3) :
    OutHolds a.Keeps (execGmul x0 x1 x2 x3 s) := by
  unfold execGmul
  repeat' (first | with_reducible assumption | with_reducible apply OutHolds.mk | with_reducible apply State.cryptoOp_keeps)

theorem execSha512s_keeps {a s : State} (h : a.Keeps s) (x0 x1 x2 x3) :
    OutHolds a.Keeps (execSha512s x0 x1 x2 x3 s) := by
  unfold execSha512s
  repeat' (first | with_reducible assumption | with_reducible apply OutHolds.mk | with_reducible apply State.cryptoOp_keeps)

theorem execSha512r_keeps {a s : State} (h : a.Keeps s) (x0 x1 x2 x3) :
    OutHolds a.Keeps (execSha512r x0 x1 x2 x3 s) := by
  unfold execSha512r
  repeat' (first | with_reducible assumption | with_reducible apply OutHolds.mk | with_reducible apply State.cryptoOp_keeps)

theorem execBr_keeps {a s : State} (h : a.Keeps s) (x0 x1) : OutHolds a.Keeps (execBr x0 x1 s) := by
  unfold execBr
  repeat' (first
      | with_reducible assumption | intro _ | dsimp only | with_reducible apply Done.Holds.mkJump
      | with_reducible apply OutHolds.mk | with_reducible apply State.issue_keeps | with_reducible apply State.modCore_keeps)

theorem execBal_keeps {a s : State} (h : a.Keeps s) (x0 x1) : OutHolds a.Keeps (execBal x0 x1 s) := by
  unfold execBal
  repeat' (first
      | with_reducible assumption | intro _ | dsimp only | with_reducible apply Done.Holds.mkJump
      | with_reducible apply OutHolds.mk | with_reducible apply State.issue_keeps | with_reducible apply State.modCore_keeps)

theorem execBcc_keeps {a s : State} (h : a.Keeps s) (x0 x1 x2 x3 x4) :
    OutHolds a.Keeps (execBcc x0 x1 x2 x3 x4 s) := by
  unfold execBcc
  repeat' (first
      | with_reducible assumption | intro _ | dsimp only | with_reducible apply Done.Holds.mkOk
      | with_reducible apply Done.Holds.mkJump | with_reducible apply Done.Holds.mkExc | with_reducible apply OutHolds.mk
      | with_reducible apply State.issue_keeps | with_reducible apply State.setCore_keeps | split)

theorem execJalr_keeps {a s : State} (h : a.Keeps s) (x0 x1 x2 x3) :
    OutHolds a.Keeps (execJalr x0 x1 x2 x3 s) := by
  unfold execJalr
  repeat' (first
      | with_reducible assumption | intro _ | dsimp only | with_reducible apply Done.Holds.mkJump
      | with_reducible apply Done.Holds.mkExc | with_reducible apply OutHolds.mk | with_reducible apply State.issue_keeps
      | with_reducible apply State.setCore_keeps | split)

theorem execJr_keeps {a s : State} (h : a.Keeps s) (x0 x1 x2) : OutHolds a.Keeps (execJr x0 x1 x2 s) := by
  unfold execJr
  repeat' (first
      | with_reducible assumption | intro _ | dsimp only | with_reducible apply Done.Holds.mkJump
      | with_reducible apply Done.Holds.mkExc | with_reducible apply OutHolds.mk | with_reducible apply State.issue_keeps
      | with_reducible apply State.setCore_keeps | split)

theorem execLoop_keeps {a s : State} (h : a.Keeps s) (x0 x1 x2) : OutHolds a.Keeps (execLoop x0 x1 x2 s) := by
  unfold execLoop
  repeat' (first
      | with_reducible assumption | intro _ | dsimp only | with_reducible apply Done.Holds.mkOk
      | with_reducible apply Done.Holds.mkExc | with_reducible apply Done.Holds.mkStay | with_reducible apply OutHolds.mk
      | with_reducible apply State.issue_keeps | with_reducible apply State.retire_keeps
      | with_reducible apply State.setCore_keeps | split)

theorem execAclr_keeps {a s : State} (h : a.Keeps s) (x0 x1 x2) : OutHolds a.Keeps (execAclr x0 x1 x2 s) := by
  unfold execAclr
  repeat' (first
      | with_reducible assumption | intro _ | dsimp only | with_reducible apply Done.Holds.mkOk
      | with_reducible apply Done.Holds.mkExc | with_reducible apply OutHolds.mk | with_reducible apply State.issue_keeps
      | with_reducible apply State.modCore_keeps | split)

theorem execAadd_keeps {a s : State} (h : a.Keeps s) (x0 x1 x2 x3) :
    OutHolds a.Keeps (execAadd x0 x1 x2 x3 s) := by
  unfold execAadd
  repeat' (first | with_reducible assumption | with_reducible apply OutHolds.mk | with_reducible apply State.amAdd_keeps)

theorem execAsub_keeps {a s : State} (h : a.Keeps s) (x0 x1 x2 x3) :
    OutHolds a.Keeps (execAsub x0 x1 x2 x3 s) := by
  unfold execAsub
  repeat' (first | with_reducible assumption | with_reducible apply OutHolds.mk | with_reducible apply State.amAdd_keeps)

theorem execAmac_keeps {a s : State} (h : a.Keeps s) (x0 x1 x2 x3 x4) :
    OutHolds a.Keeps (execAmac x0 x1 x2 x3 x4 s) := by
  unfold execAmac
  repeat' (first
      | with_reducible assumption | intro _ | dsimp only | with_reducible apply OutHolds.mk
      | with_reducible apply State.issue_keeps | with_reducible apply longDone_keeps
      | with_reducible apply State.modCore_keeps | split)

theorem execAmacs_keeps {a s : State} (h : a.Keeps s) (x0 x1 x2 x3 x4) :
    OutHolds a.Keeps (execAmacs x0 x1 x2 x3 x4 s) := by
  unfold execAmacs
  repeat' (first
      | with_reducible assumption | intro _ | with_reducible apply OutHolds.mk | with_reducible apply State.issue_keeps
      | with_reducible apply accDone_keeps)

theorem execAscl_keeps {a s : State} (h : a.Keeps s) (x0 x1 x2) : OutHolds a.Keeps (execAscl x0 x1 x2 s) := by
  unfold execAscl
  repeat' (first
      | with_reducible assumption | intro _ | dsimp only | with_reducible apply Done.Holds.mkExc
      | with_reducible apply OutHolds.mk | with_reducible apply State.issue_keeps | with_reducible apply accDone_keeps | split)

theorem execArnd_keeps {a s : State} (h : a.Keeps s) (x0 x1 x2 x3 x4) :
    OutHolds a.Keeps (execArnd x0 x1 x2 x3 x4 s) := by
  unfold execArnd
  repeat' (first
      | with_reducible assumption | intro _ | dsimp only | with_reducible apply Done.Holds.mkExc
      | with_reducible apply OutHolds.mk | with_reducible apply State.issue_keeps | with_reducible apply longDone_keeps
      | with_reducible apply State.modCore_keeps | split)

theorem execAflg_keeps {a s : State} (h : a.Keeps s) (x0 x1 x2) : OutHolds a.Keeps (execAflg x0 x1 x2 s) := by
  unfold execAflg
  repeat' (first | with_reducible assumption | with_reducible apply OutHolds.mk | with_reducible apply State.compute_keeps)

theorem execAfclr_keeps {a s : State} (h : a.Keeps s) (x0 x1) : OutHolds a.Keeps (execAfclr x0 x1 s) := by
  unfold execAfclr
  repeat' (first
      | with_reducible assumption | dsimp only | with_reducible apply OutHolds.mk | with_reducible apply State.compute_keeps)

theorem execReadyEvaluation_keeps {a s : State} (h : a.Keeps s) (x0) :
    OutHolds a.Keeps (execReadyEvaluation x0 s) := by
  unfold execReadyEvaluation
  repeat' (first
      | with_reducible assumption | dsimp only | with_reducible apply OutHolds.mk | with_reducible apply State.setReport_keeps
      | with_reducible apply State.Keeps.ite)

theorem execRootSampling_keeps {a s : State} (h : a.Keeps s) : OutHolds a.Keeps (execRootSampling s) := by
  unfold execRootSampling
  repeat' (first
      | with_reducible assumption | intro _ | dsimp only | with_reducible apply OutHolds.mk
      | with_reducible apply State.setReport_keeps | fail_if_no_progress (with_reducible apply State.Keeps.upd)
      | with_reducible apply State.Keeps.foldl | with_reducible apply State.Keeps.ite)

theorem execToStoreStage_keeps {a s : State} (h : a.Keeps s) (x0) :
    OutHolds a.Keeps (execToStoreStage x0 s) := by
  unfold execToStoreStage
  repeat' (first
      | with_reducible assumption | dsimp only | with_reducible apply OutHolds.mk | with_reducible apply State.modBlock_keeps
      | with_reducible apply State.stageEnt_keeps | with_reducible apply State.Keeps.ite | split)

theorem execPublishAcknowledgement_keeps {a s : State} (h : a.Keeps s) (x0) :
    OutHolds a.Keeps (execPublishAcknowledgement x0 s) := by
  unfold execPublishAcknowledgement
  repeat' (first
      | with_reducible assumption | with_reducible apply OutHolds.mk | with_reducible apply State.modBlock_keeps
      | with_reducible apply State.Keeps.ite)

theorem execActionRegister_keeps {a s : State} (h : a.Keeps s) (x0) :
    OutHolds a.Keeps (execActionRegister x0 s) := by
  unfold execActionRegister
  repeat' (first
      | with_reducible assumption | with_reducible apply OutHolds.mk | with_reducible apply State.registerAct_keeps
      | with_reducible apply State.Keeps.ite | split)

theorem execTickTimerPost_keeps {a s : State} (h : a.Keeps s) (x0) :
    OutHolds a.Keeps (execTickTimerPost x0 s) := by
  unfold execTickTimerPost
  repeat' (first
      | with_reducible assumption | with_reducible apply OutHolds.mk | with_reducible apply State.post_keeps
      | with_reducible apply State.modCore_keeps | with_reducible apply State.Keeps.ite)

theorem execPpsEdge_keeps {a s : State} (h : a.Keeps s) (x0) : OutHolds a.Keeps (execPpsEdge x0 s) := by
  unfold execPpsEdge
  repeat' (first
      | with_reducible assumption | dsimp only | with_reducible apply OutHolds.mk | with_reducible apply State.passRefs_keeps
      | with_reducible apply State.ppsAccept_keeps | fail_if_no_progress (with_reducible apply State.Keeps.upd)
      | with_reducible apply State.Keeps.ite)

theorem execPpsLost_keeps {a s : State} (h : a.Keeps s) : OutHolds a.Keeps (execPpsLost s) := by
  unfold execPpsLost
  repeat' (first
      | with_reducible assumption | dsimp only | with_reducible apply OutHolds.mk | with_reducible apply State.post_keeps
      | fail_if_no_progress (with_reducible apply State.Keeps.upd) | with_reducible apply State.Keeps.ite)

theorem execTlbShootdown_keeps {a s : State} (h : a.Keeps s) : OutHolds a.Keeps (execTlbShootdown s) := by
  unfold execTlbShootdown
  repeat' (first
      | with_reducible assumption | with_reducible apply OutHolds.mk | with_reducible apply State.sdGo_keeps
      | with_reducible apply State.Keeps.ite)

theorem execShootdownComplete_keeps {a s : State} (h : a.Keeps s) :
    OutHolds a.Keeps (execShootdownComplete s) := by
  unfold execShootdownComplete
  repeat' (first
      | with_reducible assumption | dsimp only | with_reducible apply OutHolds.mk
      | fail_if_no_progress (with_reducible apply State.Keeps.upd) | with_reducible apply State.Keeps.ite)

theorem execAtsInvalidateCompletion_keeps {a s : State} (h : a.Keeps s) (x0 x1) :
    OutHolds a.Keeps (execAtsInvalidateCompletion x0 x1 s) := by
  unfold execAtsInvalidateCompletion
  repeat' (first
      | with_reducible assumption | dsimp only | with_reducible apply OutHolds.mk
      | fail_if_no_progress (with_reducible apply State.Keeps.upd) | with_reducible apply State.Keeps.ite)

theorem execAtsInvalidationTimeout_keeps {a s : State} (h : a.Keeps s) (x0 x1) :
    OutHolds a.Keeps (execAtsInvalidationTimeout x0 x1 s) := by
  unfold execAtsInvalidationTimeout
  repeat' (first
      | with_reducible assumption | dsimp only | with_reducible apply OutHolds.mk | with_reducible apply State.orWait_keeps
      | with_reducible apply State.modIotu_keeps | with_reducible apply State.iotEvent_keeps
      | fail_if_no_progress (with_reducible apply State.Keeps.upd) | with_reducible apply State.Keeps.ite)

theorem execIotEqbWrite_keeps {a s : State} (h : a.Keeps s) (x0 x1) :
    OutHolds a.Keeps (execIotEqbWrite x0 x1 s) := by
  unfold execIotEqbWrite
  repeat' (first
      | with_reducible assumption | with_reducible apply OutHolds.mk | with_reducible apply State.eqbWrite_keeps
      | with_reducible apply State.Keeps.ite)

theorem execPageRequestGroupResponse_keeps {a s : State} (h : a.Keeps s) (x0 x1) :
    OutHolds a.Keeps (execPageRequestGroupResponse x0 x1 s) := by
  unfold execPageRequestGroupResponse
  repeat' (first
      | with_reducible assumption | with_reducible apply OutHolds.mk | with_reducible apply State.prgrWrite_keeps
      | with_reducible apply State.Keeps.ite)

theorem execDbTailWrite_keeps {a s : State} (h : a.Keeps s) (x0 x1 x2 x3) :
    OutHolds a.Keeps (execDbTailWrite x0 x1 x2 x3 s) := by
  unfold execDbTailWrite
  repeat' (first
      | with_reducible assumption | with_reducible apply OutHolds.mk | with_reducible apply State.dbTail_keeps
      | with_reducible apply State.Keeps.ite)

theorem execResumeDesc_keeps {a s : State} (h : a.Keeps s) (x0 x1 x2) :
    OutHolds a.Keeps (execResumeDesc x0 x1 x2 s) := by
  unfold execResumeDesc
  repeat' (first
      | with_reducible assumption | with_reducible apply OutHolds.mk | with_reducible apply State.dbCtl_keeps
      | with_reducible apply State.Keeps.ite)

theorem execSkipDesc_keeps {a s : State} (h : a.Keeps s) (x0 x1 x2) :
    OutHolds a.Keeps (execSkipDesc x0 x1 x2 s) := by
  unfold execSkipDesc
  repeat' (first
      | with_reducible assumption | with_reducible apply OutHolds.mk | with_reducible apply State.dbCtl_keeps
      | with_reducible apply State.Keeps.ite)

theorem execEnableInst_keeps {a s : State} (h : a.Keeps s) (x0 x1) :
    OutHolds a.Keeps (execEnableInst x0 x1 s) := by
  unfold execEnableInst
  repeat' (first
      | with_reducible assumption | with_reducible apply OutHolds.mk | with_reducible apply State.instCmd_keeps
      | with_reducible apply State.Keeps.ite)

theorem execQuiesceInst_keeps {a s : State} (h : a.Keeps s) (x0 x1 x2) :
    OutHolds a.Keeps (execQuiesceInst x0 x1 x2 s) := by
  unfold execQuiesceInst
  repeat' (first
      | with_reducible assumption | with_reducible apply OutHolds.mk | with_reducible apply State.instCmd_keeps
      | with_reducible apply State.Keeps.ite)

theorem execRunInst_keeps {a s : State} (h : a.Keeps s) (x0 x1) : OutHolds a.Keeps (execRunInst x0 x1 s) := by
  unfold execRunInst
  repeat' (first
      | with_reducible assumption | with_reducible apply OutHolds.mk | with_reducible apply State.instCmd_keeps
      | with_reducible apply State.Keeps.ite)

theorem execResetInst_keeps {a s : State} (h : a.Keeps s) (x0 x1) :
    OutHolds a.Keeps (execResetInst x0 x1 s) := by
  unfold execResetInst
  repeat' (first
      | with_reducible assumption | with_reducible apply OutHolds.mk | with_reducible apply State.instCmd_keeps
      | with_reducible apply State.Keeps.ite)

theorem execSaveInst_keeps {a s : State} (h : a.Keeps s) (x0 x1) :
    OutHolds a.Keeps (execSaveInst x0 x1 s) := by
  unfold execSaveInst
  repeat' (first
      | with_reducible assumption | with_reducible apply OutHolds.mk | with_reducible apply State.orWait_keeps
      | with_reducible apply State.instCmd_keeps | with_reducible apply State.Keeps.ite)

theorem execRestoreInst_keeps {a s : State} (h : a.Keeps s) (x0 x1) :
    OutHolds a.Keeps (execRestoreInst x0 x1 s) := by
  unfold execRestoreInst
  repeat' (first
      | with_reducible assumption | with_reducible apply OutHolds.mk | with_reducible apply State.orWait_keeps
      | with_reducible apply State.instCmd_keeps | with_reducible apply State.Keeps.ite)

theorem execInstCmdUndefined_keeps {a s : State} (h : a.Keeps s) (x0 x1 x2) :
    OutHolds a.Keeps (execInstCmdUndefined x0 x1 x2 s) := by
  unfold execInstCmdUndefined
  repeat' (first
      | with_reducible assumption | with_reducible apply OutHolds.mk | with_reducible apply State.instCmd_keeps
      | with_reducible apply State.Keeps.ite)

theorem execQuiesceComplete_keeps {a s : State} (h : a.Keeps s) (x0 x1) :
    OutHolds a.Keeps (execQuiesceComplete x0 x1 s) := by
  unfold execQuiesceComplete
  repeat' (first
      | with_reducible assumption | dsimp only | with_reducible apply OutHolds.mk | with_reducible apply State.modInst_keeps
      | with_reducible apply State.Keeps.ite)

theorem execChunkDispatch_keeps {a s : State} (h : a.Keeps s) (x0) :
    OutHolds a.Keeps (execChunkDispatch x0 s) := by
  unfold execChunkDispatch
  repeat' (first
      | with_reducible assumption | dsimp only | with_reducible apply OutHolds.mk | with_reducible apply State.orWait_keeps
      | with_reducible apply State.sendPeers_keeps | with_reducible apply State.modInst_keeps
      | with_reducible apply State.modFn_keeps | fail_if_no_progress (with_reducible apply State.Keeps.upd)
      | with_reducible refine State.Keeps.fst (by assumption) ?_ | with_reducible apply State.Keeps.ite | split)

theorem execDescriptorStart_keeps {a s : State} (h : a.Keeps s) (x0 x1) :
    OutHolds a.Keeps (execDescriptorStart x0 x1 s) := by
  unfold execDescriptorStart
  repeat' (first
      | with_reducible assumption | dsimp only | with_reducible apply OutHolds.mk | with_reducible apply State.orWait_keeps
      | with_reducible apply State.descBegin_keeps | with_reducible apply State.instRead_keeps
      | with_reducible apply State.postVec_keeps | with_reducible apply State.modInst_keeps
      | with_reducible apply State.stopFault_keeps | with_reducible refine State.Keeps.snd (by assumption) ?_
      | with_reducible apply State.Keeps.ite | split)

theorem execChunkComplete_keeps {a s : State} (h : a.Keeps s) (x0 x1) :
    OutHolds a.Keeps (execChunkComplete x0 x1 s) := by
  unfold execChunkComplete
  repeat' (first
      | with_reducible assumption | intro _ | dsimp only | with_reducible apply OutHolds.mk
      | with_reducible apply State.orWait_keeps | with_reducible apply State.modInst_keeps
      | with_reducible apply State.chunkPlan_keeps | with_reducible apply State.stopFault_keeps
      | with_reducible apply State.cobPoison_keeps | with_reducible apply State.writePiece_keeps
      | with_reducible apply State.Keeps.foldl | with_reducible refine State.Keeps.snd (by assumption) ?_
      | with_reducible apply State.Keeps.ite | split)

theorem execDescriptorCompletion_keeps {a s : State} (h : a.Keeps s) (x0 x1) :
    OutHolds a.Keeps (execDescriptorCompletion x0 x1 s) := by
  unfold execDescriptorCompletion
  repeat' (first
      | with_reducible assumption | dsimp only | with_reducible apply OutHolds.mk | with_reducible apply State.orWait_keeps
      | with_reducible apply State.instWrite_keeps | with_reducible apply State.postVec_keeps
      | with_reducible apply State.modInst_keeps | with_reducible apply State.stopFault_keeps
      | with_reducible refine State.Keeps.snd (by assumption) ?_ | with_reducible apply State.Keeps.ite | split)

theorem execApertureWrite_keeps {a s : State} (h : a.Keeps s) (x0 x1 x2 x3 x4 x5 x6 x7) :
    OutHolds a.Keeps (execApertureWrite x0 x1 x2 x3 x4 x5 x6 x7 s) := by
  unfold execApertureWrite
  repeat' (first
      | with_reducible assumption | dsimp only | with_reducible apply OutHolds.mk | with_reducible apply State.emit_keeps
      | with_reducible apply State.aperture_keeps | with_reducible apply State.Keeps.ite)

theorem execIbwCommit_keeps {a s : State} (h : a.Keeps s) (x0 x1) :
    OutHolds a.Keeps (execIbwCommit x0 x1 s) := by
  unfold execIbwCommit
  repeat' (first
      | with_reducible assumption | with_reducible apply OutHolds.mk | with_reducible apply State.modFn_keeps
      | with_reducible apply State.Keeps.ite)

theorem execIbwCommitPoint_keeps {a s : State} (h : a.Keeps s) (x0) :
    OutHolds a.Keeps (execIbwCommitPoint x0 s) := by
  unfold execIbwCommitPoint
  repeat' (first
      | with_reducible assumption | with_reducible apply OutHolds.mk | with_reducible apply State.modFn_keeps
      | with_reducible apply State.Keeps.ite)

theorem execFunctionContainment_keeps {a s : State} (h : a.Keeps s) (x0 x1 x2 x3) :
    OutHolds a.Keeps (execFunctionContainment x0 x1 x2 x3 s) := by
  unfold execFunctionContainment
  repeat' (first
      | with_reducible assumption | with_reducible apply OutHolds.mk | with_reducible apply State.orWait_keeps
      | with_reducible apply State.contain_keeps | with_reducible apply State.Keeps.ite)

theorem execContainmentRelease_keeps {a s : State} (h : a.Keeps s) (x0) :
    OutHolds a.Keeps (execContainmentRelease x0 s) := by
  unfold execContainmentRelease
  repeat' (first
      | with_reducible assumption | with_reducible apply OutHolds.mk | with_reducible apply State.relRequest_keeps
      | with_reducible apply State.Keeps.ite)

theorem execContainmentReleaseEffect_keeps {a s : State} (h : a.Keeps s) (x0) :
    OutHolds a.Keeps (execContainmentReleaseEffect x0 s) := by
  unfold execContainmentReleaseEffect
  repeat' (first
      | with_reducible assumption | dsimp only | with_reducible apply OutHolds.mk | with_reducible apply State.msixFlush_keeps
      | with_reducible apply State.cobRecord_keeps | with_reducible apply State.modFn_keeps
      | with_reducible apply State.Keeps.ite)

theorem execPowerstateWrite_keeps {a s : State} (h : a.Keeps s) (x0 x1) :
    OutHolds a.Keeps (execPowerstateWrite x0 x1 s) := by
  unfold execPowerstateWrite
  repeat' (first
      | with_reducible assumption | with_reducible apply OutHolds.mk | with_reducible apply State.powerstate_keeps
      | with_reducible apply State.Keeps.ite)

theorem execPmeStatusClear_keeps {a s : State} (h : a.Keeps s) (x0) :
    OutHolds a.Keeps (execPmeStatusClear x0 s) := by
  unfold execPmeStatusClear
  repeat' (first
      | with_reducible assumption | with_reducible apply OutHolds.mk | with_reducible apply State.modFn_keeps
      | with_reducible apply State.Keeps.ite)

theorem execCommandRegisterWrite_keeps {a s : State} (h : a.Keeps s) (x0 x1) :
    OutHolds a.Keeps (execCommandRegisterWrite x0 x1 s) := by
  unfold execCommandRegisterWrite
  repeat' (first
      | with_reducible assumption | with_reducible apply OutHolds.mk | with_reducible apply State.orWait_keeps
      | with_reducible apply State.commandWrite_keeps | with_reducible apply State.Keeps.ite)

theorem execMsixEntryUnmask_keeps {a s : State} (h : a.Keeps s) (x0 x1) :
    OutHolds a.Keeps (execMsixEntryUnmask x0 x1 s) := by
  unfold execMsixEntryUnmask
  repeat' (first
      | with_reducible assumption | with_reducible apply OutHolds.mk | with_reducible apply State.msixFlush_keeps
      | with_reducible apply State.modFn_keeps | with_reducible apply State.Keeps.ite)

theorem execLinkTraining_keeps {a s : State} (h : a.Keeps s) (x0 x1 x2 x3 x4 x5) :
    OutHolds a.Keeps (execLinkTraining x0 x1 x2 x3 x4 x5 s) := by
  unfold execLinkTraining
  repeat' (first
      | with_reducible assumption | dsimp only | with_reducible apply OutHolds.mk | with_reducible apply State.modPort_keeps
      | with_reducible apply State.portRecord_keeps | with_reducible apply State.Keeps.ite)

theorem execCompletionReceived_keeps {a s : State} (h : a.Keeps s) (x0 x1 x2 x3 x4 x5) :
    OutHolds a.Keeps (execCompletionReceived x0 x1 x2 x3 x4 x5 s) := by
  unfold execCompletionReceived
  repeat' (first
      | with_reducible assumption | dsimp only | with_reducible apply OutHolds.mk | with_reducible apply State.aerError_keeps
      | with_reducible apply State.lateCpl_keeps | with_reducible apply State.dropReq_keeps
      | with_reducible apply State.coreDone_keeps | with_reducible apply State.peerDone_keeps
      | with_reducible apply State.corePoison_keeps | with_reducible apply State.reqError_keeps
      | with_reducible apply State.modPort_keeps | with_reducible apply State.Keeps.ite | split)

theorem execCompletionTimeout_keeps {a s : State} (h : a.Keeps s) (x0 x1 x2) :
    OutHolds a.Keeps (execCompletionTimeout x0 x1 x2 s) := by
  unfold execCompletionTimeout
  repeat' (first
      | with_reducible assumption | dsimp only | with_reducible apply OutHolds.mk | with_reducible apply State.modPort_keeps
      | with_reducible apply State.dropReq_keeps | with_reducible apply State.aerError_keeps
      | with_reducible apply State.coreFail_keeps | with_reducible apply State.peerDone_keeps
      | with_reducible apply State.Keeps.ite | split)

theorem execTagQuarantineEnd_keeps {a s : State} (h : a.Keeps s) (x0 x1 x2) :
    OutHolds a.Keeps (execTagQuarantineEnd x0 x1 x2 s) := by
  unfold execTagQuarantineEnd
  repeat' (first
      | with_reducible assumption | with_reducible apply OutHolds.mk | with_reducible apply State.modPort_keeps
      | with_reducible apply State.Keeps.ite)

theorem execCrsRetry_keeps {a s : State} (h : a.Keeps s) (x0 x1 x2) :
    OutHolds a.Keeps (execCrsRetry x0 x1 x2 s) := by
  unfold execCrsRetry
  repeat' (first
      | with_reducible assumption | with_reducible apply OutHolds.mk | with_reducible apply State.emit_keeps
      | with_reducible apply State.modPort_keeps | with_reducible apply State.Keeps.ite | split)

theorem execPcieMessageReceived_keeps {a s : State} (h : a.Keeps s) (x0 x1 x2 x3) :
    OutHolds a.Keeps (execPcieMessageReceived x0 x1 x2 x3 s) := by
  unfold execPcieMessageReceived
  repeat' (first
      | with_reducible assumption | with_reducible apply OutHolds.mk | with_reducible apply State.portRecord_keeps
      | with_reducible apply State.modPort_keeps | with_reducible apply State.Keeps.ite | split)

theorem execErrorMessageReceived_keeps {a s : State} (h : a.Keeps s) (x0 x1 x2 x3) :
    OutHolds a.Keeps (execErrorMessageReceived x0 x1 x2 x3 s) := by
  unfold execErrorMessageReceived
  repeat' (first
      | with_reducible assumption | dsimp only | with_reducible apply OutHolds.mk | with_reducible apply State.aerPost_keeps
      | with_reducible apply State.modPort_keeps | with_reducible apply State.dpcEnter_keeps
      | with_reducible apply State.Keeps.ite | split)

theorem execPmeMessageReceived_keeps {a s : State} (h : a.Keeps s) (x0 x1 x2) :
    OutHolds a.Keeps (execPmeMessageReceived x0 x1 x2 s) := by
  unfold execPmeMessageReceived
  repeat' (first
      | with_reducible assumption | dsimp only | with_reducible apply OutHolds.mk | with_reducible apply State.modPort_keeps
      | with_reducible apply State.post_keeps | with_reducible apply State.Keeps.ite)

theorem execLinkErrorCorrected_keeps {a s : State} (h : a.Keeps s) (x0 x1 x2) :
    OutHolds a.Keeps (execLinkErrorCorrected x0 x1 x2 s) := by
  unfold execLinkErrorCorrected
  repeat' (first
      | with_reducible assumption | dsimp only | with_reducible apply OutHolds.mk | with_reducible apply State.aerPost_keeps
      | with_reducible apply State.modPort_keeps | with_reducible apply State.portRecord_keeps
      | with_reducible apply State.Keeps.ite)

theorem execDpcTrigger_keeps {a s : State} (h : a.Keeps s) (x0 x1 x2 x3) :
    OutHolds a.Keeps (execDpcTrigger x0 x1 x2 x3 s) := by
  unfold execDpcTrigger
  repeat' (first
      | with_reducible assumption | dsimp only | with_reducible apply OutHolds.mk | with_reducible apply State.aerError_keeps
      | with_reducible apply State.dpcEnter_keeps | with_reducible apply State.Keeps.ite)

theorem execDpcTriggerStatusClear_keeps {a s : State} (h : a.Keeps s) (x0 x1) :
    OutHolds a.Keeps (execDpcTriggerStatusClear x0 x1 s) := by
  unfold execDpcTriggerStatusClear
  repeat' (first
      | with_reducible assumption | with_reducible apply OutHolds.mk | with_reducible apply State.dpcClear_keeps
      | with_reducible apply State.Keeps.ite)

theorem execDmaRequest_keeps {a s : State} (h : a.Keeps s) (x0 x1 x2 x3 x4 x5) :
    OutHolds a.Keeps (execDmaRequest x0 x1 x2 x3 x4 x5 s) := by
  unfold execDmaRequest
  repeat' (first
      | with_reducible assumption | with_reducible apply OutHolds.mk | with_reducible apply State.orWait_keeps
      | with_reducible apply State.dmaAnswer_keeps | with_reducible apply State.dmaUntranslated_keeps
      | with_reducible apply State.Keeps.ite)

theorem execTranslatedRequest_keeps {a s : State} (h : a.Keeps s) (x0 x1 x2 x3 x4 x5) :
    OutHolds a.Keeps (execTranslatedRequest x0 x1 x2 x3 x4 x5 s) := by
  unfold execTranslatedRequest
  repeat' (first
      | with_reducible assumption | with_reducible apply OutHolds.mk | with_reducible apply State.orWait_keeps
      | with_reducible apply State.dmaAnswer_keeps | with_reducible apply State.dmaTranslated_keeps
      | with_reducible apply State.Keeps.ite)

theorem execAtsTranslationRequest_keeps {a s : State} (h : a.Keeps s) (x0 x1 x2 x3) :
    OutHolds a.Keeps (execAtsTranslationRequest x0 x1 x2 x3 s) := by
  unfold execAtsTranslationRequest
  repeat' (first
      | with_reducible assumption | with_reducible apply OutHolds.mk | with_reducible apply State.orWait_keeps
      | with_reducible apply State.dmaContext_keeps | with_reducible apply State.emit_keeps
      | with_reducible apply State.dmaFault_keeps | with_reducible apply State.portRecord_keeps
      | with_reducible apply State.ioRegime_keeps | with_reducible apply State.ioLookup_keeps
      | with_reducible refine State.Keeps.snd (by assumption) ?_ | with_reducible apply State.Keeps.ite | split)

theorem execPageRequest_keeps {a s : State} (h : a.Keeps s) (x0 x1 x2 x3 x4 x5 x6) :
    OutHolds a.Keeps (execPageRequest x0 x1 x2 x3 x4 x5 x6 s) := by
  unfold execPageRequest
  repeat' (first
      | with_reducible assumption | dsimp only | with_reducible apply OutHolds.mk | with_reducible apply State.orWait_keeps
      | with_reducible apply State.portRecord_keeps | with_reducible apply State.modPort_keeps
      | with_reducible apply State.dmaContext_keeps | with_reducible apply State.iotEvent_keeps
      | with_reducible apply State.emit_keeps | with_reducible refine State.Keeps.snd (by assumption) ?_
      | with_reducible apply State.Keeps.ite | split)

theorem execDownstreamRequest_keeps {a s : State} (h : a.Keeps s) (x0 x1 x2 x3 x4 x5 x6 x7 x8) :
    OutHolds a.Keeps (execDownstreamRequest x0 x1 x2 x3 x4 x5 x6 x7 x8 s) := by
  unfold execDownstreamRequest
  repeat' (first
      | with_reducible assumption | dsimp only | with_reducible apply OutHolds.mk | with_reducible apply State.orWait_keeps
      | with_reducible apply State.portRecord_keeps | with_reducible apply State.aerError_keeps
      | with_reducible apply State.emit_keeps | with_reducible apply State.dmaUntranslated_keeps
      | with_reducible apply State.dmaAnswer_keeps | with_reducible apply State.Keeps.ite | split)

theorem execRds_keeps {a s : State} (h : a.Keeps s) (x0 x1 x2 x3 x4 x5) :
    OutHolds a.Keeps (execRds x0 x1 x2 x3 x4 x5 s) := by
  unfold execRds
  repeat' (first
      | with_reducible assumption | dsimp only | with_reducible apply OutHolds.mk
      | with_reducible apply State.homeRequest_keeps | with_reducible apply State.Keeps.ite)

theorem execRdx_keeps {a s : State} (h : a.Keeps s) (x0 x1 x2 x3 x4 x5) :
    OutHolds a.Keeps (execRdx x0 x1 x2 x3 x4 x5 s) := by
  unfold execRdx
  repeat' (first
      | with_reducible assumption | dsimp only | with_reducible apply OutHolds.mk
      | with_reducible apply State.homeRequest_keeps | with_reducible apply State.Keeps.ite)

theorem execUpg_keeps {a s : State} (h : a.Keeps s) (x0 x1) : OutHolds a.Keeps (execUpg x0 x1 s) := by
  unfold execUpg
  repeat' (first
      | with_reducible assumption | dsimp only | with_reducible apply OutHolds.mk
      | with_reducible apply State.homeRequest_keeps | with_reducible apply State.Keeps.ite | split)

theorem execRdz_keeps {a s : State} (h : a.Keeps s) (x0 x1 x2 x3) :
    OutHolds a.Keeps (execRdz x0 x1 x2 x3 s) := by
  unfold execRdz
  repeat' (first
      | with_reducible assumption | dsimp only | with_reducible apply OutHolds.mk
      | with_reducible apply State.homeRequest_keeps | with_reducible apply State.Keeps.ite)

theorem execWb_keeps {a s : State} (h : a.Keeps s) (x0 x1) : OutHolds a.Keeps (execWb x0 x1 s) := by
  unfold execWb
  repeat' (first | with_reducible assumption | with_reducible apply OutHolds.mk | with_reducible apply State.vcRelease_keeps)

theorem execEvn_keeps {a s : State} (h : a.Keeps s) (x0 x1) : OutHolds a.Keeps (execEvn x0 x1 s) := by
  unfold execEvn
  repeat' (first | with_reducible assumption | with_reducible apply OutHolds.mk | with_reducible apply State.vcRelease_keeps)

theorem execCrd_keeps {a s : State} (h : a.Keeps s) (x0 x1 x2) : OutHolds a.Keeps (execCrd x0 x1 x2 s) := by
  unfold execCrd
  repeat' (first
      | with_reducible assumption | with_reducible apply OutHolds.mk | with_reducible apply State.crd_keeps
      | with_reducible apply State.Keeps.ite)

theorem execCwr_keeps {a s : State} (h : a.Keeps s) (x0 x1 x2 x3) :
    OutHolds a.Keeps (execCwr x0 x1 x2 x3 s) := by
  unfold execCwr
  repeat' (first
      | with_reducible assumption | with_reducible apply OutHolds.mk | with_reducible apply State.cwr_keeps
      | with_reducible apply State.Keeps.ite)

theorem execGrantAcknowledgement_keeps {a s : State} (h : a.Keeps s) (x0 x1) :
    OutHolds a.Keeps (execGrantAcknowledgement x0 x1 s) := by
  unfold execGrantAcknowledgement
  repeat' (first
      | with_reducible assumption | with_reducible apply OutHolds.mk | with_reducible apply State.ackGrant_keeps
      | with_reducible apply State.Keeps.ite | split)

theorem execForwardShared_keeps {a s : State} (h : a.Keeps s) (x0 x1) :
    OutHolds a.Keeps (execForwardShared x0 x1 s) := by
  unfold execForwardShared
  repeat' (first
      | with_reducible assumption | with_reducible apply OutHolds.mk | with_reducible apply State.forward_keeps
      | with_reducible apply State.Keeps.ite | split)

theorem execForwardExclusive_keeps {a s : State} (h : a.Keeps s) (x0 x1) :
    OutHolds a.Keeps (execForwardExclusive x0 x1 s) := by
  unfold execForwardExclusive
  repeat' (first
      | with_reducible assumption | with_reducible apply OutHolds.mk | with_reducible apply State.forward_keeps
      | with_reducible apply State.Keeps.ite | split)

theorem execInvalidation_keeps {a s : State} (h : a.Keeps s) (x0 x1) :
    OutHolds a.Keeps (execInvalidation x0 x1 s) := by
  unfold execInvalidation
  repeat' (first
      | with_reducible assumption | with_reducible apply OutHolds.mk | with_reducible apply State.invalidate_keeps
      | with_reducible apply State.Keeps.ite | split)

theorem execSlcWaymaskWrite_keeps {a s : State} (h : a.Keeps s) (x0 x1) :
    OutHolds a.Keeps (execSlcWaymaskWrite x0 x1 s) := by
  unfold execSlcWaymaskWrite
  repeat' (first
      | with_reducible assumption | with_reducible apply OutHolds.mk
      | fail_if_no_progress (with_reducible apply State.Keeps.upd) | with_reducible apply State.Keeps.ite)

theorem execCacheWalkComplete_keeps {a s : State} (h : a.Keeps s) (x0) :
    OutHolds a.Keeps (execCacheWalkComplete x0 s) := by
  unfold execCacheWalkComplete
  repeat' (first
      | with_reducible assumption | with_reducible apply OutHolds.mk | with_reducible apply State.modCore_keeps
      | with_reducible apply State.walkRelease_keeps | with_reducible apply State.walkClean_keeps
      | with_reducible apply State.Keeps.ite | split)

theorem execWindowLockComplete_keeps {a s : State} (h : a.Keeps s) (x0 x1) :
    OutHolds a.Keeps (execWindowLockComplete x0 x1 s) := by
  unfold execWindowLockComplete
  repeat' (first
      | with_reducible assumption | intro _ | dsimp only | with_reducible apply OutHolds.mk
      | with_reducible apply State.orWait_keeps | with_reducible apply State.modCore_keeps
      | with_reducible apply State.lockData_keeps | with_reducible apply State.lockCode_keeps
      | with_reducible apply State.Keeps.foldl | with_reducible apply State.Keeps.ite)

theorem execStreamPrefetch_keeps {a s : State} (h : a.Keeps s) (x0) :
    OutHolds a.Keeps (execStreamPrefetch x0 s) := by
  unfold execStreamPrefetch
  repeat' (first
      | with_reducible assumption | intro _ | dsimp only | with_reducible apply OutHolds.mk
      | with_reducible apply State.orWait_keeps | with_reducible apply State.prefetch_keeps
      | with_reducible apply State.Keeps.foldl | with_reducible apply State.Keeps.ite)

theorem execSideBufferEntryExpire_keeps {a s : State} (h : a.Keeps s) (x0 x1) :
    OutHolds a.Keeps (execSideBufferEntryExpire x0 x1 s) := by
  unfold execSideBufferEntryExpire
  repeat' (first
      | with_reducible assumption | with_reducible apply OutHolds.mk | with_reducible apply State.release_keeps
      | with_reducible apply State.modCore_keeps | with_reducible apply State.Keeps.ite | split)

theorem execRetEntryComplete_keeps {a s : State} (h : a.Keeps s) (x0) :
    OutHolds a.Keeps (execRetEntryComplete x0 s) := by
  unfold execRetEntryComplete
  repeat' (first
      | with_reducible assumption | dsimp only | with_reducible apply OutHolds.mk
      | with_reducible apply State.deliverAllHeld_keeps | with_reducible apply State.modDom_keeps
      | with_reducible apply State.modCore_keeps | with_reducible apply State.walkAllArrays_keeps
      | with_reducible apply State.nextDom_keeps | with_reducible apply State.arriveCore_keeps
      | with_reducible apply State.Keeps.ite)

theorem execCoreWake_keeps {a s : State} (h : a.Keeps s) (x0) : OutHolds a.Keeps (execCoreWake x0 s) := by
  unfold execCoreWake
  repeat' (first
      | with_reducible assumption | dsimp only | with_reducible apply OutHolds.mk | with_reducible apply State.wakeCore_keeps
      | with_reducible apply State.Keeps.ite)

theorem execPowerTransitionComplete_keeps {a s : State} (h : a.Keeps s) (x0) :
    OutHolds a.Keeps (execPowerTransitionComplete x0 s) := by
  unfold execPowerTransitionComplete
  repeat' (first
      | with_reducible assumption | dsimp only | with_reducible apply OutHolds.mk | with_reducible apply State.nextDom_keeps
      | with_reducible apply State.arriveCore_keeps | with_reducible apply State.arriveUnit_keeps
      | with_reducible apply State.Keeps.ite)

theorem execPadholdRel_keeps {a s : State} (h : a.Keeps s) (x0) : OutHolds a.Keeps (execPadholdRel x0 s) := by
  unfold execPadholdRel
  repeat' (first
      | with_reducible assumption | with_reducible apply OutHolds.mk | with_reducible apply State.releasePads_keeps
      | with_reducible apply State.Keeps.ite)

theorem execStackIdleRet_keeps {a s : State} (h : a.Keeps s) (x0) :
    OutHolds a.Keeps (execStackIdleRet x0 s) := by
  unfold execStackIdleRet
  repeat' (first
      | with_reducible assumption | dsimp only | with_reducible apply OutHolds.mk | with_reducible apply State.beginDom_keeps
      | with_reducible apply State.Keeps.ite)

theorem execStackWake_keeps {a s : State} (h : a.Keeps s) (x0 x1) :
    OutHolds a.Keeps (execStackWake x0 x1 s) := by
  unfold execStackWake
  repeat' (first
      | with_reducible assumption | with_reducible apply OutHolds.mk | with_reducible apply State.wakeDom_keeps
      | with_reducible apply State.Keeps.ite)

theorem execDaybreak_keeps {a s : State} (h : a.Keeps s) (x0) : OutHolds a.Keeps (execDaybreak x0 s) := by
  unfold execDaybreak
  repeat' (first
      | with_reducible assumption | dsimp only | with_reducible apply OutHolds.mk | with_reducible apply State.beginDom_keeps
      | with_reducible apply State.wakeDom_keeps | with_reducible apply State.Keeps.ite)

theorem execTelemetrySample_keeps {a s : State} (h : a.Keeps s) (x0 x1 x2) :
    OutHolds a.Keeps (execTelemetrySample x0 x1 x2 s) := by
  unfold execTelemetrySample
  repeat' (first
      | with_reducible assumption | dsimp only | with_reducible apply OutHolds.mk | with_reducible apply State.post_keeps
      | fail_if_no_progress (with_reducible apply State.Keeps.upd) | with_reducible apply State.Keeps.ite)

theorem execMemRead_keeps {a s : State} (h : a.Keeps s) (x0 x1 x2 x3 x4) :
    OutHolds a.Keeps (execMemRead x0 x1 x2 x3 x4 s) := by
  unfold execMemRead
  repeat' (first
      | with_reducible assumption | dsimp only | with_reducible apply OutHolds.mk
      | with_reducible apply State.deliverRead_keeps | with_reducible apply State.mergeClose_keeps
      | with_reducible apply State.chanTouch_keeps | with_reducible apply State.demandRead_keeps
      | with_reducible apply State.setDrains_keeps | with_reducible apply State.modChan_keeps
      | with_reducible apply State.Keeps.ite)

theorem execDramReread_keeps {a s : State} (h : a.Keeps s) (x0 x1) :
    OutHolds a.Keeps (execDramReread x0 x1 s) := by
  unfold execDramReread
  repeat' (first
      | with_reducible assumption | dsimp only | with_reducible apply OutHolds.mk | with_reducible apply State.modChan_keeps
      | with_reducible apply State.scrubCell_keeps | with_reducible apply State.demandRead_keeps
      | with_reducible apply State.Keeps.ite | split)

theorem execMemWrite_keeps {a s : State} (h : a.Keeps s) (x0 x1 x2 x3 x4 x5) :
    OutHolds a.Keeps (execMemWrite x0 x1 x2 x3 x4 x5 s) := by
  unfold execMemWrite
  repeat' (first
      | with_reducible assumption | dsimp only | with_reducible apply OutHolds.mk | with_reducible apply State.chanTouch_keeps
      | with_reducible apply State.modChan_keeps | with_reducible apply State.setDrains_keeps
      | with_reducible apply State.Keeps.ite)

theorem execPartialWrite_keeps {a s : State} (h : a.Keeps s) (x0 x1 x2 x3 x4) :
    OutHolds a.Keeps (execPartialWrite x0 x1 x2 x3 x4 s) := by
  unfold execPartialWrite
  repeat' (first
      | with_reducible assumption | with_reducible apply OutHolds.mk | with_reducible apply State.memPartial_keeps
      | with_reducible apply State.Keeps.ite)

theorem execMergeEntryClose_keeps {a s : State} (h : a.Keeps s) (x0 x1 x2) :
    OutHolds a.Keeps (execMergeEntryClose x0 x1 x2 s) := by
  unfold execMergeEntryClose
  repeat' (first
      | with_reducible assumption | dsimp only | with_reducible apply OutHolds.mk
      | with_reducible apply State.mergeClose_keeps | with_reducible apply State.countCorrected_keeps
      | with_reducible apply State.memWrite_keeps | with_reducible apply State.modChan_keeps
      | with_reducible apply State.declareBad_keeps | with_reducible apply State.Keeps.ite | split)

theorem execCommandSlot_keeps {a s : State} (h : a.Keeps s) (x0) :
    OutHolds a.Keeps (execCommandSlot x0 s) := by
  unfold execCommandSlot
  repeat' (first
      | with_reducible assumption | with_reducible apply OutHolds.mk | with_reducible apply State.slot_keeps
      | with_reducible apply State.Keeps.ite)

theorem execRowIdleClose_keeps {a s : State} (h : a.Keeps s) (x0 x1) :
    OutHolds a.Keeps (execRowIdleClose x0 x1 s) := by
  unfold execRowIdleClose
  repeat' (first
      | with_reducible assumption | with_reducible apply OutHolds.mk | with_reducible apply State.modChan_keeps
      | with_reducible apply State.Keeps.ite)

theorem execRefreshBank_keeps {a s : State} (h : a.Keeps s) (x0 x1) :
    OutHolds a.Keeps (execRefreshBank x0 x1 s) := by
  unfold execRefreshBank
  repeat' (first
      | with_reducible assumption | with_reducible apply OutHolds.mk | with_reducible apply State.modChan_keeps
      | with_reducible apply State.Keeps.ite)

theorem execCalibrationWindowOpen_keeps {a s : State} (h : a.Keeps s) (x0) :
    OutHolds a.Keeps (execCalibrationWindowOpen x0 s) := by
  unfold execCalibrationWindowOpen
  repeat' (first
      | with_reducible assumption | with_reducible apply OutHolds.mk | with_reducible apply State.modChan_keeps
      | with_reducible apply State.Keeps.ite)

theorem execCalibrationWindowClose_keeps {a s : State} (h : a.Keeps s) (x0) :
    OutHolds a.Keeps (execCalibrationWindowClose x0 s) := by
  unfold execCalibrationWindowClose
  repeat' (first
      | with_reducible assumption | with_reducible apply OutHolds.mk | with_reducible apply State.modChan_keeps
      | with_reducible apply State.Keeps.ite)

theorem execWriteCrcError_keeps {a s : State} (h : a.Keeps s) (x0 x1) :
    OutHolds a.Keeps (execWriteCrcError x0 x1 s) := by
  unfold execWriteCrcError
  repeat' (first
      | with_reducible assumption | dsimp only | with_reducible apply OutHolds.mk | with_reducible apply State.modChan_keeps
      | with_reducible apply State.post_keeps | with_reducible apply State.linkRecord_keeps
      | with_reducible apply State.dramStore_keeps | with_reducible apply State.startRetrain_keeps
      | with_reducible apply State.Keeps.ite)

theorem execRetrainChan_keeps {a s : State} (h : a.Keeps s) (x0) :
    OutHolds a.Keeps (execRetrainChan x0 s) := by
  unfold execRetrainChan
  repeat' (first
      | with_reducible assumption | with_reducible apply OutHolds.mk | with_reducible apply State.startRetrain_keeps
      | with_reducible apply State.Keeps.ite)

theorem execRetrainComplete_keeps {a s : State} (h : a.Keeps s) (x0 x1) :
    OutHolds a.Keeps (execRetrainComplete x0 x1 s) := by
  unfold execRetrainComplete
  repeat' (first
      | with_reducible assumption | dsimp only | with_reducible apply OutHolds.mk
      | with_reducible apply State.linkRecord_keeps | with_reducible apply State.modChan_keeps
      | with_reducible apply State.fenceChan_keeps | with_reducible apply State.Keeps.ite)

theorem execChannelIdleRet_keeps {a s : State} (h : a.Keeps s) (x0) :
    OutHolds a.Keeps (execChannelIdleRet x0 s) := by
  unfold execChannelIdleRet
  repeat' (first
      | with_reducible assumption | dsimp only | with_reducible apply OutHolds.mk | with_reducible apply State.modDom_keeps
      | with_reducible apply State.modChan_keeps | with_reducible apply State.Keeps.ite)

theorem execChannelWake_keeps {a s : State} (h : a.Keeps s) (x0) :
    OutHolds a.Keeps (execChannelWake x0 s) := by
  unfold execChannelWake
  repeat' (first
      | with_reducible assumption | with_reducible apply OutHolds.mk | with_reducible apply State.chanTouch_keeps
      | with_reducible apply State.Keeps.ite)

theorem execTrainChan_keeps {a s : State} (h : a.Keeps s) (x0 x1) :
    OutHolds a.Keeps (execTrainChan x0 x1 s) := by
  unfold execTrainChan
  repeat' (first
      | with_reducible assumption | dsimp only | with_reducible apply OutHolds.mk
      | with_reducible apply State.dimmRecords_keeps | with_reducible apply State.modChan_keeps
      | with_reducible apply State.fallbacks_keeps | with_reducible apply State.layOut_keeps
      | with_reducible apply State.applyRows_keeps | with_reducible apply State.restoreMarks_keeps
      | with_reducible apply State.Keeps.ite | split)

theorem State.filled_keeps {a t : State} (h : a.Keeps t) {k : W512} {l : List (Nat × W512)} :
    a.Keeps { t with boot := { t.boot with filled := true }, dram := [], fillKey := k, lineKey := l } :=
  h.trans ⟨rfl, rfl, le_refl _, le_refl _, fun _ => le_refl _, fun _ h => h, le_refl _, fun m => ⟨rfl, m.2⟩⟩

theorem execFillComplete_keeps {a s : State} (h : a.Keeps s) : OutHolds a.Keeps (execFillComplete s) := by
  unfold execFillComplete
  apply OutHolds.mk
  dsimp only
  split
  · exact h
  · exact State.filled_keeps (State.Keeps.foldl h (fun _ _ hs => State.modChan_keeps hs _ _))

theorem execScrubPassStart_keeps {a s : State} (h : a.Keeps s) (x0) :
    OutHolds a.Keeps (execScrubPassStart x0 s) := by
  unfold execScrubPassStart
  repeat' (first
      | with_reducible assumption | dsimp only | with_reducible apply OutHolds.mk | with_reducible apply State.modChan_keeps
      | with_reducible apply State.Keeps.ite)

theorem execScrubRead_keeps {a s : State} (h : a.Keeps s) (x0 x1) :
    OutHolds a.Keeps (execScrubRead x0 x1 s) := by
  unfold execScrubRead
  repeat' (first
      | with_reducible assumption | with_reducible apply OutHolds.mk | with_reducible apply State.scrubNext_keeps
      | with_reducible apply State.Keeps.ite)

theorem execDeviceBankBucketLeak_keeps {a s : State} (h : a.Keeps s) (x0) :
    OutHolds a.Keeps (execDeviceBankBucketLeak x0 s) := by
  unfold execDeviceBankBucketLeak
  repeat' (first
      | with_reducible assumption | dsimp only | with_reducible apply OutHolds.mk | with_reducible apply State.modChan_keeps
      | with_reducible apply State.Keeps.ite)

theorem execMarkConfirm_keeps {a s : State} (h : a.Keeps s) (x0) :
    OutHolds a.Keeps (execMarkConfirm x0 s) := by
  unfold execMarkConfirm
  repeat' (first
      | with_reducible assumption | dsimp only | with_reducible apply OutHolds.mk
      | with_reducible apply State.chanRecord_keeps | with_reducible apply State.modChan_keeps
      | with_reducible apply State.addMark_keeps | with_reducible apply State.Keeps.ite)

theorem execProposalReject_keeps {a s : State} (h : a.Keeps s) (x0) :
    OutHolds a.Keeps (execProposalReject x0 s) := by
  unfold execProposalReject
  repeat' (first
      | with_reducible assumption | with_reducible apply OutHolds.mk | with_reducible apply State.modChan_keeps
      | with_reducible apply State.Keeps.ite)

theorem execRowRepairLive_keeps {a s : State} (h : a.Keeps s) (x0 x1 x2) :
    OutHolds a.Keeps (execRowRepairLive x0 x1 x2 s) := by
  unfold execRowRepairLive
  repeat' (first
      | with_reducible assumption | intro _ | dsimp only | with_reducible apply OutHolds.mk
      | with_reducible apply State.modChan_keeps | with_reducible apply State.dramStore_keeps
      | with_reducible apply State.chanRecord_keeps | fail_if_no_progress (with_reducible apply State.Keeps.upd)
      | with_reducible apply State.Keeps.foldl | with_reducible apply State.Keeps.ite | split)

theorem execKeyLoad_keeps {a s : State} (h : a.Keeps s) : OutHolds a.Keeps (execKeyLoad s) := by
  unfold execKeyLoad
  repeat' (first
      | with_reducible assumption | with_reducible apply OutHolds.mk | with_reducible apply State.keyCommand_keeps
      | with_reducible apply State.Keeps.ite)

theorem execKeyGenerate_keeps {a s : State} (h : a.Keeps s) : OutHolds a.Keeps (execKeyGenerate s) := by
  unfold execKeyGenerate
  repeat' (first
      | with_reducible assumption | with_reducible apply OutHolds.mk | with_reducible apply State.keyCommand_keeps
      | with_reducible apply State.Keeps.ite)

theorem execKeyNull_keeps {a s : State} (h : a.Keeps s) : OutHolds a.Keeps (execKeyNull s) := by
  unfold execKeyNull
  repeat' (first
      | with_reducible assumption | with_reducible apply OutHolds.mk | with_reducible apply State.keyCommand_keeps
      | with_reducible apply State.Keeps.ite)

theorem execKeyCommandComplete_keeps {a s : State} (h : a.Keeps s) :
    OutHolds a.Keeps (execKeyCommandComplete s) := by
  unfold execKeyCommandComplete
  repeat' (first
      | with_reducible assumption | intro _ | dsimp only | with_reducible apply OutHolds.mk
      | with_reducible apply State.mergeClose_keeps | fail_if_no_progress (with_reducible apply State.Keeps.upd)
      | with_reducible apply State.Keeps.foldl | with_reducible apply State.Keeps.ite | split)

theorem execRouterPost_keeps {a s : State} (h : a.Keeps s) (x0) : OutHolds a.Keeps (execRouterPost x0 s) := by
  unfold execRouterPost
  repeat' (first
      | with_reducible assumption | with_reducible apply OutHolds.mk | with_reducible apply State.post_keeps
      | with_reducible apply State.Keeps.ite)

theorem execMsiMessage_keeps {a s : State} (h : a.Keeps s) (x0 x1 x2 x3) :
    OutHolds a.Keeps (execMsiMessage x0 x1 x2 x3 s) := by
  unfold execMsiMessage
  repeat' (first
      | with_reducible assumption | with_reducible apply OutHolds.mk | with_reducible apply State.message_keeps
      | with_reducible apply State.Keeps.ite)

theorem execHeldPostDelivery_keeps {a s : State} (h : a.Keeps s) (x0 x1) :
    OutHolds a.Keeps (execHeldPostDelivery x0 x1 s) := by
  unfold execHeldPostDelivery
  repeat' (first
      | with_reducible assumption | with_reducible apply OutHolds.mk | with_reducible apply State.deliverHeld_keeps
      | with_reducible apply State.Keeps.ite)

theorem execRouteWrite_keeps {a s : State} (h : a.Keeps s) (x0 x1 x2) :
    OutHolds a.Keeps (execRouteWrite x0 x1 x2 s) := by
  unfold execRouteWrite
  repeat' (first
      | with_reducible assumption | with_reducible apply OutHolds.mk | with_reducible apply State.writeRoute_keeps
      | with_reducible apply State.Keeps.ite)

theorem execLogRecordWrite_keeps {a s : State} (h : a.Keeps s) (x0 x1) :
    OutHolds a.Keeps (execLogRecordWrite x0 x1 s) := by
  unfold execLogRecordWrite
  repeat' (first
      | with_reducible assumption | with_reducible apply OutHolds.mk | with_reducible apply State.logRecord_keeps
      | with_reducible apply State.Keeps.ite)

theorem execLogHtailWrite_keeps {a s : State} (h : a.Keeps s) (x0 x1) :
    OutHolds a.Keeps (execLogHtailWrite x0 x1 s) := by
  unfold execLogHtailWrite
  repeat' (first
      | with_reducible assumption | with_reducible apply OutHolds.mk | with_reducible apply State.modLog_keeps
      | with_reducible apply State.Keeps.ite)

theorem execLogFldPointerWrite_keeps {a s : State} (h : a.Keeps s) (x0 x1) :
    OutHolds a.Keeps (execLogFldPointerWrite x0 x1 s) := by
  unfold execLogFldPointerWrite
  repeat' (first
      | with_reducible assumption | with_reducible apply OutHolds.mk | with_reducible apply State.modLog_keeps
      | with_reducible apply State.Keeps.ite | split)

theorem execMeshFlitError_keeps {a s : State} (h : a.Keeps s) (x0 x1 x2 x3) :
    OutHolds a.Keeps (execMeshFlitError x0 x1 x2 x3 s) := by
  unfold execMeshFlitError
  repeat' (first
      | with_reducible assumption | dsimp only | with_reducible apply OutHolds.mk | with_reducible apply State.record_keeps
      | with_reducible apply State.chipFatal_keeps | with_reducible apply State.Keeps.ite | split)

theorem execDieLinkFlitReceive_keeps {a s : State} (h : a.Keeps s) (x0 x1 x2) :
    OutHolds a.Keeps (execDieLinkFlitReceive x0 x1 x2 s) := by
  unfold execDieLinkFlitReceive
  repeat' (first
      | with_reducible assumption | dsimp only | with_reducible apply OutHolds.mk | with_reducible apply State.modRegion_keeps
      | with_reducible apply State.record_keeps | fail_if_no_progress (with_reducible apply State.Keeps.upd)
      | with_reducible apply State.Keeps.ite)

theorem execLinkRetrainComplete_keeps {a s : State} (h : a.Keeps s) (x0 x1 x2 x3) :
    OutHolds a.Keeps (execLinkRetrainComplete x0 x1 x2 x3 s) := by
  unfold execLinkRetrainComplete
  repeat' (first
      | with_reducible assumption | dsimp only | with_reducible apply OutHolds.mk | with_reducible apply State.record_keeps
      | with_reducible apply State.modRegion_keeps | with_reducible apply State.chipFatal_keeps
      | with_reducible apply State.Keeps.ite)

theorem execLeakyBucketLeak_keeps {a s : State} (h : a.Keeps s) (x0) :
    OutHolds a.Keeps (execLeakyBucketLeak x0 s) := by
  unfold execLeakyBucketLeak
  repeat' (first
      | with_reducible assumption | with_reducible apply OutHolds.mk | with_reducible apply State.modBlock_keeps
      | with_reducible apply State.modRegion_keeps | with_reducible apply State.modChan_keeps
      | with_reducible apply State.modPort_keeps | with_reducible apply State.Keeps.ite | split)

theorem execStateErrorDetected_keeps {a s : State} (h : a.Keeps s) (x0) :
    OutHolds a.Keeps (execStateErrorDetected x0 s) := by
  unfold execStateErrorDetected
  repeat' (first
      | with_reducible assumption | intro _ | dsimp only | with_reducible apply OutHolds.mk
      | with_reducible apply State.lossRecord_keeps | with_reducible apply State.stopCore_keeps
      | with_reducible apply State.poisonLine_keeps | with_reducible apply State.record_keeps
      | with_reducible apply State.delAct_keeps | with_reducible apply State.fenceBlock_keeps
      | with_reducible apply State.fenceChan_keeps | with_reducible apply State.dpcEnter_keeps
      | with_reducible apply State.contain_keeps | with_reducible apply State.fenceIotu_keeps
      | with_reducible apply State.modRegion_keeps | with_reducible apply State.chipFatal_keeps
      | fail_if_no_progress (with_reducible apply State.Keeps.upd) | with_reducible apply State.Keeps.foldl
      | with_reducible apply State.Keeps.ite | split)

theorem execMorningRestartComplete_keeps {a s : State} (h : a.Keeps s) (x0) :
    OutHolds a.Keeps (execMorningRestartComplete x0 s) := by
  unfold execMorningRestartComplete
  repeat' (first
      | with_reducible assumption | with_reducible apply OutHolds.mk | with_reducible apply State.morningBack_keeps
      | with_reducible apply State.Keeps.ite)

theorem execChipFatalStop_keeps {a s : State} (h : a.Keeps s) (x0 x1) :
    OutHolds a.Keeps (execChipFatalStop x0 x1 s) := by
  unfold execChipFatalStop
  repeat' (first
      | with_reducible assumption | with_reducible apply OutHolds.mk | with_reducible apply State.chipFatal_keeps
      | with_reducible apply State.Keeps.ite)

theorem execPllLossOfLock_keeps {a s : State} (h : a.Keeps s) : OutHolds a.Keeps (execPllLossOfLock s) := by
  unfold execPllLossOfLock
  repeat' (first
      | with_reducible assumption | with_reducible apply OutHolds.mk | with_reducible apply State.chipFatal_keeps
      | with_reducible apply State.modSlate_keeps | with_reducible apply State.lbEndAll_keeps
      | with_reducible apply State.Keeps.ite)

theorem execPllLock_keeps {a s : State} (h : a.Keeps s) : OutHolds a.Keeps (execPllLock s) := by
  unfold execPllLock
  repeat' (first
      | with_reducible assumption | intro _ | dsimp only | with_reducible apply OutHolds.mk
      | with_reducible apply State.modDom_keeps | with_reducible apply State.lbistAtStart_keeps
      | fail_if_no_progress (with_reducible apply State.Keeps.updBoot; on_goal 2 => exact ⟨rfl, rfl, rfl, rfl⟩)
      | with_reducible apply State.Keeps.foldl | with_reducible apply State.Keeps.ite)

theorem execSlotSelection_keeps {a s : State} (h : a.Keeps s) : OutHolds a.Keeps (execSlotSelection s) := by
  unfold execSlotSelection
  repeat' (first
      | with_reducible assumption | dsimp only | with_reducible apply OutHolds.mk | with_reducible apply State.draw_keeps
      | with_reducible apply State.trySlots_keeps | with_reducible apply State.record_keeps
      | (with_reducible apply State.Keeps.modBoot; on_goal 2 => exact fun _ => ⟨rfl, rfl, rfl, rfl⟩)
      | with_reducible apply State.placeMonitor_keeps | with_reducible apply State.bringUp_keeps
      | fail_if_no_progress (with_reducible apply State.Keeps.updBoot; on_goal 2 => exact ⟨rfl, rfl, rfl, rfl⟩)
      | with_reducible refine State.Keeps.snd (by assumption) ?_ | with_reducible apply State.Keeps.ite | split)

theorem execPhaseOverrun_keeps {a s : State} (h : a.Keeps s) : OutHolds a.Keeps (execPhaseOverrun s) := by
  unfold execPhaseOverrun
  repeat' (first
      | with_reducible assumption | with_reducible apply OutHolds.mk | with_reducible apply State.record_keeps
      | with_reducible apply State.Keeps.ite)

theorem execHandover_keeps {a s : State} (h : a.Keeps s) : OutHolds a.Keeps (execHandover s) := by
  unfold execHandover
  repeat' (first | with_reducible assumption | with_reducible apply OutHolds.mk | with_reducible apply State.handover_keeps)

theorem execReleaseBoot_keeps {a s : State} (h : a.Keeps s) : OutHolds a.Keeps (execReleaseBoot s) := by
  unfold execReleaseBoot
  repeat' (first | with_reducible assumption | with_reducible apply OutHolds.mk | with_reducible apply State.releasePhase_keeps)

theorem execLockBoot_keeps {a s : State} (h : a.Keeps s) : OutHolds a.Keeps (execLockBoot s) := by
  unfold execLockBoot
  repeat' (first
      | with_reducible assumption | with_reducible apply OutHolds.mk | with_reducible apply State.bootLock_keeps
      | with_reducible apply State.Keeps.ite)

theorem execBootLockTimeout_keeps {a s : State} (h : a.Keeps s) :
    OutHolds a.Keeps (execBootLockTimeout s) := by
  unfold execBootLockTimeout
  repeat' (first
      | with_reducible assumption | with_reducible apply OutHolds.mk
      | (with_reducible apply State.Keeps.modBoot; on_goal 2 => exact fun _ => ⟨rfl, rfl, rfl, rfl⟩)
      | with_reducible apply State.Keeps.ite)

theorem execReleaseComplete_keeps {a s : State} (h : a.Keeps s) :
    OutHolds a.Keeps (execReleaseComplete s) := by
  unfold execReleaseComplete
  repeat' (first
      | with_reducible assumption | intro _ | dsimp only | with_reducible apply OutHolds.mk
      | with_reducible apply State.modDom_keeps | with_reducible apply State.modRegion_keeps
      | with_reducible apply State.vesper_keeps | with_reducible apply State.setCore_keeps
      | (with_reducible apply State.Keeps.modBoot; on_goal 2 => exact fun _ => ⟨rfl, rfl, rfl, rfl⟩)
      | with_reducible apply State.Keeps.foldl | with_reducible apply State.Keeps.ite | split)

theorem execStartDevice_keeps {a s : State} (h : a.Keeps s) : OutHolds a.Keeps (execStartDevice s) := by
  unfold execStartDevice
  repeat' (first
      | with_reducible assumption | with_reducible apply OutHolds.mk | with_reducible apply State.begin_keeps
      | (with_reducible apply State.Keeps.modBoot; on_goal 2 => exact fun _ => ⟨rfl, rfl, rfl, rfl⟩)
      | with_reducible apply State.Keeps.ite)

theorem execImageSessionOpen_keeps {a s : State} (h : a.Keeps s) (x0) :
    OutHolds a.Keeps (execImageSessionOpen x0 s) := by
  unfold execImageSessionOpen
  repeat' (first
      | with_reducible assumption | with_reducible apply OutHolds.mk | with_reducible apply State.sessionOpen_keeps
      | with_reducible apply State.Keeps.ite)

theorem execImageHeader_keeps {a s : State} (h : a.Keeps s) (x0) :
    OutHolds a.Keeps (execImageHeader x0 s) := by
  unfold execImageHeader
  repeat' (first
      | with_reducible assumption | with_reducible apply OutHolds.mk | with_reducible apply State.sessionHeader_keeps
      | with_reducible apply State.Keeps.ite)

theorem execImageBody_keeps {a s : State} (h : a.Keeps s) (x0) : OutHolds a.Keeps (execImageBody x0 s) := by
  unfold execImageBody
  repeat' (first
      | with_reducible assumption | with_reducible apply OutHolds.mk | with_reducible apply State.sessionBody_keeps
      | with_reducible apply State.Keeps.ite)

theorem execFinalizeImg_keeps {a s : State} (h : a.Keeps s) : OutHolds a.Keeps (execFinalizeImg s) := by
  unfold execFinalizeImg
  repeat' (first
      | with_reducible assumption | with_reducible apply OutHolds.mk | with_reducible apply State.finalizeSession_keeps
      | with_reducible apply State.Keeps.ite)

theorem execLiveRestartComplete_keeps {a s : State} (h : a.Keeps s) :
    OutHolds a.Keeps (execLiveRestartComplete s) := by
  unfold execLiveRestartComplete
  repeat' (first
      | with_reducible assumption | dsimp only | with_reducible apply OutHolds.mk | with_reducible apply State.modRegion_keeps
      | with_reducible apply State.morningBack_keeps | with_reducible apply State.vesper_keeps
      | (with_reducible apply State.Keeps.modBoot; on_goal 2 => exact fun _ => ⟨rfl, rfl, rfl, rfl⟩)
      | with_reducible apply State.record_keeps | with_reducible apply State.post_keeps
      | with_reducible apply State.trimStore_keeps | with_reducible apply State.Keeps.ite)

theorem execMonitorPlacement_keeps {a s : State} (h : a.Keeps s) :
    OutHolds a.Keeps (execMonitorPlacement s) := by
  unfold execMonitorPlacement
  repeat' (first
      | with_reducible assumption | dsimp only | with_reducible apply OutHolds.mk | with_reducible apply State.orWait_keeps
      | with_reducible apply State.placeNow_keeps
      | (with_reducible apply State.Keeps.modBoot; on_goal 2 => exact fun _ => ⟨rfl, rfl, rfl, rfl⟩)
      | with_reducible apply State.Keeps.ite)

theorem execNonceSign_keeps {a s : State} (h : a.Keeps s) (x0 x1) :
    OutHolds a.Keeps (execNonceSign x0 x1 s) := by
  unfold execNonceSign
  repeat' (first
      | with_reducible assumption | with_reducible apply OutHolds.mk | with_reducible apply State.signNonce_keeps
      | with_reducible apply State.Keeps.ite)

theorem execLbistDemandStart_keeps {a s : State} (h : a.Keeps s) (x0 x1) :
    OutHolds a.Keeps (execLbistDemandStart x0 x1 s) := by
  unfold execLbistDemandStart
  repeat' (first
      | with_reducible assumption | with_reducible apply OutHolds.mk | with_reducible apply State.lbistStart_keeps
      | with_reducible apply State.Keeps.getD | with_reducible apply State.Keeps.ite)

theorem execLbistAbort_keeps {a s : State} (h : a.Keeps s) (x0 x1) :
    OutHolds a.Keeps (execLbistAbort x0 x1 s) := by
  unfold execLbistAbort
  repeat' (first
      | with_reducible assumption | with_reducible apply OutHolds.mk | with_reducible apply State.lbistCut_keeps
      | with_reducible apply State.Keeps.ite)

theorem execLbistPatternTimeout_keeps {a s : State} (h : a.Keeps s) (x0 x1) :
    OutHolds a.Keeps (execLbistPatternTimeout x0 x1 s) := by
  unfold execLbistPatternTimeout
  repeat' (first
      | with_reducible assumption | with_reducible apply OutHolds.mk | with_reducible apply State.lbistCut_keeps
      | with_reducible apply State.Keeps.ite)

theorem execLbistRunEnd_keeps {a s : State} (h : a.Keeps s) (x0 x1 x2 x3 x4) :
    OutHolds a.Keeps (execLbistRunEnd x0 x1 x2 x3 x4 s) := by
  unfold execLbistRunEnd
  repeat' (first
      | with_reducible assumption | with_reducible apply OutHolds.mk | with_reducible apply State.lbEnd_keeps
      | with_reducible apply State.Keeps.ite)

theorem execBlockReplacementComplete_keeps {a s : State} (h : a.Keeps s) (x0) :
    OutHolds a.Keeps (execBlockReplacementComplete x0 s) := by
  unfold execBlockReplacementComplete
  repeat' (first
      | with_reducible assumption | intro _ | dsimp only | with_reducible apply OutHolds.mk
      | with_reducible apply State.modBlock_keeps | with_reducible apply State.setMap_keeps
      | with_reducible apply State.modRegion_keeps | with_reducible apply State.modDom_keeps
      | with_reducible apply State.setCore_keeps | with_reducible apply State.releaseHeld_keeps
      | with_reducible apply State.record_keeps | with_reducible apply State.Keeps.foldl
      | with_reducible apply State.Keeps.ite | split)

theorem execBlockTestEnd_keeps {a s : State} (h : a.Keeps s) (x0 x1 x2 x3) :
    OutHolds a.Keeps (execBlockTestEnd x0 x1 x2 x3 s) := by
  unfold execBlockTestEnd
  repeat' (first
      | with_reducible assumption | dsimp only | with_reducible apply OutHolds.mk | with_reducible apply State.setMap_keeps
      | with_reducible apply State.record_keeps | fail_if_no_progress (with_reducible apply State.Keeps.upd)
      | with_reducible apply State.Keeps.ite)

theorem execIdcodeTap_keeps {a s : State} (h : a.Keeps s) : OutHolds a.Keeps (execIdcodeTap s) := by
  unfold execIdcodeTap
  repeat' (first
      | with_reducible assumption | dsimp only | with_reducible apply OutHolds.mk | with_reducible apply State.emit_keeps
      | fail_if_no_progress (with_reducible apply State.Keeps.upd) | with_reducible apply State.Keeps.ite)

theorem execClearTap_keeps {a s : State} (h : a.Keeps s) : OutHolds a.Keeps (execClearTap s) := by
  unfold execClearTap
  repeat' (first
      | with_reducible assumption | with_reducible apply OutHolds.mk | with_reducible apply State.modSlate_keeps
      | with_reducible apply State.zeroize_keeps | with_reducible apply State.Keeps.ite)

theorem execScanTap_keeps {a s : State} (h : a.Keeps s) : OutHolds a.Keeps (execScanTap s) := by
  unfold execScanTap
  repeat' (first
      | with_reducible assumption | dsimp only | with_reducible apply OutHolds.mk | with_reducible apply State.modSlate_keeps
      | with_reducible apply State.zeroize_keeps | fail_if_no_progress (with_reducible apply State.Keeps.upd)
      | with_reducible apply State.Keeps.ite)

theorem execBypassTap_keeps {a s : State} (h : a.Keeps s) (x0) : OutHolds a.Keeps (execBypassTap x0 s) := by
  unfold execBypassTap
  repeat' (first
      | with_reducible assumption | with_reducible apply OutHolds.mk | with_reducible apply State.modSlate_keeps
      | with_reducible apply State.Keeps.ite)

theorem execSlateRead_keeps {a s : State} (h : a.Keeps s) (x0 x1 x2 x3 x4) :
    OutHolds a.Keeps (execSlateRead x0 x1 x2 x3 x4 s) := by
  unfold execSlateRead
  repeat' (first | with_reducible assumption | with_reducible apply OutHolds.mk | with_reducible apply State.slateSend_keeps)

theorem execSlateWrite_keeps {a s : State} (h : a.Keeps s) (x0 x1 x2 x3 x4) :
    OutHolds a.Keeps (execSlateWrite x0 x1 x2 x3 x4 s) := by
  unfold execSlateWrite
  repeat' (first | with_reducible assumption | with_reducible apply OutHolds.mk | with_reducible apply State.slateSend_keeps)

theorem execSlateStage_keeps {a s : State} (h : a.Keeps s) (x0 x1 x2 x3 x4) :
    OutHolds a.Keeps (execSlateStage x0 x1 x2 x3 x4 s) := by
  unfold execSlateStage
  repeat' (first | with_reducible assumption | with_reducible apply OutHolds.mk | with_reducible apply State.slateSend_keeps)

theorem execSlateCommit_keeps {a s : State} (h : a.Keeps s) (x0 x1 x2) :
    OutHolds a.Keeps (execSlateCommit x0 x1 x2 s) := by
  unfold execSlateCommit
  repeat' (first | with_reducible assumption | with_reducible apply OutHolds.mk | with_reducible apply State.slateSend_keeps)

theorem execSlateDiscard_keeps {a s : State} (h : a.Keeps s) (x0 x1 x2) :
    OutHolds a.Keeps (execSlateDiscard x0 x1 x2 s) := by
  unfold execSlateDiscard
  repeat' (first | with_reducible assumption | with_reducible apply OutHolds.mk | with_reducible apply State.slateSend_keeps)

theorem execSnapshotTimeout_keeps {a s : State} (h : a.Keeps s) (x0) :
    OutHolds a.Keeps (execSnapshotTimeout x0 s) := by
  unfold execSnapshotTimeout
  repeat' (first
      | with_reducible assumption | with_reducible apply OutHolds.mk | with_reducible apply State.modStage_keeps
      | with_reducible apply State.Keeps.ite)

theorem execWriteBufferTimeout_keeps {a s : State} (h : a.Keeps s) (x0) :
    OutHolds a.Keeps (execWriteBufferTimeout x0 s) := by
  unfold execWriteBufferTimeout
  repeat' (first
      | with_reducible assumption | with_reducible apply OutHolds.mk | with_reducible apply State.modStage_keeps
      | with_reducible apply State.Keeps.ite)

theorem execSpiReadStatus_keeps {a s : State} (h : a.Keeps s) : OutHolds a.Keeps (execSpiReadStatus s) := by
  unfold execSpiReadStatus
  repeat' (first
      | with_reducible assumption | with_reducible apply OutHolds.mk | with_reducible apply State.modSlate_keeps
      | with_reducible apply State.emit_keeps | with_reducible apply State.Keeps.ite)

theorem execSpiWriteMessage_keeps {a s : State} (h : a.Keeps s) (x0) :
    OutHolds a.Keeps (execSpiWriteMessage x0 s) := by
  unfold execSpiWriteMessage
  repeat' (first
      | with_reducible assumption | with_reducible apply OutHolds.mk | with_reducible apply State.svcMessage_keeps
      | with_reducible apply State.Keeps.ite)

theorem execSpiWriteMessageQuad_keeps {a s : State} (h : a.Keeps s) (x0) :
    OutHolds a.Keeps (execSpiWriteMessageQuad x0 s) := by
  unfold execSpiWriteMessageQuad
  repeat' (first
      | with_reducible assumption | with_reducible apply OutHolds.mk | with_reducible apply State.svcMessage_keeps
      | with_reducible apply State.Keeps.ite)

theorem execSpiReadResponse_keeps {a s : State} (h : a.Keeps s) (x0) :
    OutHolds a.Keeps (execSpiReadResponse x0 s) := by
  unfold execSpiReadResponse
  repeat' (first
      | with_reducible assumption | with_reducible apply OutHolds.mk | with_reducible apply State.svcRead_keeps
      | with_reducible apply State.Keeps.ite)

theorem execSpiReadResponseQuad_keeps {a s : State} (h : a.Keeps s) (x0) :
    OutHolds a.Keeps (execSpiReadResponseQuad x0 s) := by
  unfold execSpiReadResponseQuad
  repeat' (first
      | with_reducible assumption | with_reducible apply OutHolds.mk | with_reducible apply State.svcRead_keeps
      | with_reducible apply State.Keeps.ite)

theorem execSpiTransactionNak_keeps {a s : State} (h : a.Keeps s) (x0 x1) :
    OutHolds a.Keeps (execSpiTransactionNak x0 x1 s) := by
  unfold execSpiTransactionNak
  repeat' (first
      | with_reducible assumption | with_reducible apply OutHolds.mk | with_reducible apply State.svcRefuse_keeps
      | with_reducible apply State.Keeps.ite)

theorem execFieldFrame_keeps {a s : State} (h : a.Keeps s) (x0) : OutHolds a.Keeps (execFieldFrame x0 s) := by
  unfold execFieldFrame
  repeat' (first
      | with_reducible assumption | with_reducible apply OutHolds.mk | with_reducible apply State.fieldRequest_keeps
      | with_reducible apply State.Keeps.ite)

theorem execBusError_keeps {a s : State} (h : a.Keeps s) (x0 x1) :
    OutHolds a.Keeps (execBusError x0 x1 s) := by
  unfold execBusError
  repeat' (first
      | with_reducible assumption | with_reducible apply OutHolds.mk | with_reducible apply State.modSlate_keeps
      | with_reducible apply State.Keeps.ite)

theorem execBusOffRecovery_keeps {a s : State} (h : a.Keeps s) : OutHolds a.Keeps (execBusOffRecovery s) := by
  unfold execBusOffRecovery
  repeat' (first
      | with_reducible assumption | dsimp only | with_reducible apply OutHolds.mk | with_reducible apply State.record_keeps
      | with_reducible apply State.modSlate_keeps | with_reducible apply State.Keeps.ite)

theorem execCanFdClockSwitch_keeps {a s : State} (h : a.Keeps s) :
    OutHolds a.Keeps (execCanFdClockSwitch s) := by
  unfold execCanFdClockSwitch
  repeat' (first
      | with_reducible assumption | with_reducible apply OutHolds.mk | with_reducible apply State.modSlate_keeps
      | with_reducible apply State.Keeps.ite)

theorem execHostMailboxGo_keeps {a s : State} (h : a.Keeps s) (x0) :
    OutHolds a.Keeps (execHostMailboxGo x0 s) := by
  unfold execHostMailboxGo
  repeat' (first
      | with_reducible assumption | with_reducible apply OutHolds.mk | with_reducible apply State.hostMessage_keeps
      | with_reducible apply State.Keeps.ite)

theorem execSlateTap_keeps {a s : State} (h : a.Keeps s) (x0 x1) :
    OutHolds a.Keeps (execSlateTap x0 x1 s) := by
  unfold execSlateTap
  repeat' (first
      | with_reducible assumption | dsimp only | with_reducible apply OutHolds.mk | with_reducible apply State.modSlate_keeps
      | with_reducible apply State.emit_keeps | with_reducible apply State.dbgMessage_keeps
      | with_reducible apply State.Keeps.ite)

theorem execResetNAssert_keeps {a s : State} (h : a.Keeps s) : OutHolds a.Keeps (execResetNAssert s) := by
  unfold execResetNAssert
  repeat' (first
      | with_reducible assumption | with_reducible apply OutHolds.mk | with_reducible apply State.resetKeep_keeps
      | with_reducible apply State.Keeps.ite)

theorem execPowerOn_keeps {a s : State} (h : a.Keeps s) : OutHolds a.Keeps (execPowerOn s) := by
  unfold execPowerOn
  repeat' (first
      | with_reducible assumption | dsimp only | with_reducible apply OutHolds.mk | with_reducible apply State.resetKeep_keeps
      | fail_if_no_progress (with_reducible apply State.Keeps.upd) | with_reducible apply State.Keeps.ite)

theorem execPowerRemoved_keeps {a s : State} (h : a.Keeps s) : OutHolds a.Keeps (execPowerRemoved s) := by
  unfold execPowerRemoved
  repeat' (first
      | with_reducible assumption | dsimp only | with_reducible apply OutHolds.mk | with_reducible apply State.resetKeep_keeps
      | fail_if_no_progress (with_reducible apply State.Keeps.upd) | with_reducible apply State.Keeps.ite)

theorem execRailRangeChange_keeps {a s : State} (h : a.Keeps s) (x0 x1) :
    OutHolds a.Keeps (execRailRangeChange x0 x1 s) := by
  unfold execRailRangeChange
  repeat' (first
      | with_reducible assumption | dsimp only | with_reducible apply OutHolds.mk | with_reducible apply State.pwrgoodUp_keeps
      | fail_if_no_progress (with_reducible apply State.Keeps.upd) | with_reducible apply State.Keeps.ite)

theorem execThermalTrip_keeps {a s : State} (h : a.Keeps s) (x0) :
    OutHolds a.Keeps (execThermalTrip x0 s) := by
  unfold execThermalTrip
  repeat' (first
      | with_reducible assumption | dsimp only | with_reducible apply OutHolds.mk | with_reducible apply State.chipFatal_keeps
      | fail_if_no_progress (with_reducible apply State.Keeps.upd) | with_reducible apply State.Keeps.ite)

theorem execPwrgoodLoss_keeps {a s : State} (h : a.Keeps s) : OutHolds a.Keeps (execPwrgoodLoss s) := by
  unfold execPwrgoodLoss
  repeat' (first
      | with_reducible assumption | dsimp only | with_reducible apply OutHolds.mk | with_reducible apply State.chipFatal_keeps
      | fail_if_no_progress (with_reducible apply State.Keeps.upd) | with_reducible apply State.Keeps.ite)

theorem execTickBoundary_keeps {a s : State} (h : a.Keeps s) : OutHolds a.Keeps (execTickBoundary s) := by
  unfold execTickBoundary
  repeat' (first
      | with_reducible assumption | with_reducible apply OutHolds.mk | with_reducible apply State.orWait_keeps
      | with_reducible apply State.boundary_keeps | with_reducible apply State.Keeps.ite)

theorem execActionResendRound_keeps {a s : State} (h : a.Keeps s) (x0) :
    OutHolds a.Keeps (execActionResendRound x0 s) := by
  unfold execActionResendRound
  repeat' (first
      | with_reducible assumption | with_reducible apply OutHolds.mk | with_reducible apply State.orWait_keeps
      | with_reducible apply State.resend_keeps | with_reducible apply State.Keeps.ite)

theorem execHoldLimitSlip_keeps {a s : State} (h : a.Keeps s) (x0) :
    OutHolds a.Keeps (execHoldLimitSlip x0 s) := by
  unfold execHoldLimitSlip
  repeat' (first
      | with_reducible assumption | intro _ | dsimp only | with_reducible apply OutHolds.mk
      | with_reducible apply State.slipCore_keeps | with_reducible apply State.record_keeps
      | with_reducible apply State.modInst_keeps | with_reducible apply State.Keeps.foldl
      | with_reducible apply State.Keeps.ite | split)

theorem execRegisterWrite_keeps {a s : State} (h : a.Keeps s) (x0 x1 x2) :
    OutHolds a.Keeps (execRegisterWrite x0 x1 x2 s) := by
  unfold execRegisterWrite
  repeat' (first
      | with_reducible assumption | with_reducible apply OutHolds.mk | with_reducible apply State.orWait_keeps
      | with_reducible apply State.spaceWrite_keeps | with_reducible apply State.bus0Write_keeps
      | with_reducible apply State.endpointWrite_keeps | with_reducible apply State.Keeps.ite)

theorem execLdb_keeps {a s : State} (h : a.Keeps s) (x0 x1 x2 x3) :
    OutHolds a.Keeps (execLdb x0 x1 x2 x3 s) := by
  unfold execLdb
  repeat' (first | with_reducible assumption | with_reducible apply OutHolds.mk | with_reducible apply State.loadG_keeps)

theorem execLdbu_keeps {a s : State} (h : a.Keeps s) (x0 x1 x2 x3) :
    OutHolds a.Keeps (execLdbu x0 x1 x2 x3 s) := by
  unfold execLdbu
  repeat' (first | with_reducible assumption | with_reducible apply OutHolds.mk | with_reducible apply State.loadG_keeps)

theorem execLdh_keeps {a s : State} (h : a.Keeps s) (x0 x1 x2 x3) :
    OutHolds a.Keeps (execLdh x0 x1 x2 x3 s) := by
  unfold execLdh
  repeat' (first | with_reducible assumption | with_reducible apply OutHolds.mk | with_reducible apply State.loadG_keeps)

theorem execLdhu_keeps {a s : State} (h : a.Keeps s) (x0 x1 x2 x3) :
    OutHolds a.Keeps (execLdhu x0 x1 x2 x3 s) := by
  unfold execLdhu
  repeat' (first | with_reducible assumption | with_reducible apply OutHolds.mk | with_reducible apply State.loadG_keeps)

theorem execLdw_keeps {a s : State} (h : a.Keeps s) (x0 x1 x2 x3) :
    OutHolds a.Keeps (execLdw x0 x1 x2 x3 s) := by
  unfold execLdw
  repeat' (first | with_reducible assumption | with_reducible apply OutHolds.mk | with_reducible apply State.loadG_keeps)

theorem execLdwu_keeps {a s : State} (h : a.Keeps s) (x0 x1 x2 x3) :
    OutHolds a.Keeps (execLdwu x0 x1 x2 x3 s) := by
  unfold execLdwu
  repeat' (first | with_reducible assumption | with_reducible apply OutHolds.mk | with_reducible apply State.loadG_keeps)

theorem execLdd_keeps {a s : State} (h : a.Keeps s) (x0 x1 x2 x3) :
    OutHolds a.Keeps (execLdd x0 x1 x2 x3 s) := by
  unfold execLdd
  repeat' (first | with_reducible assumption | with_reducible apply OutHolds.mk | with_reducible apply State.loadG_keeps)

theorem execLdp_keeps {a s : State} (h : a.Keeps s) (x0 x1 x2 x3) :
    OutHolds a.Keeps (execLdp x0 x1 x2 x3 s) := by
  unfold execLdp
  repeat' (first
      | with_reducible assumption | intro _ | with_reducible apply Done.Holds.mkExc | with_reducible apply OutHolds.mk
      | with_reducible apply State.issue_keeps | with_reducible apply State.loadTo_keeps | split)

theorem execLda_keeps {a s : State} (h : a.Keeps s) (x0 x1 x2 x3) :
    OutHolds a.Keeps (execLda x0 x1 x2 x3 s) := by
  unfold execLda
  repeat' (first | with_reducible assumption | with_reducible apply OutHolds.mk | with_reducible apply State.loadG_keeps)

theorem execStb_keeps {a s : State} (h : a.Keeps s) (x0 x1 x2 x3) :
    OutHolds a.Keeps (execStb x0 x1 x2 x3 s) := by
  unfold execStb
  repeat' (first | with_reducible assumption | with_reducible apply OutHolds.mk | with_reducible apply State.storeG_keeps)

theorem execSth_keeps {a s : State} (h : a.Keeps s) (x0 x1 x2 x3) :
    OutHolds a.Keeps (execSth x0 x1 x2 x3 s) := by
  unfold execSth
  repeat' (first | with_reducible assumption | with_reducible apply OutHolds.mk | with_reducible apply State.storeG_keeps)

theorem execStw_keeps {a s : State} (h : a.Keeps s) (x0 x1 x2 x3) :
    OutHolds a.Keeps (execStw x0 x1 x2 x3 s) := by
  unfold execStw
  repeat' (first | with_reducible assumption | with_reducible apply OutHolds.mk | with_reducible apply State.storeG_keeps)

theorem execStd_keeps {a s : State} (h : a.Keeps s) (x0 x1 x2 x3) :
    OutHolds a.Keeps (execStd x0 x1 x2 x3 s) := by
  unfold execStd
  repeat' (first | with_reducible assumption | with_reducible apply OutHolds.mk | with_reducible apply State.storeG_keeps)

theorem execStp_keeps {a s : State} (h : a.Keeps s) (x0 x1 x2 x3) :
    OutHolds a.Keeps (execStp x0 x1 x2 x3 s) := by
  unfold execStp
  repeat' (first
      | with_reducible assumption | intro _ | dsimp only | with_reducible apply Done.Holds.mkExc
      | with_reducible apply OutHolds.mk | with_reducible apply State.issue_keeps | with_reducible apply State.storeFrom_keeps
      | split)

theorem execStl_keeps {a s : State} (h : a.Keeps s) (x0 x1 x2 x3) :
    OutHolds a.Keeps (execStl x0 x1 x2 x3 s) := by
  unfold execStl
  repeat' (first | with_reducible assumption | with_reducible apply OutHolds.mk | with_reducible apply State.storeG_keeps)

theorem execVld_keeps {a s : State} (h : a.Keeps s) (x0 x1 x2 x3) :
    OutHolds a.Keeps (execVld x0 x1 x2 x3 s) := by
  unfold execVld
  repeat' (first
      | with_reducible assumption | intro _ | with_reducible apply OutHolds.mk | with_reducible apply State.issue_keeps
      | with_reducible apply State.loadTo_keeps)

theorem execVst_keeps {a s : State} (h : a.Keeps s) (x0 x1 x2 x3) :
    OutHolds a.Keeps (execVst x0 x1 x2 x3 s) := by
  unfold execVst
  repeat' (first
      | with_reducible assumption | intro _ | dsimp only | with_reducible apply OutHolds.mk
      | with_reducible apply State.issue_keeps | with_reducible apply State.storeFrom_keeps)

theorem execLdx_keeps {a s : State} (h : a.Keeps s) (x0 x1 x2 x3 x4 x5) :
    OutHolds a.Keeps (execLdx x0 x1 x2 x3 x4 x5 s) := by
  unfold execLdx
  repeat' (first
      | with_reducible assumption | intro _ | dsimp only | with_reducible apply Done.Holds.mkOk
      | with_reducible apply Done.Holds.mkExc | with_reducible apply Done.Holds.mkStay | with_reducible apply OutHolds.mk
      | with_reducible apply State.issue_keeps | with_reducible apply State.checkAccess_keeps
      | with_reducible apply State.drainAll_keeps | with_reducible apply State.loadHalves_keeps
      | with_reducible apply State.setCore_keeps | with_reducible refine State.Keeps.snd (by assumption) ?_
      | with_reducible refine Got.Holds.ok (by assumption) ?_ | with_reducible refine Got.Holds.exc (by assumption) ?_
      | with_reducible refine Got.Holds.stay (by assumption) ?_ | split)

theorem execStx_keeps {a s : State} (h : a.Keeps s) (x0 x1 x2 x3 x4 x5 x6) :
    OutHolds a.Keeps (execStx x0 x1 x2 x3 x4 x5 x6 s) := by
  unfold execStx
  repeat' (first
      | with_reducible assumption | intro _ | dsimp only | with_reducible apply Done.Holds.mkOk
      | with_reducible apply Done.Holds.mkExc | with_reducible apply Done.Holds.mkStay | with_reducible apply OutHolds.mk
      | with_reducible apply State.issue_keeps | with_reducible apply State.checkAccess_keeps
      | with_reducible apply State.drainAll_keeps | with_reducible apply State.writeLine_keeps
      | with_reducible apply State.commitHalves_keeps | with_reducible apply State.modCore_keeps
      | with_reducible refine State.Keeps.snd (by assumption) ?_ | with_reducible apply State.Keeps.ite | split)

theorem execSwp_keeps {a s : State} (h : a.Keeps s) (x0 x1 x2 x3 x4 x5 x6) :
    OutHolds a.Keeps (execSwp x0 x1 x2 x3 x4 x5 x6 s) := by
  unfold execSwp
  repeat' (first
      | with_reducible assumption | dsimp only | with_reducible apply OutHolds.mk | with_reducible apply State.amOp_keeps)

theorem execCas_keeps {a s : State} (h : a.Keeps s) (x0 x1 x2 x3 x4 x5 x6) :
    OutHolds a.Keeps (execCas x0 x1 x2 x3 x4 x5 x6 s) := by
  unfold execCas
  repeat' (first
      | with_reducible assumption | dsimp only | with_reducible apply OutHolds.mk | with_reducible apply State.atomic_keeps)

theorem execAmadd_keeps {a s : State} (h : a.Keeps s) (x0 x1 x2 x3 x4 x5 x6) :
    OutHolds a.Keeps (execAmadd x0 x1 x2 x3 x4 x5 x6 s) := by
  unfold execAmadd
  repeat' (first
      | with_reducible assumption | dsimp only | with_reducible apply OutHolds.mk | with_reducible apply State.amOp_keeps)

theorem execAmand_keeps {a s : State} (h : a.Keeps s) (x0 x1 x2 x3 x4 x5 x6) :
    OutHolds a.Keeps (execAmand x0 x1 x2 x3 x4 x5 x6 s) := by
  unfold execAmand
  repeat' (first
      | with_reducible assumption | dsimp only | with_reducible apply OutHolds.mk | with_reducible apply State.amOp_keeps)

theorem execAmor_keeps {a s : State} (h : a.Keeps s) (x0 x1 x2 x3 x4 x5 x6) :
    OutHolds a.Keeps (execAmor x0 x1 x2 x3 x4 x5 x6 s) := by
  unfold execAmor
  repeat' (first
      | with_reducible assumption | dsimp only | with_reducible apply OutHolds.mk | with_reducible apply State.amOp_keeps)

theorem execAmxor_keeps {a s : State} (h : a.Keeps s) (x0 x1 x2 x3 x4 x5 x6) :
    OutHolds a.Keeps (execAmxor x0 x1 x2 x3 x4 x5 x6 s) := by
  unfold execAmxor
  repeat' (first
      | with_reducible assumption | dsimp only | with_reducible apply OutHolds.mk | with_reducible apply State.amOp_keeps)

theorem execAmmax_keeps {a s : State} (h : a.Keeps s) (x0 x1 x2 x3 x4 x5 x6) :
    OutHolds a.Keeps (execAmmax x0 x1 x2 x3 x4 x5 x6 s) := by
  unfold execAmmax
  repeat' (first
      | with_reducible assumption | dsimp only | with_reducible apply OutHolds.mk | with_reducible apply State.amOp_keeps)

theorem execAmmin_keeps {a s : State} (h : a.Keeps s) (x0 x1 x2 x3 x4 x5 x6) :
    OutHolds a.Keeps (execAmmin x0 x1 x2 x3 x4 x5 x6 s) := by
  unfold execAmmin
  repeat' (first
      | with_reducible assumption | dsimp only | with_reducible apply OutHolds.mk | with_reducible apply State.amOp_keeps)

theorem execMcpy_keeps {a s : State} (h : a.Keeps s) (x0 x1 x2 x3) :
    OutHolds a.Keeps (execMcpy x0 x1 x2 x3 s) := by
  unfold execMcpy
  repeat' (first
      | with_reducible assumption | intro _ | dsimp only | with_reducible apply Done.Holds.mkOk
      | with_reducible apply Done.Holds.mkStay | with_reducible apply OutHolds.mk | with_reducible apply strAfter_keeps
      | with_reducible apply State.issue_keeps | with_reducible apply State.checkPieces_keeps
      | with_reducible apply State.loadHalves_keeps | with_reducible apply strFail_keeps
      | with_reducible apply State.strStore_keeps | with_reducible refine Got.Holds.ok (by assumption) ?_
      | with_reducible refine Got.Holds.exc (by assumption) ?_ | with_reducible refine Got.Holds.stay (by assumption) ?_
      | split)

theorem execMset_keeps {a s : State} (h : a.Keeps s) (x0 x1 x2 x3) :
    OutHolds a.Keeps (execMset x0 x1 x2 x3 s) := by
  unfold execMset
  repeat' (first
      | with_reducible assumption | intro _ | dsimp only | with_reducible apply Done.Holds.mkOk
      | with_reducible apply OutHolds.mk | with_reducible apply strAfter_keeps | with_reducible apply State.issue_keeps
      | with_reducible apply State.checkPieces_keeps | with_reducible apply strFail_keeps
      | with_reducible apply State.strStore_keeps | with_reducible refine State.Keeps.snd (by assumption) ?_ | split)

theorem execMcmp_keeps {a s : State} (h : a.Keeps s) (x0 x1 x2 x3) :
    OutHolds a.Keeps (execMcmp x0 x1 x2 x3 s) := by
  unfold execMcmp
  repeat' (first
      | with_reducible assumption | intro _ | dsimp only | with_reducible apply Done.Holds.mkOk
      | with_reducible apply Done.Holds.mkStay | with_reducible apply OutHolds.mk | with_reducible apply State.issue_keeps
      | with_reducible apply State.checkPieces_keeps | with_reducible apply State.loadHalves_keeps
      | with_reducible apply strFail_keeps | with_reducible apply strStep_keeps
      | with_reducible refine Got.Holds.ok (by assumption) ?_ | with_reducible refine Got.Holds.exc (by assumption) ?_
      | with_reducible refine Got.Holds.stay (by assumption) ?_ | split)

theorem execSha3f_keeps {a s : State} (h : a.Keeps s) (x0 x1) : OutHolds a.Keeps (execSha3f x0 x1 s) := by
  unfold execSha3f
  repeat' (first
      | with_reducible assumption | intro _ | dsimp only | with_reducible apply Done.Holds.mkStay
      | with_reducible apply OutHolds.mk | with_reducible apply State.issue_keeps
      | with_reducible apply State.checkPieces_keeps | with_reducible apply longDone_keeps
      | with_reducible apply State.loadHalves_keeps | with_reducible apply State.storeHalves_keeps
      | with_reducible refine Got.Holds.ok (by assumption) ?_ | with_reducible refine Got.Holds.exc (by assumption) ?_
      | with_reducible refine Got.Holds.stay (by assumption) ?_ | split)

theorem execAqld_keeps {a s : State} (h : a.Keeps s) (x0 x1 x2 x3) :
    OutHolds a.Keeps (execAqld x0 x1 x2 x3 s) := by
  unfold execAqld
  repeat' (first
      | with_reducible assumption | intro _ | with_reducible apply OutHolds.mk | with_reducible apply State.issue_keeps
      | with_reducible apply State.loadTo_keeps)

theorem execAqst_keeps {a s : State} (h : a.Keeps s) (x0 x1 x2 x3) :
    OutHolds a.Keeps (execAqst x0 x1 x2 x3 s) := by
  unfold execAqst
  repeat' (first
      | with_reducible assumption | intro _ | dsimp only | with_reducible apply OutHolds.mk
      | with_reducible apply State.issue_keeps | with_reducible apply State.storeFrom_keeps)

theorem execAsav_keeps {a s : State} (h : a.Keeps s) (x0 x1 x2) : OutHolds a.Keeps (execAsav x0 x1 x2 s) := by
  unfold execAsav
  repeat' (first
      | with_reducible assumption | intro _ | dsimp only | with_reducible apply OutHolds.mk
      | with_reducible apply State.issue_keeps | with_reducible apply State.storeFrom_keeps)

theorem execArst_keeps {a s : State} (h : a.Keeps s) (x0 x1 x2) : OutHolds a.Keeps (execArst x0 x1 x2 s) := by
  unfold execArst
  repeat' (first
      | with_reducible assumption | intro _ | with_reducible apply Done.Holds.mkOk | with_reducible apply Done.Holds.mkExc
      | with_reducible apply Done.Holds.mkStay | with_reducible apply OutHolds.mk | with_reducible apply State.issue_keeps
      | with_reducible apply State.checkAccess_keeps | with_reducible apply State.loadHalves_keeps
      | with_reducible apply State.modCore_keeps | with_reducible refine State.Keeps.snd (by assumption) ?_
      | with_reducible refine Got.Holds.ok (by assumption) ?_ | with_reducible refine Got.Holds.exc (by assumption) ?_
      | with_reducible refine Got.Holds.stay (by assumption) ?_ | split)

theorem execAmrg_keeps {a s : State} (h : a.Keeps s) (x0 x1 x2) : OutHolds a.Keeps (execAmrg x0 x1 x2 s) := by
  unfold execAmrg
  repeat' (first
      | with_reducible assumption | intro _ | dsimp only | with_reducible apply Done.Holds.mkOk
      | with_reducible apply Done.Holds.mkExc | with_reducible apply Done.Holds.mkStay | with_reducible apply OutHolds.mk
      | with_reducible apply State.issue_keeps | with_reducible apply noonWait_keeps
      | with_reducible apply State.checkAccess_keeps | with_reducible apply State.loadHalves_keeps
      | with_reducible apply noonRefuse_keeps | with_reducible apply State.postAct_keeps
      | with_reducible refine State.Keeps.snd (by assumption) ?_ | with_reducible refine Got.Holds.ok (by assumption) ?_
      | with_reducible refine Got.Holds.exc (by assumption) ?_ | with_reducible refine Got.Holds.stay (by assumption) ?_
      | split)

theorem entryData_got {a s s' : State} {c : Nat} {e : PostEntry} {hd : List Half} {g : Got} (h : a.Keeps s)
    (he : s.entryData c e = (.ok (hd, g), s')) : g.Holds a.Keeps := by
  unfold State.entryData at he
  dsimp only at he
  repeat' first | (injection he with he _; injection he with he; injection he with _ he; subst he) | (cases he; done) | split at he
  all_goals
    have h2 : a.Keeps (if e.kind = 2 then s.checkAccess c accStore DevUse.refuse e.f1 64 1
        else ((Except.ok [] : Except Exc (List Half)), s)).2 := by
      split
      · exact State.checkAccess_keeps h ..
      · exact h
    first
    | exact State.loadHalves_keeps (State.checkAccess_keeps h2 ..) ..
    | exact State.checkAccess_keeps h2 ..
    | exact h

theorem entryData_ok {a s s' t : State} {c : Nat} {e : PostEntry} {hd : List Half} {bs : List Byte}
    (he : s.entryData c e = (.ok (hd, .ok bs t), s')) (h : a.Keeps s) : a.Keeps t := entryData_got h he

theorem entryData_exc {a s s' t : State} {c : Nat} {e : PostEntry} {hd : List Half} {x : Exc}
    (he : s.entryData c e = (.ok (hd, .exc t x), s')) (h : a.Keeps s) : a.Keeps t := entryData_got h he

theorem entryData_stay {a s s' t : State} {c : Nat} {e : PostEntry} {hd : List Half}
    (he : s.entryData c e = (.ok (hd, .stay t), s')) (h : a.Keeps s) : a.Keeps t := entryData_got h he

theorem execNpost_keeps {a s : State} (h : a.Keeps s) (x0 x1) : OutHolds a.Keeps (execNpost x0 x1 s) := by
  unfold execNpost
  repeat' (first
      | with_reducible assumption | intro _ | dsimp only | with_reducible apply Done.Holds.mkOk
      | with_reducible apply Done.Holds.mkExc | with_reducible apply Done.Holds.mkStay | with_reducible apply OutHolds.mk
      | with_reducible apply State.issue_keeps | with_reducible apply noonWait_keeps
      | with_reducible apply State.checkAccess_keeps | with_reducible apply State.loadHalves_keeps
      | with_reducible apply State.modCore_keeps | with_reducible apply noonRefuse_keeps
      | with_reducible apply State.entryData_keeps | with_reducible apply State.postAct_keeps
      | with_reducible apply State.commitHalves_keeps | with_reducible refine State.Keeps.snd (by assumption) ?_
      | with_reducible refine Got.Holds.ok (by assumption) ?_ | with_reducible refine Got.Holds.exc (by assumption) ?_
      | with_reducible refine Got.Holds.stay (by assumption) ?_ | with_reducible refine entryData_ok (by assumption) ?_
      | with_reducible refine entryData_exc (by assumption) ?_ | with_reducible refine entryData_stay (by assumption) ?_
      | split)

theorem execNrecv_keeps {a s : State} (h : a.Keeps s) (x0 x1 x2) :
    OutHolds a.Keeps (execNrecv x0 x1 x2 s) := by
  unfold execNrecv
  repeat' (first
      | with_reducible assumption | intro _ | dsimp only | with_reducible apply Done.Holds.mkOk
      | with_reducible apply Done.Holds.mkExc | with_reducible apply Done.Holds.mkStay | with_reducible apply OutHolds.mk
      | with_reducible apply State.issue_keeps | with_reducible apply State.modCore_keeps
      | with_reducible apply State.checkAccess_keeps | with_reducible apply State.record_keeps
      | with_reducible apply State.takeMail_keeps | with_reducible apply State.storeHalves_keeps
      | with_reducible refine State.Keeps.snd (by assumption) ?_ | with_reducible refine Got.Holds.ok (by assumption) ?_
      | with_reducible refine Got.Holds.exc (by assumption) ?_ | with_reducible refine Got.Holds.stay (by assumption) ?_
      | split)

theorem execNwait_keeps {a s : State} (h : a.Keeps s) (x0 x1) : OutHolds a.Keeps (execNwait x0 x1 s) := by
  unfold execNwait
  repeat' (first
      | with_reducible assumption | intro _ | dsimp only | with_reducible apply Done.Holds.mkOk
      | with_reducible apply Done.Holds.mkStay | with_reducible apply OutHolds.mk | with_reducible apply State.issueAs_keeps
      | with_reducible apply State.modCore_keeps | split)

theorem execCsrr_keeps {a s : State} (h : a.Keeps s) (x0 x1 x2) : OutHolds a.Keeps (execCsrr x0 x1 x2 s) := by
  unfold execCsrr
  repeat' (first
      | with_reducible assumption | intro _ | with_reducible apply Done.Holds.mkOk | with_reducible apply Done.Holds.mkExc
      | with_reducible apply OutHolds.mk | with_reducible apply State.issue_keeps | with_reducible apply State.modCore_keeps
      | split)

theorem execCsrw_keeps {a s : State} (h : a.Keeps s) (x0 x1 x2) : OutHolds a.Keeps (execCsrw x0 x1 x2 s) := by
  unfold execCsrw
  repeat' (first | with_reducible assumption | with_reducible apply OutHolds.mk | with_reducible apply State.csrChange_keeps)

theorem execCsrs_keeps {a s : State} (h : a.Keeps s) (x0 x1 x2 x3) :
    OutHolds a.Keeps (execCsrs x0 x1 x2 x3 s) := by
  unfold execCsrs
  repeat' (first | with_reducible assumption | with_reducible apply OutHolds.mk | with_reducible apply State.csrChange_keeps)

theorem execCsrc_keeps {a s : State} (h : a.Keeps s) (x0 x1 x2 x3) :
    OutHolds a.Keeps (execCsrc x0 x1 x2 x3 s) := by
  unfold execCsrc
  repeat' (first | with_reducible assumption | with_reducible apply OutHolds.mk | with_reducible apply State.csrChange_keeps)

theorem execEret_keeps {a s : State} (h : a.Keeps s) (x0) : OutHolds a.Keeps (execEret x0 s) := by
  unfold execEret
  repeat' (first
      | with_reducible assumption | intro _ | dsimp only | with_reducible apply Done.Holds.mkExc
      | with_reducible apply Done.Holds.mkStay | with_reducible apply OutHolds.mk | with_reducible apply State.issue_keeps
      | with_reducible apply atLeast_keeps | with_reducible apply State.drainAll_keeps
      | with_reducible apply State.frameLines_keeps | with_reducible apply State.stopAtM_keeps
      | with_reducible apply State.cycles_keeps | with_reducible apply State.takeEvent_keeps
      | with_reducible apply State.readFrame_keeps | with_reducible apply State.modCore_keeps
      | with_reducible apply State.poisonRecord_keeps | with_reducible apply State.chain_keeps
      | with_reducible apply State.unwind_keeps | with_reducible refine State.Keeps.snd (by assumption) ?_ | split)

theorem execCalls_keeps {a s : State} (h : a.Keeps s) (x0) : OutHolds a.Keeps (execCalls x0 s) := by
  unfold execCalls
  repeat' (first | with_reducible assumption | with_reducible apply OutHolds.mk | with_reducible apply State.callTo_keeps)

theorem execCallh_keeps {a s : State} (h : a.Keeps s) (x0) : OutHolds a.Keeps (execCallh x0 s) := by
  unfold execCallh
  repeat' (first | with_reducible assumption | with_reducible apply OutHolds.mk | with_reducible apply State.callTo_keeps)

theorem execCallm_keeps {a s : State} (h : a.Keeps s) (x0) : OutHolds a.Keeps (execCallm x0 s) := by
  unfold execCallm
  repeat' (first | with_reducible assumption | with_reducible apply OutHolds.mk | with_reducible apply State.callTo_keeps)

theorem execBrk_keeps {a s : State} (h : a.Keeps s) (x0) : OutHolds a.Keeps (execBrk x0 s) := by
  unfold execBrk
  repeat' (first
      | with_reducible assumption | intro _ | with_reducible apply Done.Holds.mkCall | with_reducible apply OutHolds.mk
      | with_reducible apply State.issue_keeps)

theorem execWfe_keeps {a s : State} (h : a.Keeps s) (x0) : OutHolds a.Keeps (execWfe x0 s) := by
  unfold execWfe
  repeat' (first
      | with_reducible assumption | intro _ | dsimp only | with_reducible apply Done.Holds.mkOk
      | with_reducible apply Done.Holds.mkStay | with_reducible apply OutHolds.mk | with_reducible apply State.issueAs_keeps
      | with_reducible apply State.modCore_keeps | with_reducible apply State.leaveOn_keeps
      | with_reducible apply State.modDom_keeps | split)

theorem execFence_keeps {a s : State} (h : a.Keeps s) (x0 x1) : OutHolds a.Keeps (execFence x0 x1 s) := by
  unfold execFence
  repeat' (first
      | with_reducible assumption | intro _ | dsimp only | with_reducible apply Done.Holds.mkOk
      | with_reducible apply Done.Holds.mkStay | with_reducible apply OutHolds.mk | with_reducible apply State.issue_keeps
      | with_reducible apply State.drainWhile_keeps | split)

theorem execSync_keeps {a s : State} (h : a.Keeps s) (x0) : OutHolds a.Keeps (execSync x0 s) := by
  unfold execSync
  repeat' (first
      | with_reducible assumption | intro _ | dsimp only | with_reducible apply Done.Holds.mkOk
      | with_reducible apply Done.Holds.mkStay | with_reducible apply OutHolds.mk | with_reducible apply State.issue_keeps
      | with_reducible apply State.drainAll_keeps | split)

theorem execLbar_keeps {a s : State} (h : a.Keeps s) (x0) : OutHolds a.Keeps (execLbar x0 s) := by
  unfold execLbar
  repeat' (first
      | with_reducible assumption | intro _ | with_reducible apply Done.Holds.mkOk | with_reducible apply OutHolds.mk
      | with_reducible apply State.issue_keeps)

theorem execIfence_keeps {a s : State} (h : a.Keeps s) (x0) : OutHolds a.Keeps (execIfence x0 s) := by
  unfold execIfence
  repeat' (first
      | with_reducible assumption | intro _ | with_reducible apply Done.Holds.mkOk | with_reducible apply Done.Holds.mkStay
      | with_reducible apply OutHolds.mk | with_reducible apply State.issue_keeps | with_reducible apply State.drainAll_keeps
      | with_reducible apply State.modCore_keeps | with_reducible refine State.Keeps.snd (by assumption) ?_ | split)

theorem execBpbar_keeps {a s : State} (h : a.Keeps s) (x0) : OutHolds a.Keeps (execBpbar x0 s) := by
  unfold execBpbar
  repeat' (first
      | with_reducible assumption | intro _ | with_reducible apply Done.Holds.mkOk | with_reducible apply OutHolds.mk
      | with_reducible apply State.issue_keeps)

theorem execBpflush_keeps {a s : State} (h : a.Keeps s) (x0) : OutHolds a.Keeps (execBpflush x0 s) := by
  unfold execBpflush
  repeat' (first | with_reducible assumption | with_reducible apply OutHolds.mk | with_reducible apply State.compute_keeps)

theorem execRand_keeps {a s : State} (h : a.Keeps s) (x0 x1 x2) : OutHolds a.Keeps (execRand x0 x1 x2 s) := by
  unfold execRand
  repeat' (first
      | with_reducible assumption | intro _ | dsimp only | with_reducible apply Done.Holds.mkOk
      | with_reducible apply OutHolds.mk | with_reducible apply State.issue_keeps | with_reducible apply State.draw_keeps
      | with_reducible apply State.modCore_keeps)

theorem execUndefinedEncoding_keeps {a s : State} (h : a.Keeps s) (x0 x1) :
    OutHolds a.Keeps (execUndefinedEncoding x0 x1 s) := by
  unfold execUndefinedEncoding
  repeat' (first
      | with_reducible assumption | intro _ | dsimp only | with_reducible apply Done.Holds.mkExc
      | with_reducible apply OutHolds.mk | with_reducible apply State.issue_keeps | with_reducible apply State.draw_keeps
      | with_reducible apply State.modCore_keeps | with_reducible apply State.Keeps.ite)

theorem execDcclean_keeps {a s : State} (h : a.Keeps s) (x0 x1) : OutHolds a.Keeps (execDcclean x0 x1 s) := by
  unfold execDcclean
  repeat' (first
      | with_reducible assumption | intro _ | with_reducible apply OutHolds.mk | with_reducible apply State.issue_keeps
      | with_reducible apply State.lineOp_keeps | with_reducible apply State.cleanLine_keeps)

theorem execDcflush_keeps {a s : State} (h : a.Keeps s) (x0 x1) : OutHolds a.Keeps (execDcflush x0 x1 s) := by
  unfold execDcflush
  repeat' (first
      | with_reducible assumption | intro _ | with_reducible apply OutHolds.mk | with_reducible apply State.issue_keeps
      | with_reducible apply State.lineOp_keeps | with_reducible apply State.flushLine_keeps)

theorem execDcinv_keeps {a s : State} (h : a.Keeps s) (x0 x1) : OutHolds a.Keeps (execDcinv x0 x1 s) := by
  unfold execDcinv
  repeat' (first
      | with_reducible assumption | intro _ | with_reducible apply OutHolds.mk | with_reducible apply State.issue_keeps
      | with_reducible apply atLeast_keeps | with_reducible apply State.lineOp_keeps
      | with_reducible apply State.flushLine_keeps)

theorem execDczero_keeps {a s : State} (h : a.Keeps s) (x0 x1) : OutHolds a.Keeps (execDczero x0 x1 s) := by
  unfold execDczero
  repeat' (first
      | with_reducible assumption | intro _ | dsimp only | with_reducible apply Done.Holds.mkOk
      | with_reducible apply Done.Holds.mkExc | with_reducible apply Done.Holds.mkStay | with_reducible apply OutHolds.mk
      | with_reducible apply State.issue_keeps | with_reducible apply State.checkHalf_keeps
      | with_reducible apply State.storeHalves_keeps | with_reducible refine State.Keeps.snd (by assumption) ?_
      | with_reducible refine Got.Holds.ok (by assumption) ?_ | with_reducible refine Got.Holds.exc (by assumption) ?_
      | with_reducible refine Got.Holds.stay (by assumption) ?_ | split)

theorem execIcinv_keeps {a s : State} (h : a.Keeps s) (x0 x1) : OutHolds a.Keeps (execIcinv x0 x1 s) := by
  unfold execIcinv
  repeat' (first
      | with_reducible assumption | intro _ | dsimp only | with_reducible apply OutHolds.mk
      | with_reducible apply State.issue_keeps | with_reducible apply State.lineOp_keeps
      | with_reducible apply State.setCore_keeps | with_reducible apply State.homeEvn_keeps
      | with_reducible apply State.Keeps.ite)

theorem execPfl_keeps {a s : State} (h : a.Keeps s) (x0 x1) : OutHolds a.Keeps (execPfl x0 x1 s) := by
  unfold execPfl
  repeat' (first | with_reducible assumption | with_reducible apply OutHolds.mk | with_reducible apply State.hint_keeps)

theorem execPfs_keeps {a s : State} (h : a.Keeps s) (x0 x1) : OutHolds a.Keeps (execPfs x0 x1 s) := by
  unfold execPfs
  repeat' (first | with_reducible assumption | with_reducible apply OutHolds.mk | with_reducible apply State.hint_keeps)

theorem execPfnt_keeps {a s : State} (h : a.Keeps s) (x0 x1) : OutHolds a.Keeps (execPfnt x0 x1 s) := by
  unfold execPfnt
  repeat' (first | with_reducible assumption | with_reducible apply OutHolds.mk | with_reducible apply State.hint_keeps)

theorem execTlbiva_keeps {a s : State} (h : a.Keeps s) (x0 x1) : OutHolds a.Keeps (execTlbiva x0 x1 s) := by
  unfold execTlbiva
  repeat' (first
      | with_reducible assumption | dsimp only | with_reducible apply OutHolds.mk | with_reducible apply State.tlbOp_keeps)

theorem execTlbiall_keeps {a s : State} (h : a.Keeps s) (x0) : OutHolds a.Keeps (execTlbiall x0 s) := by
  unfold execTlbiall
  repeat' (first
      | with_reducible assumption | dsimp only | with_reducible apply OutHolds.mk | with_reducible apply State.tlbOp_keeps)

theorem execTlbigva_keeps {a s : State} (h : a.Keeps s) (x0 x1) : OutHolds a.Keeps (execTlbigva x0 x1 s) := by
  unfold execTlbigva
  repeat' (first | with_reducible assumption | with_reducible apply OutHolds.mk | with_reducible apply State.tlbOp_keeps)

theorem execTlbidom_keeps {a s : State} (h : a.Keeps s) (x0 x1) : OutHolds a.Keeps (execTlbidom x0 x1 s) := by
  unfold execTlbidom
  repeat' (first | with_reducible assumption | with_reducible apply OutHolds.mk | with_reducible apply State.tlbOp_keeps)

theorem execEventEntry_keeps {a s : State} (h : a.Keeps s) (x0) : OutHolds a.Keeps (execEventEntry x0 s) := by
  unfold execEventEntry
  repeat' (first
      | with_reducible assumption | with_reducible apply OutHolds.mk | with_reducible apply State.orWait_keeps
      | with_reducible apply State.takeAsync_keeps | with_reducible apply State.Keeps.ite | split)

theorem execLongOperationComplete_keeps {a s : State} (h : a.Keeps s) (x0) :
    OutHolds a.Keeps (execLongOperationComplete x0 s) := by
  unfold execLongOperationComplete
  repeat' (first
      | with_reducible assumption | with_reducible apply OutHolds.mk | with_reducible apply State.modCore_keeps
      | with_reducible apply State.Keeps.ite)

theorem execStoreWriteAfterRetirement_keeps {a s : State} (h : a.Keeps s) (x0) :
    OutHolds a.Keeps (execStoreWriteAfterRetirement x0 s) := by
  unfold execStoreWriteAfterRetirement
  repeat' (first
      | with_reducible assumption | with_reducible apply OutHolds.mk | with_reducible apply State.orWait_keeps
      | with_reducible apply State.drainOne_keeps | with_reducible apply State.Keeps.ite)

theorem execMemoryOrderReplay_keeps {a s : State} (h : a.Keeps s) (x0) :
    OutHolds a.Keeps (execMemoryOrderReplay x0 s) := by
  unfold execMemoryOrderReplay
  repeat' (first
      | with_reducible assumption | with_reducible apply OutHolds.mk | with_reducible apply State.cycles_keeps
      | with_reducible apply State.Keeps.ite)

/-- No command undoes what State.Keeps speaks of. -/
theorem exec_keeps (i : Instr) (s : State) : OutHolds s.Keeps (exec i s) := by
  cases i with
  | add _ _ _ _ => exact execAdd_keeps (State.Keeps.refl s) ..
  | sub _ _ _ _ => exact execSub_keeps (State.Keeps.refl s) ..
  | andR _ _ _ _ => exact execAndR_keeps (State.Keeps.refl s) ..
  | orR _ _ _ _ => exact execOrR_keeps (State.Keeps.refl s) ..
  | xorR _ _ _ _ => exact execXorR_keeps (State.Keeps.refl s) ..
  | andn _ _ _ _ => exact execAndn_keeps (State.Keeps.refl s) ..
  | sll _ _ _ _ => exact execSll_keeps (State.Keeps.refl s) ..
  | srl _ _ _ _ => exact execSrl_keeps (State.Keeps.refl s) ..
  | sra _ _ _ _ => exact execSra_keeps (State.Keeps.refl s) ..
  | ror _ _ _ _ => exact execRor_keeps (State.Keeps.refl s) ..
  | slt _ _ _ _ => exact execSlt_keeps (State.Keeps.refl s) ..
  | sltu _ _ _ _ => exact execSltu_keeps (State.Keeps.refl s) ..
  | minS _ _ _ _ => exact execMinS_keeps (State.Keeps.refl s) ..
  | maxS _ _ _ _ => exact execMaxS_keeps (State.Keeps.refl s) ..
  | minu _ _ _ _ => exact execMinu_keeps (State.Keeps.refl s) ..
  | maxu _ _ _ _ => exact execMaxu_keeps (State.Keeps.refl s) ..
  | sel _ _ _ _ => exact execSel_keeps (State.Keeps.refl s) ..
  | clz _ _ _ => exact execClz_keeps (State.Keeps.refl s) ..
  | ctz _ _ _ => exact execCtz_keeps (State.Keeps.refl s) ..
  | pop _ _ _ => exact execPop_keeps (State.Keeps.refl s) ..
  | bswap _ _ _ => exact execBswap_keeps (State.Keeps.refl s) ..
  | addi _ _ _ _ => exact execAddi_keeps (State.Keeps.refl s) ..
  | andi _ _ _ _ => exact execAndi_keeps (State.Keeps.refl s) ..
  | ori _ _ _ _ => exact execOri_keeps (State.Keeps.refl s) ..
  | xori _ _ _ _ => exact execXori_keeps (State.Keeps.refl s) ..
  | slti _ _ _ _ => exact execSlti_keeps (State.Keeps.refl s) ..
  | sltiu _ _ _ _ => exact execSltiu_keeps (State.Keeps.refl s) ..
  | shi _ _ _ _ => exact execShi_keeps (State.Keeps.refl s) ..
  | movz _ _ _ _ => exact execMovz_keeps (State.Keeps.refl s) ..
  | movk _ _ _ _ => exact execMovk_keeps (State.Keeps.refl s) ..
  | mul _ _ _ _ => exact execMul_keeps (State.Keeps.refl s) ..
  | mulh _ _ _ _ => exact execMulh_keeps (State.Keeps.refl s) ..
  | mulhu _ _ _ _ => exact execMulhu_keeps (State.Keeps.refl s) ..
  | divS _ _ _ _ => exact execDivS_keeps (State.Keeps.refl s) ..
  | divu _ _ _ _ => exact execDivu_keeps (State.Keeps.refl s) ..
  | remS _ _ _ _ => exact execRemS_keeps (State.Keeps.refl s) ..
  | remu _ _ _ _ => exact execRemu_keeps (State.Keeps.refl s) ..
  | fadd _ _ _ _ _ => exact execFadd_keeps (State.Keeps.refl s) ..
  | fsub _ _ _ _ _ => exact execFsub_keeps (State.Keeps.refl s) ..
  | fmul _ _ _ _ _ => exact execFmul_keeps (State.Keeps.refl s) ..
  | fdiv _ _ _ _ _ => exact execFdiv_keeps (State.Keeps.refl s) ..
  | fsqrt _ _ _ _ => exact execFsqrt_keeps (State.Keeps.refl s) ..
  | fma _ _ _ _ _ => exact execFma_keeps (State.Keeps.refl s) ..
  | fmin _ _ _ _ _ => exact execFmin_keeps (State.Keeps.refl s) ..
  | fmax _ _ _ _ _ => exact execFmax_keeps (State.Keeps.refl s) ..
  | fceq _ _ _ _ _ => exact execFceq_keeps (State.Keeps.refl s) ..
  | fclt _ _ _ _ _ => exact execFclt_keeps (State.Keeps.refl s) ..
  | fcle _ _ _ _ _ => exact execFcle_keeps (State.Keeps.refl s) ..
  | fcvti _ _ _ _ => exact execFcvti_keeps (State.Keeps.refl s) ..
  | fcvtf _ _ _ _ => exact execFcvtf_keeps (State.Keeps.refl s) ..
  | fcvtp _ _ _ _ => exact execFcvtp_keeps (State.Keeps.refl s) ..
  | fclass _ _ _ _ => exact execFclass_keeps (State.Keeps.refl s) ..
  | ldb _ _ _ _ => exact execLdb_keeps (State.Keeps.refl s) ..
  | ldbu _ _ _ _ => exact execLdbu_keeps (State.Keeps.refl s) ..
  | ldh _ _ _ _ => exact execLdh_keeps (State.Keeps.refl s) ..
  | ldhu _ _ _ _ => exact execLdhu_keeps (State.Keeps.refl s) ..
  | ldw _ _ _ _ => exact execLdw_keeps (State.Keeps.refl s) ..
  | ldwu _ _ _ _ => exact execLdwu_keeps (State.Keeps.refl s) ..
  | ldd _ _ _ _ => exact execLdd_keeps (State.Keeps.refl s) ..
  | ldp _ _ _ _ => exact execLdp_keeps (State.Keeps.refl s) ..
  | lda _ _ _ _ => exact execLda_keeps (State.Keeps.refl s) ..
  | stb _ _ _ _ => exact execStb_keeps (State.Keeps.refl s) ..
  | sth _ _ _ _ => exact execSth_keeps (State.Keeps.refl s) ..
  | stw _ _ _ _ => exact execStw_keeps (State.Keeps.refl s) ..
  | std _ _ _ _ => exact execStd_keeps (State.Keeps.refl s) ..
  | stp _ _ _ _ => exact execStp_keeps (State.Keeps.refl s) ..
  | stl _ _ _ _ => exact execStl_keeps (State.Keeps.refl s) ..
  | vld _ _ _ _ => exact execVld_keeps (State.Keeps.refl s) ..
  | vst _ _ _ _ => exact execVst_keeps (State.Keeps.refl s) ..
  | ldx c aq rl dw rd ra => exact execLdx_keeps (State.Keeps.refl s) c aq rl dw rd ra
  | stx c aq rl dw rd ra rb => exact execStx_keeps (State.Keeps.refl s) c aq rl dw rd ra rb
  | swp c aq rl dw rd ra rb => exact execSwp_keeps (State.Keeps.refl s) c aq rl dw rd ra rb
  | cas c aq rl dw rd ra rb => exact execCas_keeps (State.Keeps.refl s) c aq rl dw rd ra rb
  | amadd c aq rl dw rd ra rb => exact execAmadd_keeps (State.Keeps.refl s) c aq rl dw rd ra rb
  | amand c aq rl dw rd ra rb => exact execAmand_keeps (State.Keeps.refl s) c aq rl dw rd ra rb
  | amor c aq rl dw rd ra rb => exact execAmor_keeps (State.Keeps.refl s) c aq rl dw rd ra rb
  | amxor c aq rl dw rd ra rb => exact execAmxor_keeps (State.Keeps.refl s) c aq rl dw rd ra rb
  | ammax c aq rl dw rd ra rb => exact execAmmax_keeps (State.Keeps.refl s) c aq rl dw rd ra rb
  | ammin c aq rl dw rd ra rb => exact execAmmin_keeps (State.Keeps.refl s) c aq rl dw rd ra rb
  | mcpy _ _ _ _ => exact execMcpy_keeps (State.Keeps.refl s) ..
  | mset _ _ _ _ => exact execMset_keeps (State.Keeps.refl s) ..
  | mcmp _ _ _ _ => exact execMcmp_keeps (State.Keeps.refl s) ..
  | vadd _ _ _ _ _ => exact execVadd_keeps (State.Keeps.refl s) ..
  | vsub _ _ _ _ _ => exact execVsub_keeps (State.Keeps.refl s) ..
  | vand _ _ _ _ => exact execVand_keeps (State.Keeps.refl s) ..
  | vor _ _ _ _ => exact execVor_keeps (State.Keeps.refl s) ..
  | vxor _ _ _ _ => exact execVxor_keeps (State.Keeps.refl s) ..
  | vsll _ _ _ _ _ => exact execVsll_keeps (State.Keeps.refl s) ..
  | vsrl _ _ _ _ _ => exact execVsrl_keeps (State.Keeps.refl s) ..
  | vsra _ _ _ _ _ => exact execVsra_keeps (State.Keeps.refl s) ..
  | vmin _ _ _ _ _ => exact execVmin_keeps (State.Keeps.refl s) ..
  | vmax _ _ _ _ _ => exact execVmax_keeps (State.Keeps.refl s) ..
  | vmul _ _ _ _ _ => exact execVmul_keeps (State.Keeps.refl s) ..
  | vceq _ _ _ _ _ => exact execVceq_keeps (State.Keeps.refl s) ..
  | vcgt _ _ _ _ _ => exact execVcgt_keeps (State.Keeps.refl s) ..
  | vperm _ _ _ _ => exact execVperm_keeps (State.Keeps.refl s) ..
  | vsplat _ _ _ _ => exact execVsplat_keeps (State.Keeps.refl s) ..
  | vext _ _ _ _ _ => exact execVext_keeps (State.Keeps.refl s) ..
  | vfadd _ _ _ _ _ => exact execVfadd_keeps (State.Keeps.refl s) ..
  | vfsub _ _ _ _ _ => exact execVfsub_keeps (State.Keeps.refl s) ..
  | vfmul _ _ _ _ _ => exact execVfmul_keeps (State.Keeps.refl s) ..
  | vfma _ _ _ _ _ => exact execVfma_keeps (State.Keeps.refl s) ..
  | vfdiv _ _ _ _ _ => exact execVfdiv_keeps (State.Keeps.refl s) ..
  | vfmin _ _ _ _ _ => exact execVfmin_keeps (State.Keeps.refl s) ..
  | vfmax _ _ _ _ _ => exact execVfmax_keeps (State.Keeps.refl s) ..
  | aese _ _ _ _ => exact execAese_keeps (State.Keeps.refl s) ..
  | aesel _ _ _ _ => exact execAesel_keeps (State.Keeps.refl s) ..
  | aesd _ _ _ _ => exact execAesd_keeps (State.Keeps.refl s) ..
  | aesdl _ _ _ _ => exact execAesdl_keeps (State.Keeps.refl s) ..
  | gmul _ _ _ _ => exact execGmul_keeps (State.Keeps.refl s) ..
  | sha512s _ _ _ _ => exact execSha512s_keeps (State.Keeps.refl s) ..
  | sha512r _ _ _ _ => exact execSha512r_keeps (State.Keeps.refl s) ..
  | sha3f _ _ => exact execSha3f_keeps (State.Keeps.refl s) ..
  | aqld _ _ _ _ => exact execAqld_keeps (State.Keeps.refl s) ..
  | aqst _ _ _ _ => exact execAqst_keeps (State.Keeps.refl s) ..
  | aclr _ _ _ => exact execAclr_keeps (State.Keeps.refl s) ..
  | aadd _ _ _ _ => exact execAadd_keeps (State.Keeps.refl s) ..
  | asub _ _ _ _ => exact execAsub_keeps (State.Keeps.refl s) ..
  | amac _ _ _ _ _ => exact execAmac_keeps (State.Keeps.refl s) ..
  | amacs _ _ _ _ _ => exact execAmacs_keeps (State.Keeps.refl s) ..
  | ascl _ _ _ => exact execAscl_keeps (State.Keeps.refl s) ..
  | arnd _ _ _ _ _ => exact execArnd_keeps (State.Keeps.refl s) ..
  | amrg _ _ _ => exact execAmrg_keeps (State.Keeps.refl s) ..
  | asav _ _ _ => exact execAsav_keeps (State.Keeps.refl s) ..
  | arst _ _ _ => exact execArst_keeps (State.Keeps.refl s) ..
  | aflg _ _ _ => exact execAflg_keeps (State.Keeps.refl s) ..
  | afclr _ _ => exact execAfclr_keeps (State.Keeps.refl s) ..
  | br _ _ => exact execBr_keeps (State.Keeps.refl s) ..
  | bal _ _ => exact execBal_keeps (State.Keeps.refl s) ..
  | bcc _ _ _ _ _ => exact execBcc_keeps (State.Keeps.refl s) ..
  | jalr _ _ _ _ => exact execJalr_keeps (State.Keeps.refl s) ..
  | jr _ _ _ => exact execJr_keeps (State.Keeps.refl s) ..
  | loop _ _ _ => exact execLoop_keeps (State.Keeps.refl s) ..
  | undefinedEncoding _ _ => exact execUndefinedEncoding_keeps (State.Keeps.refl s) ..
  | csrr _ _ _ => exact execCsrr_keeps (State.Keeps.refl s) ..
  | csrw _ _ _ => exact execCsrw_keeps (State.Keeps.refl s) ..
  | csrs _ _ _ _ => exact execCsrs_keeps (State.Keeps.refl s) ..
  | csrc _ _ _ _ => exact execCsrc_keeps (State.Keeps.refl s) ..
  | eret _ => exact execEret_keeps (State.Keeps.refl s) ..
  | calls _ => exact execCalls_keeps (State.Keeps.refl s) ..
  | callh _ => exact execCallh_keeps (State.Keeps.refl s) ..
  | callm _ => exact execCallm_keeps (State.Keeps.refl s) ..
  | brk _ => exact execBrk_keeps (State.Keeps.refl s) ..
  | wfe _ => exact execWfe_keeps (State.Keeps.refl s) ..
  | fence _ _ => exact execFence_keeps (State.Keeps.refl s) ..
  | sync _ => exact execSync_keeps (State.Keeps.refl s) ..
  | lbar _ => exact execLbar_keeps (State.Keeps.refl s) ..
  | ifence _ => exact execIfence_keeps (State.Keeps.refl s) ..
  | bpbar _ => exact execBpbar_keeps (State.Keeps.refl s) ..
  | bpflush _ => exact execBpflush_keeps (State.Keeps.refl s) ..
  | dcclean _ _ => exact execDcclean_keeps (State.Keeps.refl s) ..
  | dcflush _ _ => exact execDcflush_keeps (State.Keeps.refl s) ..
  | dcinv _ _ => exact execDcinv_keeps (State.Keeps.refl s) ..
  | dczero _ _ => exact execDczero_keeps (State.Keeps.refl s) ..
  | icinv _ _ => exact execIcinv_keeps (State.Keeps.refl s) ..
  | pfl _ _ => exact execPfl_keeps (State.Keeps.refl s) ..
  | pfs _ _ => exact execPfs_keeps (State.Keeps.refl s) ..
  | pfnt _ _ => exact execPfnt_keeps (State.Keeps.refl s) ..
  | tlbiva _ _ => exact execTlbiva_keeps (State.Keeps.refl s) ..
  | tlbiall _ => exact execTlbiall_keeps (State.Keeps.refl s) ..
  | tlbigva _ _ => exact execTlbigva_keeps (State.Keeps.refl s) ..
  | tlbidom _ _ => exact execTlbidom_keeps (State.Keeps.refl s) ..
  | npost _ _ => exact execNpost_keeps (State.Keeps.refl s) ..
  | nrecv _ _ _ => exact execNrecv_keeps (State.Keeps.refl s) ..
  | nwait _ _ => exact execNwait_keeps (State.Keeps.refl s) ..
  | rand _ _ _ => exact execRand_keeps (State.Keeps.refl s) ..
  | eventEntry _ => exact execEventEntry_keeps (State.Keeps.refl s) ..
  | longOperationComplete _ => exact execLongOperationComplete_keeps (State.Keeps.refl s) ..
  | storeWriteAfterRetirement _ => exact execStoreWriteAfterRetirement_keeps (State.Keeps.refl s) ..
  | memoryOrderReplay _ => exact execMemoryOrderReplay_keeps (State.Keeps.refl s) ..
  | streamPrefetch _ => exact execStreamPrefetch_keeps (State.Keeps.refl s) ..
  | sideBufferEntryExpire _ _ => exact execSideBufferEntryExpire_keeps (State.Keeps.refl s) ..
  | windowLockComplete _ _ => exact execWindowLockComplete_keeps (State.Keeps.refl s) ..
  | cacheWalkComplete _ => exact execCacheWalkComplete_keeps (State.Keeps.refl s) ..
  | rds _ _ _ _ _ _ => exact execRds_keeps (State.Keeps.refl s) ..
  | rdx _ _ _ _ _ _ => exact execRdx_keeps (State.Keeps.refl s) ..
  | upg _ _ => exact execUpg_keeps (State.Keeps.refl s) ..
  | rdz _ _ _ _ => exact execRdz_keeps (State.Keeps.refl s) ..
  | wb _ _ => exact execWb_keeps (State.Keeps.refl s) ..
  | evn _ _ => exact execEvn_keeps (State.Keeps.refl s) ..
  | crd _ _ _ => exact execCrd_keeps (State.Keeps.refl s) ..
  | cwr _ _ _ _ => exact execCwr_keeps (State.Keeps.refl s) ..
  | grantAcknowledgement _ _ => exact execGrantAcknowledgement_keeps (State.Keeps.refl s) ..
  | forwardShared _ _ => exact execForwardShared_keeps (State.Keeps.refl s) ..
  | forwardExclusive _ _ => exact execForwardExclusive_keeps (State.Keeps.refl s) ..
  | invalidation _ _ => exact execInvalidation_keeps (State.Keeps.refl s) ..
  | slcWaymaskWrite _ _ => exact execSlcWaymaskWrite_keeps (State.Keeps.refl s) ..
  | leakyBucketLeak _ => exact execLeakyBucketLeak_keeps (State.Keeps.refl s) ..
  | dieLinkFlitReceive _ _ _ => exact execDieLinkFlitReceive_keeps (State.Keeps.refl s) ..
  | linkRetrainComplete _ _ _ _ => exact execLinkRetrainComplete_keeps (State.Keeps.refl s) ..
  | meshFlitError _ _ _ _ => exact execMeshFlitError_keeps (State.Keeps.refl s) ..
  | readyEvaluation _ => exact execReadyEvaluation_keeps (State.Keeps.refl s) ..
  | rootSampling => exact execRootSampling_keeps (State.Keeps.refl s)
  | tickBoundary => exact execTickBoundary_keeps (State.Keeps.refl s)
  | toStoreStage _ => exact execToStoreStage_keeps (State.Keeps.refl s) ..
  | publishAcknowledgement _ => exact execPublishAcknowledgement_keeps (State.Keeps.refl s) ..
  | actionRegister _ => exact execActionRegister_keeps (State.Keeps.refl s) ..
  | actionResendRound _ => exact execActionResendRound_keeps (State.Keeps.refl s) ..
  | tickTimerPost _ => exact execTickTimerPost_keeps (State.Keeps.refl s) ..
  | holdLimitSlip _ => exact execHoldLimitSlip_keeps (State.Keeps.refl s) ..
  | ppsEdge _ => exact execPpsEdge_keeps (State.Keeps.refl s) ..
  | ppsLost => exact execPpsLost_keeps (State.Keeps.refl s)
  | routerPost _ => exact execRouterPost_keeps (State.Keeps.refl s) ..
  | msiMessage _ _ _ _ => exact execMsiMessage_keeps (State.Keeps.refl s) ..
  | heldPostDelivery _ _ => exact execHeldPostDelivery_keeps (State.Keeps.refl s) ..
  | routeWrite _ _ _ => exact execRouteWrite_keeps (State.Keeps.refl s) ..
  | logRecordWrite _ _ => exact execLogRecordWrite_keeps (State.Keeps.refl s) ..
  | logHtailWrite _ _ => exact execLogHtailWrite_keeps (State.Keeps.refl s) ..
  | stateErrorDetected _ => exact execStateErrorDetected_keeps (State.Keeps.refl s) ..
  | chipFatalStop _ _ => exact execChipFatalStop_keeps (State.Keeps.refl s) ..
  | pllLossOfLock => exact execPllLossOfLock_keeps (State.Keeps.refl s)
  | pllLock => exact execPllLock_keeps (State.Keeps.refl s)
  | memRead _ _ _ _ _ => exact execMemRead_keeps (State.Keeps.refl s) ..
  | dramReread _ _ => exact execDramReread_keeps (State.Keeps.refl s) ..
  | memWrite _ _ _ _ _ _ => exact execMemWrite_keeps (State.Keeps.refl s) ..
  | partialWrite _ _ _ _ _ => exact execPartialWrite_keeps (State.Keeps.refl s) ..
  | mergeEntryClose _ _ _ => exact execMergeEntryClose_keeps (State.Keeps.refl s) ..
  | rowIdleClose _ _ => exact execRowIdleClose_keeps (State.Keeps.refl s) ..
  | refreshBank _ _ => exact execRefreshBank_keeps (State.Keeps.refl s) ..
  | calibrationWindowOpen _ => exact execCalibrationWindowOpen_keeps (State.Keeps.refl s) ..
  | calibrationWindowClose _ => exact execCalibrationWindowClose_keeps (State.Keeps.refl s) ..
  | writeCrcError _ _ => exact execWriteCrcError_keeps (State.Keeps.refl s) ..
  | retrainChan _ => exact execRetrainChan_keeps (State.Keeps.refl s) ..
  | retrainComplete _ _ => exact execRetrainComplete_keeps (State.Keeps.refl s) ..
  | channelIdleRet _ => exact execChannelIdleRet_keeps (State.Keeps.refl s) ..
  | channelWake _ => exact execChannelWake_keeps (State.Keeps.refl s) ..
  | trainChan _ _ => exact execTrainChan_keeps (State.Keeps.refl s) ..
  | fillComplete => exact execFillComplete_keeps (State.Keeps.refl s)
  | scrubPassStart _ => exact execScrubPassStart_keeps (State.Keeps.refl s) ..
  | scrubRead _ _ => exact execScrubRead_keeps (State.Keeps.refl s) ..
  | deviceBankBucketLeak _ => exact execDeviceBankBucketLeak_keeps (State.Keeps.refl s) ..
  | markConfirm _ => exact execMarkConfirm_keeps (State.Keeps.refl s) ..
  | rowRepairLive _ _ _ => exact execRowRepairLive_keeps (State.Keeps.refl s) ..
  | keyLoad => exact execKeyLoad_keeps (State.Keeps.refl s)
  | keyGenerate => exact execKeyGenerate_keeps (State.Keeps.refl s)
  | keyNull => exact execKeyNull_keeps (State.Keeps.refl s)
  | keyCommandComplete => exact execKeyCommandComplete_keeps (State.Keeps.refl s)
  | tlbShootdown => exact execTlbShootdown_keeps (State.Keeps.refl s)
  | shootdownComplete => exact execShootdownComplete_keeps (State.Keeps.refl s)
  | atsInvalidateCompletion _ _ => exact execAtsInvalidateCompletion_keeps (State.Keeps.refl s) ..
  | atsInvalidationTimeout _ _ => exact execAtsInvalidationTimeout_keeps (State.Keeps.refl s) ..
  | dmaRequest _ _ _ _ _ _ => exact execDmaRequest_keeps (State.Keeps.refl s) ..
  | translatedRequest _ _ _ _ _ _ => exact execTranslatedRequest_keeps (State.Keeps.refl s) ..
  | atsTranslationRequest _ _ _ _ => exact execAtsTranslationRequest_keeps (State.Keeps.refl s) ..
  | pageRequest _ _ _ _ _ _ _ => exact execPageRequest_keeps (State.Keeps.refl s) ..
  | pageRequestGroupResponse _ _ => exact execPageRequestGroupResponse_keeps (State.Keeps.refl s) ..
  | iotEqbWrite _ _ => exact execIotEqbWrite_keeps (State.Keeps.refl s) ..
  | dbTailWrite _ _ _ _ => exact execDbTailWrite_keeps (State.Keeps.refl s) ..
  | resumeDesc _ _ _ => exact execResumeDesc_keeps (State.Keeps.refl s) ..
  | skipDesc _ _ _ => exact execSkipDesc_keeps (State.Keeps.refl s) ..
  | enableInst _ _ => exact execEnableInst_keeps (State.Keeps.refl s) ..
  | quiesceInst _ _ _ => exact execQuiesceInst_keeps (State.Keeps.refl s) ..
  | quiesceComplete _ _ => exact execQuiesceComplete_keeps (State.Keeps.refl s) ..
  | runInst _ _ => exact execRunInst_keeps (State.Keeps.refl s) ..
  | resetInst _ _ => exact execResetInst_keeps (State.Keeps.refl s) ..
  | saveInst _ _ => exact execSaveInst_keeps (State.Keeps.refl s) ..
  | restoreInst _ _ => exact execRestoreInst_keeps (State.Keeps.refl s) ..
  | instCmdUndefined _ _ _ => exact execInstCmdUndefined_keeps (State.Keeps.refl s) ..
  | chunkDispatch _ => exact execChunkDispatch_keeps (State.Keeps.refl s) ..
  | descriptorStart _ _ => exact execDescriptorStart_keeps (State.Keeps.refl s) ..
  | chunkComplete _ _ => exact execChunkComplete_keeps (State.Keeps.refl s) ..
  | descriptorCompletion _ _ => exact execDescriptorCompletion_keeps (State.Keeps.refl s) ..
  | apertureWrite _ _ _ _ _ _ _ _ => exact execApertureWrite_keeps (State.Keeps.refl s) ..
  | ibwCommit _ _ => exact execIbwCommit_keeps (State.Keeps.refl s) ..
  | ibwCommitPoint _ => exact execIbwCommitPoint_keeps (State.Keeps.refl s) ..
  | functionContainment _ _ _ _ => exact execFunctionContainment_keeps (State.Keeps.refl s) ..
  | containmentRelease _ => exact execContainmentRelease_keeps (State.Keeps.refl s) ..
  | containmentReleaseEffect _ => exact execContainmentReleaseEffect_keeps (State.Keeps.refl s) ..
  | powerstateWrite _ _ => exact execPowerstateWrite_keeps (State.Keeps.refl s) ..
  | pmeStatusClear _ => exact execPmeStatusClear_keeps (State.Keeps.refl s) ..
  | commandRegisterWrite _ _ => exact execCommandRegisterWrite_keeps (State.Keeps.refl s) ..
  | msixEntryUnmask _ _ => exact execMsixEntryUnmask_keeps (State.Keeps.refl s) ..
  | linkTraining _ _ _ _ _ _ => exact execLinkTraining_keeps (State.Keeps.refl s) ..
  | completionReceived _ _ _ _ _ _ => exact execCompletionReceived_keeps (State.Keeps.refl s) ..
  | completionTimeout _ _ _ => exact execCompletionTimeout_keeps (State.Keeps.refl s) ..
  | tagQuarantineEnd _ _ _ => exact execTagQuarantineEnd_keeps (State.Keeps.refl s) ..
  | crsRetry _ _ _ => exact execCrsRetry_keeps (State.Keeps.refl s) ..
  | pcieMessageReceived _ _ _ _ => exact execPcieMessageReceived_keeps (State.Keeps.refl s) ..
  | errorMessageReceived _ _ _ _ => exact execErrorMessageReceived_keeps (State.Keeps.refl s) ..
  | pmeMessageReceived _ _ _ => exact execPmeMessageReceived_keeps (State.Keeps.refl s) ..
  | downstreamRequest _ _ _ _ _ _ _ _ _ => exact execDownstreamRequest_keeps (State.Keeps.refl s) ..
  | linkErrorCorrected _ _ _ => exact execLinkErrorCorrected_keeps (State.Keeps.refl s) ..
  | dpcTrigger _ _ _ _ => exact execDpcTrigger_keeps (State.Keeps.refl s) ..
  | dpcTriggerStatusClear _ _ => exact execDpcTriggerStatusClear_keeps (State.Keeps.refl s) ..
  | retEntryComplete _ => exact execRetEntryComplete_keeps (State.Keeps.refl s) ..
  | coreWake _ => exact execCoreWake_keeps (State.Keeps.refl s) ..
  | powerTransitionComplete _ => exact execPowerTransitionComplete_keeps (State.Keeps.refl s) ..
  | padholdRel _ => exact execPadholdRel_keeps (State.Keeps.refl s) ..
  | stackIdleRet _ => exact execStackIdleRet_keeps (State.Keeps.refl s) ..
  | stackWake _ _ => exact execStackWake_keeps (State.Keeps.refl s) ..
  | daybreak _ => exact execDaybreak_keeps (State.Keeps.refl s) ..
  | telemetrySample _ _ _ => exact execTelemetrySample_keeps (State.Keeps.refl s) ..
  | resetNAssert => exact execResetNAssert_keeps (State.Keeps.refl s)
  | startDevice => exact execStartDevice_keeps (State.Keeps.refl s)
  | phaseOverrun => exact execPhaseOverrun_keeps (State.Keeps.refl s)
  | slotSelection => exact execSlotSelection_keeps (State.Keeps.refl s)
  | handover => exact execHandover_keeps (State.Keeps.refl s)
  | releaseBoot => exact execReleaseBoot_keeps (State.Keeps.refl s)
  | lockBoot => exact execLockBoot_keeps (State.Keeps.refl s)
  | bootLockTimeout => exact execBootLockTimeout_keeps (State.Keeps.refl s)
  | releaseComplete => exact execReleaseComplete_keeps (State.Keeps.refl s)
  | imageSessionOpen _ => exact execImageSessionOpen_keeps (State.Keeps.refl s) ..
  | imageHeader _ => exact execImageHeader_keeps (State.Keeps.refl s) ..
  | imageBody _ => exact execImageBody_keeps (State.Keeps.refl s) ..
  | finalizeImg => exact execFinalizeImg_keeps (State.Keeps.refl s)
  | liveRestartComplete => exact execLiveRestartComplete_keeps (State.Keeps.refl s)
  | monitorPlacement => exact execMonitorPlacement_keeps (State.Keeps.refl s)
  | nonceSign _ _ => exact execNonceSign_keeps (State.Keeps.refl s) ..
  | slateRead _ _ _ _ _ => exact execSlateRead_keeps (State.Keeps.refl s) ..
  | slateWrite _ _ _ _ _ => exact execSlateWrite_keeps (State.Keeps.refl s) ..
  | slateStage _ _ _ _ _ => exact execSlateStage_keeps (State.Keeps.refl s) ..
  | slateCommit _ _ _ => exact execSlateCommit_keeps (State.Keeps.refl s) ..
  | slateDiscard _ _ _ => exact execSlateDiscard_keeps (State.Keeps.refl s) ..
  | snapshotTimeout _ => exact execSnapshotTimeout_keeps (State.Keeps.refl s) ..
  | writeBufferTimeout _ => exact execWriteBufferTimeout_keeps (State.Keeps.refl s) ..
  | logFldPointerWrite _ _ => exact execLogFldPointerWrite_keeps (State.Keeps.refl s) ..
  | proposalReject _ => exact execProposalReject_keeps (State.Keeps.refl s) ..
  | spiReadStatus => exact execSpiReadStatus_keeps (State.Keeps.refl s)
  | spiWriteMessage _ => exact execSpiWriteMessage_keeps (State.Keeps.refl s) ..
  | spiWriteMessageQuad _ => exact execSpiWriteMessageQuad_keeps (State.Keeps.refl s) ..
  | spiReadResponse _ => exact execSpiReadResponse_keeps (State.Keeps.refl s) ..
  | spiReadResponseQuad _ => exact execSpiReadResponseQuad_keeps (State.Keeps.refl s) ..
  | spiTransactionNak _ _ => exact execSpiTransactionNak_keeps (State.Keeps.refl s) ..
  | fieldFrame _ => exact execFieldFrame_keeps (State.Keeps.refl s) ..
  | busOffRecovery => exact execBusOffRecovery_keeps (State.Keeps.refl s)
  | hostMailboxGo _ => exact execHostMailboxGo_keeps (State.Keeps.refl s) ..
  | idcodeTap => exact execIdcodeTap_keeps (State.Keeps.refl s)
  | slateTap _ _ => exact execSlateTap_keeps (State.Keeps.refl s) ..
  | clearTap => exact execClearTap_keeps (State.Keeps.refl s)
  | scanTap => exact execScanTap_keeps (State.Keeps.refl s)
  | bypassTap _ => exact execBypassTap_keeps (State.Keeps.refl s) ..
  | lbistDemandStart _ _ => exact execLbistDemandStart_keeps (State.Keeps.refl s) ..
  | lbistAbort _ _ => exact execLbistAbort_keeps (State.Keeps.refl s) ..
  | lbistPatternTimeout _ _ => exact execLbistPatternTimeout_keeps (State.Keeps.refl s) ..
  | lbistRunEnd _ _ _ _ _ => exact execLbistRunEnd_keeps (State.Keeps.refl s) ..
  | blockReplacementComplete _ => exact execBlockReplacementComplete_keeps (State.Keeps.refl s) ..
  | blockTestEnd _ _ _ _ => exact execBlockTestEnd_keeps (State.Keeps.refl s) ..
  | thermalTrip _ => exact execThermalTrip_keeps (State.Keeps.refl s) ..
  | pwrgoodLoss => exact execPwrgoodLoss_keeps (State.Keeps.refl s)
  | registerWrite _ _ _ => exact execRegisterWrite_keeps (State.Keeps.refl s) ..
  | powerOn => exact execPowerOn_keeps (State.Keeps.refl s)
  | powerRemoved => exact execPowerRemoved_keeps (State.Keeps.refl s)
  | railRangeChange _ _ => exact execRailRangeChange_keeps (State.Keeps.refl s) ..
  | busError _ _ => exact execBusError_keeps (State.Keeps.refl s) ..
  | canFdClockSwitch => exact execCanFdClockSwitch_keeps (State.Keeps.refl s)
  | morningRestartComplete _ => exact execMorningRestartComplete_keeps (State.Keeps.refl s) ..
  | commandSlot _ => exact execCommandSlot_keeps (State.Keeps.refl s) ..

/-- What a command answers next keeps what State.Keeps speaks of. -/
theorem exec_next_keeps {i : Instr} {s t : State} (h : exec i s = .next t) : s.Keeps t := by
  have := exec_keeps i s
  rw [h] at this
  exact this

end Sys2Proof.Machine
end

