-- ==== Sys2Proof/Laws/Spares.lean ====
section
/-! SUPPORT. What an operation leaves of the registers of the cores (State.Spares): the lemmas of updates, and one lemma per
operation in Laws/Spares*.lean. With the predicate that holds of every core, they say that an operation changes no register;
with one that holds of every core but c, that it changes those of core c alone. -/

namespace Sys2Proof.Machine

/-- Every core that `X` selects has in `t` the registers that it has in `s`. -/
structure State.Spares (X : Nat → Prop) (s t : State) : Prop where
  core : ∀ c, X c → (t.core c).arch = (s.core c).arch

theorem State.Spares.refl (X : Nat → Prop) (s : State) : s.Spares X s := ⟨fun _ _ => rfl⟩

theorem State.Spares.trans {X : Nat → Prop} {a s t : State} (h : a.Spares X s) (g : s.Spares X t) : a.Spares X t :=
  ⟨fun c hc => (g.core c hc).trans (h.core c hc)⟩

/-- An update of fields other than the cores. -/
theorem State.Spares.upd {X : Nat → Prop} {a s : State} (h : a.Spares X s) {xpending : List Instr} {xfree : Nat} {xwaits : Bool} {xfuses : Fuses} {xmram : Mram} {xpins : Pins} {xstopped : Bool} {xscan : Bool} {xblocks : List (Nat × Block)} {xregions : List (Nat × Region)} {xchans : List (Nat × Chan)} {xpwr : List (Nat × Pwr)} {xdram : Mem} {xlineKey : List (Nat × W512)} {xfillKey : W512} {xpoison : List Nat} {xcapacity : Nat} {xnchan : Nat} {xgran : Nat} {xdevcorr : Bool} {xsram : Mem} {xslcRam : Mem} {xflash : Mem} {xnoon : Noon} {xwaymask : List (Nat × Nat)} {xambmp : List (Nat × W64)} {xroute : List (Nat × W64)} {xmroute : List (Nat × W64)} {xchipDrops : Nat} {xchipLog : Log} {xreplayT : Option Nat} {xtreeT : Option Nat} {xkeys : Keys} {xsd : Sd} {xboot : Boot} {xslate : Slate} {xlbist : List (Nat × Lb)} {xlbistSel : Nat × Nat} {xout : List Out} :
    a.Spares X ⟨xpending, xfree, xwaits, xfuses, xmram, xpins, xstopped, xscan, s.cores, xblocks, xregions, xchans, xpwr, xdram, xlineKey, xfillKey, xpoison, xcapacity, xnchan, xgran, xdevcorr, xsram, xslcRam, xflash, xnoon, xwaymask, xambmp, xroute, xmroute, xchipDrops, xchipLog, xreplayT, xtreeT, xkeys, xsd, xboot, xslate, xlbist, xlbistSel, xout⟩ := ⟨h.core⟩

/-- A core is changed in what Core.arch leaves out. -/
theorem State.Spares.setEq {X : Nat → Prop} {a s : State} {c : Nat} {k : Core} (h : a.Spares X s)
    (e : k.arch = (s.core c).arch) : a.Spares X (s.setCore c k) := by
  refine ⟨fun d hd => ?_⟩
  show (SMap.get Core.reset (SMap.set s.cores c k) d).arch = _
  rw [SMap.get_set]
  split
  · rename_i hdc; subst hdc; exact e.trans (h.core d hd)
  · exact h.core d hd

/-- A core that is not spared is changed. -/
theorem State.Spares.setNe {X : Nat → Prop} {a s : State} {c : Nat} {k : Core} (h : a.Spares X s) (hc : ¬ X c) :
    a.Spares X (s.setCore c k) := by
  refine ⟨fun d hd => ?_⟩
  show (SMap.get Core.reset (SMap.set s.cores c k) d).arch = _
  rw [SMap.get_set_ne]
  · exact h.core d hd
  · intro e; exact hc (e ▸ hd)

theorem State.Spares.modEq {X : Nat → Prop} {a s : State} {c : Nat} {f : Core → Core} (h : a.Spares X s)
    (e : ∀ k, (f k).arch = k.arch) : a.Spares X (s.modCore c f) := State.Spares.setEq h (e _)

theorem State.Spares.modNe {X : Nat → Prop} {a s : State} {c : Nat} {f : Core → Core} (h : a.Spares X s) (hc : ¬ X c) :
    a.Spares X (s.modCore c f) := State.Spares.setNe h hc

theorem State.Spares.snd {X : Nat → Prop} {a t : State} {α : Type} {x : α} {p : α × State} (e : p = (x, t))
    (h : a.Spares X p.2) : a.Spares X t := by
  rw [e] at h; exact h

theorem State.Spares.fst {X : Nat → Prop} {a t : State} {α : Type} {x : α} {p : State × α} (e : p = (t, x))
    (h : a.Spares X p.1) : a.Spares X t := by
  rw [e] at h; exact h

theorem State.Spares.getD {X : Nat → Prop} {a : State} {g : Option State} {s : State} (h : Option.Holds (a.Spares X) g)
    (hs : a.Spares X s) : a.Spares X (g.getD s) := by
  cases g with
  | none => exact hs
  | some t => exact h

theorem State.Spares.ite {X : Nat → Prop} {a : State} {c : Prop} [Decidable c] {x y : State} (hx : a.Spares X x)
    (hy : a.Spares X y) : a.Spares X (if c then x else y) := by
  split
  · exact hx
  · exact hy

theorem State.Spares.foldl {X : Nat → Prop} {a : State} {α : Type} {f : State → α → State} {l : List α} {s : State}
    (h : a.Spares X s) (hf : ∀ s x, a.Spares X s → a.Spares X (f s x)) : a.Spares X (l.foldl f s) := by
  induction l generalizing s with
  | nil => exact h
  | cons x t ih => exact ih (hf s x h)

theorem State.Spares.foldlSnd {X : Nat → Prop} {a : State} {α β : Type} {f : β × State → α → β × State} {l : List α}
    {p : β × State} (h : a.Spares X p.2) (hf : ∀ p x, a.Spares X p.2 → a.Spares X (f p x).2) :
    a.Spares X (l.foldl f p).2 := by
  induction l generalizing p with
  | nil => exact h
  | cons x t ih => exact ih (hf p x h)

theorem State.Spares.foldlFst {X : Nat → Prop} {a : State} {α β : Type} {f : State × β → α → State × β} {l : List α}
    {p : State × β} (h : a.Spares X p.1) (hf : ∀ p x, a.Spares X p.1 → a.Spares X (f p x).1) :
    a.Spares X (l.foldl f p).1 := by
  induction l generalizing p with
  | nil => exact h
  | cons x t ih => exact ih (hf p x h)

/-! ### Core operations that leave the registers -/

@[simp] theorem Core.brk_arch (k : Core) (cause : Nat) (pc : W64) : (k.brk cause pc).arch = k.arch := by
  unfold Core.brk
  split
  · rfl
  · split <;> rfl

@[simp] theorem Core.dropL1_arch (k : Core) (la : Nat) : (k.dropL1 la).arch = k.arch := rfl
@[simp] theorem Core.dropLine_arch (k : Core) (la : Nat) : (k.dropLine la).arch = k.arch := rfl
@[simp] theorem Core.setPend_arch (k : Core) (l : Lvl) (n : Nat) : (k.setPend l n).arch = k.arch := rfl
@[simp] theorem Core.tlbInval_arch (k : Core) (reg td : Nat) (page : Option Nat) : (k.tlbInval reg td page).arch = k.arch :=
  rfl

end Sys2Proof.Machine
end

