-- ==== Sys2Proof/Laws/SparesOps.lean ====
section
/-! SUPPORT. What an operation leaves of the registers of the cores (State.Spares): the shared operations of a core. -/

namespace Sys2Proof.Machine

theorem State.setBlock_spares {X : Nat → Prop} {a s : State} (h : a.Spares X s) (x1 x2) :
    a.Spares X (State.setBlock s x1 x2) := by
  unfold State.setBlock
  repeat' (first | with_reducible assumption | fail_if_no_progress (with_reducible apply State.Spares.upd))

theorem State.modBlock_spares {X : Nat → Prop} {a s : State} (h : a.Spares X s) (x1 x2) :
    a.Spares X (State.modBlock s x1 x2) := by
  unfold State.modBlock
  repeat' (first | with_reducible assumption | with_reducible apply State.setBlock_spares)

theorem State.modRegion_spares {X : Nat → Prop} {a s : State} (h : a.Spares X s) (x1 x2) :
    a.Spares X (State.modRegion s x1 x2) := by
  unfold State.modRegion
  repeat' (first | with_reducible assumption | fail_if_no_progress (with_reducible apply State.Spares.upd))

theorem State.modChan_spares {X : Nat → Prop} {a s : State} (h : a.Spares X s) (x1 x2) :
    a.Spares X (State.modChan s x1 x2) := by
  unfold State.modChan
  repeat' (first | with_reducible assumption | fail_if_no_progress (with_reducible apply State.Spares.upd))

theorem State.modDom_spares {X : Nat → Prop} {a s : State} (h : a.Spares X s) (x1 x2) :
    a.Spares X (State.modDom s x1 x2) := by
  unfold State.modDom
  repeat' (first | with_reducible assumption | fail_if_no_progress (with_reducible apply State.Spares.upd))

theorem State.modNoon_spares {X : Nat → Prop} {a s : State} (h : a.Spares X s) (x1) :
    a.Spares X (State.modNoon s x1) := by
  unfold State.modNoon
  repeat' (first | with_reducible assumption | fail_if_no_progress (with_reducible apply State.Spares.upd))

theorem State.modBoot_spares {X : Nat → Prop} {a s : State} (h : a.Spares X s) (x1) :
    a.Spares X (State.modBoot s x1) := by
  unfold State.modBoot
  repeat' (first | with_reducible assumption | fail_if_no_progress (with_reducible apply State.Spares.upd))

theorem State.modSlate_spares {X : Nat → Prop} {a s : State} (h : a.Spares X s) (x1) :
    a.Spares X (State.modSlate s x1) := by
  unfold State.modSlate
  repeat' (first | with_reducible assumption | fail_if_no_progress (with_reducible apply State.Spares.upd))

theorem State.modFn_spares {X : Nat → Prop} {a s : State} (h : a.Spares X s) (x1 x2) :
    a.Spares X (State.modFn s x1 x2) := by
  unfold State.modFn
  repeat' (first | with_reducible assumption | with_reducible apply State.modRegion_spares)

theorem State.modInst_spares {X : Nat → Prop} {a s : State} (h : a.Spares X s) (x1 x2 x3) :
    a.Spares X (State.modInst s x1 x2 x3) := by
  unfold State.modInst
  repeat' (first | with_reducible assumption | with_reducible apply State.modFn_spares)

theorem State.modPort_spares {X : Nat → Prop} {a s : State} (h : a.Spares X s) (x1 x2 x3) :
    a.Spares X (State.modPort s x1 x2 x3) := by
  unfold State.modPort
  repeat' (first | with_reducible assumption | with_reducible apply State.modRegion_spares)

theorem State.emit_spares {X : Nat → Prop} {a s : State} (h : a.Spares X s) (x1) :
    a.Spares X (State.emit s x1) := by
  unfold State.emit
  repeat' (first | with_reducible assumption | fail_if_no_progress (with_reducible apply State.Spares.upd))

theorem State.draw_spares {X : Nat → Prop} {a s : State} (h : a.Spares X s) :
    a.Spares X (State.draw s).2 := by
  unfold State.draw
  repeat' (first | with_reducible assumption | dsimp only | fail_if_no_progress (with_reducible apply State.Spares.upd))

theorem State.wakeCore_spares {X : Nat → Prop} {a s : State} (h : a.Spares X s) (x1 x2) :
    a.Spares X (State.wakeCore s x1 x2) := by
  unfold State.wakeCore
  repeat' (first
      | with_reducible assumption | dsimp only | with_reducible apply State.modDom_spares
      | with_reducible apply State.Spares.ite)

theorem State.setRoute_spares {X : Nat → Prop} {a s : State} (h : a.Spares X s) (x1 x2 x3) :
    a.Spares X (State.setRoute s x1 x2 x3) := by
  unfold State.setRoute
  repeat' (first
      | with_reducible assumption | fail_if_no_progress (with_reducible apply State.Spares.upd)
      | with_reducible apply State.Spares.ite)

theorem State.countDrop_spares {X : Nat → Prop} {a s : State} (h : a.Spares X s) (x1) :
    a.Spares X (State.countDrop s x1) := by
  unfold State.countDrop
  repeat' (first
      | with_reducible assumption | with_reducible apply State.modRegion_spares
      | fail_if_no_progress (with_reducible apply State.Spares.upd) | with_reducible apply State.Spares.ite)

theorem State.deliverPost_spares {X : Nat → Prop} {a s : State} (h : a.Spares X s) (x1 x2) :
    a.Spares X (State.deliverPost s x1 x2) := by
  unfold State.deliverPost
  repeat' (first
      | with_reducible assumption | dsimp only | with_reducible apply State.setRoute_spares
      | with_reducible apply State.wakeCore_spares
      | ((with_reducible apply State.Spares.modEq); on_goal 2 => (first | rfl | simp only [Core.brk_arch] | (intro k; rfl) | (intro k; simp only [Core.brk_arch]; done) | (intro k; split <;> first | rfl | simp only [Core.brk_arch])))
      | with_reducible apply State.Spares.ite)

theorem State.post_spares {X : Nat → Prop} {a s : State} (h : a.Spares X s) (x1) :
    a.Spares X (State.post s x1) := by
  unfold State.post
  repeat' (first
      | with_reducible assumption | with_reducible apply State.deliverPost_spares
      | with_reducible apply State.countDrop_spares | with_reducible apply State.Spares.ite)

theorem State.posts_spares {X : Nat → Prop} {a s : State} (h : a.Spares X s) (x1) :
    a.Spares X (State.posts s x1) := by
  unfold State.posts
  repeat' (first
      | with_reducible assumption | intro _ | with_reducible apply State.post_spares | with_reducible apply State.Spares.foldl)

theorem State.deliverHeld_spares {X : Nat → Prop} {a s : State} (h : a.Spares X s) (x1 x2) :
    a.Spares X (State.deliverHeld s x1 x2) := by
  unfold State.deliverHeld
  repeat' (first
      | with_reducible assumption | dsimp only
      | ((with_reducible apply State.Spares.modEq); on_goal 2 => (first | rfl | simp only [Core.brk_arch] | (intro k; rfl) | (intro k; simp only [Core.brk_arch]; done) | (intro k; split <;> first | rfl | simp only [Core.brk_arch])))
      | with_reducible apply State.setRoute_spares | with_reducible apply State.Spares.ite)

theorem State.writeRoute_spares {X : Nat → Prop} {a s : State} (h : a.Spares X s) (x1 x2 x3) :
    a.Spares X (State.writeRoute s x1 x2 x3) := by
  unfold State.writeRoute
  repeat' (first
      | with_reducible assumption | dsimp only | with_reducible apply State.countDrop_spares
      | with_reducible apply State.setRoute_spares | with_reducible apply State.Spares.ite)

theorem State.modLog_spares {X : Nat → Prop} {a s : State} (h : a.Spares X s) (x1 x2) :
    a.Spares X (State.modLog s x1 x2) := by
  unfold State.modLog
  repeat' (first
      | with_reducible assumption | with_reducible apply State.modRegion_spares
      | fail_if_no_progress (with_reducible apply State.Spares.upd) | with_reducible apply State.Spares.ite)

theorem State.logRecord_spares {X : Nat → Prop} {a s : State} (h : a.Spares X s) (x1 x2) :
    a.Spares X (State.logRecord s x1 x2) := by
  unfold State.logRecord
  repeat' (first
      | with_reducible assumption | dsimp only | with_reducible apply State.modLog_spares
      | with_reducible apply State.post_spares | with_reducible apply State.Spares.ite | split)

theorem State.record_spares {X : Nat → Prop} {a s : State} (h : a.Spares X s) (x1) :
    a.Spares X (State.record s x1) := by
  unfold State.record
  repeat' (first
      | with_reducible assumption | dsimp only | with_reducible apply State.logRecord_spares
      | with_reducible apply State.Spares.ite)

theorem State.postFrom_spares {X : Nat → Prop} {a s : State} (h : a.Spares X s) (x1 x2 x3 x4) :
    a.Spares X (State.postFrom s x1 x2 x3 x4) := by
  unfold State.postFrom
  repeat' (first
      | with_reducible assumption | dsimp only | with_reducible apply State.record_spares
      | with_reducible apply State.countDrop_spares | with_reducible apply State.deliverPost_spares
      | with_reducible apply State.Spares.ite)

theorem State.message_spares {X : Nat → Prop} {a s : State} (h : a.Spares X s) (x1 x2 x3 x4) :
    a.Spares X (State.message s x1 x2 x3 x4) := by
  unfold State.message
  repeat' (first
      | with_reducible assumption | with_reducible apply State.postFrom_spares | with_reducible apply State.countDrop_spares
      | with_reducible apply State.Spares.ite)

theorem State.poisonProg_spares {X : Nat → Prop} {a s : State} (h : a.Spares X s) (x1 x2 x3 x4) :
    a.Spares X (State.poisonProg s x1 x2 x3 x4) := by
  unfold State.poisonProg
  repeat' (first | with_reducible assumption | with_reducible apply State.record_spares)

theorem State.poisonRecord_spares {X : Nat → Prop} {a s : State} (h : a.Spares X s) (x1 x2 x3) :
    a.Spares X (State.poisonRecord s x1 x2 x3) := by
  unfold State.poisonRecord
  repeat' (first | with_reducible assumption | with_reducible apply State.poisonProg_spares)

end Sys2Proof.Machine
end

