-- ==== Sys2Proof/Laws/SparesLines.lean ====
section
/-! SUPPORT. What an operation leaves of the registers of the cores (State.Spares): lines, stores and coherence. -/

namespace Sys2Proof.Machine

theorem State.dramStore_spares {X : Nat → Prop} {a s : State} (h : a.Spares X s) (x1 x2 x3 x4) :
    a.Spares X (State.dramStore s x1 x2 x3 x4) := by
  unfold State.dramStore
  repeat' (first | with_reducible assumption | fail_if_no_progress (with_reducible apply State.Spares.upd))

theorem State.chanTouch_spares {X : Nat → Prop} {a s : State} (h : a.Spares X s) (x1) :
    a.Spares X (State.chanTouch s x1) := by
  unfold State.chanTouch
  repeat' (first
      | with_reducible assumption | dsimp only | with_reducible apply State.modChan_spares
      | with_reducible apply State.modDom_spares | with_reducible apply State.Spares.ite)

theorem State.memWrite_spares {X : Nat → Prop} {a s : State} (h : a.Spares X s) (x1 x2 x3 x4 x5) :
    a.Spares X (State.memWrite s x1 x2 x3 x4 x5) := by
  unfold State.memWrite
  repeat' (first
      | with_reducible assumption | dsimp only | with_reducible apply State.chanTouch_spares
      | with_reducible apply State.dramStore_spares | with_reducible apply State.modChan_spares
      | with_reducible apply State.Spares.ite)

theorem State.mergeClose_spares {X : Nat → Prop} {a s : State} (h : a.Spares X s) (x1 x2) :
    a.Spares X (State.mergeClose s x1 x2) := by
  unfold State.mergeClose
  repeat' (first
      | with_reducible assumption | dsimp only | with_reducible apply State.modChan_spares
      | with_reducible apply State.memWrite_spares | with_reducible apply State.Spares.ite | split)

theorem State.memRead_spares {X : Nat → Prop} {a s : State} (h : a.Spares X s) (x1 x2 x3) :
    a.Spares X (State.memRead s x1 x2 x3).2 := by
  unfold State.memRead
  repeat' (first
      | with_reducible assumption | dsimp only | with_reducible apply State.mergeClose_spares
      | with_reducible apply State.chanTouch_spares | split)

theorem State.memPartial_spares {X : Nat → Prop} {a s : State} (h : a.Spares X s) (x1 x2 x3 x4 x5) :
    a.Spares X (State.memPartial s x1 x2 x3 x4 x5) := by
  unfold State.memPartial
  repeat' (first
      | with_reducible assumption | dsimp only | with_reducible apply State.chanTouch_spares
      | with_reducible apply State.modChan_spares | with_reducible apply State.mergeClose_spares
      | with_reducible apply State.Spares.ite | split)

theorem State.slcFill_spares {X : Nat → Prop} {a s : State} (h : a.Spares X s) (x1 x2 x3 x4 x5 x6 x7) :
    a.Spares X (State.slcFill s x1 x2 x3 x4 x5 x6 x7) := by
  unfold State.slcFill
  repeat' (first
      | with_reducible assumption | dsimp only | with_reducible apply State.setBlock_spares
      | with_reducible apply State.memWrite_spares | with_reducible apply State.Spares.ite | split)

theorem State.homeData_spares {X : Nat → Prop} {a s : State} (h : a.Spares X s) (x1 x2 x3 x4) :
    a.Spares X (State.homeData s x1 x2 x3 x4).2 := by
  unfold State.homeData
  repeat' (first
      | with_reducible assumption | dsimp only | with_reducible apply State.modBlock_spares
      | with_reducible apply State.memRead_spares | with_reducible apply State.slcFill_spares | split)

theorem State.putDir_spares {X : Nat → Prop} {a s : State} (h : a.Spares X s) (x1 x2) :
    a.Spares X (State.putDir s x1 x2) := by
  unfold State.putDir
  repeat' (first | with_reducible assumption | with_reducible apply State.modBlock_spares)

theorem State.delDir_spares {X : Nat → Prop} {a s : State} (h : a.Spares X s) (x1 x2) :
    a.Spares X (State.delDir s x1 x2) := by
  unfold State.delDir
  repeat' (first | with_reducible assumption | with_reducible apply State.modBlock_spares)

theorem State.homeEvn_spares {X : Nat → Prop} {a s : State} (h : a.Spares X s) (x1 x2) :
    a.Spares X (State.homeEvn s x1 x2) := by
  unfold State.homeEvn
  repeat' (first
      | with_reducible assumption | dsimp only | with_reducible apply State.delDir_spares
      | with_reducible apply State.putDir_spares | with_reducible apply State.Spares.ite | split)

theorem State.homeWb_spares {X : Nat → Prop} {a s : State} (h : a.Spares X s) (x1 x2) :
    a.Spares X (State.homeWb s x1 x2) := by
  unfold State.homeWb
  repeat' (first
      | with_reducible assumption | with_reducible apply State.homeEvn_spares | with_reducible apply State.slcFill_spares)

theorem State.release_spares {X : Nat → Prop} {a s : State} (h : a.Spares X s) (x1 x2) :
    a.Spares X (State.release s x1 x2) := by
  unfold State.release
  repeat' (first
      | with_reducible assumption | with_reducible apply State.homeWb_spares | with_reducible apply State.homeEvn_spares
      | with_reducible apply State.Spares.ite)

theorem State.trimVc_spares {X : Nat → Prop} {a s : State} (h : a.Spares X s) (c n : Nat) : a.Spares X (s.trimVc c n) := by
  induction n generalizing s with
  | zero => exact h
  | succ n ih =>
    unfold State.trimVc
    split
    · exact h
    · split
      · exact h
      · refine ih (State.release_spares (State.Spares.setEq h ?_) _ _)
        rfl

theorem State.l2Install_spares {X : Nat → Prop} {a s : State} (h : a.Spares X s) (x1 x2 x3) :
    a.Spares X (State.l2Install s x1 x2 x3) := by
  unfold State.l2Install
  repeat' (first
      | with_reducible assumption | dsimp only | with_reducible apply State.release_spares
      | ((with_reducible apply State.Spares.setEq); on_goal 2 => (first | rfl | simp only [Core.brk_arch] | (intro k; rfl) | (intro k; simp only [Core.brk_arch]; done) | (intro k; split <;> first | rfl | simp only [Core.brk_arch])))
      | with_reducible apply State.trimVc_spares | split)

theorem State.sbInstall_spares {X : Nat → Prop} {a s : State} (h : a.Spares X s) (x1 x2) :
    a.Spares X (State.sbInstall s x1 x2) := by
  unfold State.sbInstall
  repeat' (first
      | with_reducible assumption | dsimp only | with_reducible apply State.release_spares
      | ((with_reducible apply State.Spares.setEq); on_goal 2 => (first | rfl | simp only [Core.brk_arch] | (intro k; rfl) | (intro k; simp only [Core.brk_arch]; done) | (intro k; split <;> first | rfl | simp only [Core.brk_arch])))
      | with_reducible apply State.Spares.ite | split)

theorem State.recallFrom_spares {X : Nat → Prop} {a s : State} (h : a.Spares X s) (x1 x2) :
    a.Spares X (State.recallFrom s x1 x2) := by
  unfold State.recallFrom
  repeat' (first
      | with_reducible assumption | dsimp only
      | ((with_reducible apply State.Spares.setEq); on_goal 2 => (first | rfl | simp only [Core.brk_arch] | (intro k; rfl) | (intro k; simp only [Core.brk_arch]; done) | (intro k; split <;> first | rfl | simp only [Core.brk_arch])))
      | with_reducible apply State.slcFill_spares | with_reducible apply State.Spares.ite | split)

theorem State.recall_spares {X : Nat → Prop} {a s : State} (h : a.Spares X s) (x1) :
    a.Spares X (State.recall s x1) := by
  unfold State.recall
  repeat' (first
      | with_reducible assumption | intro _ | dsimp only | with_reducible apply State.delDir_spares
      | with_reducible apply State.recallFrom_spares | with_reducible apply State.Spares.foldl | split)

theorem State.dirAlloc_spares {X : Nat → Prop} {a s : State} (h : a.Spares X s) (x1 x2) :
    a.Spares X (State.dirAlloc s x1 x2) := by
  unfold State.dirAlloc
  repeat' (first
      | with_reducible assumption | dsimp only | with_reducible apply State.recall_spares
      | with_reducible apply State.modBlock_spares | split)

theorem State.homeStart_spares {X : Nat → Prop} {a s : State} (h : a.Spares X s) (x1 x2) :
    a.Spares X (State.homeStart s x1 x2) := by
  unfold State.homeStart
  repeat' (first
      | with_reducible assumption | dsimp only | with_reducible apply State.homeData_spares
      | with_reducible apply State.dirAlloc_spares | with_reducible apply State.putDir_spares
      | with_reducible apply State.Spares.ite | split)

theorem State.await_spares {X : Nat → Prop} {a s : State} (h : a.Spares X s) :
    a.Spares X (State.await s) := by
  unfold State.await
  repeat' (first | with_reducible assumption | fail_if_no_progress (with_reducible apply State.Spares.upd))

theorem State.homeRequest_spares {X : Nat → Prop} {a s : State} (h : a.Spares X s) (x1 x2) :
    a.Spares X (State.homeRequest s x1 x2) := by
  unfold State.homeRequest
  repeat' (first
      | with_reducible assumption | dsimp only | with_reducible apply State.modBlock_spares
      | with_reducible apply State.homeStart_spares | with_reducible apply State.Spares.ite | split)

theorem State.setGrant_spares {X : Nat → Prop} {a s : State} (h : a.Spares X s) (x1 x2) :
    a.Spares X (State.setGrant s x1 x2) := by
  unfold State.setGrant
  repeat' (first | with_reducible assumption | with_reducible apply State.putDir_spares | split)

theorem State.forward_spares {X : Nat → Prop} {a s : State} (h : a.Spares X s) (x1 x2) :
    a.Spares X (State.forward s x1 x2) := by
  unfold State.forward
  repeat' (first
      | with_reducible assumption | dsimp only
      | ((with_reducible apply State.Spares.setEq); on_goal 2 => (first | rfl | simp only [Core.brk_arch] | (intro k; rfl) | (intro k; simp only [Core.brk_arch]; done) | (intro k; split <;> first | rfl | simp only [Core.brk_arch])))
      | with_reducible apply State.slcFill_spares | with_reducible apply State.setGrant_spares
      | with_reducible apply State.homeData_spares | with_reducible apply State.Spares.ite | split)

theorem State.invalidate_spares {X : Nat → Prop} {a s : State} (h : a.Spares X s) (x1 x2) :
    a.Spares X (State.invalidate s x1 x2) := by
  unfold State.invalidate
  repeat' (first
      | with_reducible assumption | dsimp only
      | ((with_reducible apply State.Spares.modEq); on_goal 2 => (first | rfl | simp only [Core.brk_arch] | (intro k; rfl) | (intro k; simp only [Core.brk_arch]; done) | (intro k; split <;> first | rfl | simp only [Core.brk_arch])))
      | with_reducible apply State.setGrant_spares | split)

theorem State.nextQueued_spares {X : Nat → Prop} {a s : State} (h : a.Spares X s) (x1) :
    a.Spares X (State.nextQueued s x1) := by
  unfold State.nextQueued
  repeat' (first
      | with_reducible assumption | dsimp only | with_reducible apply State.homeStart_spares
      | with_reducible apply State.modBlock_spares | split)

theorem State.ackGrant_spares {X : Nat → Prop} {a s : State} (h : a.Spares X s) (x1) :
    a.Spares X (State.ackGrant s x1) := by
  unfold State.ackGrant
  repeat' (first
      | with_reducible assumption | dsimp only | with_reducible apply State.putDir_spares
      | ((with_reducible apply State.Spares.modEq); on_goal 2 => (first | rfl | simp only [Core.brk_arch] | (intro k; rfl) | (intro k; simp only [Core.brk_arch]; done) | (intro k; split <;> first | rfl | simp only [Core.brk_arch])))
      | with_reducible apply State.sbInstall_spares | with_reducible apply State.l2Install_spares
      | with_reducible apply State.nextQueued_spares | with_reducible apply State.Spares.ite | split)

theorem State.settle_spares {X : Nat → Prop} {a s : State} (h : a.Spares X s) (la n : Nat) : a.Spares X (s.settle la n) := by
  induction n generalizing s with
  | zero => exact h
  | succ n ih =>
    unfold State.settle
    split
    · exact h
    · exact ih (State.ackGrant_spares (State.Spares.foldl (State.forward_spares h _ _) (fun _ _ hs => State.invalidate_spares hs _ _)) _)

theorem State.request_spares {X : Nat → Prop} {a s : State} (h : a.Spares X s) (x1 x2) :
    a.Spares X (State.request s x1 x2) := by
  unfold State.request
  repeat' (first
      | with_reducible assumption | dsimp only | with_reducible apply State.settle_spares
      | with_reducible apply State.homeRequest_spares)

theorem State.orWait_spares {X : Nat → Prop} {a s t : State} (h : a.Spares X s) (ht : a.Spares X t) : a.Spares X (s.orWait t) := by
  unfold State.orWait
  split
  · exact h
  · exact ht

theorem State.crd_spares {X : Nat → Prop} {a s : State} (h : a.Spares X s) (x1 x2 x3) :
    a.Spares X (State.crd s x1 x2 x3).2 := by
  unfold State.crd
  repeat' (first
      | with_reducible assumption | dsimp only | with_reducible apply State.await_spares
      | with_reducible apply State.settle_spares
      | ((with_reducible apply State.Spares.setEq); on_goal 2 => (first | rfl | simp only [Core.brk_arch] | (intro k; rfl) | (intro k; simp only [Core.brk_arch]; done) | (intro k; split <;> first | rfl | simp only [Core.brk_arch])))
      | with_reducible apply State.slcFill_spares | with_reducible apply State.homeData_spares
      | with_reducible apply State.putDir_spares | with_reducible apply State.Spares.ite | split)

theorem State.cwr_spares {X : Nat → Prop} {a s : State} (h : a.Spares X s) (x1 x2 x3 x4 x5) :
    a.Spares X (State.cwr s x1 x2 x3 x4 x5) := by
  unfold State.cwr
  repeat' (first
      | with_reducible assumption | dsimp only | with_reducible apply State.record_spares
      | with_reducible apply State.await_spares | with_reducible apply State.recall_spares
      | with_reducible apply State.settle_spares | with_reducible apply State.slcFill_spares
      | with_reducible apply State.memPartial_spares | with_reducible apply State.homeData_spares
      | with_reducible apply State.Spares.ite)

theorem State.poisonLine_spares {X : Nat → Prop} {a s : State} (h : a.Spares X s) (x1 x2 x3) :
    a.Spares X (State.poisonLine s x1 x2 x3) := by
  unfold State.poisonLine
  repeat' (first
      | with_reducible assumption | with_reducible apply State.slcFill_spares | with_reducible apply State.recall_spares)

theorem State.readPa_spares {X : Nat → Prop} {a s : State} (h : a.Spares X s) (x1 x2 x3 x4) :
    a.Spares X (State.readPa s x1 x2 x3 x4).2 := by
  unfold State.readPa
  repeat' (first | with_reducible assumption | dsimp only | with_reducible apply State.crd_spares | split)

theorem SMap.get_map_arch (d : Core) (f : Core → Core) (hf : ∀ k, (f k).arch = k.arch) (m : List (Nat × Core)) (c : Nat) :
    (SMap.get d (m.map (fun e => (e.1, f e.2))) c).arch = (SMap.get d m c).arch := by
  induction m with
  | nil => rfl
  | cons e t ih =>
    obtain ⟨i, k⟩ := e
    simp only [List.map_cons, SMap.get]
    split
    · exact hf k
    · exact ih

theorem State.loseResv_spares {X : Nat → Prop} {a s : State} (h : a.Spares X s) (la : Nat) : a.Spares X (s.loseResv la) := by
  refine ⟨fun c hc => ?_⟩
  refine Eq.trans ?_ (h.core c hc)
  exact SMap.get_map_arch Core.reset (fun k => if k.resv = some la then { k with resv := none } else k)
    (fun k => by split <;> rfl) s.cores c

theorem State.writePa_spares {X : Nat → Prop} {a s : State} (h : a.Spares X s) (x1 x2 x3 x4 x5) :
    a.Spares X (State.writePa s x1 x2 x3 x4 x5) := by
  unfold State.writePa
  repeat' (first
      | with_reducible assumption | with_reducible apply State.loseResv_spares | with_reducible apply State.cwr_spares
      | fail_if_no_progress (with_reducible apply State.Spares.upd) | with_reducible apply State.Spares.ite)

theorem State.acquire_spares {X : Nat → Prop} {a s : State} (h : a.Spares X s) (x1 x2 x3 x4 x5 x6) :
    a.Spares X (State.acquire s x1 x2 x3 x4 x5 x6) := by
  unfold State.acquire
  repeat' (first
      | with_reducible assumption | dsimp only
      | ((with_reducible apply State.Spares.setEq); on_goal 2 => (first | rfl | simp only [Core.brk_arch] | (intro k; rfl) | (intro k; simp only [Core.brk_arch]; done) | (intro k; split <;> first | rfl | simp only [Core.brk_arch])))
      | with_reducible apply State.l2Install_spares | with_reducible apply State.request_spares
      | with_reducible apply State.Spares.ite | split)

theorem State.l1dTouch_spares {X : Nat → Prop} {a s : State} (h : a.Spares X s) (x1 x2) :
    a.Spares X (State.l1dTouch s x1 x2) := by
  unfold State.l1dTouch
  repeat' (first
      | with_reducible assumption
      | ((with_reducible apply State.Spares.modEq); on_goal 2 => (first | rfl | simp only [Core.brk_arch] | (intro k; rfl) | (intro k; simp only [Core.brk_arch]; done) | (intro k; split <;> first | rfl | simp only [Core.brk_arch]))))

theorem State.loadLine_spares {X : Nat → Prop} {a s : State} (h : a.Spares X s) (x1 x2 x3 x4 x5) :
    a.Spares X (State.loadLine s x1 x2 x3 x4 x5).2 := by
  unfold State.loadLine
  repeat' (first
      | with_reducible assumption | dsimp only | with_reducible apply State.crd_spares
      | with_reducible apply State.l1dTouch_spares | with_reducible apply State.acquire_spares | split)

theorem State.storeLine_spares {X : Nat → Prop} {a s : State} (h : a.Spares X s) (x1 x2 x3 x4 x5 x6) :
    a.Spares X (State.storeLine s x1 x2 x3 x4 x5 x6) := by
  unfold State.storeLine
  repeat' (first
      | with_reducible assumption | dsimp only | with_reducible apply State.cwr_spares
      | with_reducible apply State.request_spares | with_reducible apply State.acquire_spares
      | ((with_reducible apply State.Spares.modEq); on_goal 2 => (first | rfl | simp only [Core.brk_arch] | (intro k; rfl) | (intro k; simp only [Core.brk_arch]; done) | (intro k; split <;> first | rfl | simp only [Core.brk_arch])))
      | with_reducible apply State.Spares.ite | split)

end Sys2Proof.Machine
end

