-- ==== Sys2Proof/Laws/SparesCore.lean ====
section
/-! SUPPORT. What an operation leaves of the registers of the cores (State.Spares): taking events, retiring and issuing. -/

namespace Sys2Proof.Machine

theorem State.ptRead_spares {X : Nat → Prop} {a s : State} (h : a.Spares X s) (x1 x2 x3 x4) :
    a.Spares X (State.ptRead s x1 x2 x3 x4).2 := by
  unfold State.ptRead
  repeat' (first
      | with_reducible assumption | dsimp only | with_reducible apply State.loadLine_spares
      | with_reducible apply State.readPa_spares | split)

theorem State.setWcache_spares {X : Nat → Prop} {a s : State} (h : a.Spares X s) (x1 x2 x3) :
    a.Spares X (State.setWcache s x1 x2 x3) := by
  unfold State.setWcache
  repeat' (first
      | with_reducible assumption | dsimp only
      | ((with_reducible apply State.Spares.modEq); on_goal 2 => (first | rfl | exact Core.brk_arch _ _ _ | (intro k; exact Core.brk_arch _ _ _) | simp only [Core.brk_arch] | (intro k; rfl) | (intro k; simp only [Core.brk_arch]; done) | (intro k; split <;> first | rfl | simp only [Core.brk_arch])))
      | with_reducible apply State.modRegion_spares | split)

theorem State.setMarks_spares {X : Nat → Prop} {a s : State} (h : a.Spares X s) (x1) :
    a.Spares X (State.setMarks s x1) := by
  unfold State.setMarks
  repeat' (first
      | with_reducible assumption | intro _ | dsimp only | with_reducible apply State.readPa_spares
      | with_reducible apply State.writePa_spares | with_reducible apply State.Spares.foldl
      | with_reducible apply State.Spares.ite)

theorem State.tableEntry_spares {X : Nat → Prop} {a s : State} (h : a.Spares X s) (x1 x2 x3 x4 x5 x6 x7) :
    a.Spares X (State.tableEntry s x1 x2 x3 x4 x5 x6 x7).2 := by
  unfold State.tableEntry
  repeat' (first
      | with_reducible assumption | dsimp only | with_reducible apply State.ptRead_spares
      | with_reducible apply State.setMarks_spares | with_reducible apply State.setWcache_spares
      | with_reducible apply State.draw_spares | split)

theorem State.walkPhys_spares {X : Nat → Prop} {a s : State} (h : a.Spares X s) (x1 x2 x3 x4 x5 x6 x7 x8 x9 x10) :
    a.Spares X (State.walkPhys s x1 x2 x3 x4 x5 x6 x7 x8 x9 x10).2 := by
  induction x9 generalizing s x1 x2 x3 x4 x5 x6 x7 x8 x10 with
  | zero =>
    unfold State.walkPhys
    repeat' (with_reducible assumption)
  | succ n ih =>
    unfold State.walkPhys
    repeat' (first
        | with_reducible assumption | dsimp only | with_reducible apply ih | with_reducible apply State.tableEntry_spares
        | split)

theorem State.stage2_spares {X : Nat → Prop} {a s : State} (h : a.Spares X s) (x1 x2 x3 x4 x5) :
    a.Spares X (State.stage2 s x1 x2 x3 x4 x5).2 := by
  unfold State.stage2
  repeat' (first | with_reducible assumption | dsimp only | with_reducible apply State.walkPhys_spares | split)

theorem State.walkGuest_spares {X : Nat → Prop} {a s : State} (h : a.Spares X s) (x1 x2 x3 x4 x5 x6 x7 x8) :
    a.Spares X (State.walkGuest s x1 x2 x3 x4 x5 x6 x7 x8).2 := by
  induction x7 generalizing s x1 x2 x3 x4 x5 x6 x8 with
  | zero =>
    unfold State.walkGuest
    repeat' (with_reducible assumption)
  | succ n ih =>
    unfold State.walkGuest
    repeat' (first
        | with_reducible assumption | dsimp only | with_reducible apply ih | with_reducible apply State.stage2_spares
        | with_reducible apply State.tableEntry_spares | with_reducible refine State.Spares.snd (by assumption) ?_ | split)

theorem State.walkAll_spares {X : Nat → Prop} {a s : State} (h : a.Spares X s) (x1 x2 x3 x4 x5) :
    a.Spares X (State.walkAll s x1 x2 x3 x4 x5).2 := by
  unfold State.walkAll
  repeat' (first
      | with_reducible assumption | dsimp only | with_reducible apply State.walkPhys_spares
      | with_reducible apply State.stage2_spares | with_reducible apply State.walkGuest_spares
      | with_reducible refine State.Spares.snd (by assumption) ?_ | split)

theorem State.setTlb_spares {X : Nat → Prop} {a s : State} (h : a.Spares X s) (x1 x2 x3) :
    a.Spares X (State.setTlb s x1 x2 x3) := by
  unfold State.setTlb
  repeat' (first
      | with_reducible assumption | dsimp only
      | ((with_reducible apply State.Spares.modEq); on_goal 2 => (first | rfl | exact Core.brk_arch _ _ _ | (intro k; exact Core.brk_arch _ _ _) | simp only [Core.brk_arch] | (intro k; rfl) | (intro k; simp only [Core.brk_arch]; done) | (intro k; split <;> first | rfl | simp only [Core.brk_arch])))
      | with_reducible apply State.modRegion_spares | split)

theorem State.lookup_spares {X : Nat → Prop} {a s : State} (h : a.Spares X s) (x1 x2 x3 x4 x5) :
    a.Spares X (State.lookup s x1 x2 x3 x4 x5).2 := by
  unfold State.lookup
  repeat' (first
      | with_reducible assumption | dsimp only | with_reducible apply State.walkAll_spares
      | with_reducible apply State.draw_spares | split)

theorem State.commitXlat_spares {X : Nat → Prop} {a s : State} (h : a.Spares X s) (x1 x2 x3 x4 x5 x6) :
    a.Spares X (State.commitXlat s x1 x2 x3 x4 x5 x6) := by
  unfold State.commitXlat
  repeat' (first
      | with_reducible assumption | dsimp only | with_reducible apply State.setMarks_spares
      | with_reducible apply State.setTlb_spares | with_reducible apply State.Spares.ite)

theorem State.cycles_spares {X : Nat → Prop} {a s : State} (h : a.Spares X s) (x1 x2) (hcx1 : ¬ X x1) :
    a.Spares X (State.cycles s x1 x2) := by
  unfold State.cycles
  repeat' (first
      | with_reducible assumption | dsimp only | ((with_reducible refine State.Spares.setNe ?_ ?_); on_goal 2 => assumption)
      | with_reducible apply State.draw_spares | with_reducible apply State.Spares.ite)

theorem State.writeStore_spares {X : Nat → Prop} {a s : State} (h : a.Spares X s) (x1 x2) :
    a.Spares X (State.writeStore s x1 x2) := by
  unfold State.writeStore
  repeat' (first
      | with_reducible assumption | with_reducible apply State.storeLine_spares
      | ((with_reducible apply State.Spares.modEq); on_goal 2 => (first | rfl | exact Core.brk_arch _ _ _ | (intro k; exact Core.brk_arch _ _ _) | simp only [Core.brk_arch] | (intro k; rfl) | (intro k; simp only [Core.brk_arch]; done) | (intro k; split <;> first | rfl | simp only [Core.brk_arch])))
      | with_reducible apply State.writePa_spares | with_reducible apply State.Spares.ite)

theorem State.flushFetch_spares {X : Nat → Prop} {a s : State} (h : a.Spares X s) (x1 x2) (hcx1 : ¬ X x1) :
    a.Spares X (State.flushFetch s x1 x2) := by
  unfold State.flushFetch
  repeat' (first
      | with_reducible assumption | dsimp only | ((with_reducible refine State.Spares.setNe ?_ ?_); on_goal 2 => assumption)
      | with_reducible apply State.Spares.ite)

theorem State.frameLine_spares {X : Nat → Prop} {a s : State} (h : a.Spares X s) (x1 x2 x3 x4) :
    a.Spares X (State.frameLine s x1 x2 x3 x4).2 := by
  unfold State.frameLine
  repeat' (first
      | with_reducible assumption | dsimp only | with_reducible apply State.stage2_spares
      | with_reducible apply State.setMarks_spares | with_reducible refine State.Spares.snd (by assumption) ?_
      | with_reducible apply State.Spares.ite | split)

theorem State.frameLines_spares {X : Nat → Prop} {a s : State} (h : a.Spares X s) (x1 x2 x3 x4) :
    a.Spares X (State.frameLines s x1 x2 x3 x4).2 := by
  unfold State.frameLines
  repeat' (first
      | with_reducible assumption | dsimp only | with_reducible apply State.frameLine_spares
      | with_reducible refine State.Spares.snd (by assumption) ?_ | split)

theorem State.stopAtM_spares {X : Nat → Prop} {a s : State} (h : a.Spares X s) (x1) (hcx1 : ¬ X x1) :
    a.Spares X (State.stopAtM s x1) := by
  unfold State.stopAtM
  repeat' (first
      | with_reducible assumption | with_reducible apply State.record_spares
      | ((with_reducible refine State.Spares.modNe ?_ ?_); on_goal 2 => assumption))

theorem State.enter_spares {X : Nat → Prop} {a s : State} (h : a.Spares X s) (x1 x2 x3 x4 x5 x6) (hcx1 : ¬ X x1) :
    a.Spares X (State.enter s x1 x2 x3 x4 x5 x6) := by
  induction x2 generalizing s x3 x4 x5 x6 with
  | zero =>
    unfold State.enter
    repeat' (first | with_reducible assumption | with_reducible apply State.stopAtM_spares)
  | succ n ih =>
    unfold State.enter
    repeat' (first
        | with_reducible assumption | dsimp only | with_reducible apply ih | with_reducible apply State.stopAtM_spares
        | with_reducible apply State.frameLines_spares | with_reducible apply State.cycles_spares
        | ((with_reducible refine State.Spares.setNe ?_ ?_); on_goal 2 => assumption)
        | with_reducible refine State.Spares.snd (by assumption) ?_ | with_reducible apply State.Spares.ite | split)

theorem State.takeEvent_spares {X : Nat → Prop} {a s : State} (h : a.Spares X s) (x1 x2 x3 x4 x5) (hcx1 : ¬ X x1) :
    a.Spares X (State.takeEvent s x1 x2 x3 x4 x5) := by
  unfold State.takeEvent
  repeat' (first
      | with_reducible assumption | dsimp only | ((with_reducible refine State.Spares.modNe ?_ ?_); on_goal 2 => assumption)
      | with_reducible apply State.enter_spares | with_reducible apply State.Spares.ite | split)

theorem State.raise_spares {X : Nat → Prop} {a s : State} (h : a.Spares X s) (x1 x2) (hcx1 : ¬ X x1) :
    a.Spares X (State.raise s x1 x2) := by
  unfold State.raise
  repeat' (first | with_reducible assumption | dsimp only | with_reducible apply State.takeEvent_spares)

theorem State.takeAsync_spares {X : Nat → Prop} {a s : State} (h : a.Spares X s) (x1 x2) (hcx1 : ¬ X x1) :
    a.Spares X (State.takeAsync s x1 x2) := by
  unfold State.takeAsync
  repeat' (first | with_reducible assumption | with_reducible apply State.takeEvent_spares)

theorem State.retireNow_spares {X : Nat → Prop} {a s : State} (h : a.Spares X s) (x1 x2 x3) (hcx1 : ¬ X x1) :
    a.Spares X (State.retireNow s x1 x2 x3) := by
  unfold State.retireNow
  repeat' (first
      | with_reducible assumption | dsimp only | ((with_reducible refine State.Spares.modNe ?_ ?_); on_goal 2 => assumption))

theorem State.retire_spares {X : Nat → Prop} {a s : State} (h : a.Spares X s) (x1 x2 x3 x4) (hcx1 : ¬ X x1) :
    a.Spares X (State.retire s x1 x2 x3 x4) := by
  unfold State.retire
  repeat' (first
      | with_reducible assumption | with_reducible apply State.cycles_spares | with_reducible apply State.retireNow_spares)

theorem State.fetchCheck_spares {X : Nat → Prop} {a s : State} (h : a.Spares X s) (x1) :
    a.Spares X (State.fetchCheck s x1).2 := by
  unfold State.fetchCheck
  repeat' (first
      | with_reducible assumption | dsimp only | with_reducible apply State.await_spares
      | with_reducible apply State.poisonRecord_spares
      | ((with_reducible apply State.Spares.modEq); on_goal 2 => (first | rfl | exact Core.brk_arch _ _ _ | (intro k; exact Core.brk_arch _ _ _) | simp only [Core.brk_arch] | (intro k; rfl) | (intro k; simp only [Core.brk_arch]; done) | (intro k; split <;> first | rfl | simp only [Core.brk_arch])))
      | with_reducible apply State.lookup_spares | with_reducible apply State.commitXlat_spares
      | with_reducible refine State.Spares.snd (by assumption) ?_ | split)

theorem State.finish_spares {X : Nat → Prop} {a : State} {d : Done} (h : Done.Holds (a.Spares X) d) (c met) (hc : ¬ X c) :
    a.Spares X (State.finish c met d) := by
  cases d with
  | ok s => exact State.retire_spares h _ _ _ _ hc
  | jump s t => exact State.retire_spares h _ _ _ _ hc
  | exc s e => exact State.cycles_spares (State.raise_spares h _ _ hc) _ _ hc
  | call s e =>
    unfold State.finish
    exact State.cycles_spares (State.takeEvent_spares (State.Spares.setNe h hc) _ _ _ _ _ hc) _ _ hc
  | stay s => exact h

theorem State.issueAs_spares {X : Nat → Prop} {a s : State} (h : a.Spares X s) (x1 x2 x3 x4 x5 x6 x7) (hc : ¬ X x1)
    (hx7 : ∀ s, a.Spares X s → Done.Holds (a.Spares X) (x7 s)) : a.Spares X (State.issueAs s x1 x2 x3 x4 x5 x6 x7) := by
  unfold State.issueAs
  dsimp only
  apply State.orWait_spares h
  repeat' (first
      | with_reducible assumption | ((with_reducible refine State.Spares.modNe ?_ ?_); on_goal 2 => assumption)
      | with_reducible apply State.takeEvent_spares | with_reducible apply State.takeAsync_spares
      | with_reducible apply State.finish_spares | with_reducible apply hx7 | with_reducible apply Done.Holds.mkExc
      | with_reducible refine State.Spares.snd (by assumption) ?_ | with_reducible apply State.fetchCheck_spares | split)

theorem State.issue_spares {X : Nat → Prop} {a s : State} (h : a.Spares X s) (x1 x2 x3 x4 x5 x6) (hcx1 : ¬ X x1) (hx6 : ∀ s, a.Spares X s → Done.Holds (a.Spares X) (x6 s)) :
    a.Spares X (State.issue s x1 x2 x3 x4 x5 x6) := by
  unfold State.issue
  repeat' (first | with_reducible assumption | with_reducible apply State.issueAs_spares)

theorem State.compute_spares {X : Nat → Prop} {a s : State} (h : a.Spares X s) (x1 x2 x3 x4 x5) (hcx1 : ¬ X x1) :
    a.Spares X (State.compute s x1 x2 x3 x4 x5) := by
  unfold State.compute
  repeat' (first
      | with_reducible assumption | intro _ | with_reducible apply Done.Holds.mkOk | with_reducible apply State.issue_spares
      | ((with_reducible refine State.Spares.modNe ?_ ?_); on_goal 2 => assumption))

theorem State.alu_spares {X : Nat → Prop} {a s : State} (h : a.Spares X s) (x1 x2 x3 x4 x5) (hcx1 : ¬ X x1) :
    a.Spares X (State.alu s x1 x2 x3 x4 x5) := by
  unfold State.alu
  repeat' (first | with_reducible assumption | with_reducible apply State.compute_spares)

theorem atLeast_spares {X : Nat → Prop} {a s : State} (h : a.Spares X s) (x0 x1 x2) (hx2 : ∀ s, a.Spares X s → Done.Holds (a.Spares X) (x2 s)) :
    Done.Holds (a.Spares X) (atLeast x0 x1 x2 s) := by
  unfold atLeast
  repeat' (first | with_reducible assumption | with_reducible apply Done.Holds.mkExc | with_reducible apply hx2 | split)

theorem State.readFrame_spares {X : Nat → Prop} {a s : State} (h : a.Spares X s) (x1 x2 x3) :
    a.Spares X (State.readFrame s x1 x2 x3).2 := by
  unfold State.readFrame
  repeat' (first
      | with_reducible assumption | intro _ | dsimp only | with_reducible apply State.loadLine_spares
      | with_reducible apply State.readPa_spares | with_reducible apply State.Spares.foldlSnd | split)

theorem State.aluRR_spares {X : Nat → Prop} {a s : State} (h : a.Spares X s) (x1 x2 x3 x4 x5 x6) (hcx1 : ¬ X x1) :
    a.Spares X (State.aluRR s x1 x2 x3 x4 x5 x6) := by
  unfold State.aluRR
  repeat' (first | with_reducible assumption | with_reducible apply State.alu_spares)

theorem State.aluR_spares {X : Nat → Prop} {a s : State} (h : a.Spares X s) (x1 x2 x3 x4 x5) (hcx1 : ¬ X x1) :
    a.Spares X (State.aluR s x1 x2 x3 x4 x5) := by
  unfold State.aluR
  repeat' (first | with_reducible assumption | with_reducible apply State.alu_spares)

theorem longDone_spares {X : Nat → Prop} {a s : State} (h : a.Spares X s) (x0 x1 x2 x3 x4) (hcx0 : ¬ X x0) :
    Done.Holds (a.Spares X) (longDone x0 x1 x2 x3 x4 s) := by
  unfold longDone
  repeat' (first
      | with_reducible assumption | dsimp only | with_reducible apply Done.Holds.mkOk | with_reducible apply Done.Holds.mkExc
      | ((with_reducible refine State.Spares.setNe ?_ ?_); on_goal 2 => assumption) | split)

theorem State.divide_spares {X : Nat → Prop} {a s : State} (h : a.Spares X s) (x1 x2 x3 x4 x5) (hcx1 : ¬ X x1) :
    a.Spares X (State.divide s x1 x2 x3 x4 x5) := by
  unfold State.divide
  repeat' (first
      | with_reducible assumption | intro _ | with_reducible apply State.issue_spares | with_reducible apply longDone_spares)

theorem fpWrite_spares {X : Nat → Prop} {a s : State} (h : a.Spares X s) (x0 x1 x3) (hcx3 : ¬ X x3) :
    Done.Holds (a.Spares X) (fpWrite x0 x1 s x3) := by
  unfold fpWrite
  repeat' (first
      | with_reducible assumption | dsimp only | with_reducible apply Done.Holds.mkOk | with_reducible apply Done.Holds.mkExc
      | ((with_reducible refine State.Spares.setNe ?_ ?_); on_goal 2 => assumption) | split)

theorem State.fp2_spares {X : Nat → Prop} {a s : State} (h : a.Spares X s) (x1 x2 x3 x4 x5 x6 x7) (hcx1 : ¬ X x1) :
    a.Spares X (State.fp2 s x1 x2 x3 x4 x5 x6 x7) := by
  unfold State.fp2
  repeat' (first
      | with_reducible assumption | intro _ | dsimp only | with_reducible apply State.issue_spares
      | with_reducible apply fpWrite_spares)

theorem State.fp1_spares {X : Nat → Prop} {a s : State} (h : a.Spares X s) (x1 x2 x3 x4 x5) (hcx1 : ¬ X x1) :
    a.Spares X (State.fp1 s x1 x2 x3 x4 x5) := by
  unfold State.fp1
  repeat' (first
      | with_reducible assumption | intro _ | dsimp only | with_reducible apply State.issue_spares
      | with_reducible apply fpWrite_spares)

theorem fpLong_spares {X : Nat → Prop} {a s : State} (h : a.Spares X s) (x0 x1 x2) (hcx0 : ¬ X x0) :
    Done.Holds (a.Spares X) (fpLong x0 x1 x2 s) := by
  unfold fpLong
  repeat' (first | with_reducible assumption | with_reducible apply longDone_spares)

theorem State.vec2_spares {X : Nat → Prop} {a s : State} (h : a.Spares X s) (x1 x2 x3 x4 x5 x6) (hcx1 : ¬ X x1) :
    a.Spares X (State.vec2 s x1 x2 x3 x4 x5 x6) := by
  unfold State.vec2
  repeat' (first | with_reducible assumption | with_reducible apply State.compute_spares)

theorem State.vecE_spares {X : Nat → Prop} {a s : State} (h : a.Spares X s) (x1 x2 x3 x4 x5 x6 x7) (hcx1 : ¬ X x1) :
    a.Spares X (State.vecE s x1 x2 x3 x4 x5 x6 x7) := by
  unfold State.vecE
  repeat' (first | with_reducible assumption | with_reducible apply State.vec2_spares)

theorem State.vecF_spares {X : Nat → Prop} {a s : State} (h : a.Spares X s) (x1 x2 x3 x4 x5 x6 x7 x8) (hcx1 : ¬ X x1) :
    a.Spares X (State.vecF s x1 x2 x3 x4 x5 x6 x7 x8) := by
  unfold State.vecF
  repeat' (first
      | with_reducible assumption | intro _ | dsimp only | with_reducible apply State.issue_spares
      | with_reducible apply fpWrite_spares)

theorem State.cryptoOp_spares {X : Nat → Prop} {a s : State} (h : a.Spares X s) (x1 x2 x3 x4 x5 x6 x7) (hcx1 : ¬ X x1) :
    a.Spares X (State.cryptoOp s x1 x2 x3 x4 x5 x6 x7) := by
  unfold State.cryptoOp
  repeat' (first
      | with_reducible assumption | intro _ | dsimp only | with_reducible apply State.issue_spares
      | with_reducible apply longDone_spares)

theorem accDone_spares {X : Nat → Prop} {a s : State} (h : a.Spares X s) (x1 x2 x3 x4) (hcx1 : ¬ X x1) :
    Done.Holds (a.Spares X) (accDone s x1 x2 x3 x4) := by
  unfold accDone
  repeat' (first
      | with_reducible assumption | dsimp only | with_reducible apply Done.Holds.mkOk | with_reducible apply Done.Holds.mkExc
      | ((with_reducible refine State.Spares.modNe ?_ ?_); on_goal 2 => assumption) | split)

theorem State.amAdd_spares {X : Nat → Prop} {a s : State} (h : a.Spares X s) (x1 x2 x3 x4 x5) (hcx1 : ¬ X x1) :
    a.Spares X (State.amAdd s x1 x2 x3 x4 x5) := by
  unfold State.amAdd
  repeat' (first
      | with_reducible assumption | intro _ | dsimp only | with_reducible apply Done.Holds.mkExc
      | with_reducible apply State.issue_spares | with_reducible apply accDone_spares | split)

end Sys2Proof.Machine
end

