-- ==== Sys2Proof/Laws/SparesNoon.lean ====
section
/-! SUPPORT. What an operation leaves of the registers of the cores (State.Spares): Noon. -/

namespace Sys2Proof.Machine

theorem State.noonKey_spares {X : Nat → Prop} {a s : State} (h : a.Spares X s) (x1 x2) (hcx1 : ¬ X x1) :
    a.Spares X (State.noonKey s x1 x2).2 := by
  unfold State.noonKey
  repeat' (first
      | with_reducible assumption | dsimp only | ((with_reducible refine State.Spares.setNe ?_ ?_); on_goal 2 => assumption))

theorem State.modAct_spares {X : Nat → Prop} {a s : State} (h : a.Spares X s) (x1 x2 x3) :
    a.Spares X (State.modAct s x1 x2 x3) := by
  unfold State.modAct
  repeat' (first | with_reducible assumption | with_reducible apply State.modBlock_spares)

theorem State.delAct_spares {X : Nat → Prop} {a s : State} (h : a.Spares X s) (x1 x2) :
    a.Spares X (State.delAct s x1 x2) := by
  unfold State.delAct
  repeat' (first | with_reducible assumption | with_reducible apply State.modBlock_spares)

theorem State.preChange_spares {X : Nat → Prop} {a s : State} (h : a.Spares X s) (x1) :
    a.Spares X (State.preChange s x1) := by
  unfold State.preChange
  repeat' (first
      | with_reducible assumption | with_reducible apply State.recall_spares | with_reducible apply State.settle_spares)

theorem State.changeLost_spares {X : Nat → Prop} {a s : State} (h : a.Spares X s) (x1 x2 x3 x4) :
    a.Spares X (State.changeLost s x1 x2 x3 x4) := by
  unfold State.changeLost
  repeat' (first | with_reducible assumption | with_reducible apply State.record_spares)

theorem State.changeLine_spares {X : Nat → Prop} {a s : State} (h : a.Spares X s) (x1 x2 x3 x4 x5 x6 x7) :
    a.Spares X (State.changeLine s x1 x2 x3 x4 x5 x6 x7) := by
  unfold State.changeLine
  repeat' (first
      | with_reducible assumption | dsimp only | with_reducible apply State.loseResv_spares
      | with_reducible apply State.preChange_spares | with_reducible apply State.slcFill_spares
      | with_reducible apply State.homeData_spares | with_reducible apply State.changeLost_spares
      | fail_if_no_progress (with_reducible apply State.Spares.upd) | with_reducible apply State.Spares.ite)

theorem State.mergeLine_spares {X : Nat → Prop} {a s : State} (h : a.Spares X s) (x1 x2 x3 x4 x5) :
    a.Spares X (State.mergeLine s x1 x2 x3 x4 x5) := by
  unfold State.mergeLine
  repeat' (first
      | with_reducible assumption | dsimp only | with_reducible apply State.preChange_spares
      | with_reducible apply State.homeData_spares | with_reducible apply State.changeLost_spares
      | with_reducible apply State.slcFill_spares | fail_if_no_progress (with_reducible apply State.Spares.upd)
      | with_reducible apply State.Spares.ite)

theorem State.setMailbox_spares {X : Nat → Prop} {a s : State} (h : a.Spares X s) (x1 x2) :
    a.Spares X (State.setMailbox s x1 x2) := by
  unfold State.setMailbox
  repeat' (first | with_reducible assumption | with_reducible apply State.modBlock_spares)

theorem State.putMail_spares {X : Nat → Prop} {a s : State} (h : a.Spares X s) (x1 x2 x3 x4) :
    Option.Holds (a.Spares X) (State.putMail s x1 x2 x3 x4) := by
  unfold State.putMail
  repeat' (first
      | with_reducible assumption | with_reducible apply Option.Holds.mkSome | with_reducible apply Option.Holds.mkNone
      | with_reducible apply State.wakeCore_spares | with_reducible apply State.setMailbox_spares | split)

theorem noonRefuse_spares {X : Nat → Prop} {a s : State} (h : a.Spares X s) (x0 x1) (hcx0 : ¬ X x0) :
    Done.Holds (a.Spares X) (noonRefuse x0 x1 s) := by
  unfold noonRefuse
  repeat' (first
      | with_reducible assumption | with_reducible apply Done.Holds.mkExc
      | ((with_reducible refine State.Spares.modNe ?_ ?_); on_goal 2 => assumption))

theorem State.postAct_spares {X : Nat → Prop} {a s : State} (h : a.Spares X s) (x1 x2 x3 x4 x5) (hcx1 : ¬ X x1) :
    a.Spares X (State.postAct s x1 x2 x3 x4 x5) := by
  unfold State.postAct
  repeat' (first
      | with_reducible assumption | dsimp only | with_reducible apply State.noonKey_spares
      | with_reducible apply State.modBlock_spares)

theorem noonWait_spares {X : Nat → Prop} {a s : State} (h : a.Spares X s) (x0) :
    Done.Holds (a.Spares X) (noonWait x0 s) := by
  unfold noonWait
  repeat' (first
      | with_reducible assumption | with_reducible apply Done.Holds.mkStay
      | ((with_reducible apply State.Spares.modEq); on_goal 2 => (first | rfl | exact Core.brk_arch _ _ _ | (intro k; exact Core.brk_arch _ _ _) | simp only [Core.brk_arch] | (intro k; rfl) | (intro k; simp only [Core.brk_arch]; done) | (intro k; split <;> first | rfl | simp only [Core.brk_arch]))))

theorem State.registerAct_spares {X : Nat → Prop} {a s : State} (h : a.Spares X s) (x1 x2) :
    a.Spares X (State.registerAct s x1 x2) := by
  unfold State.registerAct
  repeat' (first
      | with_reducible assumption | dsimp only | with_reducible apply State.modAct_spares
      | with_reducible apply State.preChange_spares | with_reducible apply State.Spares.ite | split)

theorem State.publish_spares {X : Nat → Prop} {a s : State} (h : a.Spares X s) (x1 x2 x3) :
    Option.Holds (a.Spares X) (State.publish s x1 x2 x3) := by
  unfold State.publish
  repeat' (first
      | with_reducible assumption | dsimp only | with_reducible apply Option.Holds.mkSome
      | with_reducible apply Option.Holds.mkNone | with_reducible apply State.modBlock_spares | split)

theorem State.stageEnt_spares {X : Nat → Prop} {a s : State} (h : a.Spares X s) (x1 x2) :
    a.Spares X (State.stageEnt s x1 x2) := by
  unfold State.stageEnt
  repeat' (first
      | with_reducible assumption | with_reducible apply State.record_spares | with_reducible apply State.modBlock_spares
      | with_reducible apply State.preChange_spares | with_reducible apply State.Spares.ite)

theorem State.setReport_spares {X : Nat → Prop} {a s : State} (h : a.Spares X s) (x1 x2 x3) :
    a.Spares X (State.setReport s x1 x2 x3) := by
  unfold State.setReport
  repeat' (first
      | with_reducible assumption | with_reducible apply State.modBlock_spares | with_reducible apply State.modRegion_spares
      | with_reducible apply State.Spares.ite)

theorem State.pick_spares {X : Nat → Prop} {a s : State} (h : a.Spares X s) (x1 x2) :
    a.Spares X (State.pick s x1 x2).2 := by
  unfold State.pick
  repeat' (first | with_reducible assumption | dsimp only | with_reducible apply State.draw_spares)

theorem State.stretchWord_spares {X : Nat → Prop} {a s : State} (h : a.Spares X s) :
    a.Spares X (State.stretchWord s).2 := by
  unfold State.stretchWord
  repeat' (first | with_reducible assumption | dsimp only | with_reducible apply State.pick_spares)

theorem State.slipCore_spares {X : Nat → Prop} {a s : State} (h : a.Spares X s) (x1 x2) (hcx1 : ¬ X x1) :
    a.Spares X (State.slipCore s x1 x2) := by
  unfold State.slipCore
  repeat' (first
      | with_reducible assumption | dsimp only | ((with_reducible refine State.Spares.modNe ?_ ?_); on_goal 2 => assumption)
      | with_reducible apply State.record_spares | with_reducible apply State.post_spares
      | with_reducible apply State.Spares.ite)

theorem State.passRefs_spares {X : Nat → Prop} {a s : State} (h : a.Spares X s) (x1) :
    a.Spares X (State.passRefs s x1) := by
  unfold State.passRefs
  repeat' (first | with_reducible assumption | dsimp only | fail_if_no_progress (with_reducible apply State.Spares.upd))

theorem State.ppsAccept_spares {X : Nat → Prop} {a s : State} (h : a.Spares X s) :
    a.Spares X (State.ppsAccept s) := by
  unfold State.ppsAccept
  repeat' (first | with_reducible assumption | dsimp only | fail_if_no_progress (with_reducible apply State.Spares.upd))

theorem State.wakeDom_spares {X : Nat → Prop} {a s : State} (h : a.Spares X s) (x1 x2) :
    a.Spares X (State.wakeDom s x1 x2) := by
  unfold State.wakeDom
  repeat' (first
      | with_reducible assumption | dsimp only | with_reducible apply State.modDom_spares
      | with_reducible apply State.Spares.ite)

theorem State.sendReq_spares {X : Nat → Prop} {a s : State} (h : a.Spares X s) (x1 x2 x3 x4 x5 x6) :
    Sent.Holds (a.Spares X) (State.sendReq s x1 x2 x3 x4 x5 x6) := by
  unfold State.sendReq
  refine Sent.Holds.ite h (Sent.Holds.ite (State.wakeDom_spares h _ _) (Sent.Holds.ite h ?_))
  cases (s.port x1 x2).freeTag with
  | none => exact h
  | some t => exact Sent.Holds.mkOk (State.emit_spares (State.modPort_spares (State.modRegion_spares h _ _) _ _ _) _)

theorem State.sendPosted_spares {X : Nat → Prop} {a s : State} (h : a.Spares X s) (x1 x2 x3 x4) :
    Option.Holds (a.Spares X) (State.sendPosted s x1 x2 x3 x4) := by
  unfold State.sendPosted
  repeat' (first
      | with_reducible assumption | dsimp only | with_reducible apply Option.Holds.mkSome
      | with_reducible apply Option.Holds.mkNone | with_reducible apply State.emit_spares
      | with_reducible apply State.modPort_spares | with_reducible apply State.modRegion_spares | split)

theorem State.portRecord_spares {X : Nat → Prop} {a s : State} (h : a.Spares X s) (x1 x2 x3 x4 x5 x6) :
    a.Spares X (State.portRecord s x1 x2 x3 x4 x5 x6) := by
  unfold State.portRecord
  repeat' (first | with_reducible assumption | with_reducible apply State.record_spares)

theorem State.modIotu_spares {X : Nat → Prop} {a s : State} (h : a.Spares X s) (x1 x2) :
    a.Spares X (State.modIotu s x1 x2) := by
  unfold State.modIotu
  repeat' (first | with_reducible assumption | with_reducible apply State.modRegion_spares)

theorem State.iotEvent_spares {X : Nat → Prop} {a s : State} (h : a.Spares X s) (x1 x2 x3 x4 x5 x6) :
    a.Spares X (State.iotEvent s x1 x2 x3 x4 x5 x6).2 := by
  unfold State.iotEvent
  repeat' (first
      | with_reducible assumption | dsimp only | with_reducible apply State.post_spares
      | with_reducible apply State.modIotu_spares | with_reducible apply State.record_spares
      | with_reducible apply State.writePa_spares | split)

theorem State.contextRead_spares {X : Nat → Prop} {a s : State} (h : a.Spares X s) (x1 x2) :
    a.Spares X (State.contextRead s x1 x2).2 := by
  change SndHolds (a.Spares X) (State.contextRead s x1 x2)
  unfold State.contextRead
  repeat' (first
      | with_reducible assumption | extract_lets _ | split | with_reducible apply SndHolds.mk
      | with_reducible apply State.readPa_spares | with_reducible apply State.record_spares
      | with_reducible apply State.modIotu_spares | with_reducible refine State.Spares.snd (by assumption) ?_)

theorem State.context_spares {X : Nat → Prop} {a s : State} (h : a.Spares X s) (x1 x2) :
    a.Spares X (State.context s x1 x2).2 := by
  unfold State.context
  repeat' (first
      | with_reducible assumption | dsimp only | with_reducible apply State.draw_spares
      | with_reducible apply State.contextRead_spares | split)

theorem State.ioFault_spares {X : Nat → Prop} {a s : State} (h : a.Spares X s) (x1 x2 x3) :
    a.Spares X (State.ioFault s x1 x2 x3).2 := by
  unfold State.ioFault
  repeat' (first | with_reducible assumption | dsimp only | with_reducible apply State.record_spares | split)

theorem State.ioRegime_spares {X : Nat → Prop} {a s : State} (h : a.Spares X s) (x1 x2 x3) :
    a.Spares X (State.ioRegime s x1 x2 x3).2 := by
  unfold State.ioRegime
  repeat' (first
      | with_reducible assumption | dsimp only | with_reducible apply State.stage2_spares
      | with_reducible apply State.ioFault_spares | with_reducible apply State.readPa_spares
      | with_reducible apply State.setMarks_spares | with_reducible refine State.Spares.snd (by assumption) ?_ | split)

theorem State.ioLookup_spares {X : Nat → Prop} {a s : State} (h : a.Spares X s) (x1 x2 x3 x4) :
    a.Spares X (State.ioLookup s x1 x2 x3 x4).2 := by
  unfold State.ioLookup
  repeat' (first
      | with_reducible assumption | dsimp only | with_reducible apply State.lookup_spares
      | with_reducible apply State.ioFault_spares | with_reducible refine State.Spares.snd (by assumption) ?_ | split)

theorem State.ioXlats_spares {X : Nat → Prop} {a s : State} (h : a.Spares X s) (x1 x2 x3 x4) :
    a.Spares X (State.ioXlats s x1 x2 x3 x4).2 := by
  induction x4 generalizing s x1 x2 x3 with
  | nil =>
    unfold State.ioXlats
    repeat' (with_reducible assumption)
  | cons e t ih =>
    unfold State.ioXlats
    repeat' (first
        | with_reducible assumption | dsimp only | with_reducible apply ih | with_reducible apply State.ioLookup_spares
        | with_reducible refine State.Spares.snd (by assumption) ?_ | split)

theorem State.ioCommit_spares {X : Nat → Prop} {a s : State} (h : a.Spares X s) (x1 x2 x3 x4) :
    a.Spares X (State.ioCommit s x1 x2 x3 x4) := by
  unfold State.ioCommit
  repeat' (first
      | with_reducible assumption | intro _ | dsimp only | with_reducible apply State.commitXlat_spares
      | with_reducible apply State.Spares.foldl)

theorem State.memRange_spares {X : Nat → Prop} {a s : State} (h : a.Spares X s) (x1 x2 x3 x4) :
    a.Spares X (State.memRange s x1 x2 x3 x4).2 := by
  unfold State.memRange
  repeat' (first
      | with_reducible assumption | intro _ | dsimp only | with_reducible apply State.readPa_spares
      | with_reducible apply State.Spares.foldlSnd)

theorem State.memStore_spares {X : Nat → Prop} {a s : State} (h : a.Spares X s) (x1 x2 x3 x4 x5) :
    a.Spares X (State.memStore s x1 x2 x3 x4 x5) := by
  unfold State.memStore
  repeat' (first
      | with_reducible assumption | intro _ | with_reducible apply State.writePa_spares
      | with_reducible apply State.Spares.foldl)

theorem Core.sdDrop_arch (k : Core) (t : List TlbEnt) (w : List WalkEnt) :
    ({ k with tlb := t, wcache := w, sq := k.sq.map (fun e => { e with old := true }) } : Core).arch = k.arch := by
  simp only [Core.arch, List.map_map]
  rfl

theorem State.sdGo_spares {X : Nat → Prop} {a s : State} (h : a.Spares X s) : a.Spares X s.sdGo := by
  unfold State.sdGo
  refine State.Spares.ite h ?_
  extract_lets d t u
  have ht : a.Spares X t := State.Spares.upd h
  have hu : a.Spares X u := State.Spares.foldl ht (fun _ _ hs => State.Spares.modEq hs (fun k => Core.sdDrop_arch k _ _))
  refine State.Spares.ite hu (State.Spares.foldl hu (fun _ _ hs => ?_))
  refine State.Spares.foldl (State.modIotu_spares hs _ _) (fun _ _ hv => ?_)
  exact State.emit_spares (State.Spares.upd hv) _

theorem State.eqbWrite_spares {X : Nat → Prop} {a s : State} (h : a.Spares X s) (x1 x2) :
    a.Spares X (State.eqbWrite s x1 x2) := by
  unfold State.eqbWrite
  repeat' (first | with_reducible assumption | dsimp only | with_reducible apply State.modIotu_spares)

theorem State.prgrWrite_spares {X : Nat → Prop} {a s : State} (h : a.Spares X s) (x1 x2) :
    a.Spares X (State.prgrWrite s x1 x2) := by
  unfold State.prgrWrite
  repeat' (first
      | with_reducible assumption | dsimp only | with_reducible apply State.emit_spares
      | with_reducible apply State.Spares.ite)

theorem State.cobRecord_spares {X : Nat → Prop} {a s : State} (h : a.Spares X s) (x1 x2 x3 x4 x5 x6 x7) :
    a.Spares X (State.cobRecord s x1 x2 x3 x4 x5 x6 x7) := by
  unfold State.cobRecord
  repeat' (first | with_reducible assumption | with_reducible apply State.record_spares)

theorem State.msixSend_spares {X : Nat → Prop} {a s : State} (h : a.Spares X s) (x1 x2 x3) :
    a.Spares X (State.msixSend s x1 x2 x3) := by
  unfold State.msixSend
  repeat' (first
      | with_reducible assumption | dsimp only | with_reducible apply State.message_spares
      | with_reducible apply State.cobRecord_spares | with_reducible apply State.countDrop_spares
      | with_reducible apply State.Spares.ite)

theorem State.msixRaise_spares {X : Nat → Prop} {a s : State} (h : a.Spares X s) (x1 x2 x3) :
    a.Spares X (State.msixRaise s x1 x2 x3) := by
  unfold State.msixRaise
  repeat' (first
      | with_reducible assumption | dsimp only | with_reducible apply State.modFn_spares
      | with_reducible apply State.msixSend_spares | with_reducible apply State.Spares.ite)

theorem State.msixFlush_spares {X : Nat → Prop} {a s : State} (h : a.Spares X s) (x1) :
    a.Spares X (State.msixFlush s x1) := by
  unfold State.msixFlush
  repeat' (first
      | with_reducible assumption | intro _ | dsimp only | with_reducible apply State.msixSend_spares
      | with_reducible apply State.modFn_spares | with_reducible apply State.Spares.foldl
      | with_reducible apply State.Spares.ite)

theorem State.tailWrite_spares {X : Nat → Prop} {a s : State} (h : a.Spares X s) (x1 x2 x3 x4) :
    a.Spares X (State.tailWrite s x1 x2 x3 x4) := by
  unfold State.tailWrite
  repeat' (first | with_reducible assumption | dsimp only | with_reducible apply State.modInst_spares)

theorem State.instRead_spares {X : Nat → Prop} {a s : State} (h : a.Spares X s) (x1 x2 x3 x4) :
    a.Spares X (State.instRead s x1 x2 x3 x4).2 := by
  unfold State.instRead
  repeat' (first
      | with_reducible assumption | intro _ | dsimp only | with_reducible apply State.ioXlats_spares
      | with_reducible apply State.ioCommit_spares | with_reducible apply State.memRange_spares
      | with_reducible apply State.Spares.foldlSnd | with_reducible refine State.Spares.snd (by assumption) ?_ | split)

theorem State.instWrite_spares {X : Nat → Prop} {a s : State} (h : a.Spares X s) (x1 x2 x3 x4) :
    a.Spares X (State.instWrite s x1 x2 x3 x4).2 := by
  unfold State.instWrite
  repeat' (first
      | with_reducible assumption | intro _ | dsimp only | with_reducible apply State.ioXlats_spares
      | with_reducible apply State.ioCommit_spares | with_reducible apply State.memStore_spares
      | with_reducible apply State.Spares.foldl | with_reducible refine State.Spares.snd (by assumption) ?_ | split)

theorem State.cobPoison_spares {X : Nat → Prop} {a s : State} (h : a.Spares X s) (x1 x2 x3 x4) :
    a.Spares X (State.cobPoison s x1 x2 x3 x4) := by
  unfold State.cobPoison
  repeat' (first | with_reducible assumption | with_reducible apply State.cobRecord_spares)

theorem State.cobEvent_spares {X : Nat → Prop} {a s : State} (h : a.Spares X s) (x1 x2 x3 x4 x5 x6) :
    a.Spares X (State.cobEvent s x1 x2 x3 x4 x5 x6) := by
  unfold State.cobEvent
  repeat' (first | with_reducible assumption | with_reducible apply State.iotEvent_spares)

theorem State.pieceRead_spares {X : Nat → Prop} {a s : State} (h : a.Spares X s) (x1 x2) :
    a.Spares X (State.pieceRead s x1 x2).2 := by
  unfold State.pieceRead
  repeat' (first | with_reducible assumption | dsimp only | with_reducible apply State.memRange_spares | split)

theorem State.pieceReads_spares {X : Nat → Prop} {a s : State} (h : a.Spares X s) (x1 x2) :
    a.Spares X (State.pieceReads s x1 x2).2 := by
  induction x2 generalizing s x1 with
  | nil =>
    unfold State.pieceReads
    repeat' (with_reducible assumption)
  | cons e t ih =>
    unfold State.pieceReads
    repeat' (first
        | with_reducible assumption | dsimp only | with_reducible apply ih | with_reducible apply State.pieceRead_spares
        | with_reducible refine State.Spares.snd (by assumption) ?_ | split)

theorem State.rangeReads_spares {X : Nat → Prop} {a s : State} (h : a.Spares X s) (x1 x2 x3 x4) :
    a.Spares X (State.rangeReads s x1 x2 x3 x4).2 := by
  induction x4 generalizing s x1 x2 x3 with
  | nil =>
    unfold State.rangeReads
    repeat' (with_reducible assumption)
  | cons e t ih =>
    unfold State.rangeReads
    repeat' (first
        | with_reducible assumption | dsimp only | with_reducible apply ih | with_reducible apply State.pieceReads_spares
        | with_reducible apply State.ioCommit_spares | with_reducible refine State.Spares.snd (by assumption) ?_ | split)

theorem State.rangeXlats_spares {X : Nat → Prop} {a s : State} (h : a.Spares X s) (x1 x2 x3 x4) :
    a.Spares X (State.rangeXlats s x1 x2 x3 x4).2 := by
  induction x4 generalizing s x1 x2 x3 with
  | nil =>
    unfold State.rangeXlats
    repeat' (with_reducible assumption)
  | cons e t ih =>
    unfold State.rangeXlats
    repeat' (first
        | with_reducible assumption | dsimp only | with_reducible apply ih | with_reducible apply State.ioXlats_spares
        | with_reducible refine State.Spares.snd (by assumption) ?_ | split)

theorem State.chunkPlan_spares {X : Nat → Prop} {a s : State} (h : a.Spares X s) (x1 x2 x3) :
    a.Spares X (State.chunkPlan s x1 x2 x3).2 := by
  unfold State.chunkPlan
  repeat' (first
      | with_reducible assumption | dsimp only | with_reducible apply State.rangeXlats_spares
      | with_reducible apply State.rangeReads_spares | with_reducible apply State.ioCommit_spares
      | with_reducible refine State.Spares.snd (by assumption) ?_ | split)

end Sys2Proof.Machine
end

