-- ==== Sys2Proof/Laws/SparesIo.lean ====
section
/-! SUPPORT. What an operation leaves of the registers of the cores (State.Spares): translation, links and engines. -/

namespace Sys2Proof.Machine

theorem State.abandonWrites_spares {X : Nat → Prop} {a s : State} (h : a.Spares X s) (x1 x2 x3) :
    a.Spares X (State.abandonWrites s x1 x2 x3) := by
  unfold State.abandonWrites
  repeat' (first
      | with_reducible assumption | intro _ | dsimp only | with_reducible apply State.draw_spares
      | with_reducible apply State.chunkPlan_spares | with_reducible apply State.memStore_spares
      | with_reducible apply State.Spares.foldlFst | with_reducible refine State.Spares.snd (by assumption) ?_
      | with_reducible apply State.Spares.ite | split)

theorem State.containInst_spares {X : Nat → Prop} {a s : State} (h : a.Spares X s) (x1 x2) :
    a.Spares X (State.containInst s x1 x2) := by
  unfold State.containInst
  repeat' (first
      | with_reducible assumption | dsimp only | with_reducible apply State.abandonWrites_spares
      | with_reducible apply State.modInst_spares | with_reducible apply State.Spares.ite | split)

theorem State.contain_spares {X : Nat → Prop} {a s : State} (h : a.Spares X s) (x1 x2 x3 x4) :
    a.Spares X (State.contain s x1 x2 x3 x4) := by
  unfold State.contain
  repeat' (first
      | with_reducible assumption | intro _ | dsimp only | with_reducible apply State.cobRecord_spares
      | with_reducible apply State.modFn_spares | with_reducible apply State.containInst_spares
      | with_reducible apply State.post_spares | with_reducible apply State.Spares.foldl
      | with_reducible apply State.Spares.ite)

theorem State.relRequest_spares {X : Nat → Prop} {a s : State} (h : a.Spares X s) (x1) :
    a.Spares X (State.relRequest s x1) := by
  unfold State.relRequest
  repeat' (first | with_reducible assumption | with_reducible apply State.modFn_spares)

theorem State.instRes_spares {X : Nat → Prop} {a s : State} (h : a.Spares X s) (x1 x2 x3) :
    a.Spares X (State.instRes s x1 x2 x3) := by
  unfold State.instRes
  repeat' (first | with_reducible assumption | with_reducible apply State.modInst_spares)

theorem State.opEnable_spares {X : Nat → Prop} {a s : State} (h : a.Spares X s) (x1 x2) :
    a.Spares X (State.opEnable s x1 x2) := by
  unfold State.opEnable
  repeat' (first
      | with_reducible assumption | dsimp only | with_reducible apply State.instRes_spares
      | with_reducible apply State.modInst_spares | with_reducible apply State.Spares.ite)

theorem State.opQuiesce_spares {X : Nat → Prop} {a s : State} (h : a.Spares X s) (x1 x2 x3) :
    a.Spares X (State.opQuiesce s x1 x2 x3) := by
  unfold State.opQuiesce
  repeat' (first
      | with_reducible assumption | dsimp only | with_reducible apply State.modInst_spares
      | with_reducible apply State.instRes_spares | with_reducible apply State.Spares.ite)

theorem State.opRun_spares {X : Nat → Prop} {a s : State} (h : a.Spares X s) (x1 x2) :
    a.Spares X (State.opRun s x1 x2) := by
  unfold State.opRun
  repeat' (first
      | with_reducible assumption | dsimp only | with_reducible apply State.modInst_spares
      | with_reducible apply State.instRes_spares | with_reducible apply State.Spares.ite)

theorem State.opReset_spares {X : Nat → Prop} {a s : State} (h : a.Spares X s) (x1 x2) :
    a.Spares X (State.opReset s x1 x2) := by
  unfold State.opReset
  repeat' (first
      | with_reducible assumption | dsimp only | with_reducible apply State.modInst_spares
      | with_reducible apply State.instRes_spares | with_reducible apply State.Spares.ite)

theorem State.opSave_spares {X : Nat → Prop} {a s : State} (h : a.Spares X s) (x1 x2) :
    a.Spares X (State.opSave s x1 x2) := by
  unfold State.opSave
  repeat' (first
      | with_reducible assumption | dsimp only | with_reducible apply State.instRes_spares
      | with_reducible apply State.modInst_spares | with_reducible apply State.memStore_spares
      | with_reducible apply State.Spares.ite)

theorem State.opRestore_spares {X : Nat → Prop} {a s : State} (h : a.Spares X s) (x1 x2) :
    a.Spares X (State.opRestore s x1 x2) := by
  unfold State.opRestore
  repeat' (first
      | with_reducible assumption | dsimp only | with_reducible apply State.instRes_spares
      | with_reducible apply State.modInst_spares | with_reducible apply State.memRange_spares
      | with_reducible apply State.Spares.ite)

theorem State.opResume_spares {X : Nat → Prop} {a s : State} (h : a.Spares X s) (x1 x2) :
    a.Spares X (State.opResume s x1 x2) := by
  unfold State.opResume
  repeat' (first
      | with_reducible assumption | dsimp only | with_reducible apply State.modInst_spares
      | with_reducible apply State.Spares.ite)

theorem State.opSkip_spares {X : Nat → Prop} {a s : State} (h : a.Spares X s) (x1 x2) :
    a.Spares X (State.opSkip s x1 x2) := by
  unfold State.opSkip
  repeat' (first
      | with_reducible assumption | dsimp only | with_reducible apply State.modInst_spares
      | with_reducible apply State.opResume_spares | with_reducible apply State.Spares.ite)

theorem State.instCmd_spares {X : Nat → Prop} {a s : State} (h : a.Spares X s) (x1 x2 x3 x4) :
    a.Spares X (State.instCmd s x1 x2 x3 x4) := by
  unfold State.instCmd
  repeat' (first
      | with_reducible assumption | with_reducible apply State.opEnable_spares | with_reducible apply State.opQuiesce_spares
      | with_reducible apply State.opRun_spares | with_reducible apply State.opReset_spares
      | with_reducible apply State.opSave_spares | with_reducible apply State.opRestore_spares
      | with_reducible apply State.instRes_spares | with_reducible apply State.Spares.ite | split)

theorem State.foreign_spares {X : Nat → Prop} {a s : State} (h : a.Spares X s) (x1 x2 x3 x4) :
    Option.Holds (a.Spares X) (State.foreign s x1 x2 x3 x4) := by
  unfold State.foreign
  repeat' (first
      | with_reducible assumption | dsimp only | with_reducible apply Option.Holds.mkSome
      | with_reducible apply Option.Holds.mkNone | with_reducible apply State.cobRecord_spares | split)

theorem State.dbTail_spares {X : Nat → Prop} {a s : State} (h : a.Spares X s) (x1 x2 x3 x4) :
    a.Spares X (State.dbTail s x1 x2 x3 x4) := by
  unfold State.dbTail
  repeat' (first
      | with_reducible assumption | with_reducible apply State.foreign_spares | with_reducible apply State.tailWrite_spares
      | with_reducible refine Option.Holds.some (by assumption) ?_ | split)

theorem State.dbCtl_spares {X : Nat → Prop} {a s : State} (h : a.Spares X s) (x1 x2 x3 x4 x5) :
    a.Spares X (State.dbCtl s x1 x2 x3 x4 x5) := by
  unfold State.dbCtl
  repeat' (first
      | with_reducible assumption | with_reducible apply State.foreign_spares | with_reducible apply State.modInst_spares
      | with_reducible apply State.opResume_spares | with_reducible apply State.opSkip_spares
      | with_reducible refine Option.Holds.some (by assumption) ?_ | with_reducible apply State.Spares.ite | split)

theorem State.pmeEvent_spares {X : Nat → Prop} {a s : State} (h : a.Spares X s) (x1) :
    a.Spares X (State.pmeEvent s x1) := by
  unfold State.pmeEvent
  repeat' (first
      | with_reducible assumption | dsimp only | with_reducible apply State.modFn_spares
      | with_reducible apply State.post_spares | with_reducible apply State.Spares.ite)

theorem State.aperture_spares {X : Nat → Prop} {a s : State} (h : a.Spares X s) (x1 x2 x3 x4 x5 x6 x7) :
    a.Spares X (State.aperture s x1 x2 x3 x4 x5 x6 x7).2 := by
  unfold State.aperture
  repeat' (first
      | with_reducible assumption | intro _ | dsimp only | with_reducible apply State.cobRecord_spares
      | with_reducible apply State.pmeEvent_spares | with_reducible apply State.rangeXlats_spares
      | with_reducible apply State.cobEvent_spares | with_reducible apply State.modInst_spares
      | with_reducible apply State.ioCommit_spares | with_reducible apply State.memStore_spares
      | with_reducible apply State.Spares.foldl | with_reducible refine State.Spares.snd (by assumption) ?_
      | with_reducible apply State.Spares.ite | split)

theorem State.writeQos_spares {X : Nat → Prop} {a s : State} (h : a.Spares X s) (x1 x2 x3) :
    a.Spares X (State.writeQos s x1 x2 x3) := by
  unfold State.writeQos
  repeat' (first | with_reducible assumption | dsimp only | with_reducible apply State.modInst_spares)

theorem State.bar0Reg_spares {X : Nat → Prop} {a s : State} (h : a.Spares X s) (x1 x2 x3 x4 x5) :
    a.Spares X (State.bar0Reg s x1 x2 x3 x4 x5) := by
  unfold State.bar0Reg
  repeat' (first
      | with_reducible assumption | dsimp only | with_reducible apply State.relRequest_spares
      | with_reducible apply State.contain_spares | with_reducible apply State.msixFlush_spares
      | with_reducible apply State.modFn_spares | with_reducible apply State.modInst_spares
      | with_reducible apply State.writeQos_spares | with_reducible apply State.instCmd_spares
      | with_reducible apply State.dbTail_spares | with_reducible apply State.dbCtl_spares
      | with_reducible apply State.Spares.ite | split)

theorem State.bar0Write_spares {X : Nat → Prop} {a s : State} (h : a.Spares X s) (x1 x2 x3 x4) :
    a.Spares X (State.bar0Write s x1 x2 x3 x4) := by
  unfold State.bar0Write
  repeat' (first
      | with_reducible assumption | intro _ | with_reducible apply State.bar0Reg_spares
      | with_reducible apply State.Spares.foldl)

theorem State.endpointWrite_spares {X : Nat → Prop} {a s : State} (h : a.Spares X s) (x1 x2 x3 x4) :
    a.Spares X (State.endpointWrite s x1 x2 x3 x4).2 := by
  unfold State.endpointWrite
  repeat' (first
      | with_reducible assumption | dsimp only | with_reducible apply State.aperture_spares
      | with_reducible apply State.bar0Write_spares | split)

theorem State.pcieWrite_spares {X : Nat → Prop} {a s : State} (h : a.Spares X s) (x1 x2) :
    Option.Holds (a.Spares X) (State.pcieWrite s x1 x2) := by
  unfold State.pcieWrite
  repeat' (first
      | with_reducible assumption | with_reducible apply Option.Holds.mkSome | with_reducible apply State.sendPosted_spares
      | split)

theorem State.stopFault_spares {X : Nat → Prop} {a s : State} (h : a.Spares X s) (x1 x2 x3 x4) :
    a.Spares X (State.stopFault s x1 x2 x3 x4) := by
  unfold State.stopFault
  repeat' (first
      | with_reducible assumption | dsimp only | with_reducible apply State.cobPoison_spares
      | with_reducible apply State.cobEvent_spares | with_reducible apply State.modInst_spares | split)

theorem State.postVec_spares {X : Nat → Prop} {a s : State} (h : a.Spares X s) (x1 x2 x3 x4) :
    a.Spares X (State.postVec s x1 x2 x3 x4) := by
  unfold State.postVec
  repeat' (first
      | with_reducible assumption | dsimp only | with_reducible apply State.msixRaise_spares
      | with_reducible apply State.Spares.ite)

theorem State.descBegin_spares {X : Nat → Prop} {a s : State} (h : a.Spares X s) (x1 x2 x3) :
    a.Spares X (State.descBegin s x1 x2 x3) := by
  unfold State.descBegin
  repeat' (first
      | with_reducible assumption | dsimp only | with_reducible apply State.modInst_spares
      | with_reducible apply State.instRead_spares | with_reducible apply State.stopFault_spares
      | with_reducible refine State.Spares.snd (by assumption) ?_ | with_reducible apply State.Spares.ite | split)

theorem State.sendPeers_spares {X : Nat → Prop} {a s : State} (h : a.Spares X s) (x1 x2 x3) :
    a.Spares X (State.sendPeers s x1 x2 x3).1 := by
  induction x3 generalizing s x1 x2 with
  | nil =>
    unfold State.sendPeers
    repeat' (with_reducible assumption)
  | cons e t ih =>
    unfold State.sendPeers
    repeat' (first
        | with_reducible assumption | dsimp only | with_reducible apply ih | with_reducible apply State.modInst_spares
        | with_reducible apply State.sendReq_spares | with_reducible apply State.modFn_spares
        | with_reducible refine Sent.Holds.wait (by assumption) ?_ | with_reducible refine Sent.Holds.ur (by assumption) ?_
        | with_reducible refine Sent.Holds.ok (by assumption) ?_ | split)

theorem State.writePiece_spares {X : Nat → Prop} {a s : State} (h : a.Spares X s) (x1 x2 x3) :
    a.Spares X (State.writePiece s x1 x2 x3) := by
  unfold State.writePiece
  repeat' (first
      | with_reducible assumption | with_reducible apply State.memStore_spares | with_reducible apply State.pcieWrite_spares
      | with_reducible apply State.endpointWrite_spares | with_reducible apply State.message_spares
      | with_reducible apply State.Spares.getD | with_reducible apply State.Spares.ite | split)

theorem State.powerstate_spares {X : Nat → Prop} {a s : State} (h : a.Spares X s) (x1 x2) :
    a.Spares X (State.powerstate s x1 x2) := by
  unfold State.powerstate
  repeat' (first
      | with_reducible assumption | dsimp only | with_reducible apply State.cobRecord_spares
      | with_reducible apply State.modFn_spares | with_reducible apply State.modDom_spares
      | with_reducible apply State.wakeDom_spares | with_reducible apply State.Spares.ite)

theorem State.bmeRelease_spares {X : Nat → Prop} {a s : State} (h : a.Spares X s) (x1) :
    a.Spares X (State.bmeRelease s x1) := by
  unfold State.bmeRelease
  repeat' (first
      | with_reducible assumption | intro _ | dsimp only | with_reducible apply State.opSave_spares
      | with_reducible apply State.opRestore_spares | with_reducible apply State.msixFlush_spares
      | with_reducible apply State.Spares.foldl | with_reducible apply State.Spares.ite)

theorem State.commandWrite_spares {X : Nat → Prop} {a s : State} (h : a.Spares X s) (x1 x2 x3 x4) :
    a.Spares X (State.commandWrite s x1 x2 x3 x4) := by
  unfold State.commandWrite
  repeat' (first
      | with_reducible assumption | with_reducible apply State.bmeRelease_spares | with_reducible apply State.modFn_spares)

theorem State.aerPost_spares {X : Nat → Prop} {a s : State} (h : a.Spares X s) (x1 x2 x3) :
    a.Spares X (State.aerPost s x1 x2 x3) := by
  unfold State.aerPost
  repeat' (first | with_reducible assumption | with_reducible apply State.post_spares | with_reducible apply State.Spares.ite)

theorem State.aerError_spares {X : Nat → Prop} {a s : State} (h : a.Spares X s) (x1 x2 x3 x4 x5) :
    a.Spares X (State.aerError s x1 x2 x3 x4 x5) := by
  unfold State.aerError
  repeat' (first
      | with_reducible assumption | with_reducible apply State.aerPost_spares | with_reducible apply State.modPort_spares)

theorem State.coreDone_spares {X : Nat → Prop} {a s : State} (h : a.Spares X s) (q bs)
    (hd : ∀ c, X c → (a.core c).run ≠ RunState.dev) : a.Spares X (s.coreDone q bs) := by
  by_cases hx : X q.who
  · have hr : (s.core q.who).run ≠ RunState.dev := by
      have e0 := congrArg Core.run (h.core q.who hx)
      have e : (s.core q.who).run = (a.core q.who).run := e0
      rw [e]; exact hd _ hx
    unfold State.coreDone
    dsimp only
    rw [if_pos hr]
    exact h
  · unfold State.coreDone
    refine State.Spares.ite h (State.Spares.ite (State.Spares.setNe h hx) ?_)
    exact State.retire_spares (State.Spares.setNe h hx) _ _ _ _ hx

theorem State.coreFail_spares {X : Nat → Prop} {a s : State} (h : a.Spares X s) (x1 x2 x3 x4 x5) (hd : ∀ c, X c → (a.core c).run ≠ RunState.dev) :
    a.Spares X (State.coreFail s x1 x2 x3 x4 x5) := by
  unfold State.coreFail
  repeat' (first
      | with_reducible assumption | with_reducible apply State.coreDone_spares | with_reducible apply State.portRecord_spares)

theorem State.corePoison_spares {X : Nat → Prop} {a s : State} (h : a.Spares X s) (q)
    (hd : ∀ c, X c → (a.core c).run ≠ RunState.dev) : a.Spares X (s.corePoison q) := by
  by_cases hx : X q.who
  · have hr : (s.core q.who).run ≠ RunState.dev := by
      have e0 := congrArg Core.run (h.core q.who hx)
      have e : (s.core q.who).run = (a.core q.who).run := e0
      rw [e]; exact hd _ hx
    unfold State.corePoison
    rw [if_pos hr]
    exact h
  · unfold State.corePoison
    refine State.Spares.ite h ?_
    exact State.raise_spares (State.poisonRecord_spares (State.Spares.modNe h hx) _ _ _) _ _ hx

theorem State.peerDone_spares {X : Nat → Prop} {a s : State} (h : a.Spares X s) (x1 x2 x3 x4 x5 x6) :
    a.Spares X (State.peerDone s x1 x2 x3 x4 x5 x6) := by
  unfold State.peerDone
  repeat' (first
      | with_reducible assumption | dsimp only | with_reducible apply State.modFn_spares
      | with_reducible apply State.modInst_spares)

theorem State.reqError_spares {X : Nat → Prop} {a s : State} (h : a.Spares X s) (x1 x2 x3 x4 x5) (hd : ∀ c, X c → (a.core c).run ≠ RunState.dev) :
    a.Spares X (State.reqError s x1 x2 x3 x4 x5) := by
  unfold State.reqError
  repeat' (first
      | with_reducible assumption | with_reducible apply State.coreFail_spares | with_reducible apply State.peerDone_spares
      | with_reducible apply State.Spares.ite)

theorem State.dropReq_spares {X : Nat → Prop} {a s : State} (h : a.Spares X s) (x1 x2 x3) :
    a.Spares X (State.dropReq s x1 x2 x3) := by
  unfold State.dropReq
  repeat' (first | with_reducible assumption | with_reducible apply State.modPort_spares)

theorem State.lateCpl_spares {X : Nat → Prop} {a s : State} (h : a.Spares X s) (x1 x2 x3 x4) :
    a.Spares X (State.lateCpl s x1 x2 x3 x4) := by
  unfold State.lateCpl
  repeat' (first
      | with_reducible assumption | dsimp only | with_reducible apply State.cobRecord_spares
      | with_reducible apply State.modRegion_spares | with_reducible apply State.portRecord_spares
      | with_reducible apply State.modPort_spares | with_reducible apply State.Spares.ite | split)

theorem State.dpcEnter_spares {X : Nat → Prop} {a s : State} (h : a.Spares X s) (x1 x2 x3 x4) (hd : ∀ c, X c → (a.core c).run ≠ RunState.dev) :
    a.Spares X (State.dpcEnter s x1 x2 x3 x4) := by
  unfold State.dpcEnter
  repeat' (first
      | with_reducible assumption | intro _ | dsimp only | with_reducible apply State.modPort_spares
      | with_reducible apply State.reqError_spares | with_reducible apply State.post_spares
      | with_reducible apply State.portRecord_spares | with_reducible apply State.Spares.foldl
      | with_reducible apply State.Spares.ite)

theorem State.dpcClear_spares {X : Nat → Prop} {a s : State} (h : a.Spares X s) (x1 x2) :
    a.Spares X (State.dpcClear s x1 x2) := by
  unfold State.dpcClear
  repeat' (first
      | with_reducible assumption | dsimp only | with_reducible apply State.modPort_spares
      | with_reducible apply State.Spares.ite)

theorem State.portWrite_spares {X : Nat → Prop} {a s : State} (h : a.Spares X s) (x1 x2 x3 x4 x5) (hd : ∀ c, X c → (a.core c).run ≠ RunState.dev) :
    a.Spares X (State.portWrite s x1 x2 x3 x4 x5) := by
  unfold State.portWrite
  repeat' (first
      | with_reducible assumption | dsimp only | with_reducible apply State.modPort_spares
      | with_reducible apply State.dpcEnter_spares | with_reducible apply State.dpcClear_spares
      | with_reducible apply State.Spares.ite | split)

theorem State.fnWrite_spares {X : Nat → Prop} {a s : State} (h : a.Spares X s) (x1 x2 x3 x4) :
    a.Spares X (State.fnWrite s x1 x2 x3 x4) := by
  unfold State.fnWrite
  repeat' (first
      | with_reducible assumption | dsimp only | with_reducible apply State.modFn_spares
      | with_reducible apply State.commandWrite_spares | with_reducible apply State.powerstate_spares
      | with_reducible apply State.msixFlush_spares | with_reducible apply State.Spares.ite | split)

theorem State.bus0Write_spares {X : Nat → Prop} {a s : State} (h : a.Spares X s) (x1 x2) (hd : ∀ c, X c → (a.core c).run ≠ RunState.dev) :
    a.Spares X (State.bus0Write s x1 x2) := by
  unfold State.bus0Write
  repeat' (first
      | with_reducible assumption | intro _ | dsimp only | with_reducible apply State.portWrite_spares
      | with_reducible apply State.fnWrite_spares | with_reducible apply State.Spares.foldl
      | with_reducible apply State.Spares.ite)

theorem State.linkRead_spares {X : Nat → Prop} {a s : State} (h : a.Spares X s) (x1 x2) (hcx1 : ¬ X x1.who) :
    LinkAcc.Holds (a.Spares X) (State.linkRead s x1 x2) := by
  unfold State.linkRead
  repeat' (first
      | with_reducible assumption | dsimp only | with_reducible apply LinkAcc.Holds.mkWait
      | with_reducible apply LinkAcc.Holds.mkDone | with_reducible apply LinkAcc.Holds.mkSent
      | with_reducible apply State.portRecord_spares | with_reducible apply State.sendReq_spares
      | ((with_reducible refine State.Spares.modNe ?_ ?_); on_goal 2 => assumption)
      | with_reducible refine Sent.Holds.wait (by assumption) ?_ | with_reducible refine Sent.Holds.ur (by assumption) ?_
      | with_reducible refine Sent.Holds.ok (by assumption) ?_ | split)

theorem State.linkWrite_spares {X : Nat → Prop} {a s : State} (h : a.Spares X s) (x1 x2 x3) (hcx1 : ¬ X x1.who) :
    LinkAcc.Holds (a.Spares X) (State.linkWrite s x1 x2 x3) := by
  unfold State.linkWrite
  repeat' (first
      | with_reducible assumption | with_reducible apply LinkAcc.Holds.mkWait | with_reducible apply LinkAcc.Holds.mkDone
      | with_reducible apply LinkAcc.Holds.mkSent | with_reducible apply State.sendPosted_spares
      | with_reducible apply State.wakeDom_spares | with_reducible apply State.sendReq_spares
      | with_reducible apply State.portRecord_spares
      | ((with_reducible refine State.Spares.modNe ?_ ?_); on_goal 2 => assumption)
      | with_reducible refine Sent.Holds.wait (by assumption) ?_ | with_reducible refine Sent.Holds.ur (by assumption) ?_
      | with_reducible refine Sent.Holds.ok (by assumption) ?_ | with_reducible refine Option.Holds.some (by assumption) ?_
      | split)

theorem State.dmaFault_spares {X : Nat → Prop} {a s : State} (h : a.Spares X s) (x1 x2 x3 x4 x5 x6 x7) :
    a.Spares X (State.dmaFault s x1 x2 x3 x4 x5 x6 x7) := by
  unfold State.dmaFault
  repeat' (first | with_reducible assumption | with_reducible apply State.iotEvent_spares)

theorem State.dmaContext_spares {X : Nat → Prop} {a s : State} (h : a.Spares X s) (x1 x2) :
    a.Spares X (State.dmaContext s x1 x2).2 := by
  unfold State.dmaContext
  repeat' (first
      | with_reducible assumption | dsimp only | with_reducible apply State.context_spares
      | with_reducible refine State.Spares.snd (by assumption) ?_ | split)

theorem State.poisonRange_spares {X : Nat → Prop} {a s : State} (h : a.Spares X s) (x1 x2 x3 x4) :
    a.Spares X (State.poisonRange s x1 x2 x3 x4) := by
  unfold State.poisonRange
  repeat' (first
      | with_reducible assumption | intro _ | with_reducible apply State.poisonLine_spares
      | with_reducible apply State.Spares.foldl)

theorem State.dmaPiece_spares {X : Nat → Prop} {a s : State} (h : a.Spares X s) (x1 x2 x3 x4 x5 x6 x7 x8) :
    a.Spares X (State.dmaPiece s x1 x2 x3 x4 x5 x6 x7 x8).2 := by
  unfold State.dmaPiece
  repeat' (first
      | with_reducible assumption | dsimp only | with_reducible apply State.memRange_spares
      | with_reducible apply State.memStore_spares | with_reducible apply State.poisonRange_spares
      | with_reducible apply State.pcieWrite_spares | with_reducible apply State.wakeDom_spares
      | with_reducible apply State.emit_spares | with_reducible apply State.endpointWrite_spares
      | with_reducible apply State.aperture_spares | with_reducible apply State.message_spares
      | with_reducible apply State.countDrop_spares | with_reducible refine Option.Holds.some (by assumption) ?_
      | with_reducible apply State.Spares.ite | split)

theorem State.dmaPieces_spares {X : Nat → Prop} {a s : State} (h : a.Spares X s) (x1 x2 x3 x4 x5 x6 x7) :
    a.Spares X (State.dmaPieces s x1 x2 x3 x4 x5 x6 x7).2 := by
  induction x7 generalizing s x1 x2 x3 x4 x5 x6 with
  | nil =>
    unfold State.dmaPieces
    repeat' (with_reducible assumption)
  | cons e t ih =>
    unfold State.dmaPieces
    repeat' (first
        | with_reducible assumption | dsimp only | with_reducible apply ih | with_reducible apply State.dmaPiece_spares
        | with_reducible refine State.Spares.snd (by assumption) ?_ | split)

theorem State.dmaRoute_spares {X : Nat → Prop} {a s : State} (h : a.Spares X s) (x1 x2 x3 x4 x5 x6) :
    a.Spares X (State.dmaRoute s x1 x2 x3 x4 x5 x6).2 := by
  unfold State.dmaRoute
  repeat' (first | with_reducible assumption | with_reducible apply State.dmaPieces_spares | split)

theorem State.dmaUntranslated_spares {X : Nat → Prop} {a s : State} (h : a.Spares X s) (x1 x2 x3 x4 x5 x6 x7) :
    a.Spares X (State.dmaUntranslated s x1 x2 x3 x4 x5 x6 x7).2 := by
  unfold State.dmaUntranslated
  repeat' (first
      | with_reducible assumption | dsimp only | with_reducible apply State.dmaContext_spares
      | with_reducible apply State.dmaFault_spares | with_reducible apply State.ioRegime_spares
      | with_reducible apply State.ioXlats_spares | with_reducible apply State.dmaRoute_spares
      | with_reducible apply State.ioCommit_spares | with_reducible refine State.Spares.snd (by assumption) ?_ | split)

theorem State.dmaTranslated_spares {X : Nat → Prop} {a s : State} (h : a.Spares X s) (x1 x2 x3 x4 x5 x6 x7) :
    a.Spares X (State.dmaTranslated s x1 x2 x3 x4 x5 x6 x7).2 := by
  unfold State.dmaTranslated
  repeat' (first
      | with_reducible assumption | dsimp only | with_reducible apply State.dmaContext_spares
      | with_reducible apply State.dmaFault_spares | with_reducible apply State.dmaRoute_spares
      | with_reducible refine State.Spares.snd (by assumption) ?_ | split)

theorem State.dmaAnswer_spares {X : Nat → Prop} {a s : State} (h : a.Spares X s) (r f rid op hdr) {p : DmaAns × State} (hp : a.Spares X p.2) :
    a.Spares X (State.dmaAnswer s r f rid op hdr p) := by
  unfold State.dmaAnswer
  split
  · exact State.Spares.upd h
  · dsimp only at hp ⊢
    split
    · exact hp
    · exact State.emit_spares hp _
  · dsimp only at hp ⊢
    split
    · exact hp
    · exact State.emit_spares hp _
  · dsimp only at hp ⊢
    split
    · exact State.portRecord_spares hp _ _ _ _ _ _
    · exact State.emit_spares (State.portRecord_spares hp _ _ _ _ _ _) _

theorem State.vcRelease_spares {X : Nat → Prop} {a s : State} (h : a.Spares X s) (x1 x2 x3) :
    a.Spares X (State.vcRelease s x1 x2 x3) := by
  unfold State.vcRelease
  repeat' (first
      | with_reducible assumption | with_reducible apply State.release_spares
      | ((with_reducible apply State.Spares.modEq); on_goal 2 => (first | rfl | exact Core.brk_arch _ _ _ | (intro k; exact Core.brk_arch _ _ _) | simp only [Core.brk_arch] | (intro k; rfl) | (intro k; simp only [Core.brk_arch]; done) | (intro k; split <;> first | rfl | simp only [Core.brk_arch])))
      | with_reducible apply State.Spares.ite | split)

theorem State.walkRelease_spares {X : Nat → Prop} {a s : State} (h : a.Spares X s) (x1) (hcx1 : ¬ X x1) :
    a.Spares X (State.walkRelease s x1) := by
  unfold State.walkRelease
  repeat' (first
      | with_reducible assumption | intro _ | dsimp only
      | ((with_reducible refine State.Spares.setNe ?_ ?_); on_goal 2 => assumption)
      | with_reducible apply State.release_spares | with_reducible apply State.Spares.foldl)

theorem State.walkAllArrays_spares {X : Nat → Prop} {a s : State} (h : a.Spares X s) (x1) (hcx1 : ¬ X x1) :
    a.Spares X (State.walkAllArrays s x1) := by
  unfold State.walkAllArrays
  repeat' (first
      | with_reducible assumption | ((with_reducible refine State.Spares.modNe ?_ ?_); on_goal 2 => assumption)
      | with_reducible apply State.walkRelease_spares)

theorem State.walkClean_spares {X : Nat → Prop} {a s : State} (h : a.Spares X s) (x1) :
    a.Spares X (State.walkClean s x1) := by
  unfold State.walkClean
  repeat' (first
      | with_reducible assumption | intro _ | dsimp only
      | ((with_reducible apply State.Spares.setEq); on_goal 2 => (first | rfl | exact Core.brk_arch _ _ _ | (intro k; exact Core.brk_arch _ _ _) | simp only [Core.brk_arch] | (intro k; rfl) | (intro k; simp only [Core.brk_arch]; done) | (intro k; split <;> first | rfl | simp only [Core.brk_arch])))
      | with_reducible apply State.slcFill_spares | with_reducible apply State.Spares.foldl)

theorem State.pin_spares {X : Nat → Prop} {a s : State} (h : a.Spares X s) (x1) :
    a.Spares X (State.pin s x1) := by
  unfold State.pin
  repeat' (first
      | with_reducible assumption | dsimp only | with_reducible apply State.putDir_spares
      | with_reducible apply State.Spares.ite | split)

theorem State.unpin_spares {X : Nat → Prop} {a s : State} (h : a.Spares X s) (x1) :
    a.Spares X (State.unpin s x1) := by
  unfold State.unpin
  repeat' (first | with_reducible assumption | dsimp only | with_reducible apply State.putDir_spares | split)

theorem State.lockData_spares {X : Nat → Prop} {a s : State} (h : a.Spares X s) (x1 x2) :
    a.Spares X (State.lockData s x1 x2) := by
  unfold State.lockData
  repeat' (first
      | with_reducible assumption | dsimp only | with_reducible apply State.acquire_spares
      | ((with_reducible apply State.Spares.modEq); on_goal 2 => (first | rfl | exact Core.brk_arch _ _ _ | (intro k; exact Core.brk_arch _ _ _) | simp only [Core.brk_arch] | (intro k; rfl) | (intro k; simp only [Core.brk_arch]; done) | (intro k; split <;> first | rfl | simp only [Core.brk_arch])))
      | with_reducible apply State.pin_spares | with_reducible apply State.l2Install_spares
      | ((with_reducible apply State.Spares.setEq); on_goal 2 => (first | rfl | exact Core.brk_arch _ _ _ | (intro k; exact Core.brk_arch _ _ _) | simp only [Core.brk_arch] | (intro k; rfl) | (intro k; simp only [Core.brk_arch]; done) | (intro k; split <;> first | rfl | simp only [Core.brk_arch])))
      | with_reducible apply State.Spares.ite | split)

theorem State.lockCode_spares {X : Nat → Prop} {a s : State} (h : a.Spares X s) (x1 x2) :
    a.Spares X (State.lockCode s x1 x2) := by
  unfold State.lockCode
  repeat' (first
      | with_reducible assumption | dsimp only | with_reducible apply State.loadLine_spares
      | with_reducible apply State.pin_spares
      | ((with_reducible apply State.Spares.modEq); on_goal 2 => (first | rfl | exact Core.brk_arch _ _ _ | (intro k; exact Core.brk_arch _ _ _) | simp only [Core.brk_arch] | (intro k; rfl) | (intro k; simp only [Core.brk_arch]; done) | (intro k; split <;> first | rfl | simp only [Core.brk_arch]))))

theorem State.unlockWindow_spares {X : Nat → Prop} {a s : State} (h : a.Spares X s) (x1 x2) :
    a.Spares X (State.unlockWindow s x1 x2) := by
  unfold State.unlockWindow
  repeat' (first
      | with_reducible assumption | intro _ | dsimp only | with_reducible apply State.unpin_spares
      | ((with_reducible apply State.Spares.setEq); on_goal 2 => (first | rfl | exact Core.brk_arch _ _ _ | (intro k; exact Core.brk_arch _ _ _) | simp only [Core.brk_arch] | (intro k; rfl) | (intro k; simp only [Core.brk_arch]; done) | (intro k; split <;> first | rfl | simp only [Core.brk_arch])))
      | with_reducible apply State.Spares.foldl | split)

theorem State.prefetch_spares {X : Nat → Prop} {a s : State} (h : a.Spares X s) (x1 x2 x3 x4 x5 x6) :
    a.Spares X (State.prefetch s x1 x2 x3 x4 x5 x6) := by
  unfold State.prefetch
  repeat' (first
      | with_reducible assumption | dsimp only | with_reducible apply State.request_spares
      | with_reducible apply State.Spares.ite)

theorem State.deliverAllHeld_spares {X : Nat → Prop} {a s : State} (h : a.Spares X s) (x1) :
    a.Spares X (State.deliverAllHeld s x1) := by
  unfold State.deliverAllHeld
  repeat' (first
      | with_reducible assumption | intro _ | dsimp only | with_reducible apply State.deliverHeld_spares
      | with_reducible apply State.Spares.foldl)

theorem State.leaveOn_spares {X : Nat → Prop} {a s : State} (h : a.Spares X s) (x1 x2) (hcx1 : ¬ X x1) :
    a.Spares X (State.leaveOn s x1 x2) := by
  unfold State.leaveOn
  repeat' (first
      | with_reducible assumption | ((with_reducible refine State.Spares.modNe ?_ ?_); on_goal 2 => assumption)
      | with_reducible apply State.slipCore_spares)

theorem State.arriveCore_spares {X : Nat → Prop} {a s : State} (h : a.Spares X s) (x1) (hcx1 : ¬ X x1) :
    a.Spares X (State.arriveCore s x1) := by
  unfold State.arriveCore
  repeat' (first
      | with_reducible assumption | dsimp only | with_reducible apply State.modDom_spares
      | ((with_reducible refine State.Spares.modNe ?_ ?_); on_goal 2 => assumption)
      | ((with_reducible refine State.Spares.setNe ?_ ?_); on_goal 2 => assumption)
      | with_reducible apply State.deliverAllHeld_spares | with_reducible apply State.walkAllArrays_spares
      | with_reducible apply State.Spares.ite)

theorem State.stackOff_spares {X : Nat → Prop} {a s : State} (h : a.Spares X s) (x1) (hd : ∀ c, X c → (a.core c).run ≠ RunState.dev) :
    a.Spares X (State.stackOff s x1) := by
  unfold State.stackOff
  repeat' (first
      | with_reducible assumption | intro _ | dsimp only | with_reducible apply State.reqError_spares
      | with_reducible apply State.dropReq_spares | with_reducible apply State.modRegion_spares
      | with_reducible apply State.Spares.foldl)

theorem State.arriveUnit_spares {X : Nat → Prop} {a s : State} (h : a.Spares X s) (x1) (hd : ∀ c, X c → (a.core c).run ≠ RunState.dev) :
    a.Spares X (State.arriveUnit s x1) := by
  unfold State.arriveUnit
  repeat' (first
      | with_reducible assumption | dsimp only | with_reducible apply State.modDom_spares
      | with_reducible apply State.modFn_spares | with_reducible apply State.modChan_spares
      | with_reducible apply State.stackOff_spares | with_reducible apply State.Spares.ite)

theorem State.releasePads_spares {X : Nat → Prop} {a s : State} (h : a.Spares X s) (x1) :
    a.Spares X (State.releasePads s x1) := by
  unfold State.releasePads
  repeat' (first
      | with_reducible assumption | intro _ | dsimp only | with_reducible apply State.modDom_spares
      | with_reducible apply State.modPort_spares | with_reducible apply State.Spares.foldl
      | with_reducible apply State.Spares.ite)

end Sys2Proof.Machine
end

