-- ==== Sys2Proof/Laws/SparesBoot.lean ====
section
/-! SUPPORT. What an operation leaves of the registers of the cores (State.Spares): Dawn, Slate and power. -/

namespace Sys2Proof.Machine

theorem State.chanRecord_spares {X : Nat → Prop} {a s : State} (h : a.Spares X s) (x1 x2 x3 x4 x5 x6 x7 x8 x9) :
    a.Spares X (State.chanRecord s x1 x2 x3 x4 x5 x6 x7 x8 x9) := by
  unfold State.chanRecord
  repeat' (first | with_reducible assumption | with_reducible apply State.record_spares)

theorem State.linkRecord_spares {X : Nat → Prop} {a s : State} (h : a.Spares X s) (x1 x2 x3 x4 x5 x6) :
    a.Spares X (State.linkRecord s x1 x2 x3 x4 x5 x6) := by
  unfold State.linkRecord
  repeat' (first | with_reducible assumption | with_reducible apply State.record_spares)

theorem State.addMark_spares {X : Nat → Prop} {a s : State} (h : a.Spares X s) (x1 x2 x3 x4) :
    a.Spares X (State.addMark s x1 x2 x3 x4) := by
  unfold State.addMark
  repeat' (first
      | with_reducible assumption | dsimp only | with_reducible apply State.chanRecord_spares
      | with_reducible apply State.modChan_spares)

theorem State.propose_spares {X : Nat → Prop} {a s : State} (h : a.Spares X s) (x1 x2) :
    a.Spares X (State.propose s x1 x2) := by
  unfold State.propose
  repeat' (first | with_reducible assumption | with_reducible apply State.modChan_spares)

theorem State.countCorrected_spares {X : Nat → Prop} {a s : State} (h : a.Spares X s) (x1 x2 x3) :
    a.Spares X (State.countCorrected s x1 x2 x3) := by
  unfold State.countCorrected
  repeat' (first
      | with_reducible assumption | intro _ | dsimp only | with_reducible apply State.modChan_spares
      | with_reducible apply State.chanRecord_spares | with_reducible apply State.propose_spares
      | with_reducible apply State.post_spares | with_reducible apply State.Spares.foldl
      | with_reducible apply State.Spares.ite)

theorem State.declareBad_spares {X : Nat → Prop} {a s : State} (h : a.Spares X s) (x1 x2 x3) :
    a.Spares X (State.declareBad s x1 x2 x3) := by
  unfold State.declareBad
  repeat' (first
      | with_reducible assumption | dsimp only | with_reducible apply State.dramStore_spares
      | with_reducible apply State.draw_spares | with_reducible apply State.modChan_spares
      | with_reducible apply State.post_spares | with_reducible apply State.chanRecord_spares)

theorem State.deliverRead_spares {X : Nat → Prop} {a s : State} (h : a.Spares X s) (x1 x2 x3) :
    a.Spares X (State.deliverRead s x1 x2 x3) := by
  unfold State.deliverRead
  repeat' (first
      | with_reducible assumption | with_reducible apply State.slcFill_spares | with_reducible apply State.Spares.ite)

theorem State.demandRead_spares {X : Nat → Prop} {a s : State} (h : a.Spares X s) (x1 x2 x3 x4) :
    a.Spares X (State.demandRead s x1 x2 x3 x4) := by
  unfold State.demandRead
  repeat' (first
      | with_reducible assumption | dsimp only | with_reducible apply State.deliverRead_spares
      | with_reducible apply State.countCorrected_spares | with_reducible apply State.declareBad_spares
      | with_reducible apply State.modChan_spares | with_reducible apply State.Spares.ite | split)

theorem State.scrubCell_spares {X : Nat → Prop} {a s : State} (h : a.Spares X s) (x1 x2 x3 x4) :
    a.Spares X (State.scrubCell s x1 x2 x3 x4) := by
  unfold State.scrubCell
  repeat' (first
      | with_reducible assumption | dsimp only | with_reducible apply State.countCorrected_spares
      | with_reducible apply State.modChan_spares | with_reducible apply State.declareBad_spares
      | with_reducible apply State.Spares.ite | split)

theorem State.scrubNext_spares {X : Nat → Prop} {a s : State} (h : a.Spares X s) (x1 x2) :
    a.Spares X (State.scrubNext s x1 x2) := by
  unfold State.scrubNext
  repeat' (first
      | with_reducible assumption | dsimp only | with_reducible apply State.modChan_spares
      | with_reducible apply State.scrubCell_spares | with_reducible apply State.Spares.ite)

theorem State.setDrains_spares {X : Nat → Prop} {a s : State} (h : a.Spares X s) (x1) :
    a.Spares X (State.setDrains s x1) := by
  unfold State.setDrains
  repeat' (first | with_reducible assumption | dsimp only | with_reducible apply State.modChan_spares)

theorem State.issueReq_spares {X : Nat → Prop} {a s : State} (h : a.Spares X s) (x1 x2) :
    a.Spares X (State.issueReq s x1 x2) := by
  unfold State.issueReq
  repeat' (first
      | with_reducible assumption | dsimp only | with_reducible apply State.setDrains_spares
      | with_reducible apply State.modChan_spares | with_reducible apply State.dramStore_spares
      | with_reducible apply State.demandRead_spares | with_reducible apply State.Spares.ite)

theorem State.slot_spares {X : Nat → Prop} {a s : State} (h : a.Spares X s) (x1) :
    a.Spares X (State.slot s x1) := by
  unfold State.slot
  repeat' (first
      | with_reducible assumption | dsimp only | with_reducible apply State.modChan_spares
      | with_reducible apply State.scrubNext_spares | with_reducible apply State.issueReq_spares
      | with_reducible apply State.Spares.ite | split)

theorem State.dimmRecords_spares {X : Nat → Prop} {a s : State} (h : a.Spares X s) (x1) :
    a.Spares X (State.dimmRecords s x1) := by
  unfold State.dimmRecords
  repeat' (first
      | with_reducible assumption | dsimp only | with_reducible apply State.linkRecord_spares
      | with_reducible apply State.Spares.ite | split)

theorem State.restoreMarks_spares {X : Nat → Prop} {a s : State} (h : a.Spares X s) (ch : Nat) : a.Spares X (s.restoreMarks ch) := by
  unfold State.restoreMarks
  extract_lets one
  have h1 : ∀ t i, a.Spares X t → a.Spares X (one t i) := by
    intro t i ht
    simp only [one]
    refine State.Spares.ite ht (State.Spares.ite (State.modChan_spares ht _ _) (State.Spares.ite ?_ ht))
    exact State.chanRecord_spares (State.modChan_spares ht _ _) _ _ _ _ _ _ _ _ _
  clear_value one
  exact State.Spares.upd (h1 _ _ (h1 _ _ h))

theorem State.applyRows_spares {X : Nat → Prop} {a s : State} (h : a.Spares X s) (x1) :
    a.Spares X (State.applyRows s x1) := by
  unfold State.applyRows
  repeat' (first
      | with_reducible assumption | intro _ | dsimp only | with_reducible apply State.chanRecord_spares
      | with_reducible apply State.draw_spares | fail_if_no_progress (with_reducible apply State.Spares.upd)
      | with_reducible apply State.Spares.foldlSnd | split)

theorem State.layOut_spares {X : Nat → Prop} {a s : State} (h : a.Spares X s) :
    a.Spares X (State.layOut s) := by
  unfold State.layOut
  repeat' (first
      | with_reducible assumption | intro _ | dsimp only | with_reducible apply State.modChan_spares
      | fail_if_no_progress (with_reducible apply State.Spares.upd) | with_reducible apply State.Spares.foldl)

theorem State.fallbacks_spares {X : Nat → Prop} {a s : State} (h : a.Spares X s) (x1 x2 x3) :
    a.Spares X (State.fallbacks s x1 x2 x3) := by
  induction x2 generalizing s x1 x3 with
  | zero =>
    unfold State.fallbacks
    repeat' (with_reducible assumption)
  | succ n ih =>
    unfold State.fallbacks
    repeat' (first
        | with_reducible assumption | with_reducible apply ih | with_reducible apply State.linkRecord_spares
        | with_reducible apply State.modChan_spares)

theorem State.startRetrain_spares {X : Nat → Prop} {a s : State} (h : a.Spares X s) (x1) :
    a.Spares X (State.startRetrain s x1) := by
  unfold State.startRetrain
  repeat' (first
      | with_reducible assumption | with_reducible apply State.modRegion_spares | with_reducible apply State.modChan_spares
      | with_reducible apply State.Spares.ite)

theorem State.morningBack_spares {X : Nat → Prop} {a s : State} (h : a.Spares X s) (x1) :
    a.Spares X (State.morningBack s x1) := by
  unfold State.morningBack
  repeat' (first
      | with_reducible assumption | intro _ | dsimp only | with_reducible apply State.startRetrain_spares
      | with_reducible apply State.modRegion_spares | with_reducible apply State.Spares.foldl)

theorem State.fenceChan_spares {X : Nat → Prop} {a s : State} (h : a.Spares X s) (x1) :
    a.Spares X (State.fenceChan s x1) := by
  unfold State.fenceChan
  repeat' (first | with_reducible assumption | with_reducible apply State.modChan_spares)

theorem State.keyCommand_spares {X : Nat → Prop} {a s : State} (h : a.Spares X s) (x1) :
    a.Spares X (State.keyCommand s x1) := by
  unfold State.keyCommand
  repeat' (first
      | with_reducible assumption | dsimp only | with_reducible apply State.draw_spares
      | fail_if_no_progress (with_reducible apply State.Spares.upd) | with_reducible apply State.Spares.ite | split)

theorem State.stopCore_spares {X : Nat → Prop} {a s : State} (h : a.Spares X s) (x1) (hcx1 : ¬ X x1) :
    a.Spares X (State.stopCore s x1) := by
  unfold State.stopCore
  repeat' (first
      | with_reducible assumption | dsimp only | with_reducible apply State.walkAllArrays_spares
      | with_reducible apply State.slipCore_spares
      | ((with_reducible refine State.Spares.modNe ?_ ?_); on_goal 2 => assumption) | with_reducible apply State.Spares.ite)

theorem State.emptySlice_spares {X : Nat → Prop} {a s : State} (h : a.Spares X s) (x1) :
    a.Spares X (State.emptySlice s x1) := by
  unfold State.emptySlice
  repeat' (first
      | with_reducible assumption | intro _ | dsimp only | with_reducible apply State.recall_spares
      | with_reducible apply State.settle_spares | with_reducible apply State.memWrite_spares
      | with_reducible apply State.modBlock_spares | with_reducible apply State.Spares.foldl)

theorem State.fenceIotu_spares {X : Nat → Prop} {a s : State} (h : a.Spares X s) (x1) (hd : ∀ c, X c → (a.core c).run ≠ RunState.dev) :
    a.Spares X (State.fenceIotu s x1) := by
  unfold State.fenceIotu
  repeat' (first
      | with_reducible assumption | intro _ | dsimp only | with_reducible apply State.modIotu_spares
      | with_reducible apply State.dpcEnter_spares | with_reducible apply State.contain_spares
      | with_reducible apply State.Spares.foldl | with_reducible apply State.Spares.ite)

theorem State.parkChan_spares {X : Nat → Prop} {a s : State} (h : a.Spares X s) (x1) :
    a.Spares X (State.parkChan s x1) := by
  unfold State.parkChan
  repeat' (first
      | with_reducible assumption | intro _ | dsimp only | with_reducible apply State.dramStore_spares
      | with_reducible apply State.mergeClose_spares | with_reducible apply State.modChan_spares
      | with_reducible apply State.Spares.foldl | with_reducible apply State.Spares.ite)

theorem State.lbEnd_spares {X : Nat → Prop} {a s : State} (h : a.Spares X s) (x1 x2 x3 x4 x5) :
    a.Spares X (State.lbEnd s x1 x2 x3 x4 x5) := by
  unfold State.lbEnd
  repeat' (first
      | with_reducible assumption | dsimp only | with_reducible apply State.record_spares
      | fail_if_no_progress (with_reducible apply State.Spares.upd) | with_reducible apply State.Spares.ite)

theorem State.lbEndAll_spares {X : Nat → Prop} {a s : State} (h : a.Spares X s) (x1) :
    a.Spares X (State.lbEndAll s x1) := by
  unfold State.lbEndAll
  repeat' (first
      | with_reducible assumption | intro _ | dsimp only | with_reducible apply State.draw_spares
      | with_reducible apply State.lbEnd_spares | with_reducible apply State.Spares.foldl)

theorem State.lossRecord_spares {X : Nat → Prop} {a s : State} (h : a.Spares X s) (x1 x2 x3 x4 x5) :
    a.Spares X (State.lossRecord s x1 x2 x3 x4 x5) := by
  unfold State.lossRecord
  repeat' (first | with_reducible assumption | with_reducible apply State.record_spares)

theorem State.begin_spares {X : Nat → Prop} {a s : State} (h : a.Spares X s) :
    a.Spares X (State.begin s) := by
  unfold State.begin
  repeat' (first
      | with_reducible assumption | intro _ | dsimp only | with_reducible apply State.modRegion_spares
      | with_reducible apply State.modDom_spares | fail_if_no_progress (with_reducible apply State.Spares.upd)
      | with_reducible apply State.Spares.foldl)

theorem State.flashWrite_spares {X : Nat → Prop} {a s : State} (h : a.Spares X s) (x1 x2) :
    a.Spares X (State.flashWrite s x1 x2) := by
  unfold State.flashWrite
  repeat' (first | with_reducible assumption | fail_if_no_progress (with_reducible apply State.Spares.upd))

theorem State.rejectImage_spares {X : Nat → Prop} {a s : State} (h : a.Spares X s) (x1 x2 x3) :
    a.Spares X (State.rejectImage s x1 x2 x3) := by
  unfold State.rejectImage
  repeat' (first
      | with_reducible assumption | with_reducible apply State.record_spares | with_reducible apply State.modBoot_spares)

theorem State.checkSlot_go_spares {X : Nat → Prop} {a s : State} (h : a.Spares X s) (slot) (l : List (Nat × Nat)) (acc : List Img) :
    a.Spares X (State.checkSlot.go slot s l acc).2 := by
  induction l generalizing s acc with
  | nil => exact h
  | cons e t ih =>
    unfold State.checkSlot.go
    split
    · exact ih h _
    · exact State.rejectImage_spares h _ _ _

theorem State.checkSlot_spares {X : Nat → Prop} {a s : State} (h : a.Spares X s) (slot) : a.Spares X (s.checkSlot slot).2 := by
  unfold State.checkSlot
  split
  · exact h
  · exact State.checkSlot_go_spares h _ _ _

theorem State.trySlots_spares {X : Nat → Prop} {a s : State} (h : a.Spares X s) (x1) :
    a.Spares X (State.trySlots s x1).2 := by
  induction x1 generalizing s  with
  | nil =>
    unfold State.trySlots
    repeat' (with_reducible assumption)
  | cons e t ih =>
    unfold State.trySlots
    repeat' (first
        | with_reducible assumption | dsimp only | with_reducible apply ih | with_reducible apply State.checkSlot_spares
        | with_reducible refine State.Spares.snd (by assumption) ?_ | split)

theorem State.placeMonitor_spares {X : Nat → Prop} {a s : State} (h : a.Spares X s) (x1 x2) :
    a.Spares X (State.placeMonitor s x1 x2) := by
  unfold State.placeMonitor
  repeat' (first | with_reducible assumption | dsimp only | fail_if_no_progress (with_reducible apply State.Spares.upd))

theorem State.vesper_spares {X : Nat → Prop} {a s : State} (h : a.Spares X s) (x1 x2 x3) :
    a.Spares X (State.vesper s x1 x2 x3) := by
  unfold State.vesper
  repeat' (first | with_reducible assumption | dsimp only | with_reducible apply State.modBoot_spares)

theorem State.reloadStore_spares {X : Nat → Prop} {a s : State} (h : a.Spares X s) :
    a.Spares X (State.reloadStore s) := by
  unfold State.reloadStore
  repeat' (first | with_reducible assumption | dsimp only | with_reducible apply State.modBoot_spares)

theorem State.zeroize_spares {X : Nat → Prop} {a s : State} (h : a.Spares X s) (x1) :
    a.Spares X (State.zeroize s x1) := by
  unfold State.zeroize
  repeat' (first
      | with_reducible assumption | dsimp only | with_reducible apply State.draw_spares
      | with_reducible apply State.reloadStore_spares | with_reducible apply State.record_spares
      | fail_if_no_progress (with_reducible apply State.Spares.upd) | with_reducible apply State.Spares.ite)

theorem State.setMap_spares {X : Nat → Prop} {a s : State} (h : a.Spares X s) (x1 x2 x3) :
    a.Spares X (State.setMap s x1 x2 x3) := by
  unfold State.setMap
  repeat' (first | with_reducible assumption | dsimp only | fail_if_no_progress (with_reducible apply State.Spares.upd))

theorem State.lbistAtStart_spares {X : Nat → Prop} {a s : State} (h : a.Spares X s) :
    a.Spares X (State.lbistAtStart s) := by
  unfold State.lbistAtStart
  repeat' (first
      | with_reducible assumption | intro _ | dsimp only | with_reducible apply State.zeroize_spares
      | with_reducible apply State.setMap_spares | fail_if_no_progress (with_reducible apply State.Spares.upd)
      | with_reducible apply State.Spares.foldl | with_reducible apply State.Spares.ite)

theorem State.handover_spares {X : Nat → Prop} {a s : State} (h : a.Spares X s) :
    a.Spares X (State.handover s) := by
  unfold State.handover
  repeat' (first
      | with_reducible assumption | dsimp only | with_reducible apply State.walkClean_spares
      | with_reducible apply State.modRegion_spares | fail_if_no_progress (with_reducible apply State.Spares.upd)
      | with_reducible apply State.Spares.ite)

theorem State.releasePhase_spares {X : Nat → Prop} {a s : State} (h : a.Spares X s) :
    a.Spares X (State.releasePhase s) := by
  unfold State.releasePhase
  repeat' (first
      | with_reducible assumption | intro _ | dsimp only | with_reducible apply State.modBoot_spares
      | with_reducible apply State.modPort_spares
      | ((with_reducible apply State.Spares.modEq); on_goal 2 => (first | rfl | exact Core.brk_arch _ _ _ | (intro k; exact Core.brk_arch _ _ _) | simp only [Core.brk_arch] | (intro k; rfl) | (intro k; simp only [Core.brk_arch]; done) | (intro k; split <;> first | rfl | simp only [Core.brk_arch])))
      | with_reducible apply State.Spares.foldl | with_reducible apply State.Spares.ite)

theorem State.bootLock_spares {X : Nat → Prop} {a s : State} (h : a.Spares X s) :
    a.Spares X (State.bootLock s) := by
  unfold State.bootLock
  repeat' (first | with_reducible assumption | with_reducible apply State.modBoot_spares)

theorem State.sessResult_spares {X : Nat → Prop} {a s : State} (h : a.Spares X s) (x1) :
    a.Spares X (State.sessResult s x1) := by
  unfold State.sessResult
  repeat' (first | with_reducible assumption | with_reducible apply State.modBoot_spares)

theorem State.sessionOpen_spares {X : Nat → Prop} {a s : State} (h : a.Spares X s) (x1) :
    a.Spares X (State.sessionOpen s x1).2 := by
  unfold State.sessionOpen
  repeat' (first
      | with_reducible assumption | dsimp only | with_reducible apply State.sessResult_spares
      | with_reducible apply State.modBoot_spares | split)

theorem State.sessionHeader_spares {X : Nat → Prop} {a s : State} (h : a.Spares X s) (x1) :
    a.Spares X (State.sessionHeader s x1).2 := by
  unfold State.sessionHeader
  repeat' (first
      | with_reducible assumption | dsimp only | with_reducible apply State.sessResult_spares
      | with_reducible apply State.rejectImage_spares | with_reducible apply State.flashWrite_spares
      | with_reducible apply State.modBoot_spares | with_reducible apply State.Spares.ite | split)

theorem State.sessionBody_spares {X : Nat → Prop} {a s : State} (h : a.Spares X s) (x1) :
    a.Spares X (State.sessionBody s x1).2 := by
  unfold State.sessionBody
  repeat' (first
      | with_reducible assumption | dsimp only | with_reducible apply State.rejectImage_spares
      | with_reducible apply State.sessResult_spares | with_reducible apply State.modBoot_spares
      | with_reducible apply State.flashWrite_spares | with_reducible apply State.placeMonitor_spares
      | with_reducible apply State.Spares.ite | split)

theorem State.liveBegin_spares {X : Nat → Prop} {a s : State} (h : a.Spares X s) :
    a.Spares X (State.liveBegin s) := by
  unfold State.liveBegin
  repeat' (first
      | with_reducible assumption | dsimp only | with_reducible apply State.modBoot_spares
      | with_reducible apply State.modRegion_spares | with_reducible apply State.Spares.ite)

theorem State.trimStore_spares {X : Nat → Prop} {a s : State} (h : a.Spares X s) :
    a.Spares X (State.trimStore s) := by
  unfold State.trimStore
  repeat' (first | with_reducible assumption | with_reducible apply State.modBoot_spares)

theorem State.placeNow_spares {X : Nat → Prop} {a s : State} (h : a.Spares X s) :
    a.Spares X (State.placeNow s).2 := by
  unfold State.placeNow
  repeat' (first
      | with_reducible assumption | dsimp only | with_reducible apply State.memStore_spares
      | with_reducible apply State.vesper_spares | with_reducible apply State.record_spares
      | with_reducible apply State.rejectImage_spares | split)

theorem State.signNonce_spares {X : Nat → Prop} {a s : State} (h : a.Spares X s) (x1) :
    a.Spares X (State.signNonce s x1) := by
  unfold State.signNonce
  repeat' (first | with_reducible assumption | dsimp only | with_reducible apply State.modBoot_spares)

theorem State.lbistStart_spares {X : Nat → Prop} {a s : State} (h : a.Spares X s) (x1 x2) :
    Option.Holds (a.Spares X) (State.lbistStart s x1 x2) := by
  unfold State.lbistStart
  repeat' (first
      | with_reducible assumption | dsimp only | with_reducible apply Option.Holds.mkSome
      | with_reducible apply Option.Holds.mkNone | with_reducible apply State.zeroize_spares
      | fail_if_no_progress (with_reducible apply State.Spares.upd) | split)

theorem State.lbistCut_spares {X : Nat → Prop} {a s : State} (h : a.Spares X s) (x1 x2 x3) :
    a.Spares X (State.lbistCut s x1 x2 x3) := by
  unfold State.lbistCut
  repeat' (first
      | with_reducible assumption | dsimp only | with_reducible apply State.draw_spares
      | with_reducible apply State.lbEnd_spares)

theorem State.replaceBegin_spares {X : Nat → Prop} {a s : State} (h : a.Spares X s) (x1 x2) :
    a.Spares X (State.replaceBegin s x1 x2) := by
  unfold State.replaceBegin
  repeat' (first
      | with_reducible assumption | dsimp only | with_reducible apply State.emptySlice_spares
      | with_reducible apply State.modRegion_spares | with_reducible apply State.setMap_spares
      | with_reducible apply State.Spares.ite | split)

theorem State.releaseHeld_spares {X : Nat → Prop} {a s : State} (h : a.Spares X s) (x1) :
    a.Spares X (State.releaseHeld s x1) := by
  unfold State.releaseHeld
  repeat' (first
      | with_reducible assumption | intro _ | dsimp only | with_reducible apply State.homeRequest_spares
      | with_reducible apply State.modBlock_spares | with_reducible apply State.Spares.foldl)

theorem State.modStage_spares {X : Nat → Prop} {a s : State} (h : a.Spares X s) (x1 x2) :
    a.Spares X (State.modStage s x1 x2) := by
  unfold State.modStage
  repeat' (first | with_reducible assumption | with_reducible apply State.modSlate_spares)

theorem State.withMarks_spares {X : Nat → Prop} {a s : State} (h : a.Spares X s) (x1 x2) :
    a.Spares X (State.withMarks s x1 x2) := by
  unfold State.withMarks
  repeat' (first
      | with_reducible assumption | intro _ | with_reducible apply State.modChan_spares
      | with_reducible apply State.Spares.foldl)

theorem State.checkFailed_spares {X : Nat → Prop} {a s : State} (h : a.Spares X s) (x1 x2 x3 x4 x5) :
    a.Spares X (State.checkFailed s x1 x2 x3 x4 x5) := by
  unfold State.checkFailed
  repeat' (first
      | with_reducible assumption | dsimp only | with_reducible apply State.chanRecord_spares
      | with_reducible apply State.rejectImage_spares | with_reducible apply State.modBoot_spares
      | with_reducible apply State.Spares.ite | split)

theorem State.acceptCommit_spares {X : Nat → Prop} {a s : State} (h : a.Spares X s) (x1 x2 x3 x4) :
    a.Spares X (State.acceptCommit s x1 x2 x3 x4) := by
  unfold State.acceptCommit
  repeat' (first
      | with_reducible assumption | intro _ | dsimp only | with_reducible apply State.modSlate_spares
      | with_reducible apply State.modStage_spares | with_reducible apply State.modBoot_spares
      | with_reducible apply State.Spares.foldl | with_reducible apply State.Spares.ite | split)

theorem State.commitNow_spares {X : Nat → Prop} {a s : State} (h : a.Spares X s) (x1 x2) :
    a.Spares X (State.commitNow s x1 x2).2.2.2.2 := by
  unfold State.commitNow
  repeat' (first
      | with_reducible assumption | dsimp only | with_reducible apply State.modStage_spares
      | with_reducible apply State.checkFailed_spares | with_reducible apply State.acceptCommit_spares | split)

theorem State.rowApply_spares {X : Nat → Prop} {a s : State} (h : a.Spares X s) (x1 x2) :
    a.Spares X (State.rowApply s x1 x2) := by
  unfold State.rowApply
  repeat' (first
      | with_reducible assumption | dsimp only | with_reducible apply State.modChan_spares
      | fail_if_no_progress (with_reducible apply State.Spares.upd) | with_reducible apply State.Spares.ite)

theorem State.holdOne_spares {X : Nat → Prop} {a s : State} (h : a.Spares X s) (x1 x2) :
    a.Spares X (State.holdOne s x1 x2) := by
  unfold State.holdOne
  repeat' (first
      | with_reducible assumption | with_reducible apply State.modSlate_spares | with_reducible apply State.Spares.ite | split)

end Sys2Proof.Machine
end

