-- ==== Sys2Proof/Laws/SparesRest.lean ====
section
/-! SUPPORT. What an operation leaves of the registers of the cores (State.Spares): accesses, channels and what remains. -/

namespace Sys2Proof.Machine

theorem State.slateReadObj_spares {X : Nat → Prop} {a s : State} (h : a.Spares X s) (x1 x2 x3 x4 x5) :
    a.Spares X (State.slateReadObj s x1 x2 x3 x4 x5).2 := by
  unfold State.slateReadObj
  repeat' (first | with_reducible assumption | dsimp only | with_reducible apply State.modStage_spares | split)

theorem State.stageNow_spares {X : Nat → Prop} {a s : State} (h : a.Spares X s) (x1 x2 x3 x4) :
    a.Spares X (State.stageNow s x1 x2 x3 x4).2 := by
  unfold State.stageNow
  repeat' (first | with_reducible assumption | dsimp only | with_reducible apply State.modStage_spares | split)

theorem State.slateBad_spares {X : Nat → Prop} {a s : State} (h : a.Spares X s) (x1 x2) :
    a.Spares X (State.slateBad s x1 x2) := by
  unfold State.slateBad
  repeat' (first
      | with_reducible assumption | with_reducible apply State.record_spares | with_reducible apply State.modStage_spares)

theorem State.commitResult_spares {X : Nat → Prop} {a s : State} (h : a.Spares X s) (x1 x2 x3 x4) :
    a.Spares X (State.commitResult s x1 x2 x3 x4) := by
  unfold State.commitResult
  repeat' (first | with_reducible assumption | with_reducible apply State.modStage_spares)

theorem State.svcRefuse_spares {X : Nat → Prop} {a s : State} (h : a.Spares X s) (x1) :
    a.Spares X (State.svcRefuse s x1) := by
  unfold State.svcRefuse
  repeat' (first
      | with_reducible assumption | with_reducible apply State.modSlate_spares | with_reducible apply State.slateBad_spares)

theorem State.svcRead_spares {X : Nat → Prop} {a s : State} (h : a.Spares X s) (x1) :
    a.Spares X (State.svcRead s x1) := by
  unfold State.svcRead
  repeat' (first
      | with_reducible assumption | dsimp only | with_reducible apply State.emit_spares
      | with_reducible apply State.modSlate_spares | with_reducible apply State.Spares.ite)

theorem State.canReceived_spares {X : Nat → Prop} {a s : State} (h : a.Spares X s) :
    a.Spares X (State.canReceived s) := by
  unfold State.canReceived
  repeat' (first
      | with_reducible assumption | dsimp only | with_reducible apply State.modSlate_spares
      | with_reducible apply State.draw_spares | with_reducible apply State.Spares.ite)

theorem State.pwrgoodUp_spares {X : Nat → Prop} {a s : State} (h : a.Spares X s) :
    a.Spares X (State.pwrgoodUp s) := by
  unfold State.pwrgoodUp
  repeat' (first
      | with_reducible assumption | dsimp only | with_reducible apply State.begin_spares
      | fail_if_no_progress (with_reducible apply State.Spares.upd) | with_reducible apply State.Spares.ite)

theorem State.cstartRefuse_spares {X : Nat → Prop} {a s : State} (h : a.Spares X s) (x1 x2 x3 x4 x5 x6) :
    a.Spares X (State.cstartRefuse s x1 x2 x3 x4 x5 x6) := by
  unfold State.cstartRefuse
  repeat' (first | with_reducible assumption | with_reducible apply State.cobRecord_spares)

theorem State.cstart_spares {X : Nat → Prop} {a s : State} (h : a.Spares X s) (x1 x2 x3 x4 x5) :
    a.Spares X (State.cstart s x1 x2 x3 x4 x5) := by
  unfold State.cstart
  repeat' (first
      | with_reducible assumption | dsimp only | with_reducible apply State.pmeEvent_spares
      | with_reducible apply State.cstartRefuse_spares | with_reducible apply State.tailWrite_spares
      | with_reducible apply State.Spares.ite | split)

theorem State.applyAct_spares {X : Nat → Prop} {a s : State} (h : a.Spares X s) (x1 x2) :
    a.Spares X (State.applyAct s x1 x2) := by
  unfold State.applyAct
  repeat' (first
      | with_reducible assumption | with_reducible apply State.putMail_spares | with_reducible apply State.delAct_spares
      | with_reducible apply State.changeLine_spares | with_reducible apply State.mergeLine_spares
      | with_reducible apply State.cstart_spares | with_reducible apply State.postFrom_spares
      | with_reducible refine Option.Holds.some (by assumption) ?_ | split)

theorem State.applyChange_spares {X : Nat → Prop} {a s : State} (h : a.Spares X s) (x1) :
    a.Spares X (State.applyChange s x1) := by
  unfold State.applyChange
  repeat' (first
      | with_reducible assumption | dsimp only | with_reducible apply State.applyAct_spares
      | with_reducible apply State.poisonLine_spares | with_reducible apply State.changeLine_spares
      | with_reducible apply State.Spares.ite | split)

theorem State.applyAgent_spares {X : Nat → Prop} {a s : State} (h : a.Spares X s) (x1 x2 x3) :
    a.Spares X (State.applyAgent s x1 x2 x3) := by
  unfold State.applyAgent
  repeat' (first
      | with_reducible assumption | intro _ | dsimp only | with_reducible apply State.applyChange_spares
      | with_reducible apply State.modBlock_spares | with_reducible apply State.modRegion_spares
      | with_reducible apply State.Spares.foldl | with_reducible apply State.Spares.ite)

theorem State.applyRoot_spares {X : Nat → Prop} {a s : State} (h : a.Spares X s) (x1) :
    a.Spares X (State.applyRoot s x1) := by
  unfold State.applyRoot
  repeat' (first
      | with_reducible assumption | intro _ | dsimp only | with_reducible apply State.applyAct_spares
      | with_reducible apply State.Spares.foldl)

theorem State.preChangeNext_spares {X : Nat → Prop} {a s : State} (h : a.Spares X s) :
    a.Spares X (State.preChangeNext s) := by
  unfold State.preChangeNext
  repeat' (first
      | with_reducible assumption | intro _ | with_reducible apply State.preChange_spares
      | with_reducible apply State.Spares.foldl | with_reducible apply State.Spares.ite)

theorem State.driveOut_spares {X : Nat → Prop} {a s : State} (h : a.Spares X s) :
    a.Spares X (State.driveOut s) := by
  unfold State.driveOut
  repeat' (first | with_reducible assumption | dsimp only | fail_if_no_progress (with_reducible apply State.Spares.upd))

theorem State.stackTick_spares {X : Nat → Prop} {a s : State} (h : a.Spares X s) (x1) :
    a.Spares X (State.stackTick s x1) := by
  unfold State.stackTick
  repeat' (first
      | with_reducible assumption | intro _ | dsimp only | with_reducible apply State.draw_spares
      | with_reducible apply State.modPort_spares | with_reducible apply State.modRegion_spares
      | with_reducible apply State.Spares.foldl | with_reducible apply State.Spares.ite)

theorem State.countStretch_spares {X : Nat → Prop} {a s : State} (h : a.Spares X s) :
    a.Spares X (State.countStretch s) := by
  unfold State.countStretch
  repeat' (first
      | with_reducible assumption | dsimp only | with_reducible apply State.stretchWord_spares
      | with_reducible apply State.modNoon_spares | with_reducible apply State.Spares.ite)

theorem State.passTick_spares {X : Nat → Prop} {a s : State} (h : a.Spares X s) :
    a.Spares X (State.passTick s) := by
  unfold State.passTick
  repeat' (first
      | with_reducible assumption | dsimp only | with_reducible apply State.passRefs_spares
      | with_reducible apply State.modNoon_spares)

theorem State.newTick_spares {X : Nat → Prop} {a s : State} (h : a.Spares X s) :
    a.Spares X (State.newTick s) := by
  unfold State.newTick
  repeat' (first
      | with_reducible assumption | intro _ | dsimp only | with_reducible apply State.modNoon_spares
      | with_reducible apply State.modBlock_spares | with_reducible apply State.modRegion_spares
      | with_reducible apply State.Spares.foldl)

theorem State.resend_spares {X : Nat → Prop} {a s : State} (h : a.Spares X s) (x1) :
    a.Spares X (State.resend s x1) := by
  unfold State.resend
  repeat' (first
      | with_reducible assumption | intro _ | dsimp only | with_reducible apply State.modAct_spares
      | with_reducible apply State.applyChange_spares | with_reducible apply State.modBlock_spares
      | with_reducible apply State.modRegion_spares | with_reducible apply State.Spares.foldl
      | with_reducible apply State.Spares.ite)

theorem State.logRegWrite_spares {X : Nat → Prop} {a s : State} (h : a.Spares X s) (x1 x2 x3 x4) :
    a.Spares X (State.logRegWrite s x1 x2 x3 x4) := by
  unfold State.logRegWrite
  repeat' (first
      | with_reducible assumption | dsimp only | with_reducible apply State.modLog_spares
      | with_reducible apply State.Spares.ite)

theorem State.iotRegWrite_spares {X : Nat → Prop} {a s : State} (h : a.Spares X s) (x1 x2 x3 x4) :
    a.Spares X (State.iotRegWrite s x1 x2 x3 x4) := by
  unfold State.iotRegWrite
  repeat' (first
      | with_reducible assumption | dsimp only | with_reducible apply State.modIotu_spares
      | with_reducible apply State.eqbWrite_spares | with_reducible apply State.prgrWrite_spares
      | with_reducible apply State.Spares.ite | split)

theorem State.regionWrite_spares {X : Nat → Prop} {a s : State} (h : a.Spares X s) (x1 x2 x3 x4) :
    a.Spares X (State.regionWrite s x1 x2 x3 x4) := by
  unfold State.regionWrite
  repeat' (first
      | with_reducible assumption | dsimp only | with_reducible apply State.writeRoute_spares
      | with_reducible apply State.logRegWrite_spares | with_reducible apply State.startRetrain_spares
      | with_reducible apply State.iotRegWrite_spares | with_reducible apply State.Spares.ite | split)

theorem State.quotaWrite_spares {X : Nat → Prop} {a s : State} (h : a.Spares X s) (x1 x2) :
    a.Spares X (State.quotaWrite s x1 x2) := by
  unfold State.quotaWrite
  repeat' (first | with_reducible assumption | dsimp only | with_reducible apply State.modNoon_spares)

theorem State.keyWrite_spares {X : Nat → Prop} {a s : State} (h : a.Spares X s) (x1 x2 x3) :
    a.Spares X (State.keyWrite s x1 x2 x3) := by
  unfold State.keyWrite
  repeat' (first
      | with_reducible assumption | dsimp only | with_reducible apply State.keyCommand_spares
      | fail_if_no_progress (with_reducible apply State.Spares.upd) | with_reducible apply State.Spares.ite)

theorem State.sdWrite_spares {X : Nat → Prop} {a s : State} (h : a.Spares X s) (x1 x2 x3) :
    a.Spares X (State.sdWrite s x1 x2 x3) := by
  unfold State.sdWrite
  repeat' (first
      | with_reducible assumption | dsimp only | with_reducible apply State.sdGo_spares
      | fail_if_no_progress (with_reducible apply State.Spares.upd) | with_reducible apply State.Spares.ite)

theorem State.bootWrite_spares {X : Nat → Prop} {a s : State} (h : a.Spares X s) (x1) :
    a.Spares X (State.bootWrite s x1) := by
  unfold State.bootWrite
  repeat' (first
      | with_reducible assumption | dsimp only | with_reducible apply State.handover_spares
      | with_reducible apply State.releasePhase_spares | with_reducible apply State.bootLock_spares
      | with_reducible apply State.Spares.ite)

theorem State.devRead_spares {X : Nat → Prop} {a s : State} (h : a.Spares X s) (x1 x2) (hcx1 : ¬ X x1.who) :
    DevAcc.Holds (a.Spares X) (State.devRead s x1 x2) := by
  unfold State.devRead
  repeat' (first
      | with_reducible assumption | dsimp only | with_reducible apply DevAcc.Holds.mkLink
      | with_reducible apply DevAcc.Holds.mkFault | with_reducible apply LinkAcc.Holds.mkDone
      | with_reducible apply State.linkRead_spares | split)

theorem State.checkHalf_spares {X : Nat → Prop} {a s : State} (h : a.Spares X s) (x1 x2 x3 x4 x5) :
    a.Spares X (State.checkHalf s x1 x2 x3 x4 x5).2 := by
  unfold State.checkHalf
  repeat' (first
      | with_reducible assumption | dsimp only
      | ((with_reducible apply State.Spares.modEq); on_goal 2 => (first | rfl | exact Core.brk_arch _ _ _ | (intro k; exact Core.brk_arch _ _ _) | simp only [Core.brk_arch] | (intro k; rfl) | (intro k; simp only [Core.brk_arch]; done) | (intro k; split <;> first | rfl | simp only [Core.brk_arch])))
      | with_reducible apply State.lookup_spares | with_reducible apply State.poisonRecord_spares
      | with_reducible refine State.Spares.snd (by assumption) ?_ | split)

theorem State.checkPieces_spares {X : Nat → Prop} {a s : State} (h : a.Spares X s) (x1 x2 x3 x4) :
    a.Spares X (State.checkPieces s x1 x2 x3 x4).2 := by
  induction x4 generalizing s x1 x2 x3 with
  | nil =>
    unfold State.checkPieces
    repeat' (with_reducible assumption)
  | cons e t ih =>
    unfold State.checkPieces
    repeat' (first
        | with_reducible assumption | dsimp only | with_reducible apply ih | with_reducible apply State.checkHalf_spares
        | with_reducible refine State.Spares.snd (by assumption) ?_ | split)

theorem State.checkAccess_spares {X : Nat → Prop} {a s : State} (h : a.Spares X s) (x1 x2 x3 x4 x5 x6) :
    a.Spares X (State.checkAccess s x1 x2 x3 x4 x5 x6).2 := by
  unfold State.checkAccess
  repeat' (first | with_reducible assumption | dsimp only | with_reducible apply State.checkPieces_spares | split)

theorem State.commitHalves_spares {X : Nat → Prop} {a s : State} (h : a.Spares X s) (x1 x2 x3) :
    a.Spares X (State.commitHalves s x1 x2 x3) := by
  unfold State.commitHalves
  repeat' (first
      | with_reducible assumption | intro _ | dsimp only | with_reducible apply State.commitXlat_spares
      | with_reducible apply State.Spares.foldl | split)

theorem State.relock_spares {X : Nat → Prop} {a s : State} (h : a.Spares X s) (x1 x2) :
    a.Spares X (State.relock s x1 x2) := by
  unfold State.relock
  repeat' (first
      | with_reducible assumption | dsimp only | with_reducible apply State.lockData_spares
      | ((with_reducible apply State.Spares.modEq); on_goal 2 => (first | rfl | exact Core.brk_arch _ _ _ | (intro k; exact Core.brk_arch _ _ _) | simp only [Core.brk_arch] | (intro k; rfl) | (intro k; simp only [Core.brk_arch]; done) | (intro k; split <;> first | rfl | simp only [Core.brk_arch])))
      | with_reducible apply State.Spares.ite)

theorem State.trainMiss_spares {X : Nat → Prop} {a s : State} (h : a.Spares X s) (x1 x2 x3 x4 x5) (hcx1 : ¬ X x1) :
    a.Spares X (State.trainMiss s x1 x2 x3 x4 x5) := by
  unfold State.trainMiss
  repeat' (first
      | with_reducible assumption | dsimp only | ((with_reducible refine State.Spares.setNe ?_ ?_); on_goal 2 => assumption)
      | with_reducible apply State.Spares.ite)

theorem State.drainOne_spares {X : Nat → Prop} {a s : State} (h : a.Spares X s) (x1) (hcx1 : ¬ X x1) :
    a.Spares X (State.drainOne s x1).2 := by
  unfold State.drainOne
  repeat' (first
      | with_reducible assumption | dsimp only | ((with_reducible refine State.Spares.setNe ?_ ?_); on_goal 2 => assumption)
      | with_reducible apply State.writeStore_spares | with_reducible apply State.relock_spares
      | with_reducible apply State.publish_spares
      | ((with_reducible refine State.Spares.modNe ?_ ?_); on_goal 2 => assumption)
      | with_reducible refine Option.Holds.some (by assumption) ?_ | with_reducible apply State.Spares.ite | split)

theorem State.drainWhile_spares {X : Nat → Prop} {a s : State} (h : a.Spares X s) (x1 x2 x3) (hcx1 : ¬ X x1) :
    a.Spares X (State.drainWhile s x1 x2 x3).2 := by
  induction x3 generalizing s x2 with
  | zero =>
    unfold State.drainWhile
    repeat' (with_reducible assumption)
  | succ n ih =>
    unfold State.drainWhile
    repeat' (first
        | with_reducible assumption | dsimp only | with_reducible apply ih | with_reducible apply State.drainOne_spares
        | with_reducible refine State.Spares.snd (by assumption) ?_ | split)

theorem State.drainAll_spares {X : Nat → Prop} {a s : State} (h : a.Spares X s) (x1) (hcx1 : ¬ X x1) :
    a.Spares X (State.drainAll s x1).2 := by
  unfold State.drainAll
  repeat' (first | with_reducible assumption | with_reducible apply State.drainWhile_spares)

theorem State.usePoison_spares {X : Nat → Prop} {a s : State} (h : a.Spares X s) (x1 x2 x3 x4) :
    Got.Holds (a.Spares X) (State.usePoison s x1 x2 x3 x4) := by
  unfold State.usePoison
  repeat' (first
      | with_reducible assumption | with_reducible apply Got.Holds.mkExc | with_reducible apply State.poisonProg_spares)

theorem State.readLine_spares {X : Nat → Prop} {a s : State} (h : a.Spares X s) (x1 x2 x3) (hcx1 : ¬ X x1) :
    a.Spares X (State.readLine s x1 x2 x3).2 := by
  unfold State.readLine
  repeat' (first
      | with_reducible assumption | dsimp only | with_reducible apply State.readPa_spares
      | with_reducible apply State.crd_spares | with_reducible apply State.loadLine_spares
      | with_reducible apply State.relock_spares | with_reducible apply State.trainMiss_spares
      | with_reducible apply State.Spares.ite | split)

theorem State.readHalf_spares {X : Nat → Prop} {a s : State} (h : a.Spares X s) (x1 x2 x3 x4) (hcx1 : ¬ X x1) :
    Got.Holds (a.Spares X) (State.readHalf s x1 x2 x3 x4) := by
  unfold State.readHalf
  repeat' (first
      | with_reducible assumption | dsimp only | with_reducible apply Got.Holds.mkOk | with_reducible apply Got.Holds.mkStay
      | with_reducible apply State.readLine_spares | with_reducible apply State.usePoison_spares
      | with_reducible apply State.drainWhile_spares | with_reducible refine State.Spares.snd (by assumption) ?_ | split)

theorem gather_spares {X : Nat → Prop} {a s : State} (h : a.Spares X s) (x0 x1 x2 x3 x4 x5 x6 x7) (hcx0 : ¬ X x0) :
    Got.Holds (a.Spares X) (gather x0 x1 x2 x3 x4 x5 x6 x7 s) := by
  induction x5 generalizing s x1 x2 x3 x4 x6 x7 with
  | nil =>
    unfold gather
    repeat' (first | with_reducible assumption | with_reducible apply Got.Holds.mkOk)
  | cons e t ih =>
    unfold gather
    repeat' (first
        | with_reducible assumption | exact hcx0 | dsimp only | with_reducible apply Got.Holds.mkExc
        | with_reducible apply Got.Holds.mkStay | with_reducible apply ih
        | ((with_reducible refine State.Spares.modNe ?_ ?_); on_goal 2 => assumption)
        | with_reducible apply State.devRead_spares | with_reducible apply State.readHalf_spares
        | with_reducible refine Got.Holds.ok (by assumption) ?_ | with_reducible refine Got.Holds.exc (by assumption) ?_
        | with_reducible refine Got.Holds.stay (by assumption) ?_ | with_reducible refine DevAcc.Holds.wait (by assumption) ?_
        | with_reducible refine DevAcc.Holds.done (by assumption) ?_
        | with_reducible refine DevAcc.Holds.sent (by assumption) ?_ | with_reducible apply State.Spares.ite | split)

theorem State.loadHalves_spares {X : Nat → Prop} {a s : State} (h : a.Spares X s) (x1 x2 x3 x4 x5 x6) (hcx1 : ¬ X x1) :
    Got.Holds (a.Spares X) (State.loadHalves s x1 x2 x3 x4 x5 x6) := by
  unfold State.loadHalves
  repeat' (first
      | with_reducible assumption | dsimp only | with_reducible apply State.commitHalves_spares
      | with_reducible apply gather_spares)

theorem State.loadTo_spares {X : Nat → Prop} {a s : State} (h : a.Spares X s) (x1 x2 x3 x4 x5 x6 x7 x8) (hcx1 : ¬ X x1) :
    Done.Holds (a.Spares X) (State.loadTo s x1 x2 x3 x4 x5 x6 x7 x8) := by
  unfold State.loadTo
  repeat' (first
      | with_reducible assumption | with_reducible apply Done.Holds.mkOk | with_reducible apply Done.Holds.mkExc
      | with_reducible apply Done.Holds.mkStay | with_reducible apply State.checkAccess_spares
      | with_reducible apply State.loadHalves_spares
      | ((with_reducible refine State.Spares.modNe ?_ ?_); on_goal 2 => assumption)
      | with_reducible refine State.Spares.snd (by assumption) ?_ | with_reducible refine Got.Holds.ok (by assumption) ?_
      | with_reducible refine Got.Holds.exc (by assumption) ?_ | with_reducible refine Got.Holds.stay (by assumption) ?_
      | split)

theorem State.pushStore_spares {X : Nat → Prop} {a s : State} (h : a.Spares X s) (x1 x2 x3 x4 x5 x6) (hcx1 : ¬ X x1) :
    a.Spares X (State.pushStore s x1 x2 x3 x4 x5 x6) := by
  unfold State.pushStore
  repeat' (first
      | with_reducible assumption | dsimp only | ((with_reducible refine State.Spares.modNe ?_ ?_); on_goal 2 => assumption)
      | with_reducible apply State.relock_spares | with_reducible apply State.trainMiss_spares
      | with_reducible apply State.flushFetch_spares | with_reducible apply State.Spares.ite)

theorem State.toKey_spares {X : Nat → Prop} {a s : State} (h : a.Spares X s) (x1 x2 x3) (hcx1 : ¬ X x1) :
    a.Spares X (State.toKey s x1 x2 x3).2 := by
  unfold State.toKey
  repeat' (first | with_reducible assumption | dsimp only | with_reducible apply State.noonKey_spares | split)

theorem scatter_spares {X : Nat → Prop} {a s : State} (h : a.Spares X s) (c td met zero fin) (hs : List Half) (skip past bs key)
    (hc : ¬ X c) (hdev : ∀ x ∈ hs, x.acc.dev = false) :
    Got.Holds (a.Spares X) (scatter c td met zero fin hs skip past bs key s) := by
  induction hs generalizing skip past bs key s with
  | nil =>
    unfold scatter
    exact h
  | cons e t ih =>
    have he : e.acc.dev = false := hdev e List.mem_cons_self
    have ht : ∀ x ∈ t, x.acc.dev = false := fun x hx => hdev x (List.mem_cons_of_mem _ hx)
    unfold scatter
    dsimp only
    split
    · exact ih h _ _ _ _ ht
    · rw [if_neg (by rw [he]; exact Bool.false_ne_true)]
      exact ih (State.pushStore_spares (State.toKey_spares h _ _ _ hc) _ _ _ _ _ _ hc) _ _ _ _ ht

theorem State.storeHalves_spares {X : Nat → Prop} {a s : State} (h : a.Spares X s) (c met ac zero fin past key)
    (hs : List Half) (bs) (hc : ¬ X c) (hdev : ∀ x ∈ hs, x.acc.dev = false) :
    Got.Holds (a.Spares X) (s.storeHalves c met ac zero fin past key hs bs) := by
  unfold State.storeHalves
  split
  · exact State.Spares.modEq h (fun k => Core.brk_arch k _ _)
  · dsimp only
    split
    · rename_i e
      split at e
      · exact State.Spares.snd e h
      · exact State.Spares.snd e (State.drainWhile_spares h _ _ _ hc)
    · rename_i e
      refine scatter_spares (State.commitHalves_spares ?_ _ _ _) _ _ _ _ _ _ _ _ _ _ hc hdev
      split at e
      · exact State.Spares.snd e h
      · exact State.Spares.snd e (State.drainWhile_spares h _ _ _ hc)

theorem State.storeFrom_spares {X : Nat → Prop} {a s : State} (h : a.Spares X s) (c met ac use va al zero bs) (hc : ¬ X c)
    (hdev : ∀ hs t, s.checkAccess c ac use va bs.length al = (.ok hs, t) → ∀ x ∈ hs, x.acc.dev = false) :
    Done.Holds (a.Spares X) (s.storeFrom c met ac use va al zero bs) := by
  unfold State.storeFrom
  split
  · rename_i e
    exact State.Spares.snd e (State.checkAccess_spares h _ _ _ _ _ _)
  · rename_i hs t e
    have ht := State.storeHalves_spares (State.Spares.snd e (State.checkAccess_spares h _ _ _ _ _ _)) c met ac zero true [] none hs
      bs hc (hdev hs t e)
    split
    · rename_i g; exact Got.Holds.ok g ht
    · rename_i g; exact Got.Holds.exc g ht
    · rename_i g; exact Got.Holds.stay g ht

theorem State.loadG_spares {X : Nat → Prop} {a s : State} (h : a.Spares X s) (x1 x2 x3 x4 x5 x6 x7) (hcx1 : ¬ X x1) :
    a.Spares X (State.loadG s x1 x2 x3 x4 x5 x6 x7) := by
  unfold State.loadG
  repeat' (first
      | with_reducible assumption | intro _ | with_reducible apply State.issue_spares
      | with_reducible apply State.loadTo_spares)

theorem State.checkRmw_spares {X : Nat → Prop} {a s : State} (h : a.Spares X s) (x1 x2 x3) :
    a.Spares X (State.checkRmw s x1 x2 x3).2 := by
  unfold State.checkRmw
  repeat' (first
      | with_reducible assumption | dsimp only | with_reducible apply State.checkAccess_spares
      | with_reducible refine State.Spares.snd (by assumption) ?_ | split)

theorem State.writeLine_spares {X : Nat → Prop} {a s : State} (h : a.Spares X s) (x1 x2 x3) (hcx1 : ¬ X x1) :
    a.Spares X (State.writeLine s x1 x2 x3) := by
  unfold State.writeLine
  repeat' (first
      | with_reducible assumption | dsimp only | with_reducible apply State.flushFetch_spares
      | with_reducible apply State.writeStore_spares)

theorem State.ownLine_spares {X : Nat → Prop} {a s : State} (h : a.Spares X s) (x1 x2) :
    a.Spares X (State.ownLine s x1 x2) := by
  unfold State.ownLine
  repeat' (first
      | with_reducible assumption | dsimp only | with_reducible apply State.acquire_spares
      | with_reducible apply State.Spares.ite)

theorem State.atomic_spares {X : Nat → Prop} {a s : State} (h : a.Spares X s) (x1 x2 x3 x4 x5 x6) (hcx1 : ¬ X x1) :
    a.Spares X (State.atomic s x1 x2 x3 x4 x5 x6) := by
  unfold State.atomic
  repeat' (first
      | with_reducible assumption | intro _ | dsimp only | with_reducible apply Done.Holds.mkOk
      | with_reducible apply Done.Holds.mkExc | with_reducible apply Done.Holds.mkStay
      | with_reducible apply State.issue_spares | with_reducible apply State.checkRmw_spares
      | with_reducible apply State.drainAll_spares | with_reducible apply State.ownLine_spares
      | with_reducible apply State.commitHalves_spares | with_reducible apply State.readHalf_spares
      | with_reducible apply State.writeLine_spares
      | ((with_reducible refine State.Spares.modNe ?_ ?_); on_goal 2 => assumption)
      | with_reducible refine State.Spares.snd (by assumption) ?_ | with_reducible refine Got.Holds.ok (by assumption) ?_
      | with_reducible refine Got.Holds.exc (by assumption) ?_ | with_reducible refine Got.Holds.stay (by assumption) ?_
      | split)

theorem State.amOp_spares {X : Nat → Prop} {a s : State} (h : a.Spares X s) (x1 x2 x3 x4 x5 x6) (hcx1 : ¬ X x1) :
    a.Spares X (State.amOp s x1 x2 x3 x4 x5 x6) := by
  unfold State.amOp
  repeat' (first | with_reducible assumption | with_reducible apply State.atomic_spares)

theorem strFail_spares {X : Nat → Prop} {a s : State} (h : a.Spares X s) (x0 x1 x2 x4) (hcx0 : ¬ X x0) :
    Done.Holds (a.Spares X) (strFail x0 x1 x2 s x4) := by
  unfold strFail
  repeat' (first
      | with_reducible assumption | dsimp only | with_reducible apply Done.Holds.mkStay
      | with_reducible apply State.cycles_spares | with_reducible apply State.raise_spares)

theorem strStep_spares {X : Nat → Prop} {a s : State} (h : a.Spares X s) (x0 x1 x2 x3) (hcx0 : ¬ X x0) :
    Done.Holds (a.Spares X) (strStep x0 x1 x2 x3 s) := by
  unfold strStep
  repeat' (first
      | with_reducible assumption | dsimp only | with_reducible apply Done.Holds.mkStay
      | ((with_reducible refine State.Spares.modNe ?_ ?_); on_goal 2 => assumption) | with_reducible apply State.cycles_spares
      | with_reducible apply State.retire_spares | split)

theorem State.entryData_spares {X : Nat → Prop} {a s : State} (h : a.Spares X s) (x1 x2) :
    a.Spares X (State.entryData s x1 x2).2 := by
  unfold State.entryData
  repeat' (first | with_reducible assumption | dsimp only | with_reducible apply State.checkAccess_spares | split)

theorem State.takeMail_spares {X : Nat → Prop} {a s : State} (h : a.Spares X s) (x1 x2) :
    a.Spares X (State.takeMail s x1 x2) := by
  unfold State.takeMail
  repeat' (first | with_reducible assumption | with_reducible apply State.setMailbox_spares)

theorem State.noonCtlWrite_spares {X : Nat → Prop} {a s : State} (h : a.Spares X s) (x1 x2 x3) (hcx1 : ¬ X x1) :
    a.Spares X (State.noonCtlWrite s x1 x2 x3) := by
  unfold State.noonCtlWrite
  repeat' (first
      | with_reducible assumption | dsimp only | ((with_reducible refine State.Spares.modNe ?_ ?_); on_goal 2 => assumption))

theorem State.tdidWrite_spares {X : Nat → Prop} {a s : State} (h : a.Spares X s) (x1 x2 x3) (hcx1 : ¬ X x1) :
    a.Spares X (State.tdidWrite s x1 x2 x3) := by
  unfold State.tdidWrite
  repeat' (first
      | with_reducible assumption | intro _ | dsimp only
      | ((with_reducible refine State.Spares.setNe ?_ ?_); on_goal 2 => assumption)
      | with_reducible apply State.release_spares | with_reducible apply State.Spares.foldl
      | with_reducible apply State.Spares.ite)

theorem State.windowWrite_spares {X : Nat → Prop} {a s : State} (h : a.Spares X s) (x1 x2 x3 x4) (hcx1 : ¬ X x1) :
    a.Spares X (State.windowWrite s x1 x2 x3 x4) := by
  unfold State.windowWrite
  repeat' (first
      | with_reducible assumption | dsimp only | ((with_reducible refine State.Spares.modNe ?_ ?_); on_goal 2 => assumption)
      | with_reducible apply State.unlockWindow_spares | with_reducible apply State.Spares.ite)

theorem State.l2CtlWrite_spares {X : Nat → Prop} {a s : State} (h : a.Spares X s) (x1 x2 x3) (hcx1 : ¬ X x1) :
    a.Spares X (State.l2CtlWrite s x1 x2 x3) := by
  unfold State.l2CtlWrite
  repeat' (first
      | with_reducible assumption | intro _ | dsimp only
      | ((with_reducible refine State.Spares.setNe ?_ ?_); on_goal 2 => assumption)
      | with_reducible apply State.homeEvn_spares | with_reducible apply State.Spares.foldl
      | with_reducible apply State.Spares.ite)

theorem State.csrWrite_spares {X : Nat → Prop} {a s : State} (h : a.Spares X s) (x1 x2 x3 x4) (hcx1 : ¬ X x1) :
    a.Spares X (State.csrWrite s x1 x2 x3 x4) := by
  unfold State.csrWrite
  repeat' (first
      | with_reducible assumption | dsimp only | ((with_reducible refine State.Spares.setNe ?_ ?_); on_goal 2 => assumption)
      | with_reducible apply State.noonCtlWrite_spares | with_reducible apply State.tdidWrite_spares
      | with_reducible apply State.windowWrite_spares | with_reducible apply State.l2CtlWrite_spares
      | with_reducible apply State.Spares.ite | split)

theorem State.csrChange_spares {X : Nat → Prop} {a s : State} (h : a.Spares X s) (x1 x2 x3 x4 x5) (hcx1 : ¬ X x1) :
    a.Spares X (State.csrChange s x1 x2 x3 x4 x5) := by
  unfold State.csrChange
  repeat' (first
      | with_reducible assumption | intro _ | dsimp only | with_reducible apply Done.Holds.mkExc
      | with_reducible apply Done.Holds.mkStay | with_reducible apply State.issue_spares
      | ((with_reducible refine State.Spares.modNe ?_ ?_); on_goal 2 => assumption)
      | with_reducible apply State.csrWrite_spares | with_reducible apply State.cycles_spares
      | with_reducible apply State.retireNow_spares | split)

theorem State.chain_spares {X : Nat → Prop} {a s : State} (h : a.Spares X s) (x1 x2 x3) (hcx1 : ¬ X x1) :
    a.Spares X (State.chain s x1 x2 x3) := by
  unfold State.chain
  repeat' (first
      | with_reducible assumption | dsimp only | with_reducible apply State.cycles_spares
      | with_reducible apply State.retireNow_spares
      | ((with_reducible refine State.Spares.setNe ?_ ?_); on_goal 2 => assumption))

theorem State.unwind_spares {X : Nat → Prop} {a s : State} (h : a.Spares X s) (x1 x2) (hcx1 : ¬ X x1) :
    a.Spares X (State.unwind s x1 x2) := by
  unfold State.unwind
  repeat' (first
      | with_reducible assumption | dsimp only | with_reducible apply State.cycles_spares
      | with_reducible apply State.retireNow_spares
      | ((with_reducible refine State.Spares.setNe ?_ ?_); on_goal 2 => assumption))

theorem State.callTo_spares {X : Nat → Prop} {a s : State} (h : a.Spares X s) (x1 x2 x3) (hcx1 : ¬ X x1) :
    a.Spares X (State.callTo s x1 x2 x3) := by
  unfold State.callTo
  repeat' (first
      | with_reducible assumption | intro _ | with_reducible apply Done.Holds.mkExc | with_reducible apply Done.Holds.mkCall
      | with_reducible apply State.issue_spares | split)

theorem State.checkLine_spares {X : Nat → Prop} {a s : State} (h : a.Spares X s) (x1 x2 x3) :
    a.Spares X (State.checkLine s x1 x2 x3).2 := by
  unfold State.checkLine
  repeat' (first | with_reducible assumption | with_reducible apply State.checkHalf_spares)

theorem State.lineOp_spares {X : Nat → Prop} {a s : State} (h : a.Spares X s) (c ac ra f) (hc : ¬ X c) (hf : ∀ s n, a.Spares X s → a.Spares X (f s n)) :
    Done.Holds (a.Spares X) (State.lineOp s c ac ra f) := by
  unfold State.lineOp
  repeat' (first
      | with_reducible assumption | with_reducible apply hf | with_reducible apply Done.Holds.mkOk
      | with_reducible apply Done.Holds.mkExc | with_reducible apply Done.Holds.mkStay
      | with_reducible apply State.commitHalves_spares | with_reducible refine State.Spares.snd (by assumption) ?_
      | with_reducible apply State.drainWhile_spares | with_reducible apply State.checkLine_spares | split)

theorem State.cleanLine_spares {X : Nat → Prop} {a s : State} (h : a.Spares X s) (x1 x2) :
    a.Spares X (State.cleanLine s x1 x2) := by
  unfold State.cleanLine
  repeat' (first
      | with_reducible assumption | dsimp only | with_reducible apply State.slcFill_spares
      | ((with_reducible apply State.Spares.setEq); on_goal 2 => (first | rfl | exact Core.brk_arch _ _ _ | (intro k; exact Core.brk_arch _ _ _) | simp only [Core.brk_arch] | (intro k; rfl) | (intro k; simp only [Core.brk_arch]; done) | (intro k; split <;> first | rfl | simp only [Core.brk_arch])))
      | with_reducible apply State.Spares.ite | split)

theorem State.flushLine_spares {X : Nat → Prop} {a s : State} (h : a.Spares X s) (x1 x2 x3) :
    a.Spares X (State.flushLine s x1 x2 x3) := by
  unfold State.flushLine
  repeat' (first
      | with_reducible assumption | dsimp only
      | ((with_reducible apply State.Spares.setEq); on_goal 2 => (first | rfl | exact Core.brk_arch _ _ _ | (intro k; exact Core.brk_arch _ _ _) | simp only [Core.brk_arch] | (intro k; rfl) | (intro k; simp only [Core.brk_arch]; done) | (intro k; split <;> first | rfl | simp only [Core.brk_arch])))
      | with_reducible apply State.release_spares | with_reducible apply State.homeEvn_spares
      | with_reducible apply State.Spares.ite | split)

theorem State.hint_spares {X : Nat → Prop} {a s : State} (h : a.Spares X s) (x1 x2 x3 x4) (hcx1 : ¬ X x1) :
    a.Spares X (State.hint s x1 x2 x3 x4) := by
  unfold State.hint
  repeat' (first
      | with_reducible assumption | intro _ | dsimp only | with_reducible apply Done.Holds.mkOk
      | with_reducible apply State.issue_spares | with_reducible apply State.lookup_spares
      | with_reducible apply State.commitXlat_spares | with_reducible apply State.prefetch_spares
      | with_reducible refine State.Spares.snd (by assumption) ?_ | with_reducible apply State.Spares.ite | split)

theorem State.tlbOp_spares {X : Nat → Prop} {a s : State} (h : a.Spares X s) (x1 x2 x3 x4 x5) (hcx1 : ¬ X x1) :
    a.Spares X (State.tlbOp s x1 x2 x3 x4 x5) := by
  unfold State.tlbOp
  repeat' (first
      | with_reducible assumption | intro _ | with_reducible apply Done.Holds.mkOk | with_reducible apply Done.Holds.mkStay
      | with_reducible apply State.issue_spares | with_reducible apply atLeast_spares
      | with_reducible apply State.drainAll_spares
      | ((with_reducible refine State.Spares.modNe ?_ ?_); on_goal 2 => assumption)
      | with_reducible refine State.Spares.snd (by assumption) ?_ | split)

end Sys2Proof.Machine
end

