-- ==== Sys2Proof/Laws/SparesExec.lean ====
section
/-! SUPPORT. What a command leaves of the registers of the cores (State.Spares), for the meanings that leavesCore names and
for exec. -/
namespace Sys2Proof.Machine

theorem OutHolds.none {X : Nat → Prop} {s : State} (o : Host.Outcome State Fault Refusal) (h : ∀ d, ¬ X d) :
    OutHolds (s.Spares X) o := by
  cases o with
  | next t => exact ⟨fun c hc => absurd hc (h c)⟩
  | fault _ => trivial
  | refused _ => trivial

theorem bne_false (c : Nat) : ¬ (c != c) = true := by simp

theorem strAfter_spares {X : Nat → Prop} {a : State} (c d n len again f) (hc : ¬ X c) {g : Got} (h : g.Holds (a.Spares X)) : Done.Holds (a.Spares X) (strAfter c d n len again f g) := by
  cases g with
  | ok bs s => exact strStep_spares h _ _ _ _ hc
  | exc s e => exact strFail_spares h _ _ _ _ hc
  | stay s => exact h

theorem execAdd_spares {X : Nat → Prop} {a s : State} (h : a.Spares X s) (x0 x1 x2 x3) (hcx0 : ¬ X x0) :
    OutHolds (a.Spares X) (execAdd x0 x1 x2 x3 s) := by
  unfold execAdd
  repeat' (first | with_reducible assumption | with_reducible apply OutHolds.mk | with_reducible apply State.aluRR_spares)

theorem execSub_spares {X : Nat → Prop} {a s : State} (h : a.Spares X s) (x0 x1 x2 x3) (hcx0 : ¬ X x0) :
    OutHolds (a.Spares X) (execSub x0 x1 x2 x3 s) := by
  unfold execSub
  repeat' (first | with_reducible assumption | with_reducible apply OutHolds.mk | with_reducible apply State.aluRR_spares)

theorem execAndR_spares {X : Nat → Prop} {a s : State} (h : a.Spares X s) (x0 x1 x2 x3) (hcx0 : ¬ X x0) :
    OutHolds (a.Spares X) (execAndR x0 x1 x2 x3 s) := by
  unfold execAndR
  repeat' (first | with_reducible assumption | with_reducible apply OutHolds.mk | with_reducible apply State.aluRR_spares)

theorem execOrR_spares {X : Nat → Prop} {a s : State} (h : a.Spares X s) (x0 x1 x2 x3) (hcx0 : ¬ X x0) :
    OutHolds (a.Spares X) (execOrR x0 x1 x2 x3 s) := by
  unfold execOrR
  repeat' (first | with_reducible assumption | with_reducible apply OutHolds.mk | with_reducible apply State.aluRR_spares)

theorem execXorR_spares {X : Nat → Prop} {a s : State} (h : a.Spares X s) (x0 x1 x2 x3) (hcx0 : ¬ X x0) :
    OutHolds (a.Spares X) (execXorR x0 x1 x2 x3 s) := by
  unfold execXorR
  repeat' (first | with_reducible assumption | with_reducible apply OutHolds.mk | with_reducible apply State.aluRR_spares)

theorem execAndn_spares {X : Nat → Prop} {a s : State} (h : a.Spares X s) (x0 x1 x2 x3) (hcx0 : ¬ X x0) :
    OutHolds (a.Spares X) (execAndn x0 x1 x2 x3 s) := by
  unfold execAndn
  repeat' (first | with_reducible assumption | with_reducible apply OutHolds.mk | with_reducible apply State.aluRR_spares)

theorem execSll_spares {X : Nat → Prop} {a s : State} (h : a.Spares X s) (x0 x1 x2 x3) (hcx0 : ¬ X x0) :
    OutHolds (a.Spares X) (execSll x0 x1 x2 x3 s) := by
  unfold execSll
  repeat' (first | with_reducible assumption | with_reducible apply OutHolds.mk | with_reducible apply State.aluRR_spares)

theorem execSrl_spares {X : Nat → Prop} {a s : State} (h : a.Spares X s) (x0 x1 x2 x3) (hcx0 : ¬ X x0) :
    OutHolds (a.Spares X) (execSrl x0 x1 x2 x3 s) := by
  unfold execSrl
  repeat' (first | with_reducible assumption | with_reducible apply OutHolds.mk | with_reducible apply State.aluRR_spares)

theorem execSra_spares {X : Nat → Prop} {a s : State} (h : a.Spares X s) (x0 x1 x2 x3) (hcx0 : ¬ X x0) :
    OutHolds (a.Spares X) (execSra x0 x1 x2 x3 s) := by
  unfold execSra
  repeat' (first | with_reducible assumption | with_reducible apply OutHolds.mk | with_reducible apply State.aluRR_spares)

theorem execRor_spares {X : Nat → Prop} {a s : State} (h : a.Spares X s) (x0 x1 x2 x3) (hcx0 : ¬ X x0) :
    OutHolds (a.Spares X) (execRor x0 x1 x2 x3 s) := by
  unfold execRor
  repeat' (first | with_reducible assumption | with_reducible apply OutHolds.mk | with_reducible apply State.aluRR_spares)

theorem execSlt_spares {X : Nat → Prop} {a s : State} (h : a.Spares X s) (x0 x1 x2 x3) (hcx0 : ¬ X x0) :
    OutHolds (a.Spares X) (execSlt x0 x1 x2 x3 s) := by
  unfold execSlt
  repeat' (first | with_reducible assumption | with_reducible apply OutHolds.mk | with_reducible apply State.aluRR_spares)

theorem execSltu_spares {X : Nat → Prop} {a s : State} (h : a.Spares X s) (x0 x1 x2 x3) (hcx0 : ¬ X x0) :
    OutHolds (a.Spares X) (execSltu x0 x1 x2 x3 s) := by
  unfold execSltu
  repeat' (first | with_reducible assumption | with_reducible apply OutHolds.mk | with_reducible apply State.aluRR_spares)

theorem execMinS_spares {X : Nat → Prop} {a s : State} (h : a.Spares X s) (x0 x1 x2 x3) (hcx0 : ¬ X x0) :
    OutHolds (a.Spares X) (execMinS x0 x1 x2 x3 s) := by
  unfold execMinS
  repeat' (first | with_reducible assumption | with_reducible apply OutHolds.mk | with_reducible apply State.aluRR_spares)

theorem execMaxS_spares {X : Nat → Prop} {a s : State} (h : a.Spares X s) (x0 x1 x2 x3) (hcx0 : ¬ X x0) :
    OutHolds (a.Spares X) (execMaxS x0 x1 x2 x3 s) := by
  unfold execMaxS
  repeat' (first | with_reducible assumption | with_reducible apply OutHolds.mk | with_reducible apply State.aluRR_spares)

theorem execMinu_spares {X : Nat → Prop} {a s : State} (h : a.Spares X s) (x0 x1 x2 x3) (hcx0 : ¬ X x0) :
    OutHolds (a.Spares X) (execMinu x0 x1 x2 x3 s) := by
  unfold execMinu
  repeat' (first | with_reducible assumption | with_reducible apply OutHolds.mk | with_reducible apply State.aluRR_spares)

theorem execMaxu_spares {X : Nat → Prop} {a s : State} (h : a.Spares X s) (x0 x1 x2 x3) (hcx0 : ¬ X x0) :
    OutHolds (a.Spares X) (execMaxu x0 x1 x2 x3 s) := by
  unfold execMaxu
  repeat' (first | with_reducible assumption | with_reducible apply OutHolds.mk | with_reducible apply State.aluRR_spares)

theorem execSel_spares {X : Nat → Prop} {a s : State} (h : a.Spares X s) (x0 x1 x2 x3) (hcx0 : ¬ X x0) :
    OutHolds (a.Spares X) (execSel x0 x1 x2 x3 s) := by
  unfold execSel
  repeat' (first | with_reducible assumption | with_reducible apply OutHolds.mk | with_reducible apply State.alu_spares)

theorem execClz_spares {X : Nat → Prop} {a s : State} (h : a.Spares X s) (x0 x1 x2) (hcx0 : ¬ X x0) :
    OutHolds (a.Spares X) (execClz x0 x1 x2 s) := by
  unfold execClz
  repeat' (first | with_reducible assumption | with_reducible apply OutHolds.mk | with_reducible apply State.aluR_spares)

theorem execCtz_spares {X : Nat → Prop} {a s : State} (h : a.Spares X s) (x0 x1 x2) (hcx0 : ¬ X x0) :
    OutHolds (a.Spares X) (execCtz x0 x1 x2 s) := by
  unfold execCtz
  repeat' (first | with_reducible assumption | with_reducible apply OutHolds.mk | with_reducible apply State.aluR_spares)

theorem execPop_spares {X : Nat → Prop} {a s : State} (h : a.Spares X s) (x0 x1 x2) (hcx0 : ¬ X x0) :
    OutHolds (a.Spares X) (execPop x0 x1 x2 s) := by
  unfold execPop
  repeat' (first | with_reducible assumption | with_reducible apply OutHolds.mk | with_reducible apply State.aluR_spares)

theorem execBswap_spares {X : Nat → Prop} {a s : State} (h : a.Spares X s) (x0 x1 x2) (hcx0 : ¬ X x0) :
    OutHolds (a.Spares X) (execBswap x0 x1 x2 s) := by
  unfold execBswap
  repeat' (first | with_reducible assumption | with_reducible apply OutHolds.mk | with_reducible apply State.aluR_spares)

theorem execAddi_spares {X : Nat → Prop} {a s : State} (h : a.Spares X s) (x0 x1 x2 x3) (hcx0 : ¬ X x0) :
    OutHolds (a.Spares X) (execAddi x0 x1 x2 x3 s) := by
  unfold execAddi
  repeat' (first | with_reducible assumption | with_reducible apply OutHolds.mk | with_reducible apply State.aluR_spares)

theorem execAndi_spares {X : Nat → Prop} {a s : State} (h : a.Spares X s) (x0 x1 x2 x3) (hcx0 : ¬ X x0) :
    OutHolds (a.Spares X) (execAndi x0 x1 x2 x3 s) := by
  unfold execAndi
  repeat' (first | with_reducible assumption | with_reducible apply OutHolds.mk | with_reducible apply State.aluR_spares)

theorem execOri_spares {X : Nat → Prop} {a s : State} (h : a.Spares X s) (x0 x1 x2 x3) (hcx0 : ¬ X x0) :
    OutHolds (a.Spares X) (execOri x0 x1 x2 x3 s) := by
  unfold execOri
  repeat' (first | with_reducible assumption | with_reducible apply OutHolds.mk | with_reducible apply State.aluR_spares)

theorem execXori_spares {X : Nat → Prop} {a s : State} (h : a.Spares X s) (x0 x1 x2 x3) (hcx0 : ¬ X x0) :
    OutHolds (a.Spares X) (execXori x0 x1 x2 x3 s) := by
  unfold execXori
  repeat' (first | with_reducible assumption | with_reducible apply OutHolds.mk | with_reducible apply State.aluR_spares)

theorem execSlti_spares {X : Nat → Prop} {a s : State} (h : a.Spares X s) (x0 x1 x2 x3) (hcx0 : ¬ X x0) :
    OutHolds (a.Spares X) (execSlti x0 x1 x2 x3 s) := by
  unfold execSlti
  repeat' (first | with_reducible assumption | with_reducible apply OutHolds.mk | with_reducible apply State.aluR_spares)

theorem execSltiu_spares {X : Nat → Prop} {a s : State} (h : a.Spares X s) (x0 x1 x2 x3) (hcx0 : ¬ X x0) :
    OutHolds (a.Spares X) (execSltiu x0 x1 x2 x3 s) := by
  unfold execSltiu
  repeat' (first | with_reducible assumption | with_reducible apply OutHolds.mk | with_reducible apply State.aluR_spares)

theorem execShi_spares {X : Nat → Prop} {a s : State} (h : a.Spares X s) (x0 x1 x2 x3) (hcx0 : ¬ X x0) :
    OutHolds (a.Spares X) (execShi x0 x1 x2 x3 s) := by
  unfold execShi
  repeat' (first
      | with_reducible assumption | intro _ | with_reducible apply Done.Holds.mkOk | with_reducible apply Done.Holds.mkExc
      | with_reducible apply OutHolds.mk | with_reducible apply State.issue_spares
      | ((with_reducible refine State.Spares.modNe ?_ ?_); on_goal 2 => assumption) | split)

theorem execMovz_spares {X : Nat → Prop} {a s : State} (h : a.Spares X s) (x0 x1 x2 x3) (hcx0 : ¬ X x0) :
    OutHolds (a.Spares X) (execMovz x0 x1 x2 x3 s) := by
  unfold execMovz
  repeat' (first
      | with_reducible assumption | intro _ | with_reducible apply Done.Holds.mkOk | with_reducible apply Done.Holds.mkExc
      | with_reducible apply OutHolds.mk | with_reducible apply State.issue_spares
      | ((with_reducible refine State.Spares.modNe ?_ ?_); on_goal 2 => assumption) | split)

theorem execMovk_spares {X : Nat → Prop} {a s : State} (h : a.Spares X s) (x0 x1 x2 x3) (hcx0 : ¬ X x0) :
    OutHolds (a.Spares X) (execMovk x0 x1 x2 x3 s) := by
  unfold execMovk
  repeat' (first
      | with_reducible assumption | intro _ | with_reducible apply Done.Holds.mkOk | with_reducible apply Done.Holds.mkExc
      | with_reducible apply OutHolds.mk | with_reducible apply State.issue_spares
      | ((with_reducible refine State.Spares.modNe ?_ ?_); on_goal 2 => assumption) | split)

theorem execMul_spares {X : Nat → Prop} {a s : State} (h : a.Spares X s) (x0 x1 x2 x3) (hcx0 : ¬ X x0) :
    OutHolds (a.Spares X) (execMul x0 x1 x2 x3 s) := by
  unfold execMul
  repeat' (first | with_reducible assumption | with_reducible apply OutHolds.mk | with_reducible apply State.aluRR_spares)

theorem execMulh_spares {X : Nat → Prop} {a s : State} (h : a.Spares X s) (x0 x1 x2 x3) (hcx0 : ¬ X x0) :
    OutHolds (a.Spares X) (execMulh x0 x1 x2 x3 s) := by
  unfold execMulh
  repeat' (first | with_reducible assumption | with_reducible apply OutHolds.mk | with_reducible apply State.aluRR_spares)

theorem execMulhu_spares {X : Nat → Prop} {a s : State} (h : a.Spares X s) (x0 x1 x2 x3) (hcx0 : ¬ X x0) :
    OutHolds (a.Spares X) (execMulhu x0 x1 x2 x3 s) := by
  unfold execMulhu
  repeat' (first | with_reducible assumption | with_reducible apply OutHolds.mk | with_reducible apply State.aluRR_spares)

theorem execDivS_spares {X : Nat → Prop} {a s : State} (h : a.Spares X s) (x0 x1 x2 x3) (hcx0 : ¬ X x0) :
    OutHolds (a.Spares X) (execDivS x0 x1 x2 x3 s) := by
  unfold execDivS
  repeat' (first | with_reducible assumption | with_reducible apply OutHolds.mk | with_reducible apply State.divide_spares)

theorem execDivu_spares {X : Nat → Prop} {a s : State} (h : a.Spares X s) (x0 x1 x2 x3) (hcx0 : ¬ X x0) :
    OutHolds (a.Spares X) (execDivu x0 x1 x2 x3 s) := by
  unfold execDivu
  repeat' (first | with_reducible assumption | with_reducible apply OutHolds.mk | with_reducible apply State.divide_spares)

theorem execRemS_spares {X : Nat → Prop} {a s : State} (h : a.Spares X s) (x0 x1 x2 x3) (hcx0 : ¬ X x0) :
    OutHolds (a.Spares X) (execRemS x0 x1 x2 x3 s) := by
  unfold execRemS
  repeat' (first | with_reducible assumption | with_reducible apply OutHolds.mk | with_reducible apply State.divide_spares)

theorem execRemu_spares {X : Nat → Prop} {a s : State} (h : a.Spares X s) (x0 x1 x2 x3) (hcx0 : ¬ X x0) :
    OutHolds (a.Spares X) (execRemu x0 x1 x2 x3 s) := by
  unfold execRemu
  repeat' (first | with_reducible assumption | with_reducible apply OutHolds.mk | with_reducible apply State.divide_spares)

theorem execFadd_spares {X : Nat → Prop} {a s : State} (h : a.Spares X s) (x0 x1 x2 x3 x4) (hcx0 : ¬ X x0) :
    OutHolds (a.Spares X) (execFadd x0 x1 x2 x3 x4 s) := by
  unfold execFadd
  repeat' (first | with_reducible assumption | with_reducible apply OutHolds.mk | with_reducible apply State.fp2_spares)

theorem execFsub_spares {X : Nat → Prop} {a s : State} (h : a.Spares X s) (x0 x1 x2 x3 x4) (hcx0 : ¬ X x0) :
    OutHolds (a.Spares X) (execFsub x0 x1 x2 x3 x4 s) := by
  unfold execFsub
  repeat' (first | with_reducible assumption | with_reducible apply OutHolds.mk | with_reducible apply State.fp2_spares)

theorem execFmul_spares {X : Nat → Prop} {a s : State} (h : a.Spares X s) (x0 x1 x2 x3 x4) (hcx0 : ¬ X x0) :
    OutHolds (a.Spares X) (execFmul x0 x1 x2 x3 x4 s) := by
  unfold execFmul
  repeat' (first | with_reducible assumption | with_reducible apply OutHolds.mk | with_reducible apply State.fp2_spares)

theorem execFdiv_spares {X : Nat → Prop} {a s : State} (h : a.Spares X s) (x0 x1 x2 x3 x4) (hcx0 : ¬ X x0) :
    OutHolds (a.Spares X) (execFdiv x0 x1 x2 x3 x4 s) := by
  unfold execFdiv
  repeat' (first
      | with_reducible assumption | intro _ | dsimp only | with_reducible apply OutHolds.mk
      | with_reducible apply State.issue_spares | with_reducible apply fpLong_spares)

theorem execFsqrt_spares {X : Nat → Prop} {a s : State} (h : a.Spares X s) (x0 x1 x2 x3) (hcx0 : ¬ X x0) :
    OutHolds (a.Spares X) (execFsqrt x0 x1 x2 x3 s) := by
  unfold execFsqrt
  repeat' (first
      | with_reducible assumption | intro _ | dsimp only | with_reducible apply OutHolds.mk
      | with_reducible apply State.issue_spares | with_reducible apply fpLong_spares)

theorem execFma_spares {X : Nat → Prop} {a s : State} (h : a.Spares X s) (x0 x1 x2 x3 x4) (hcx0 : ¬ X x0) :
    OutHolds (a.Spares X) (execFma x0 x1 x2 x3 x4 s) := by
  unfold execFma
  repeat' (first
      | with_reducible assumption | intro _ | dsimp only | with_reducible apply OutHolds.mk
      | with_reducible apply State.issue_spares | with_reducible apply fpWrite_spares)

theorem execFmin_spares {X : Nat → Prop} {a s : State} (h : a.Spares X s) (x0 x1 x2 x3 x4) (hcx0 : ¬ X x0) :
    OutHolds (a.Spares X) (execFmin x0 x1 x2 x3 x4 s) := by
  unfold execFmin
  repeat' (first | with_reducible assumption | with_reducible apply OutHolds.mk | with_reducible apply State.fp2_spares)

theorem execFmax_spares {X : Nat → Prop} {a s : State} (h : a.Spares X s) (x0 x1 x2 x3 x4) (hcx0 : ¬ X x0) :
    OutHolds (a.Spares X) (execFmax x0 x1 x2 x3 x4 s) := by
  unfold execFmax
  repeat' (first | with_reducible assumption | with_reducible apply OutHolds.mk | with_reducible apply State.fp2_spares)

theorem execFceq_spares {X : Nat → Prop} {a s : State} (h : a.Spares X s) (x0 x1 x2 x3 x4) (hcx0 : ¬ X x0) :
    OutHolds (a.Spares X) (execFceq x0 x1 x2 x3 x4 s) := by
  unfold execFceq
  repeat' (first | with_reducible assumption | with_reducible apply OutHolds.mk | with_reducible apply State.fp2_spares)

theorem execFclt_spares {X : Nat → Prop} {a s : State} (h : a.Spares X s) (x0 x1 x2 x3 x4) (hcx0 : ¬ X x0) :
    OutHolds (a.Spares X) (execFclt x0 x1 x2 x3 x4 s) := by
  unfold execFclt
  repeat' (first | with_reducible assumption | with_reducible apply OutHolds.mk | with_reducible apply State.fp2_spares)

theorem execFcle_spares {X : Nat → Prop} {a s : State} (h : a.Spares X s) (x0 x1 x2 x3 x4) (hcx0 : ¬ X x0) :
    OutHolds (a.Spares X) (execFcle x0 x1 x2 x3 x4 s) := by
  unfold execFcle
  repeat' (first | with_reducible assumption | with_reducible apply OutHolds.mk | with_reducible apply State.fp2_spares)

theorem execFcvti_spares {X : Nat → Prop} {a s : State} (h : a.Spares X s) (x0 x1 x2 x3) (hcx0 : ¬ X x0) :
    OutHolds (a.Spares X) (execFcvti x0 x1 x2 x3 s) := by
  unfold execFcvti
  repeat' (first | with_reducible assumption | with_reducible apply OutHolds.mk | with_reducible apply State.fp1_spares)

theorem execFcvtf_spares {X : Nat → Prop} {a s : State} (h : a.Spares X s) (x0 x1 x2 x3) (hcx0 : ¬ X x0) :
    OutHolds (a.Spares X) (execFcvtf x0 x1 x2 x3 s) := by
  unfold execFcvtf
  repeat' (first | with_reducible assumption | with_reducible apply OutHolds.mk | with_reducible apply State.fp1_spares)

theorem execFcvtp_spares {X : Nat → Prop} {a s : State} (h : a.Spares X s) (x0 x1 x2 x3) (hcx0 : ¬ X x0) :
    OutHolds (a.Spares X) (execFcvtp x0 x1 x2 x3 s) := by
  unfold execFcvtp
  repeat' (first | with_reducible assumption | with_reducible apply OutHolds.mk | with_reducible apply State.fp1_spares)

theorem execFclass_spares {X : Nat → Prop} {a s : State} (h : a.Spares X s) (x0 x1 x2 x3) (hcx0 : ¬ X x0) :
    OutHolds (a.Spares X) (execFclass x0 x1 x2 x3 s) := by
  unfold execFclass
  repeat' (first | with_reducible assumption | with_reducible apply OutHolds.mk | with_reducible apply State.aluR_spares)

theorem execVadd_spares {X : Nat → Prop} {a s : State} (h : a.Spares X s) (x0 x1 x2 x3 x4) (hcx0 : ¬ X x0) :
    OutHolds (a.Spares X) (execVadd x0 x1 x2 x3 x4 s) := by
  unfold execVadd
  repeat' (first | with_reducible assumption | with_reducible apply OutHolds.mk | with_reducible apply State.vecE_spares)

theorem execVsub_spares {X : Nat → Prop} {a s : State} (h : a.Spares X s) (x0 x1 x2 x3 x4) (hcx0 : ¬ X x0) :
    OutHolds (a.Spares X) (execVsub x0 x1 x2 x3 x4 s) := by
  unfold execVsub
  repeat' (first | with_reducible assumption | with_reducible apply OutHolds.mk | with_reducible apply State.vecE_spares)

theorem execVsll_spares {X : Nat → Prop} {a s : State} (h : a.Spares X s) (x0 x1 x2 x3 x4) (hcx0 : ¬ X x0) :
    OutHolds (a.Spares X) (execVsll x0 x1 x2 x3 x4 s) := by
  unfold execVsll
  repeat' (first | with_reducible assumption | with_reducible apply OutHolds.mk | with_reducible apply State.vecE_spares)

theorem execVsrl_spares {X : Nat → Prop} {a s : State} (h : a.Spares X s) (x0 x1 x2 x3 x4) (hcx0 : ¬ X x0) :
    OutHolds (a.Spares X) (execVsrl x0 x1 x2 x3 x4 s) := by
  unfold execVsrl
  repeat' (first | with_reducible assumption | with_reducible apply OutHolds.mk | with_reducible apply State.vecE_spares)

theorem execVsra_spares {X : Nat → Prop} {a s : State} (h : a.Spares X s) (x0 x1 x2 x3 x4) (hcx0 : ¬ X x0) :
    OutHolds (a.Spares X) (execVsra x0 x1 x2 x3 x4 s) := by
  unfold execVsra
  repeat' (first | with_reducible assumption | with_reducible apply OutHolds.mk | with_reducible apply State.vecE_spares)

theorem execVmin_spares {X : Nat → Prop} {a s : State} (h : a.Spares X s) (x0 x1 x2 x3 x4) (hcx0 : ¬ X x0) :
    OutHolds (a.Spares X) (execVmin x0 x1 x2 x3 x4 s) := by
  unfold execVmin
  repeat' (first | with_reducible assumption | with_reducible apply OutHolds.mk | with_reducible apply State.vecE_spares)

theorem execVmax_spares {X : Nat → Prop} {a s : State} (h : a.Spares X s) (x0 x1 x2 x3 x4) (hcx0 : ¬ X x0) :
    OutHolds (a.Spares X) (execVmax x0 x1 x2 x3 x4 s) := by
  unfold execVmax
  repeat' (first | with_reducible assumption | with_reducible apply OutHolds.mk | with_reducible apply State.vecE_spares)

theorem execVmul_spares {X : Nat → Prop} {a s : State} (h : a.Spares X s) (x0 x1 x2 x3 x4) (hcx0 : ¬ X x0) :
    OutHolds (a.Spares X) (execVmul x0 x1 x2 x3 x4 s) := by
  unfold execVmul
  repeat' (first | with_reducible assumption | with_reducible apply OutHolds.mk | with_reducible apply State.vecE_spares)

theorem execVceq_spares {X : Nat → Prop} {a s : State} (h : a.Spares X s) (x0 x1 x2 x3 x4) (hcx0 : ¬ X x0) :
    OutHolds (a.Spares X) (execVceq x0 x1 x2 x3 x4 s) := by
  unfold execVceq
  repeat' (first | with_reducible assumption | with_reducible apply OutHolds.mk | with_reducible apply State.vecE_spares)

theorem execVcgt_spares {X : Nat → Prop} {a s : State} (h : a.Spares X s) (x0 x1 x2 x3 x4) (hcx0 : ¬ X x0) :
    OutHolds (a.Spares X) (execVcgt x0 x1 x2 x3 x4 s) := by
  unfold execVcgt
  repeat' (first | with_reducible assumption | with_reducible apply OutHolds.mk | with_reducible apply State.vecE_spares)

theorem execVand_spares {X : Nat → Prop} {a s : State} (h : a.Spares X s) (x0 x1 x2 x3) (hcx0 : ¬ X x0) :
    OutHolds (a.Spares X) (execVand x0 x1 x2 x3 s) := by
  unfold execVand
  repeat' (first | with_reducible assumption | with_reducible apply OutHolds.mk | with_reducible apply State.vec2_spares)

theorem execVor_spares {X : Nat → Prop} {a s : State} (h : a.Spares X s) (x0 x1 x2 x3) (hcx0 : ¬ X x0) :
    OutHolds (a.Spares X) (execVor x0 x1 x2 x3 s) := by
  unfold execVor
  repeat' (first | with_reducible assumption | with_reducible apply OutHolds.mk | with_reducible apply State.vec2_spares)

theorem execVxor_spares {X : Nat → Prop} {a s : State} (h : a.Spares X s) (x0 x1 x2 x3) (hcx0 : ¬ X x0) :
    OutHolds (a.Spares X) (execVxor x0 x1 x2 x3 s) := by
  unfold execVxor
  repeat' (first | with_reducible assumption | with_reducible apply OutHolds.mk | with_reducible apply State.vec2_spares)

theorem execVperm_spares {X : Nat → Prop} {a s : State} (h : a.Spares X s) (x0 x1 x2 x3) (hcx0 : ¬ X x0) :
    OutHolds (a.Spares X) (execVperm x0 x1 x2 x3 s) := by
  unfold execVperm
  repeat' (first | with_reducible assumption | with_reducible apply OutHolds.mk | with_reducible apply State.vec2_spares)

theorem execVsplat_spares {X : Nat → Prop} {a s : State} (h : a.Spares X s) (x0 x1 x2 x3) (hcx0 : ¬ X x0) :
    OutHolds (a.Spares X) (execVsplat x0 x1 x2 x3 s) := by
  unfold execVsplat
  repeat' (first | with_reducible assumption | with_reducible apply OutHolds.mk | with_reducible apply State.compute_spares)

theorem execVext_spares {X : Nat → Prop} {a s : State} (h : a.Spares X s) (x0 x1 x2 x3 x4) (hcx0 : ¬ X x0) :
    OutHolds (a.Spares X) (execVext x0 x1 x2 x3 x4 s) := by
  unfold execVext
  repeat' (first
      | with_reducible assumption | intro _ | with_reducible apply Done.Holds.mkOk | with_reducible apply Done.Holds.mkExc
      | with_reducible apply OutHolds.mk | with_reducible apply State.issue_spares
      | ((with_reducible refine State.Spares.modNe ?_ ?_); on_goal 2 => assumption) | split)

theorem execVfadd_spares {X : Nat → Prop} {a s : State} (h : a.Spares X s) (x0 x1 x2 x3 x4) (hcx0 : ¬ X x0) :
    OutHolds (a.Spares X) (execVfadd x0 x1 x2 x3 x4 s) := by
  unfold execVfadd
  repeat' (first | with_reducible assumption | with_reducible apply OutHolds.mk | with_reducible apply State.vecF_spares)

theorem execVfsub_spares {X : Nat → Prop} {a s : State} (h : a.Spares X s) (x0 x1 x2 x3 x4) (hcx0 : ¬ X x0) :
    OutHolds (a.Spares X) (execVfsub x0 x1 x2 x3 x4 s) := by
  unfold execVfsub
  repeat' (first | with_reducible assumption | with_reducible apply OutHolds.mk | with_reducible apply State.vecF_spares)

theorem execVfmul_spares {X : Nat → Prop} {a s : State} (h : a.Spares X s) (x0 x1 x2 x3 x4) (hcx0 : ¬ X x0) :
    OutHolds (a.Spares X) (execVfmul x0 x1 x2 x3 x4 s) := by
  unfold execVfmul
  repeat' (first | with_reducible assumption | with_reducible apply OutHolds.mk | with_reducible apply State.vecF_spares)

theorem execVfmin_spares {X : Nat → Prop} {a s : State} (h : a.Spares X s) (x0 x1 x2 x3 x4) (hcx0 : ¬ X x0) :
    OutHolds (a.Spares X) (execVfmin x0 x1 x2 x3 x4 s) := by
  unfold execVfmin
  repeat' (first | with_reducible assumption | with_reducible apply OutHolds.mk | with_reducible apply State.vecF_spares)

theorem execVfmax_spares {X : Nat → Prop} {a s : State} (h : a.Spares X s) (x0 x1 x2 x3 x4) (hcx0 : ¬ X x0) :
    OutHolds (a.Spares X) (execVfmax x0 x1 x2 x3 x4 s) := by
  unfold execVfmax
  repeat' (first | with_reducible assumption | with_reducible apply OutHolds.mk | with_reducible apply State.vecF_spares)

theorem execVfma_spares {X : Nat → Prop} {a s : State} (h : a.Spares X s) (x0 x1 x2 x3 x4) (hcx0 : ¬ X x0) :
    OutHolds (a.Spares X) (execVfma x0 x1 x2 x3 x4 s) := by
  unfold execVfma
  repeat' (first | with_reducible assumption | with_reducible apply OutHolds.mk | with_reducible apply State.vecF_spares)

theorem execVfdiv_spares {X : Nat → Prop} {a s : State} (h : a.Spares X s) (x0 x1 x2 x3 x4) (hcx0 : ¬ X x0) :
    OutHolds (a.Spares X) (execVfdiv x0 x1 x2 x3 x4 s) := by
  unfold execVfdiv
  repeat' (first
      | with_reducible assumption | intro _ | dsimp only | with_reducible apply OutHolds.mk
      | with_reducible apply State.issue_spares | with_reducible apply longDone_spares)

theorem execAese_spares {X : Nat → Prop} {a s : State} (h : a.Spares X s) (x0 x1 x2 x3) (hcx0 : ¬ X x0) :
    OutHolds (a.Spares X) (execAese x0 x1 x2 x3 s) := by
  unfold execAese
  repeat' (first | with_reducible assumption | with_reducible apply OutHolds.mk | with_reducible apply State.cryptoOp_spares)

theorem execAesel_spares {X : Nat → Prop} {a s : State} (h : a.Spares X s) (x0 x1 x2 x3) (hcx0 : ¬ X x0) :
    OutHolds (a.Spares X) (execAesel x0 x1 x2 x3 s) := by
  unfold execAesel
  repeat' (first | with_reducible assumption | with_reducible apply OutHolds.mk | with_reducible apply State.cryptoOp_spares)

theorem execAesd_spares {X : Nat → Prop} {a s : State} (h : a.Spares X s) (x0 x1 x2 x3) (hcx0 : ¬ X x0) :
    OutHolds (a.Spares X) (execAesd x0 x1 x2 x3 s) := by
  unfold execAesd
  repeat' (first | with_reducible assumption | with_reducible apply OutHolds.mk | with_reducible apply State.cryptoOp_spares)

theorem execAesdl_spares {X : Nat → Prop} {a s : State} (h : a.Spares X s) (x0 x1 x2 x3) (hcx0 : ¬ X x0) :
    OutHolds (a.Spares X) (execAesdl x0 x1 x2 x3 s) := by
  unfold execAesdl
  repeat' (first | with_reducible assumption | with_reducible apply OutHolds.mk | with_reducible apply State.cryptoOp_spares)

theorem execGmul_spares {X : Nat → Prop} {a s : State} (h : a.Spares X s) (x0 x1 x2 x3) (hcx0 : ¬ X x0) :
    OutHolds (a.Spares X) (execGmul x0 x1 x2 x3 s) := by
  unfold execGmul
  repeat' (first | with_reducible assumption | with_reducible apply OutHolds.mk | with_reducible apply State.cryptoOp_spares)

theorem execSha512s_spares {X : Nat → Prop} {a s : State} (h : a.Spares X s) (x0 x1 x2 x3) (hcx0 : ¬ X x0) :
    OutHolds (a.Spares X) (execSha512s x0 x1 x2 x3 s) := by
  unfold execSha512s
  repeat' (first | with_reducible assumption | with_reducible apply OutHolds.mk | with_reducible apply State.cryptoOp_spares)

theorem execSha512r_spares {X : Nat → Prop} {a s : State} (h : a.Spares X s) (x0 x1 x2 x3) (hcx0 : ¬ X x0) :
    OutHolds (a.Spares X) (execSha512r x0 x1 x2 x3 s) := by
  unfold execSha512r
  repeat' (first | with_reducible assumption | with_reducible apply OutHolds.mk | with_reducible apply State.cryptoOp_spares)

theorem execBr_spares {X : Nat → Prop} {a s : State} (h : a.Spares X s) (x0 x1) (hcx0 : ¬ X x0) :
    OutHolds (a.Spares X) (execBr x0 x1 s) := by
  unfold execBr
  repeat' (first
      | with_reducible assumption | intro _ | dsimp only | with_reducible apply Done.Holds.mkJump
      | with_reducible apply OutHolds.mk | with_reducible apply State.issue_spares
      | ((with_reducible refine State.Spares.modNe ?_ ?_); on_goal 2 => assumption))

theorem execBal_spares {X : Nat → Prop} {a s : State} (h : a.Spares X s) (x0 x1) (hcx0 : ¬ X x0) :
    OutHolds (a.Spares X) (execBal x0 x1 s) := by
  unfold execBal
  repeat' (first
      | with_reducible assumption | intro _ | dsimp only | with_reducible apply Done.Holds.mkJump
      | with_reducible apply OutHolds.mk | with_reducible apply State.issue_spares
      | ((with_reducible refine State.Spares.modNe ?_ ?_); on_goal 2 => assumption))

theorem execBcc_spares {X : Nat → Prop} {a s : State} (h : a.Spares X s) (x0 x1 x2 x3 x4) (hcx0 : ¬ X x0) :
    OutHolds (a.Spares X) (execBcc x0 x1 x2 x3 x4 s) := by
  unfold execBcc
  repeat' (first
      | with_reducible assumption | intro _ | dsimp only | with_reducible apply Done.Holds.mkOk
      | with_reducible apply Done.Holds.mkJump | with_reducible apply Done.Holds.mkExc | with_reducible apply OutHolds.mk
      | with_reducible apply State.issue_spares | ((with_reducible refine State.Spares.setNe ?_ ?_); on_goal 2 => assumption)
      | split)

theorem execJalr_spares {X : Nat → Prop} {a s : State} (h : a.Spares X s) (x0 x1 x2 x3) (hcx0 : ¬ X x0) :
    OutHolds (a.Spares X) (execJalr x0 x1 x2 x3 s) := by
  unfold execJalr
  repeat' (first
      | with_reducible assumption | intro _ | dsimp only | with_reducible apply Done.Holds.mkJump
      | with_reducible apply Done.Holds.mkExc | with_reducible apply OutHolds.mk | with_reducible apply State.issue_spares
      | ((with_reducible refine State.Spares.setNe ?_ ?_); on_goal 2 => assumption) | split)

theorem execJr_spares {X : Nat → Prop} {a s : State} (h : a.Spares X s) (x0 x1 x2) (hcx0 : ¬ X x0) :
    OutHolds (a.Spares X) (execJr x0 x1 x2 s) := by
  unfold execJr
  repeat' (first
      | with_reducible assumption | intro _ | dsimp only | with_reducible apply Done.Holds.mkJump
      | with_reducible apply Done.Holds.mkExc | with_reducible apply OutHolds.mk | with_reducible apply State.issue_spares
      | ((with_reducible refine State.Spares.setNe ?_ ?_); on_goal 2 => assumption) | split)

theorem execLoop_spares {X : Nat → Prop} {a s : State} (h : a.Spares X s) (x0 x1 x2) (hcx0 : ¬ X x0) :
    OutHolds (a.Spares X) (execLoop x0 x1 x2 s) := by
  unfold execLoop
  repeat' (first
      | with_reducible assumption | intro _ | dsimp only | with_reducible apply Done.Holds.mkOk
      | with_reducible apply Done.Holds.mkExc | with_reducible apply Done.Holds.mkStay | with_reducible apply OutHolds.mk
      | with_reducible apply State.issue_spares | with_reducible apply State.retire_spares
      | ((with_reducible refine State.Spares.setNe ?_ ?_); on_goal 2 => assumption) | split)

theorem execAclr_spares {X : Nat → Prop} {a s : State} (h : a.Spares X s) (x0 x1 x2) (hcx0 : ¬ X x0) :
    OutHolds (a.Spares X) (execAclr x0 x1 x2 s) := by
  unfold execAclr
  repeat' (first
      | with_reducible assumption | intro _ | dsimp only | with_reducible apply Done.Holds.mkOk
      | with_reducible apply Done.Holds.mkExc | with_reducible apply OutHolds.mk | with_reducible apply State.issue_spares
      | ((with_reducible refine State.Spares.modNe ?_ ?_); on_goal 2 => assumption) | split)

theorem execAadd_spares {X : Nat → Prop} {a s : State} (h : a.Spares X s) (x0 x1 x2 x3) (hcx0 : ¬ X x0) :
    OutHolds (a.Spares X) (execAadd x0 x1 x2 x3 s) := by
  unfold execAadd
  repeat' (first | with_reducible assumption | with_reducible apply OutHolds.mk | with_reducible apply State.amAdd_spares)

theorem execAsub_spares {X : Nat → Prop} {a s : State} (h : a.Spares X s) (x0 x1 x2 x3) (hcx0 : ¬ X x0) :
    OutHolds (a.Spares X) (execAsub x0 x1 x2 x3 s) := by
  unfold execAsub
  repeat' (first | with_reducible assumption | with_reducible apply OutHolds.mk | with_reducible apply State.amAdd_spares)

theorem execAmac_spares {X : Nat → Prop} {a s : State} (h : a.Spares X s) (x0 x1 x2 x3 x4) (hcx0 : ¬ X x0) :
    OutHolds (a.Spares X) (execAmac x0 x1 x2 x3 x4 s) := by
  unfold execAmac
  repeat' (first
      | with_reducible assumption | intro _ | dsimp only | with_reducible apply OutHolds.mk
      | with_reducible apply State.issue_spares | with_reducible apply longDone_spares
      | ((with_reducible refine State.Spares.modNe ?_ ?_); on_goal 2 => assumption) | split)

theorem execAmacs_spares {X : Nat → Prop} {a s : State} (h : a.Spares X s) (x0 x1 x2 x3 x4) (hcx0 : ¬ X x0) :
    OutHolds (a.Spares X) (execAmacs x0 x1 x2 x3 x4 s) := by
  unfold execAmacs
  repeat' (first
      | with_reducible assumption | intro _ | with_reducible apply OutHolds.mk | with_reducible apply State.issue_spares
      | with_reducible apply accDone_spares)

theorem execAscl_spares {X : Nat → Prop} {a s : State} (h : a.Spares X s) (x0 x1 x2) (hcx0 : ¬ X x0) :
    OutHolds (a.Spares X) (execAscl x0 x1 x2 s) := by
  unfold execAscl
  repeat' (first
      | with_reducible assumption | intro _ | dsimp only | with_reducible apply Done.Holds.mkExc
      | with_reducible apply OutHolds.mk | with_reducible apply State.issue_spares | with_reducible apply accDone_spares
      | split)

theorem execArnd_spares {X : Nat → Prop} {a s : State} (h : a.Spares X s) (x0 x1 x2 x3 x4) (hcx0 : ¬ X x0) :
    OutHolds (a.Spares X) (execArnd x0 x1 x2 x3 x4 s) := by
  unfold execArnd
  repeat' (first
      | with_reducible assumption | intro _ | dsimp only | with_reducible apply Done.Holds.mkExc
      | with_reducible apply OutHolds.mk | with_reducible apply State.issue_spares | with_reducible apply longDone_spares
      | ((with_reducible refine State.Spares.modNe ?_ ?_); on_goal 2 => assumption) | split)

theorem execAflg_spares {X : Nat → Prop} {a s : State} (h : a.Spares X s) (x0 x1 x2) (hcx0 : ¬ X x0) :
    OutHolds (a.Spares X) (execAflg x0 x1 x2 s) := by
  unfold execAflg
  repeat' (first | with_reducible assumption | with_reducible apply OutHolds.mk | with_reducible apply State.compute_spares)

theorem execAfclr_spares {X : Nat → Prop} {a s : State} (h : a.Spares X s) (x0 x1) (hcx0 : ¬ X x0) :
    OutHolds (a.Spares X) (execAfclr x0 x1 s) := by
  unfold execAfclr
  repeat' (first
      | with_reducible assumption | dsimp only | with_reducible apply OutHolds.mk | with_reducible apply State.compute_spares)

theorem execReadyEvaluation_spares {X : Nat → Prop} {a s : State} (h : a.Spares X s) (x0) :
    OutHolds (a.Spares X) (execReadyEvaluation x0 s) := by
  unfold execReadyEvaluation
  repeat' (first
      | with_reducible assumption | dsimp only | with_reducible apply OutHolds.mk
      | with_reducible apply State.setReport_spares | with_reducible apply State.Spares.ite)

theorem execRootSampling_spares {X : Nat → Prop} {a s : State} (h : a.Spares X s) :
    OutHolds (a.Spares X) (execRootSampling s) := by
  unfold execRootSampling
  repeat' (first
      | with_reducible assumption | intro _ | dsimp only | with_reducible apply OutHolds.mk
      | with_reducible apply State.setReport_spares | fail_if_no_progress (with_reducible apply State.Spares.upd)
      | with_reducible apply State.Spares.foldl | with_reducible apply State.Spares.ite)

theorem execToStoreStage_spares {X : Nat → Prop} {a s : State} (h : a.Spares X s) (x0) :
    OutHolds (a.Spares X) (execToStoreStage x0 s) := by
  unfold execToStoreStage
  repeat' (first
      | with_reducible assumption | dsimp only | with_reducible apply OutHolds.mk | with_reducible apply State.modBlock_spares
      | with_reducible apply State.stageEnt_spares | with_reducible apply State.Spares.ite | split)

theorem execPublishAcknowledgement_spares {X : Nat → Prop} {a s : State} (h : a.Spares X s) (x0) :
    OutHolds (a.Spares X) (execPublishAcknowledgement x0 s) := by
  unfold execPublishAcknowledgement
  repeat' (first
      | with_reducible assumption | with_reducible apply OutHolds.mk | with_reducible apply State.modBlock_spares
      | with_reducible apply State.Spares.ite)

theorem execActionRegister_spares {X : Nat → Prop} {a s : State} (h : a.Spares X s) (x0) :
    OutHolds (a.Spares X) (execActionRegister x0 s) := by
  unfold execActionRegister
  repeat' (first
      | with_reducible assumption | with_reducible apply OutHolds.mk | with_reducible apply State.registerAct_spares
      | with_reducible apply State.Spares.ite | split)

theorem execTickTimerPost_spares {X : Nat → Prop} {a s : State} (h : a.Spares X s) (x0) (hcx0 : ¬ X x0) :
    OutHolds (a.Spares X) (execTickTimerPost x0 s) := by
  unfold execTickTimerPost
  repeat' (first
      | with_reducible assumption | with_reducible apply OutHolds.mk | with_reducible apply State.post_spares
      | ((with_reducible refine State.Spares.modNe ?_ ?_); on_goal 2 => assumption) | with_reducible apply State.Spares.ite)

theorem execPpsEdge_spares {X : Nat → Prop} {a s : State} (h : a.Spares X s) (x0) :
    OutHolds (a.Spares X) (execPpsEdge x0 s) := by
  unfold execPpsEdge
  repeat' (first
      | with_reducible assumption | dsimp only | with_reducible apply OutHolds.mk | with_reducible apply State.passRefs_spares
      | with_reducible apply State.ppsAccept_spares | fail_if_no_progress (with_reducible apply State.Spares.upd)
      | with_reducible apply State.Spares.ite)

theorem execPpsLost_spares {X : Nat → Prop} {a s : State} (h : a.Spares X s) :
    OutHolds (a.Spares X) (execPpsLost s) := by
  unfold execPpsLost
  repeat' (first
      | with_reducible assumption | dsimp only | with_reducible apply OutHolds.mk | with_reducible apply State.post_spares
      | fail_if_no_progress (with_reducible apply State.Spares.upd) | with_reducible apply State.Spares.ite)

theorem execTlbShootdown_spares {X : Nat → Prop} {a s : State} (h : a.Spares X s) :
    OutHolds (a.Spares X) (execTlbShootdown s) := by
  unfold execTlbShootdown
  repeat' (first
      | with_reducible assumption | with_reducible apply OutHolds.mk | with_reducible apply State.sdGo_spares
      | with_reducible apply State.Spares.ite)

theorem execShootdownComplete_spares {X : Nat → Prop} {a s : State} (h : a.Spares X s) :
    OutHolds (a.Spares X) (execShootdownComplete s) := by
  unfold execShootdownComplete
  repeat' (first
      | with_reducible assumption | dsimp only | with_reducible apply OutHolds.mk
      | fail_if_no_progress (with_reducible apply State.Spares.upd) | with_reducible apply State.Spares.ite)

theorem execAtsInvalidateCompletion_spares {X : Nat → Prop} {a s : State} (h : a.Spares X s) (x0 x1) :
    OutHolds (a.Spares X) (execAtsInvalidateCompletion x0 x1 s) := by
  unfold execAtsInvalidateCompletion
  repeat' (first
      | with_reducible assumption | dsimp only | with_reducible apply OutHolds.mk
      | fail_if_no_progress (with_reducible apply State.Spares.upd) | with_reducible apply State.Spares.ite)

theorem execAtsInvalidationTimeout_spares {X : Nat → Prop} {a s : State} (h : a.Spares X s) (x0 x1) :
    OutHolds (a.Spares X) (execAtsInvalidationTimeout x0 x1 s) := by
  unfold execAtsInvalidationTimeout
  repeat' (first
      | with_reducible assumption | dsimp only | with_reducible apply OutHolds.mk | with_reducible apply State.orWait_spares
      | with_reducible apply State.modIotu_spares | with_reducible apply State.iotEvent_spares
      | fail_if_no_progress (with_reducible apply State.Spares.upd) | with_reducible apply State.Spares.ite)

theorem execIotEqbWrite_spares {X : Nat → Prop} {a s : State} (h : a.Spares X s) (x0 x1) :
    OutHolds (a.Spares X) (execIotEqbWrite x0 x1 s) := by
  unfold execIotEqbWrite
  repeat' (first
      | with_reducible assumption | with_reducible apply OutHolds.mk | with_reducible apply State.eqbWrite_spares
      | with_reducible apply State.Spares.ite)

theorem execPageRequestGroupResponse_spares {X : Nat → Prop} {a s : State} (h : a.Spares X s) (x0 x1) :
    OutHolds (a.Spares X) (execPageRequestGroupResponse x0 x1 s) := by
  unfold execPageRequestGroupResponse
  repeat' (first
      | with_reducible assumption | with_reducible apply OutHolds.mk | with_reducible apply State.prgrWrite_spares
      | with_reducible apply State.Spares.ite)

theorem execDbTailWrite_spares {X : Nat → Prop} {a s : State} (h : a.Spares X s) (x0 x1 x2 x3) :
    OutHolds (a.Spares X) (execDbTailWrite x0 x1 x2 x3 s) := by
  unfold execDbTailWrite
  repeat' (first
      | with_reducible assumption | with_reducible apply OutHolds.mk | with_reducible apply State.dbTail_spares
      | with_reducible apply State.Spares.ite)

theorem execResumeDesc_spares {X : Nat → Prop} {a s : State} (h : a.Spares X s) (x0 x1 x2) :
    OutHolds (a.Spares X) (execResumeDesc x0 x1 x2 s) := by
  unfold execResumeDesc
  repeat' (first
      | with_reducible assumption | with_reducible apply OutHolds.mk | with_reducible apply State.dbCtl_spares
      | with_reducible apply State.Spares.ite)

theorem execSkipDesc_spares {X : Nat → Prop} {a s : State} (h : a.Spares X s) (x0 x1 x2) :
    OutHolds (a.Spares X) (execSkipDesc x0 x1 x2 s) := by
  unfold execSkipDesc
  repeat' (first
      | with_reducible assumption | with_reducible apply OutHolds.mk | with_reducible apply State.dbCtl_spares
      | with_reducible apply State.Spares.ite)

theorem execEnableInst_spares {X : Nat → Prop} {a s : State} (h : a.Spares X s) (x0 x1) :
    OutHolds (a.Spares X) (execEnableInst x0 x1 s) := by
  unfold execEnableInst
  repeat' (first
      | with_reducible assumption | with_reducible apply OutHolds.mk | with_reducible apply State.instCmd_spares
      | with_reducible apply State.Spares.ite)

theorem execQuiesceInst_spares {X : Nat → Prop} {a s : State} (h : a.Spares X s) (x0 x1 x2) :
    OutHolds (a.Spares X) (execQuiesceInst x0 x1 x2 s) := by
  unfold execQuiesceInst
  repeat' (first
      | with_reducible assumption | with_reducible apply OutHolds.mk | with_reducible apply State.instCmd_spares
      | with_reducible apply State.Spares.ite)

theorem execRunInst_spares {X : Nat → Prop} {a s : State} (h : a.Spares X s) (x0 x1) :
    OutHolds (a.Spares X) (execRunInst x0 x1 s) := by
  unfold execRunInst
  repeat' (first
      | with_reducible assumption | with_reducible apply OutHolds.mk | with_reducible apply State.instCmd_spares
      | with_reducible apply State.Spares.ite)

theorem execResetInst_spares {X : Nat → Prop} {a s : State} (h : a.Spares X s) (x0 x1) :
    OutHolds (a.Spares X) (execResetInst x0 x1 s) := by
  unfold execResetInst
  repeat' (first
      | with_reducible assumption | with_reducible apply OutHolds.mk | with_reducible apply State.instCmd_spares
      | with_reducible apply State.Spares.ite)

theorem execSaveInst_spares {X : Nat → Prop} {a s : State} (h : a.Spares X s) (x0 x1) :
    OutHolds (a.Spares X) (execSaveInst x0 x1 s) := by
  unfold execSaveInst
  repeat' (first
      | with_reducible assumption | with_reducible apply OutHolds.mk | with_reducible apply State.orWait_spares
      | with_reducible apply State.instCmd_spares | with_reducible apply State.Spares.ite)

theorem execRestoreInst_spares {X : Nat → Prop} {a s : State} (h : a.Spares X s) (x0 x1) :
    OutHolds (a.Spares X) (execRestoreInst x0 x1 s) := by
  unfold execRestoreInst
  repeat' (first
      | with_reducible assumption | with_reducible apply OutHolds.mk | with_reducible apply State.orWait_spares
      | with_reducible apply State.instCmd_spares | with_reducible apply State.Spares.ite)

theorem execInstCmdUndefined_spares {X : Nat → Prop} {a s : State} (h : a.Spares X s) (x0 x1 x2) :
    OutHolds (a.Spares X) (execInstCmdUndefined x0 x1 x2 s) := by
  unfold execInstCmdUndefined
  repeat' (first
      | with_reducible assumption | with_reducible apply OutHolds.mk | with_reducible apply State.instCmd_spares
      | with_reducible apply State.Spares.ite)

theorem execQuiesceComplete_spares {X : Nat → Prop} {a s : State} (h : a.Spares X s) (x0 x1) :
    OutHolds (a.Spares X) (execQuiesceComplete x0 x1 s) := by
  unfold execQuiesceComplete
  repeat' (first
      | with_reducible assumption | dsimp only | with_reducible apply OutHolds.mk | with_reducible apply State.modInst_spares
      | with_reducible apply State.Spares.ite)

theorem execChunkDispatch_spares {X : Nat → Prop} {a s : State} (h : a.Spares X s) (x0) :
    OutHolds (a.Spares X) (execChunkDispatch x0 s) := by
  unfold execChunkDispatch
  repeat' (first
      | with_reducible assumption | dsimp only | with_reducible apply OutHolds.mk | with_reducible apply State.orWait_spares
      | with_reducible apply State.sendPeers_spares | with_reducible apply State.modInst_spares
      | with_reducible apply State.modFn_spares | fail_if_no_progress (with_reducible apply State.Spares.upd)
      | with_reducible refine State.Spares.fst (by assumption) ?_ | with_reducible apply State.Spares.ite | split)

theorem execDescriptorStart_spares {X : Nat → Prop} {a s : State} (h : a.Spares X s) (x0 x1) :
    OutHolds (a.Spares X) (execDescriptorStart x0 x1 s) := by
  unfold execDescriptorStart
  repeat' (first
      | with_reducible assumption | dsimp only | with_reducible apply OutHolds.mk | with_reducible apply State.orWait_spares
      | with_reducible apply State.descBegin_spares | with_reducible apply State.instRead_spares
      | with_reducible apply State.postVec_spares | with_reducible apply State.modInst_spares
      | with_reducible apply State.stopFault_spares | with_reducible refine State.Spares.snd (by assumption) ?_
      | with_reducible apply State.Spares.ite | split)

theorem execChunkComplete_spares {X : Nat → Prop} {a s : State} (h : a.Spares X s) (x0 x1) :
    OutHolds (a.Spares X) (execChunkComplete x0 x1 s) := by
  unfold execChunkComplete
  repeat' (first
      | with_reducible assumption | intro _ | dsimp only | with_reducible apply OutHolds.mk
      | with_reducible apply State.orWait_spares | with_reducible apply State.modInst_spares
      | with_reducible apply State.chunkPlan_spares | with_reducible apply State.stopFault_spares
      | with_reducible apply State.cobPoison_spares | with_reducible apply State.writePiece_spares
      | with_reducible apply State.Spares.foldl | with_reducible refine State.Spares.snd (by assumption) ?_
      | with_reducible apply State.Spares.ite | split)

theorem execDescriptorCompletion_spares {X : Nat → Prop} {a s : State} (h : a.Spares X s) (x0 x1) :
    OutHolds (a.Spares X) (execDescriptorCompletion x0 x1 s) := by
  unfold execDescriptorCompletion
  repeat' (first
      | with_reducible assumption | dsimp only | with_reducible apply OutHolds.mk | with_reducible apply State.orWait_spares
      | with_reducible apply State.instWrite_spares | with_reducible apply State.postVec_spares
      | with_reducible apply State.modInst_spares | with_reducible apply State.stopFault_spares
      | with_reducible refine State.Spares.snd (by assumption) ?_ | with_reducible apply State.Spares.ite | split)

theorem execApertureWrite_spares {X : Nat → Prop} {a s : State} (h : a.Spares X s) (x0 x1 x2 x3 x4 x5 x6 x7) :
    OutHolds (a.Spares X) (execApertureWrite x0 x1 x2 x3 x4 x5 x6 x7 s) := by
  unfold execApertureWrite
  repeat' (first
      | with_reducible assumption | dsimp only | with_reducible apply OutHolds.mk | with_reducible apply State.emit_spares
      | with_reducible apply State.aperture_spares | with_reducible apply State.Spares.ite)

theorem execIbwCommit_spares {X : Nat → Prop} {a s : State} (h : a.Spares X s) (x0 x1) :
    OutHolds (a.Spares X) (execIbwCommit x0 x1 s) := by
  unfold execIbwCommit
  repeat' (first
      | with_reducible assumption | with_reducible apply OutHolds.mk | with_reducible apply State.modFn_spares
      | with_reducible apply State.Spares.ite)

theorem execIbwCommitPoint_spares {X : Nat → Prop} {a s : State} (h : a.Spares X s) (x0) :
    OutHolds (a.Spares X) (execIbwCommitPoint x0 s) := by
  unfold execIbwCommitPoint
  repeat' (first
      | with_reducible assumption | with_reducible apply OutHolds.mk | with_reducible apply State.modFn_spares
      | with_reducible apply State.Spares.ite)

theorem execFunctionContainment_spares {X : Nat → Prop} {a s : State} (h : a.Spares X s) (x0 x1 x2 x3) :
    OutHolds (a.Spares X) (execFunctionContainment x0 x1 x2 x3 s) := by
  unfold execFunctionContainment
  repeat' (first
      | with_reducible assumption | with_reducible apply OutHolds.mk | with_reducible apply State.orWait_spares
      | with_reducible apply State.contain_spares | with_reducible apply State.Spares.ite)

theorem execContainmentRelease_spares {X : Nat → Prop} {a s : State} (h : a.Spares X s) (x0) :
    OutHolds (a.Spares X) (execContainmentRelease x0 s) := by
  unfold execContainmentRelease
  repeat' (first
      | with_reducible assumption | with_reducible apply OutHolds.mk | with_reducible apply State.relRequest_spares
      | with_reducible apply State.Spares.ite)

theorem execContainmentReleaseEffect_spares {X : Nat → Prop} {a s : State} (h : a.Spares X s) (x0) :
    OutHolds (a.Spares X) (execContainmentReleaseEffect x0 s) := by
  unfold execContainmentReleaseEffect
  repeat' (first
      | with_reducible assumption | dsimp only | with_reducible apply OutHolds.mk
      | with_reducible apply State.msixFlush_spares | with_reducible apply State.cobRecord_spares
      | with_reducible apply State.modFn_spares | with_reducible apply State.Spares.ite)

theorem execPowerstateWrite_spares {X : Nat → Prop} {a s : State} (h : a.Spares X s) (x0 x1) :
    OutHolds (a.Spares X) (execPowerstateWrite x0 x1 s) := by
  unfold execPowerstateWrite
  repeat' (first
      | with_reducible assumption | with_reducible apply OutHolds.mk | with_reducible apply State.powerstate_spares
      | with_reducible apply State.Spares.ite)

theorem execPmeStatusClear_spares {X : Nat → Prop} {a s : State} (h : a.Spares X s) (x0) :
    OutHolds (a.Spares X) (execPmeStatusClear x0 s) := by
  unfold execPmeStatusClear
  repeat' (first
      | with_reducible assumption | with_reducible apply OutHolds.mk | with_reducible apply State.modFn_spares
      | with_reducible apply State.Spares.ite)

theorem execCommandRegisterWrite_spares {X : Nat → Prop} {a s : State} (h : a.Spares X s) (x0 x1) :
    OutHolds (a.Spares X) (execCommandRegisterWrite x0 x1 s) := by
  unfold execCommandRegisterWrite
  repeat' (first
      | with_reducible assumption | with_reducible apply OutHolds.mk | with_reducible apply State.orWait_spares
      | with_reducible apply State.commandWrite_spares | with_reducible apply State.Spares.ite)

theorem execMsixEntryUnmask_spares {X : Nat → Prop} {a s : State} (h : a.Spares X s) (x0 x1) :
    OutHolds (a.Spares X) (execMsixEntryUnmask x0 x1 s) := by
  unfold execMsixEntryUnmask
  repeat' (first
      | with_reducible assumption | with_reducible apply OutHolds.mk | with_reducible apply State.msixFlush_spares
      | with_reducible apply State.modFn_spares | with_reducible apply State.Spares.ite)

theorem execLinkTraining_spares {X : Nat → Prop} {a s : State} (h : a.Spares X s) (x0 x1 x2 x3 x4 x5) :
    OutHolds (a.Spares X) (execLinkTraining x0 x1 x2 x3 x4 x5 s) := by
  unfold execLinkTraining
  repeat' (first
      | with_reducible assumption | dsimp only | with_reducible apply OutHolds.mk | with_reducible apply State.modPort_spares
      | with_reducible apply State.portRecord_spares | with_reducible apply State.Spares.ite)

theorem execTagQuarantineEnd_spares {X : Nat → Prop} {a s : State} (h : a.Spares X s) (x0 x1 x2) :
    OutHolds (a.Spares X) (execTagQuarantineEnd x0 x1 x2 s) := by
  unfold execTagQuarantineEnd
  repeat' (first
      | with_reducible assumption | with_reducible apply OutHolds.mk | with_reducible apply State.modPort_spares
      | with_reducible apply State.Spares.ite)

theorem execCrsRetry_spares {X : Nat → Prop} {a s : State} (h : a.Spares X s) (x0 x1 x2) :
    OutHolds (a.Spares X) (execCrsRetry x0 x1 x2 s) := by
  unfold execCrsRetry
  repeat' (first
      | with_reducible assumption | with_reducible apply OutHolds.mk | with_reducible apply State.emit_spares
      | with_reducible apply State.modPort_spares | with_reducible apply State.Spares.ite | split)

theorem execPcieMessageReceived_spares {X : Nat → Prop} {a s : State} (h : a.Spares X s) (x0 x1 x2 x3) :
    OutHolds (a.Spares X) (execPcieMessageReceived x0 x1 x2 x3 s) := by
  unfold execPcieMessageReceived
  repeat' (first
      | with_reducible assumption | with_reducible apply OutHolds.mk | with_reducible apply State.portRecord_spares
      | with_reducible apply State.modPort_spares | with_reducible apply State.Spares.ite | split)

theorem execPmeMessageReceived_spares {X : Nat → Prop} {a s : State} (h : a.Spares X s) (x0 x1 x2) :
    OutHolds (a.Spares X) (execPmeMessageReceived x0 x1 x2 s) := by
  unfold execPmeMessageReceived
  repeat' (first
      | with_reducible assumption | dsimp only | with_reducible apply OutHolds.mk | with_reducible apply State.modPort_spares
      | with_reducible apply State.post_spares | with_reducible apply State.Spares.ite)

theorem execLinkErrorCorrected_spares {X : Nat → Prop} {a s : State} (h : a.Spares X s) (x0 x1 x2) :
    OutHolds (a.Spares X) (execLinkErrorCorrected x0 x1 x2 s) := by
  unfold execLinkErrorCorrected
  repeat' (first
      | with_reducible assumption | dsimp only | with_reducible apply OutHolds.mk | with_reducible apply State.aerPost_spares
      | with_reducible apply State.modPort_spares | with_reducible apply State.portRecord_spares
      | with_reducible apply State.Spares.ite)

theorem execDpcTriggerStatusClear_spares {X : Nat → Prop} {a s : State} (h : a.Spares X s) (x0 x1) :
    OutHolds (a.Spares X) (execDpcTriggerStatusClear x0 x1 s) := by
  unfold execDpcTriggerStatusClear
  repeat' (first
      | with_reducible assumption | with_reducible apply OutHolds.mk | with_reducible apply State.dpcClear_spares
      | with_reducible apply State.Spares.ite)

theorem execDmaRequest_spares {X : Nat → Prop} {a s : State} (h : a.Spares X s) (x0 x1 x2 x3 x4 x5) :
    OutHolds (a.Spares X) (execDmaRequest x0 x1 x2 x3 x4 x5 s) := by
  unfold execDmaRequest
  repeat' (first
      | with_reducible assumption | with_reducible apply OutHolds.mk | with_reducible apply State.orWait_spares
      | with_reducible apply State.dmaAnswer_spares | with_reducible apply State.dmaUntranslated_spares
      | with_reducible apply State.Spares.ite)

theorem execTranslatedRequest_spares {X : Nat → Prop} {a s : State} (h : a.Spares X s) (x0 x1 x2 x3 x4 x5) :
    OutHolds (a.Spares X) (execTranslatedRequest x0 x1 x2 x3 x4 x5 s) := by
  unfold execTranslatedRequest
  repeat' (first
      | with_reducible assumption | with_reducible apply OutHolds.mk | with_reducible apply State.orWait_spares
      | with_reducible apply State.dmaAnswer_spares | with_reducible apply State.dmaTranslated_spares
      | with_reducible apply State.Spares.ite)

theorem execAtsTranslationRequest_spares {X : Nat → Prop} {a s : State} (h : a.Spares X s) (x0 x1 x2 x3) :
    OutHolds (a.Spares X) (execAtsTranslationRequest x0 x1 x2 x3 s) := by
  unfold execAtsTranslationRequest
  repeat' (first
      | with_reducible assumption | with_reducible apply OutHolds.mk | with_reducible apply State.orWait_spares
      | with_reducible apply State.dmaContext_spares | with_reducible apply State.emit_spares
      | with_reducible apply State.dmaFault_spares | with_reducible apply State.portRecord_spares
      | with_reducible apply State.ioRegime_spares | with_reducible apply State.ioLookup_spares
      | with_reducible refine State.Spares.snd (by assumption) ?_ | with_reducible apply State.Spares.ite | split)

theorem execPageRequest_spares {X : Nat → Prop} {a s : State} (h : a.Spares X s) (x0 x1 x2 x3 x4 x5 x6) :
    OutHolds (a.Spares X) (execPageRequest x0 x1 x2 x3 x4 x5 x6 s) := by
  unfold execPageRequest
  repeat' (first
      | with_reducible assumption | dsimp only | with_reducible apply OutHolds.mk | with_reducible apply State.orWait_spares
      | with_reducible apply State.portRecord_spares | with_reducible apply State.modPort_spares
      | with_reducible apply State.dmaContext_spares | with_reducible apply State.iotEvent_spares
      | with_reducible apply State.emit_spares | with_reducible refine State.Spares.snd (by assumption) ?_
      | with_reducible apply State.Spares.ite | split)

theorem execDownstreamRequest_spares {X : Nat → Prop} {a s : State} (h : a.Spares X s) (x0 x1 x2 x3 x4 x5 x6 x7 x8) :
    OutHolds (a.Spares X) (execDownstreamRequest x0 x1 x2 x3 x4 x5 x6 x7 x8 s) := by
  unfold execDownstreamRequest
  repeat' (first
      | with_reducible assumption | dsimp only | with_reducible apply OutHolds.mk | with_reducible apply State.orWait_spares
      | with_reducible apply State.portRecord_spares | with_reducible apply State.aerError_spares
      | with_reducible apply State.emit_spares | with_reducible apply State.dmaUntranslated_spares
      | with_reducible apply State.dmaAnswer_spares | with_reducible apply State.Spares.ite | split)

theorem execRds_spares {X : Nat → Prop} {a s : State} (h : a.Spares X s) (x0 x1 x2 x3 x4 x5) (hcx0 : ¬ X x0) :
    OutHolds (a.Spares X) (execRds x0 x1 x2 x3 x4 x5 s) := by
  unfold execRds
  repeat' (first
      | with_reducible assumption | dsimp only | with_reducible apply OutHolds.mk
      | with_reducible apply State.homeRequest_spares | with_reducible apply State.Spares.ite)

theorem execRdx_spares {X : Nat → Prop} {a s : State} (h : a.Spares X s) (x0 x1 x2 x3 x4 x5) (hcx0 : ¬ X x0) :
    OutHolds (a.Spares X) (execRdx x0 x1 x2 x3 x4 x5 s) := by
  unfold execRdx
  repeat' (first
      | with_reducible assumption | dsimp only | with_reducible apply OutHolds.mk
      | with_reducible apply State.homeRequest_spares | with_reducible apply State.Spares.ite)

theorem execUpg_spares {X : Nat → Prop} {a s : State} (h : a.Spares X s) (x0 x1) (hcx0 : ¬ X x0) :
    OutHolds (a.Spares X) (execUpg x0 x1 s) := by
  unfold execUpg
  repeat' (first
      | with_reducible assumption | dsimp only | with_reducible apply OutHolds.mk
      | with_reducible apply State.homeRequest_spares | with_reducible apply State.Spares.ite | split)

theorem execRdz_spares {X : Nat → Prop} {a s : State} (h : a.Spares X s) (x0 x1 x2 x3) (hcx0 : ¬ X x0) :
    OutHolds (a.Spares X) (execRdz x0 x1 x2 x3 s) := by
  unfold execRdz
  repeat' (first
      | with_reducible assumption | dsimp only | with_reducible apply OutHolds.mk
      | with_reducible apply State.homeRequest_spares | with_reducible apply State.Spares.ite)

theorem execWb_spares {X : Nat → Prop} {a s : State} (h : a.Spares X s) (x0 x1) (hcx0 : ¬ X x0) :
    OutHolds (a.Spares X) (execWb x0 x1 s) := by
  unfold execWb
  repeat' (first | with_reducible assumption | with_reducible apply OutHolds.mk | with_reducible apply State.vcRelease_spares)

theorem execEvn_spares {X : Nat → Prop} {a s : State} (h : a.Spares X s) (x0 x1) (hcx0 : ¬ X x0) :
    OutHolds (a.Spares X) (execEvn x0 x1 s) := by
  unfold execEvn
  repeat' (first | with_reducible assumption | with_reducible apply OutHolds.mk | with_reducible apply State.vcRelease_spares)

theorem execCrd_spares {X : Nat → Prop} {a s : State} (h : a.Spares X s) (x0 x1 x2) :
    OutHolds (a.Spares X) (execCrd x0 x1 x2 s) := by
  unfold execCrd
  repeat' (first
      | with_reducible assumption | with_reducible apply OutHolds.mk | with_reducible apply State.crd_spares
      | with_reducible apply State.Spares.ite)

theorem execCwr_spares {X : Nat → Prop} {a s : State} (h : a.Spares X s) (x0 x1 x2 x3) :
    OutHolds (a.Spares X) (execCwr x0 x1 x2 x3 s) := by
  unfold execCwr
  repeat' (first
      | with_reducible assumption | with_reducible apply OutHolds.mk | with_reducible apply State.cwr_spares
      | with_reducible apply State.Spares.ite)

theorem execGrantAcknowledgement_spares {X : Nat → Prop} {a s : State} (h : a.Spares X s) (x0 x1) (hcx0 : ¬ X x0) :
    OutHolds (a.Spares X) (execGrantAcknowledgement x0 x1 s) := by
  unfold execGrantAcknowledgement
  repeat' (first
      | with_reducible assumption | with_reducible apply OutHolds.mk | with_reducible apply State.ackGrant_spares
      | with_reducible apply State.Spares.ite | split)

theorem execForwardShared_spares {X : Nat → Prop} {a s : State} (h : a.Spares X s) (x0 x1) (hcx0 : ¬ X x0) :
    OutHolds (a.Spares X) (execForwardShared x0 x1 s) := by
  unfold execForwardShared
  repeat' (first
      | with_reducible assumption | with_reducible apply OutHolds.mk | with_reducible apply State.forward_spares
      | with_reducible apply State.Spares.ite | split)

theorem execForwardExclusive_spares {X : Nat → Prop} {a s : State} (h : a.Spares X s) (x0 x1) (hcx0 : ¬ X x0) :
    OutHolds (a.Spares X) (execForwardExclusive x0 x1 s) := by
  unfold execForwardExclusive
  repeat' (first
      | with_reducible assumption | with_reducible apply OutHolds.mk | with_reducible apply State.forward_spares
      | with_reducible apply State.Spares.ite | split)

theorem execInvalidation_spares {X : Nat → Prop} {a s : State} (h : a.Spares X s) (x0 x1) (hcx0 : ¬ X x0) :
    OutHolds (a.Spares X) (execInvalidation x0 x1 s) := by
  unfold execInvalidation
  repeat' (first
      | with_reducible assumption | with_reducible apply OutHolds.mk | with_reducible apply State.invalidate_spares
      | with_reducible apply State.Spares.ite | split)

theorem execSlcWaymaskWrite_spares {X : Nat → Prop} {a s : State} (h : a.Spares X s) (x0 x1) :
    OutHolds (a.Spares X) (execSlcWaymaskWrite x0 x1 s) := by
  unfold execSlcWaymaskWrite
  repeat' (first
      | with_reducible assumption | with_reducible apply OutHolds.mk
      | fail_if_no_progress (with_reducible apply State.Spares.upd) | with_reducible apply State.Spares.ite)

theorem execCacheWalkComplete_spares {X : Nat → Prop} {a s : State} (h : a.Spares X s) (x0) (hcx0 : ¬ X x0) :
    OutHolds (a.Spares X) (execCacheWalkComplete x0 s) := by
  unfold execCacheWalkComplete
  repeat' (first
      | with_reducible assumption | with_reducible apply OutHolds.mk
      | ((with_reducible refine State.Spares.modNe ?_ ?_); on_goal 2 => assumption)
      | with_reducible apply State.walkRelease_spares | with_reducible apply State.walkClean_spares
      | with_reducible apply State.Spares.ite | split)

theorem execWindowLockComplete_spares {X : Nat → Prop} {a s : State} (h : a.Spares X s) (x0 x1) (hcx0 : ¬ X x0) :
    OutHolds (a.Spares X) (execWindowLockComplete x0 x1 s) := by
  unfold execWindowLockComplete
  repeat' (first
      | with_reducible assumption | intro _ | dsimp only | with_reducible apply OutHolds.mk
      | with_reducible apply State.orWait_spares | ((with_reducible refine State.Spares.modNe ?_ ?_); on_goal 2 => assumption)
      | with_reducible apply State.lockData_spares | with_reducible apply State.lockCode_spares
      | with_reducible apply State.Spares.foldl | with_reducible apply State.Spares.ite)

theorem execStreamPrefetch_spares {X : Nat → Prop} {a s : State} (h : a.Spares X s) (x0) (hcx0 : ¬ X x0) :
    OutHolds (a.Spares X) (execStreamPrefetch x0 s) := by
  unfold execStreamPrefetch
  repeat' (first
      | with_reducible assumption | intro _ | dsimp only | with_reducible apply OutHolds.mk
      | with_reducible apply State.orWait_spares | with_reducible apply State.prefetch_spares
      | with_reducible apply State.Spares.foldl | with_reducible apply State.Spares.ite)

theorem execSideBufferEntryExpire_spares {X : Nat → Prop} {a s : State} (h : a.Spares X s) (x0 x1) (hcx0 : ¬ X x0) :
    OutHolds (a.Spares X) (execSideBufferEntryExpire x0 x1 s) := by
  unfold execSideBufferEntryExpire
  repeat' (first
      | with_reducible assumption | with_reducible apply OutHolds.mk | with_reducible apply State.release_spares
      | ((with_reducible refine State.Spares.modNe ?_ ?_); on_goal 2 => assumption) | with_reducible apply State.Spares.ite
      | split)

theorem execCoreWake_spares {X : Nat → Prop} {a s : State} (h : a.Spares X s) (x0) (hcx0 : ¬ X x0) :
    OutHolds (a.Spares X) (execCoreWake x0 s) := by
  unfold execCoreWake
  repeat' (first
      | with_reducible assumption | dsimp only | with_reducible apply OutHolds.mk | with_reducible apply State.wakeCore_spares
      | with_reducible apply State.Spares.ite)

theorem execPadholdRel_spares {X : Nat → Prop} {a s : State} (h : a.Spares X s) (x0) :
    OutHolds (a.Spares X) (execPadholdRel x0 s) := by
  unfold execPadholdRel
  repeat' (first
      | with_reducible assumption | with_reducible apply OutHolds.mk | with_reducible apply State.releasePads_spares
      | with_reducible apply State.Spares.ite)

theorem execStackWake_spares {X : Nat → Prop} {a s : State} (h : a.Spares X s) (x0 x1) :
    OutHolds (a.Spares X) (execStackWake x0 x1 s) := by
  unfold execStackWake
  repeat' (first
      | with_reducible assumption | with_reducible apply OutHolds.mk | with_reducible apply State.wakeDom_spares
      | with_reducible apply State.Spares.ite)

theorem execTelemetrySample_spares {X : Nat → Prop} {a s : State} (h : a.Spares X s) (x0 x1 x2) :
    OutHolds (a.Spares X) (execTelemetrySample x0 x1 x2 s) := by
  unfold execTelemetrySample
  repeat' (first
      | with_reducible assumption | dsimp only | with_reducible apply OutHolds.mk | with_reducible apply State.post_spares
      | fail_if_no_progress (with_reducible apply State.Spares.upd) | with_reducible apply State.Spares.ite)

theorem execMemRead_spares {X : Nat → Prop} {a s : State} (h : a.Spares X s) (x0 x1 x2 x3 x4) :
    OutHolds (a.Spares X) (execMemRead x0 x1 x2 x3 x4 s) := by
  unfold execMemRead
  repeat' (first
      | with_reducible assumption | dsimp only | with_reducible apply OutHolds.mk
      | with_reducible apply State.deliverRead_spares | with_reducible apply State.mergeClose_spares
      | with_reducible apply State.chanTouch_spares | with_reducible apply State.demandRead_spares
      | with_reducible apply State.setDrains_spares | with_reducible apply State.modChan_spares
      | with_reducible apply State.Spares.ite)

theorem execDramReread_spares {X : Nat → Prop} {a s : State} (h : a.Spares X s) (x0 x1) :
    OutHolds (a.Spares X) (execDramReread x0 x1 s) := by
  unfold execDramReread
  repeat' (first
      | with_reducible assumption | dsimp only | with_reducible apply OutHolds.mk | with_reducible apply State.modChan_spares
      | with_reducible apply State.scrubCell_spares | with_reducible apply State.demandRead_spares
      | with_reducible apply State.Spares.ite | split)

theorem execMemWrite_spares {X : Nat → Prop} {a s : State} (h : a.Spares X s) (x0 x1 x2 x3 x4 x5) :
    OutHolds (a.Spares X) (execMemWrite x0 x1 x2 x3 x4 x5 s) := by
  unfold execMemWrite
  repeat' (first
      | with_reducible assumption | dsimp only | with_reducible apply OutHolds.mk
      | with_reducible apply State.chanTouch_spares | with_reducible apply State.modChan_spares
      | with_reducible apply State.setDrains_spares | with_reducible apply State.Spares.ite)

theorem execPartialWrite_spares {X : Nat → Prop} {a s : State} (h : a.Spares X s) (x0 x1 x2 x3 x4) :
    OutHolds (a.Spares X) (execPartialWrite x0 x1 x2 x3 x4 s) := by
  unfold execPartialWrite
  repeat' (first
      | with_reducible assumption | with_reducible apply OutHolds.mk | with_reducible apply State.memPartial_spares
      | with_reducible apply State.Spares.ite)

theorem execMergeEntryClose_spares {X : Nat → Prop} {a s : State} (h : a.Spares X s) (x0 x1 x2) :
    OutHolds (a.Spares X) (execMergeEntryClose x0 x1 x2 s) := by
  unfold execMergeEntryClose
  repeat' (first
      | with_reducible assumption | dsimp only | with_reducible apply OutHolds.mk
      | with_reducible apply State.mergeClose_spares | with_reducible apply State.countCorrected_spares
      | with_reducible apply State.memWrite_spares | with_reducible apply State.modChan_spares
      | with_reducible apply State.declareBad_spares | with_reducible apply State.Spares.ite | split)

theorem execCommandSlot_spares {X : Nat → Prop} {a s : State} (h : a.Spares X s) (x0) :
    OutHolds (a.Spares X) (execCommandSlot x0 s) := by
  unfold execCommandSlot
  repeat' (first
      | with_reducible assumption | with_reducible apply OutHolds.mk | with_reducible apply State.slot_spares
      | with_reducible apply State.Spares.ite)

theorem execRowIdleClose_spares {X : Nat → Prop} {a s : State} (h : a.Spares X s) (x0 x1) :
    OutHolds (a.Spares X) (execRowIdleClose x0 x1 s) := by
  unfold execRowIdleClose
  repeat' (first
      | with_reducible assumption | with_reducible apply OutHolds.mk | with_reducible apply State.modChan_spares
      | with_reducible apply State.Spares.ite)

theorem execRefreshBank_spares {X : Nat → Prop} {a s : State} (h : a.Spares X s) (x0 x1) :
    OutHolds (a.Spares X) (execRefreshBank x0 x1 s) := by
  unfold execRefreshBank
  repeat' (first
      | with_reducible assumption | with_reducible apply OutHolds.mk | with_reducible apply State.modChan_spares
      | with_reducible apply State.Spares.ite)

theorem execCalibrationWindowOpen_spares {X : Nat → Prop} {a s : State} (h : a.Spares X s) (x0) :
    OutHolds (a.Spares X) (execCalibrationWindowOpen x0 s) := by
  unfold execCalibrationWindowOpen
  repeat' (first
      | with_reducible assumption | with_reducible apply OutHolds.mk | with_reducible apply State.modChan_spares
      | with_reducible apply State.Spares.ite)

theorem execCalibrationWindowClose_spares {X : Nat → Prop} {a s : State} (h : a.Spares X s) (x0) :
    OutHolds (a.Spares X) (execCalibrationWindowClose x0 s) := by
  unfold execCalibrationWindowClose
  repeat' (first
      | with_reducible assumption | with_reducible apply OutHolds.mk | with_reducible apply State.modChan_spares
      | with_reducible apply State.Spares.ite)

theorem execWriteCrcError_spares {X : Nat → Prop} {a s : State} (h : a.Spares X s) (x0 x1) :
    OutHolds (a.Spares X) (execWriteCrcError x0 x1 s) := by
  unfold execWriteCrcError
  repeat' (first
      | with_reducible assumption | dsimp only | with_reducible apply OutHolds.mk | with_reducible apply State.modChan_spares
      | with_reducible apply State.post_spares | with_reducible apply State.linkRecord_spares
      | with_reducible apply State.dramStore_spares | with_reducible apply State.startRetrain_spares
      | with_reducible apply State.Spares.ite)

theorem execRetrainChan_spares {X : Nat → Prop} {a s : State} (h : a.Spares X s) (x0) :
    OutHolds (a.Spares X) (execRetrainChan x0 s) := by
  unfold execRetrainChan
  repeat' (first
      | with_reducible assumption | with_reducible apply OutHolds.mk | with_reducible apply State.startRetrain_spares
      | with_reducible apply State.Spares.ite)

theorem execRetrainComplete_spares {X : Nat → Prop} {a s : State} (h : a.Spares X s) (x0 x1) :
    OutHolds (a.Spares X) (execRetrainComplete x0 x1 s) := by
  unfold execRetrainComplete
  repeat' (first
      | with_reducible assumption | dsimp only | with_reducible apply OutHolds.mk
      | with_reducible apply State.linkRecord_spares | with_reducible apply State.modChan_spares
      | with_reducible apply State.fenceChan_spares | with_reducible apply State.Spares.ite)

theorem execChannelIdleRet_spares {X : Nat → Prop} {a s : State} (h : a.Spares X s) (x0) :
    OutHolds (a.Spares X) (execChannelIdleRet x0 s) := by
  unfold execChannelIdleRet
  repeat' (first
      | with_reducible assumption | dsimp only | with_reducible apply OutHolds.mk | with_reducible apply State.modDom_spares
      | with_reducible apply State.modChan_spares | with_reducible apply State.Spares.ite)

theorem execChannelWake_spares {X : Nat → Prop} {a s : State} (h : a.Spares X s) (x0) :
    OutHolds (a.Spares X) (execChannelWake x0 s) := by
  unfold execChannelWake
  repeat' (first
      | with_reducible assumption | with_reducible apply OutHolds.mk | with_reducible apply State.chanTouch_spares
      | with_reducible apply State.Spares.ite)

theorem execTrainChan_spares {X : Nat → Prop} {a s : State} (h : a.Spares X s) (x0 x1) :
    OutHolds (a.Spares X) (execTrainChan x0 x1 s) := by
  unfold execTrainChan
  repeat' (first
      | with_reducible assumption | dsimp only | with_reducible apply OutHolds.mk
      | with_reducible apply State.dimmRecords_spares | with_reducible apply State.modChan_spares
      | with_reducible apply State.fallbacks_spares | with_reducible apply State.layOut_spares
      | with_reducible apply State.applyRows_spares | with_reducible apply State.restoreMarks_spares
      | with_reducible apply State.Spares.ite | split)

theorem execFillComplete_spares {X : Nat → Prop} {a s : State} (h : a.Spares X s) :
    OutHolds (a.Spares X) (execFillComplete s) := by
  unfold execFillComplete
  repeat' (first
      | with_reducible assumption | intro _ | dsimp only | with_reducible apply OutHolds.mk
      | with_reducible apply State.modChan_spares | fail_if_no_progress (with_reducible apply State.Spares.upd)
      | with_reducible apply State.Spares.foldl | with_reducible apply State.Spares.ite)

theorem execScrubPassStart_spares {X : Nat → Prop} {a s : State} (h : a.Spares X s) (x0) :
    OutHolds (a.Spares X) (execScrubPassStart x0 s) := by
  unfold execScrubPassStart
  repeat' (first
      | with_reducible assumption | dsimp only | with_reducible apply OutHolds.mk | with_reducible apply State.modChan_spares
      | with_reducible apply State.Spares.ite)

theorem execScrubRead_spares {X : Nat → Prop} {a s : State} (h : a.Spares X s) (x0 x1) :
    OutHolds (a.Spares X) (execScrubRead x0 x1 s) := by
  unfold execScrubRead
  repeat' (first
      | with_reducible assumption | with_reducible apply OutHolds.mk | with_reducible apply State.scrubNext_spares
      | with_reducible apply State.Spares.ite)

theorem execDeviceBankBucketLeak_spares {X : Nat → Prop} {a s : State} (h : a.Spares X s) (x0) :
    OutHolds (a.Spares X) (execDeviceBankBucketLeak x0 s) := by
  unfold execDeviceBankBucketLeak
  repeat' (first
      | with_reducible assumption | dsimp only | with_reducible apply OutHolds.mk | with_reducible apply State.modChan_spares
      | with_reducible apply State.Spares.ite)

theorem execMarkConfirm_spares {X : Nat → Prop} {a s : State} (h : a.Spares X s) (x0) :
    OutHolds (a.Spares X) (execMarkConfirm x0 s) := by
  unfold execMarkConfirm
  repeat' (first
      | with_reducible assumption | dsimp only | with_reducible apply OutHolds.mk
      | with_reducible apply State.chanRecord_spares | with_reducible apply State.modChan_spares
      | with_reducible apply State.addMark_spares | with_reducible apply State.Spares.ite)

theorem execProposalReject_spares {X : Nat → Prop} {a s : State} (h : a.Spares X s) (x0) :
    OutHolds (a.Spares X) (execProposalReject x0 s) := by
  unfold execProposalReject
  repeat' (first
      | with_reducible assumption | with_reducible apply OutHolds.mk | with_reducible apply State.modChan_spares
      | with_reducible apply State.Spares.ite)

theorem execRowRepairLive_spares {X : Nat → Prop} {a s : State} (h : a.Spares X s) (x0 x1 x2) :
    OutHolds (a.Spares X) (execRowRepairLive x0 x1 x2 s) := by
  unfold execRowRepairLive
  repeat' (first
      | with_reducible assumption | intro _ | dsimp only | with_reducible apply OutHolds.mk
      | with_reducible apply State.modChan_spares | with_reducible apply State.dramStore_spares
      | with_reducible apply State.chanRecord_spares | fail_if_no_progress (with_reducible apply State.Spares.upd)
      | with_reducible apply State.Spares.foldl | with_reducible apply State.Spares.ite | split)

theorem execKeyLoad_spares {X : Nat → Prop} {a s : State} (h : a.Spares X s) :
    OutHolds (a.Spares X) (execKeyLoad s) := by
  unfold execKeyLoad
  repeat' (first
      | with_reducible assumption | with_reducible apply OutHolds.mk | with_reducible apply State.keyCommand_spares
      | with_reducible apply State.Spares.ite)

theorem execKeyGenerate_spares {X : Nat → Prop} {a s : State} (h : a.Spares X s) :
    OutHolds (a.Spares X) (execKeyGenerate s) := by
  unfold execKeyGenerate
  repeat' (first
      | with_reducible assumption | with_reducible apply OutHolds.mk | with_reducible apply State.keyCommand_spares
      | with_reducible apply State.Spares.ite)

theorem execKeyNull_spares {X : Nat → Prop} {a s : State} (h : a.Spares X s) :
    OutHolds (a.Spares X) (execKeyNull s) := by
  unfold execKeyNull
  repeat' (first
      | with_reducible assumption | with_reducible apply OutHolds.mk | with_reducible apply State.keyCommand_spares
      | with_reducible apply State.Spares.ite)

theorem execKeyCommandComplete_spares {X : Nat → Prop} {a s : State} (h : a.Spares X s) :
    OutHolds (a.Spares X) (execKeyCommandComplete s) := by
  unfold execKeyCommandComplete
  repeat' (first
      | with_reducible assumption | intro _ | dsimp only | with_reducible apply OutHolds.mk
      | with_reducible apply State.mergeClose_spares | fail_if_no_progress (with_reducible apply State.Spares.upd)
      | with_reducible apply State.Spares.foldl | with_reducible apply State.Spares.ite | split)

theorem execRouterPost_spares {X : Nat → Prop} {a s : State} (h : a.Spares X s) (x0) :
    OutHolds (a.Spares X) (execRouterPost x0 s) := by
  unfold execRouterPost
  repeat' (first
      | with_reducible assumption | with_reducible apply OutHolds.mk | with_reducible apply State.post_spares
      | with_reducible apply State.Spares.ite)

theorem execMsiMessage_spares {X : Nat → Prop} {a s : State} (h : a.Spares X s) (x0 x1 x2 x3) :
    OutHolds (a.Spares X) (execMsiMessage x0 x1 x2 x3 s) := by
  unfold execMsiMessage
  repeat' (first
      | with_reducible assumption | with_reducible apply OutHolds.mk | with_reducible apply State.message_spares
      | with_reducible apply State.Spares.ite)

theorem execHeldPostDelivery_spares {X : Nat → Prop} {a s : State} (h : a.Spares X s) (x0 x1) :
    OutHolds (a.Spares X) (execHeldPostDelivery x0 x1 s) := by
  unfold execHeldPostDelivery
  repeat' (first
      | with_reducible assumption | with_reducible apply OutHolds.mk | with_reducible apply State.deliverHeld_spares
      | with_reducible apply State.Spares.ite)

theorem execRouteWrite_spares {X : Nat → Prop} {a s : State} (h : a.Spares X s) (x0 x1 x2) :
    OutHolds (a.Spares X) (execRouteWrite x0 x1 x2 s) := by
  unfold execRouteWrite
  repeat' (first
      | with_reducible assumption | with_reducible apply OutHolds.mk | with_reducible apply State.writeRoute_spares
      | with_reducible apply State.Spares.ite)

theorem execLogRecordWrite_spares {X : Nat → Prop} {a s : State} (h : a.Spares X s) (x0 x1) :
    OutHolds (a.Spares X) (execLogRecordWrite x0 x1 s) := by
  unfold execLogRecordWrite
  repeat' (first
      | with_reducible assumption | with_reducible apply OutHolds.mk | with_reducible apply State.logRecord_spares
      | with_reducible apply State.Spares.ite)

theorem execLogHtailWrite_spares {X : Nat → Prop} {a s : State} (h : a.Spares X s) (x0 x1) :
    OutHolds (a.Spares X) (execLogHtailWrite x0 x1 s) := by
  unfold execLogHtailWrite
  repeat' (first
      | with_reducible assumption | with_reducible apply OutHolds.mk | with_reducible apply State.modLog_spares
      | with_reducible apply State.Spares.ite)

theorem execLogFldPointerWrite_spares {X : Nat → Prop} {a s : State} (h : a.Spares X s) (x0 x1) :
    OutHolds (a.Spares X) (execLogFldPointerWrite x0 x1 s) := by
  unfold execLogFldPointerWrite
  repeat' (first
      | with_reducible assumption | with_reducible apply OutHolds.mk | with_reducible apply State.modLog_spares
      | with_reducible apply State.Spares.ite | split)

theorem execDieLinkFlitReceive_spares {X : Nat → Prop} {a s : State} (h : a.Spares X s) (x0 x1 x2) :
    OutHolds (a.Spares X) (execDieLinkFlitReceive x0 x1 x2 s) := by
  unfold execDieLinkFlitReceive
  repeat' (first
      | with_reducible assumption | dsimp only | with_reducible apply OutHolds.mk
      | with_reducible apply State.modRegion_spares | with_reducible apply State.record_spares
      | fail_if_no_progress (with_reducible apply State.Spares.upd) | with_reducible apply State.Spares.ite)

theorem execLeakyBucketLeak_spares {X : Nat → Prop} {a s : State} (h : a.Spares X s) (x0) :
    OutHolds (a.Spares X) (execLeakyBucketLeak x0 s) := by
  unfold execLeakyBucketLeak
  repeat' (first
      | with_reducible assumption | with_reducible apply OutHolds.mk | with_reducible apply State.modBlock_spares
      | with_reducible apply State.modRegion_spares | with_reducible apply State.modChan_spares
      | with_reducible apply State.modPort_spares | with_reducible apply State.Spares.ite | split)

theorem execMorningRestartComplete_spares {X : Nat → Prop} {a s : State} (h : a.Spares X s) (x0) :
    OutHolds (a.Spares X) (execMorningRestartComplete x0 s) := by
  unfold execMorningRestartComplete
  repeat' (first
      | with_reducible assumption | with_reducible apply OutHolds.mk | with_reducible apply State.morningBack_spares
      | with_reducible apply State.Spares.ite)

theorem execPllLock_spares {X : Nat → Prop} {a s : State} (h : a.Spares X s) :
    OutHolds (a.Spares X) (execPllLock s) := by
  unfold execPllLock
  repeat' (first
      | with_reducible assumption | intro _ | dsimp only | with_reducible apply OutHolds.mk
      | with_reducible apply State.modDom_spares | with_reducible apply State.lbistAtStart_spares
      | fail_if_no_progress (with_reducible apply State.Spares.upd) | with_reducible apply State.Spares.foldl
      | with_reducible apply State.Spares.ite)

theorem execPhaseOverrun_spares {X : Nat → Prop} {a s : State} (h : a.Spares X s) :
    OutHolds (a.Spares X) (execPhaseOverrun s) := by
  unfold execPhaseOverrun
  repeat' (first
      | with_reducible assumption | with_reducible apply OutHolds.mk | with_reducible apply State.record_spares
      | with_reducible apply State.Spares.ite)

theorem execHandover_spares {X : Nat → Prop} {a s : State} (h : a.Spares X s) :
    OutHolds (a.Spares X) (execHandover s) := by
  unfold execHandover
  repeat' (first | with_reducible assumption | with_reducible apply OutHolds.mk | with_reducible apply State.handover_spares)

theorem execReleaseBoot_spares {X : Nat → Prop} {a s : State} (h : a.Spares X s) :
    OutHolds (a.Spares X) (execReleaseBoot s) := by
  unfold execReleaseBoot
  repeat' (first
      | with_reducible assumption | with_reducible apply OutHolds.mk | with_reducible apply State.releasePhase_spares)

theorem execLockBoot_spares {X : Nat → Prop} {a s : State} (h : a.Spares X s) :
    OutHolds (a.Spares X) (execLockBoot s) := by
  unfold execLockBoot
  repeat' (first
      | with_reducible assumption | with_reducible apply OutHolds.mk | with_reducible apply State.bootLock_spares
      | with_reducible apply State.Spares.ite)

theorem execBootLockTimeout_spares {X : Nat → Prop} {a s : State} (h : a.Spares X s) :
    OutHolds (a.Spares X) (execBootLockTimeout s) := by
  unfold execBootLockTimeout
  repeat' (first
      | with_reducible assumption | with_reducible apply OutHolds.mk | with_reducible apply State.modBoot_spares
      | with_reducible apply State.Spares.ite)

theorem execStartDevice_spares {X : Nat → Prop} {a s : State} (h : a.Spares X s) :
    OutHolds (a.Spares X) (execStartDevice s) := by
  unfold execStartDevice
  repeat' (first
      | with_reducible assumption | with_reducible apply OutHolds.mk | with_reducible apply State.begin_spares
      | with_reducible apply State.modBoot_spares | with_reducible apply State.Spares.ite)

theorem execImageSessionOpen_spares {X : Nat → Prop} {a s : State} (h : a.Spares X s) (x0) :
    OutHolds (a.Spares X) (execImageSessionOpen x0 s) := by
  unfold execImageSessionOpen
  repeat' (first
      | with_reducible assumption | with_reducible apply OutHolds.mk | with_reducible apply State.sessionOpen_spares
      | with_reducible apply State.Spares.ite)

theorem execImageHeader_spares {X : Nat → Prop} {a s : State} (h : a.Spares X s) (x0) :
    OutHolds (a.Spares X) (execImageHeader x0 s) := by
  unfold execImageHeader
  repeat' (first
      | with_reducible assumption | with_reducible apply OutHolds.mk | with_reducible apply State.sessionHeader_spares
      | with_reducible apply State.Spares.ite)

theorem execImageBody_spares {X : Nat → Prop} {a s : State} (h : a.Spares X s) (x0) :
    OutHolds (a.Spares X) (execImageBody x0 s) := by
  unfold execImageBody
  repeat' (first
      | with_reducible assumption | with_reducible apply OutHolds.mk | with_reducible apply State.sessionBody_spares
      | with_reducible apply State.Spares.ite)

theorem execLiveRestartComplete_spares {X : Nat → Prop} {a s : State} (h : a.Spares X s) :
    OutHolds (a.Spares X) (execLiveRestartComplete s) := by
  unfold execLiveRestartComplete
  repeat' (first
      | with_reducible assumption | dsimp only | with_reducible apply OutHolds.mk
      | with_reducible apply State.modRegion_spares | with_reducible apply State.morningBack_spares
      | with_reducible apply State.vesper_spares | with_reducible apply State.modBoot_spares
      | with_reducible apply State.record_spares | with_reducible apply State.post_spares
      | with_reducible apply State.trimStore_spares | with_reducible apply State.Spares.ite)

theorem execMonitorPlacement_spares {X : Nat → Prop} {a s : State} (h : a.Spares X s) :
    OutHolds (a.Spares X) (execMonitorPlacement s) := by
  unfold execMonitorPlacement
  repeat' (first
      | with_reducible assumption | dsimp only | with_reducible apply OutHolds.mk | with_reducible apply State.orWait_spares
      | with_reducible apply State.placeNow_spares | with_reducible apply State.modBoot_spares
      | with_reducible apply State.Spares.ite)

theorem execNonceSign_spares {X : Nat → Prop} {a s : State} (h : a.Spares X s) (x0 x1) :
    OutHolds (a.Spares X) (execNonceSign x0 x1 s) := by
  unfold execNonceSign
  repeat' (first
      | with_reducible assumption | with_reducible apply OutHolds.mk | with_reducible apply State.signNonce_spares
      | with_reducible apply State.Spares.ite)

theorem execLbistDemandStart_spares {X : Nat → Prop} {a s : State} (h : a.Spares X s) (x0 x1) :
    OutHolds (a.Spares X) (execLbistDemandStart x0 x1 s) := by
  unfold execLbistDemandStart
  repeat' (first
      | with_reducible assumption | with_reducible apply OutHolds.mk | with_reducible apply State.lbistStart_spares
      | with_reducible apply State.Spares.getD | with_reducible apply State.Spares.ite)

theorem execLbistAbort_spares {X : Nat → Prop} {a s : State} (h : a.Spares X s) (x0 x1) :
    OutHolds (a.Spares X) (execLbistAbort x0 x1 s) := by
  unfold execLbistAbort
  repeat' (first
      | with_reducible assumption | with_reducible apply OutHolds.mk | with_reducible apply State.lbistCut_spares
      | with_reducible apply State.Spares.ite)

theorem execLbistPatternTimeout_spares {X : Nat → Prop} {a s : State} (h : a.Spares X s) (x0 x1) :
    OutHolds (a.Spares X) (execLbistPatternTimeout x0 x1 s) := by
  unfold execLbistPatternTimeout
  repeat' (first
      | with_reducible assumption | with_reducible apply OutHolds.mk | with_reducible apply State.lbistCut_spares
      | with_reducible apply State.Spares.ite)

theorem execLbistRunEnd_spares {X : Nat → Prop} {a s : State} (h : a.Spares X s) (x0 x1 x2 x3 x4) :
    OutHolds (a.Spares X) (execLbistRunEnd x0 x1 x2 x3 x4 s) := by
  unfold execLbistRunEnd
  repeat' (first
      | with_reducible assumption | with_reducible apply OutHolds.mk | with_reducible apply State.lbEnd_spares
      | with_reducible apply State.Spares.ite)

theorem execBlockTestEnd_spares {X : Nat → Prop} {a s : State} (h : a.Spares X s) (x0 x1 x2 x3) :
    OutHolds (a.Spares X) (execBlockTestEnd x0 x1 x2 x3 s) := by
  unfold execBlockTestEnd
  repeat' (first
      | with_reducible assumption | dsimp only | with_reducible apply OutHolds.mk | with_reducible apply State.setMap_spares
      | with_reducible apply State.record_spares | fail_if_no_progress (with_reducible apply State.Spares.upd)
      | with_reducible apply State.Spares.ite)

theorem execIdcodeTap_spares {X : Nat → Prop} {a s : State} (h : a.Spares X s) :
    OutHolds (a.Spares X) (execIdcodeTap s) := by
  unfold execIdcodeTap
  repeat' (first
      | with_reducible assumption | dsimp only | with_reducible apply OutHolds.mk | with_reducible apply State.emit_spares
      | fail_if_no_progress (with_reducible apply State.Spares.upd) | with_reducible apply State.Spares.ite)

theorem execClearTap_spares {X : Nat → Prop} {a s : State} (h : a.Spares X s) :
    OutHolds (a.Spares X) (execClearTap s) := by
  unfold execClearTap
  repeat' (first
      | with_reducible assumption | with_reducible apply OutHolds.mk | with_reducible apply State.modSlate_spares
      | with_reducible apply State.zeroize_spares | with_reducible apply State.Spares.ite)

theorem execScanTap_spares {X : Nat → Prop} {a s : State} (h : a.Spares X s) :
    OutHolds (a.Spares X) (execScanTap s) := by
  unfold execScanTap
  repeat' (first
      | with_reducible assumption | dsimp only | with_reducible apply OutHolds.mk | with_reducible apply State.modSlate_spares
      | with_reducible apply State.zeroize_spares | fail_if_no_progress (with_reducible apply State.Spares.upd)
      | with_reducible apply State.Spares.ite)

theorem execBypassTap_spares {X : Nat → Prop} {a s : State} (h : a.Spares X s) (x0) :
    OutHolds (a.Spares X) (execBypassTap x0 s) := by
  unfold execBypassTap
  repeat' (first
      | with_reducible assumption | with_reducible apply OutHolds.mk | with_reducible apply State.modSlate_spares
      | with_reducible apply State.Spares.ite)

theorem execSnapshotTimeout_spares {X : Nat → Prop} {a s : State} (h : a.Spares X s) (x0) :
    OutHolds (a.Spares X) (execSnapshotTimeout x0 s) := by
  unfold execSnapshotTimeout
  repeat' (first
      | with_reducible assumption | with_reducible apply OutHolds.mk | with_reducible apply State.modStage_spares
      | with_reducible apply State.Spares.ite)

theorem execWriteBufferTimeout_spares {X : Nat → Prop} {a s : State} (h : a.Spares X s) (x0) :
    OutHolds (a.Spares X) (execWriteBufferTimeout x0 s) := by
  unfold execWriteBufferTimeout
  repeat' (first
      | with_reducible assumption | with_reducible apply OutHolds.mk | with_reducible apply State.modStage_spares
      | with_reducible apply State.Spares.ite)

theorem execSpiReadStatus_spares {X : Nat → Prop} {a s : State} (h : a.Spares X s) :
    OutHolds (a.Spares X) (execSpiReadStatus s) := by
  unfold execSpiReadStatus
  repeat' (first
      | with_reducible assumption | with_reducible apply OutHolds.mk | with_reducible apply State.modSlate_spares
      | with_reducible apply State.emit_spares | with_reducible apply State.Spares.ite)

theorem execSpiReadResponse_spares {X : Nat → Prop} {a s : State} (h : a.Spares X s) (x0) :
    OutHolds (a.Spares X) (execSpiReadResponse x0 s) := by
  unfold execSpiReadResponse
  repeat' (first
      | with_reducible assumption | with_reducible apply OutHolds.mk | with_reducible apply State.svcRead_spares
      | with_reducible apply State.Spares.ite)

theorem execSpiReadResponseQuad_spares {X : Nat → Prop} {a s : State} (h : a.Spares X s) (x0) :
    OutHolds (a.Spares X) (execSpiReadResponseQuad x0 s) := by
  unfold execSpiReadResponseQuad
  repeat' (first
      | with_reducible assumption | with_reducible apply OutHolds.mk | with_reducible apply State.svcRead_spares
      | with_reducible apply State.Spares.ite)

theorem execSpiTransactionNak_spares {X : Nat → Prop} {a s : State} (h : a.Spares X s) (x0 x1) :
    OutHolds (a.Spares X) (execSpiTransactionNak x0 x1 s) := by
  unfold execSpiTransactionNak
  repeat' (first
      | with_reducible assumption | with_reducible apply OutHolds.mk | with_reducible apply State.svcRefuse_spares
      | with_reducible apply State.Spares.ite)

theorem execBusError_spares {X : Nat → Prop} {a s : State} (h : a.Spares X s) (x0 x1) :
    OutHolds (a.Spares X) (execBusError x0 x1 s) := by
  unfold execBusError
  repeat' (first
      | with_reducible assumption | with_reducible apply OutHolds.mk | with_reducible apply State.modSlate_spares
      | with_reducible apply State.Spares.ite)

theorem execBusOffRecovery_spares {X : Nat → Prop} {a s : State} (h : a.Spares X s) :
    OutHolds (a.Spares X) (execBusOffRecovery s) := by
  unfold execBusOffRecovery
  repeat' (first
      | with_reducible assumption | dsimp only | with_reducible apply OutHolds.mk | with_reducible apply State.record_spares
      | with_reducible apply State.modSlate_spares | with_reducible apply State.Spares.ite)

theorem execCanFdClockSwitch_spares {X : Nat → Prop} {a s : State} (h : a.Spares X s) :
    OutHolds (a.Spares X) (execCanFdClockSwitch s) := by
  unfold execCanFdClockSwitch
  repeat' (first
      | with_reducible assumption | with_reducible apply OutHolds.mk | with_reducible apply State.modSlate_spares
      | with_reducible apply State.Spares.ite)

theorem execRailRangeChange_spares {X : Nat → Prop} {a s : State} (h : a.Spares X s) (x0 x1) :
    OutHolds (a.Spares X) (execRailRangeChange x0 x1 s) := by
  unfold execRailRangeChange
  repeat' (first
      | with_reducible assumption | dsimp only | with_reducible apply OutHolds.mk
      | with_reducible apply State.pwrgoodUp_spares | fail_if_no_progress (with_reducible apply State.Spares.upd)
      | with_reducible apply State.Spares.ite)

theorem execActionResendRound_spares {X : Nat → Prop} {a s : State} (h : a.Spares X s) (x0) :
    OutHolds (a.Spares X) (execActionResendRound x0 s) := by
  unfold execActionResendRound
  repeat' (first
      | with_reducible assumption | with_reducible apply OutHolds.mk | with_reducible apply State.orWait_spares
      | with_reducible apply State.resend_spares | with_reducible apply State.Spares.ite)

theorem execLdb_spares {X : Nat → Prop} {a s : State} (h : a.Spares X s) (x0 x1 x2 x3) (hcx0 : ¬ X x0) :
    OutHolds (a.Spares X) (execLdb x0 x1 x2 x3 s) := by
  unfold execLdb
  repeat' (first | with_reducible assumption | with_reducible apply OutHolds.mk | with_reducible apply State.loadG_spares)

theorem execLdbu_spares {X : Nat → Prop} {a s : State} (h : a.Spares X s) (x0 x1 x2 x3) (hcx0 : ¬ X x0) :
    OutHolds (a.Spares X) (execLdbu x0 x1 x2 x3 s) := by
  unfold execLdbu
  repeat' (first | with_reducible assumption | with_reducible apply OutHolds.mk | with_reducible apply State.loadG_spares)

theorem execLdh_spares {X : Nat → Prop} {a s : State} (h : a.Spares X s) (x0 x1 x2 x3) (hcx0 : ¬ X x0) :
    OutHolds (a.Spares X) (execLdh x0 x1 x2 x3 s) := by
  unfold execLdh
  repeat' (first | with_reducible assumption | with_reducible apply OutHolds.mk | with_reducible apply State.loadG_spares)

theorem execLdhu_spares {X : Nat → Prop} {a s : State} (h : a.Spares X s) (x0 x1 x2 x3) (hcx0 : ¬ X x0) :
    OutHolds (a.Spares X) (execLdhu x0 x1 x2 x3 s) := by
  unfold execLdhu
  repeat' (first | with_reducible assumption | with_reducible apply OutHolds.mk | with_reducible apply State.loadG_spares)

theorem execLdw_spares {X : Nat → Prop} {a s : State} (h : a.Spares X s) (x0 x1 x2 x3) (hcx0 : ¬ X x0) :
    OutHolds (a.Spares X) (execLdw x0 x1 x2 x3 s) := by
  unfold execLdw
  repeat' (first | with_reducible assumption | with_reducible apply OutHolds.mk | with_reducible apply State.loadG_spares)

theorem execLdwu_spares {X : Nat → Prop} {a s : State} (h : a.Spares X s) (x0 x1 x2 x3) (hcx0 : ¬ X x0) :
    OutHolds (a.Spares X) (execLdwu x0 x1 x2 x3 s) := by
  unfold execLdwu
  repeat' (first | with_reducible assumption | with_reducible apply OutHolds.mk | with_reducible apply State.loadG_spares)

theorem execLdd_spares {X : Nat → Prop} {a s : State} (h : a.Spares X s) (x0 x1 x2 x3) (hcx0 : ¬ X x0) :
    OutHolds (a.Spares X) (execLdd x0 x1 x2 x3 s) := by
  unfold execLdd
  repeat' (first | with_reducible assumption | with_reducible apply OutHolds.mk | with_reducible apply State.loadG_spares)

theorem execLdp_spares {X : Nat → Prop} {a s : State} (h : a.Spares X s) (x0 x1 x2 x3) (hcx0 : ¬ X x0) :
    OutHolds (a.Spares X) (execLdp x0 x1 x2 x3 s) := by
  unfold execLdp
  repeat' (first
      | with_reducible assumption | intro _ | with_reducible apply Done.Holds.mkExc | with_reducible apply OutHolds.mk
      | with_reducible apply State.issue_spares | with_reducible apply State.loadTo_spares | split)

theorem execLda_spares {X : Nat → Prop} {a s : State} (h : a.Spares X s) (x0 x1 x2 x3) (hcx0 : ¬ X x0) :
    OutHolds (a.Spares X) (execLda x0 x1 x2 x3 s) := by
  unfold execLda
  repeat' (first | with_reducible assumption | with_reducible apply OutHolds.mk | with_reducible apply State.loadG_spares)

theorem execVld_spares {X : Nat → Prop} {a s : State} (h : a.Spares X s) (x0 x1 x2 x3) (hcx0 : ¬ X x0) :
    OutHolds (a.Spares X) (execVld x0 x1 x2 x3 s) := by
  unfold execVld
  repeat' (first
      | with_reducible assumption | intro _ | with_reducible apply OutHolds.mk | with_reducible apply State.issue_spares
      | with_reducible apply State.loadTo_spares)

theorem execLdx_spares {X : Nat → Prop} {a s : State} (h : a.Spares X s) (x0 x1 x2 x3 x4 x5) (hcx0 : ¬ X x0) :
    OutHolds (a.Spares X) (execLdx x0 x1 x2 x3 x4 x5 s) := by
  unfold execLdx
  repeat' (first
      | with_reducible assumption | intro _ | dsimp only | with_reducible apply Done.Holds.mkOk
      | with_reducible apply Done.Holds.mkExc | with_reducible apply Done.Holds.mkStay | with_reducible apply OutHolds.mk
      | with_reducible apply State.issue_spares | with_reducible apply State.checkAccess_spares
      | with_reducible apply State.drainAll_spares | with_reducible apply State.loadHalves_spares
      | ((with_reducible refine State.Spares.setNe ?_ ?_); on_goal 2 => assumption)
      | with_reducible refine State.Spares.snd (by assumption) ?_ | with_reducible refine Got.Holds.ok (by assumption) ?_
      | with_reducible refine Got.Holds.exc (by assumption) ?_ | with_reducible refine Got.Holds.stay (by assumption) ?_
      | split)

theorem execStx_spares {X : Nat → Prop} {a s : State} (h : a.Spares X s) (x0 x1 x2 x3 x4 x5 x6) (hcx0 : ¬ X x0) :
    OutHolds (a.Spares X) (execStx x0 x1 x2 x3 x4 x5 x6 s) := by
  unfold execStx
  repeat' (first
      | with_reducible assumption | intro _ | dsimp only | with_reducible apply Done.Holds.mkOk
      | with_reducible apply Done.Holds.mkExc | with_reducible apply Done.Holds.mkStay | with_reducible apply OutHolds.mk
      | with_reducible apply State.issue_spares | with_reducible apply State.checkAccess_spares
      | with_reducible apply State.drainAll_spares | with_reducible apply State.writeLine_spares
      | with_reducible apply State.commitHalves_spares
      | ((with_reducible refine State.Spares.modNe ?_ ?_); on_goal 2 => assumption)
      | with_reducible refine State.Spares.snd (by assumption) ?_ | with_reducible apply State.Spares.ite | split)

theorem execSwp_spares {X : Nat → Prop} {a s : State} (h : a.Spares X s) (x0 x1 x2 x3 x4 x5 x6) (hcx0 : ¬ X x0) :
    OutHolds (a.Spares X) (execSwp x0 x1 x2 x3 x4 x5 x6 s) := by
  unfold execSwp
  repeat' (first
      | with_reducible assumption | dsimp only | with_reducible apply OutHolds.mk | with_reducible apply State.amOp_spares)

theorem execCas_spares {X : Nat → Prop} {a s : State} (h : a.Spares X s) (x0 x1 x2 x3 x4 x5 x6) (hcx0 : ¬ X x0) :
    OutHolds (a.Spares X) (execCas x0 x1 x2 x3 x4 x5 x6 s) := by
  unfold execCas
  repeat' (first
      | with_reducible assumption | dsimp only | with_reducible apply OutHolds.mk | with_reducible apply State.atomic_spares)

theorem execAmadd_spares {X : Nat → Prop} {a s : State} (h : a.Spares X s) (x0 x1 x2 x3 x4 x5 x6) (hcx0 : ¬ X x0) :
    OutHolds (a.Spares X) (execAmadd x0 x1 x2 x3 x4 x5 x6 s) := by
  unfold execAmadd
  repeat' (first
      | with_reducible assumption | dsimp only | with_reducible apply OutHolds.mk | with_reducible apply State.amOp_spares)

theorem execAmand_spares {X : Nat → Prop} {a s : State} (h : a.Spares X s) (x0 x1 x2 x3 x4 x5 x6) (hcx0 : ¬ X x0) :
    OutHolds (a.Spares X) (execAmand x0 x1 x2 x3 x4 x5 x6 s) := by
  unfold execAmand
  repeat' (first
      | with_reducible assumption | dsimp only | with_reducible apply OutHolds.mk | with_reducible apply State.amOp_spares)

theorem execAmor_spares {X : Nat → Prop} {a s : State} (h : a.Spares X s) (x0 x1 x2 x3 x4 x5 x6) (hcx0 : ¬ X x0) :
    OutHolds (a.Spares X) (execAmor x0 x1 x2 x3 x4 x5 x6 s) := by
  unfold execAmor
  repeat' (first
      | with_reducible assumption | dsimp only | with_reducible apply OutHolds.mk | with_reducible apply State.amOp_spares)

theorem execAmxor_spares {X : Nat → Prop} {a s : State} (h : a.Spares X s) (x0 x1 x2 x3 x4 x5 x6) (hcx0 : ¬ X x0) :
    OutHolds (a.Spares X) (execAmxor x0 x1 x2 x3 x4 x5 x6 s) := by
  unfold execAmxor
  repeat' (first
      | with_reducible assumption | dsimp only | with_reducible apply OutHolds.mk | with_reducible apply State.amOp_spares)

theorem execAmmax_spares {X : Nat → Prop} {a s : State} (h : a.Spares X s) (x0 x1 x2 x3 x4 x5 x6) (hcx0 : ¬ X x0) :
    OutHolds (a.Spares X) (execAmmax x0 x1 x2 x3 x4 x5 x6 s) := by
  unfold execAmmax
  repeat' (first
      | with_reducible assumption | dsimp only | with_reducible apply OutHolds.mk | with_reducible apply State.amOp_spares)

theorem execAmmin_spares {X : Nat → Prop} {a s : State} (h : a.Spares X s) (x0 x1 x2 x3 x4 x5 x6) (hcx0 : ¬ X x0) :
    OutHolds (a.Spares X) (execAmmin x0 x1 x2 x3 x4 x5 x6 s) := by
  unfold execAmmin
  repeat' (first
      | with_reducible assumption | dsimp only | with_reducible apply OutHolds.mk | with_reducible apply State.amOp_spares)

theorem execMcmp_spares {X : Nat → Prop} {a s : State} (h : a.Spares X s) (x0 x1 x2 x3) (hcx0 : ¬ X x0) :
    OutHolds (a.Spares X) (execMcmp x0 x1 x2 x3 s) := by
  unfold execMcmp
  repeat' (first
      | with_reducible assumption | intro _ | dsimp only | with_reducible apply Done.Holds.mkOk
      | with_reducible apply Done.Holds.mkStay | with_reducible apply OutHolds.mk | with_reducible apply State.issue_spares
      | with_reducible apply State.checkPieces_spares | with_reducible apply State.loadHalves_spares
      | with_reducible apply strFail_spares | with_reducible apply strStep_spares
      | with_reducible refine Got.Holds.ok (by assumption) ?_ | with_reducible refine Got.Holds.exc (by assumption) ?_
      | with_reducible refine Got.Holds.stay (by assumption) ?_ | split)

theorem execAqld_spares {X : Nat → Prop} {a s : State} (h : a.Spares X s) (x0 x1 x2 x3) (hcx0 : ¬ X x0) :
    OutHolds (a.Spares X) (execAqld x0 x1 x2 x3 s) := by
  unfold execAqld
  repeat' (first
      | with_reducible assumption | intro _ | with_reducible apply OutHolds.mk | with_reducible apply State.issue_spares
      | with_reducible apply State.loadTo_spares)

theorem execArst_spares {X : Nat → Prop} {a s : State} (h : a.Spares X s) (x0 x1 x2) (hcx0 : ¬ X x0) :
    OutHolds (a.Spares X) (execArst x0 x1 x2 s) := by
  unfold execArst
  repeat' (first
      | with_reducible assumption | intro _ | with_reducible apply Done.Holds.mkOk | with_reducible apply Done.Holds.mkExc
      | with_reducible apply Done.Holds.mkStay | with_reducible apply OutHolds.mk | with_reducible apply State.issue_spares
      | with_reducible apply State.checkAccess_spares | with_reducible apply State.loadHalves_spares
      | ((with_reducible refine State.Spares.modNe ?_ ?_); on_goal 2 => assumption)
      | with_reducible refine State.Spares.snd (by assumption) ?_ | with_reducible refine Got.Holds.ok (by assumption) ?_
      | with_reducible refine Got.Holds.exc (by assumption) ?_ | with_reducible refine Got.Holds.stay (by assumption) ?_
      | split)

theorem execAmrg_spares {X : Nat → Prop} {a s : State} (h : a.Spares X s) (x0 x1 x2) (hcx0 : ¬ X x0) :
    OutHolds (a.Spares X) (execAmrg x0 x1 x2 s) := by
  unfold execAmrg
  repeat' (first
      | with_reducible assumption | intro _ | dsimp only | with_reducible apply Done.Holds.mkOk
      | with_reducible apply Done.Holds.mkExc | with_reducible apply Done.Holds.mkStay | with_reducible apply OutHolds.mk
      | with_reducible apply State.issue_spares | with_reducible apply noonWait_spares
      | with_reducible apply State.checkAccess_spares | with_reducible apply State.loadHalves_spares
      | with_reducible apply noonRefuse_spares | with_reducible apply State.postAct_spares
      | with_reducible refine State.Spares.snd (by assumption) ?_ | with_reducible refine Got.Holds.ok (by assumption) ?_
      | with_reducible refine Got.Holds.exc (by assumption) ?_ | with_reducible refine Got.Holds.stay (by assumption) ?_
      | split)

theorem execNwait_spares {X : Nat → Prop} {a s : State} (h : a.Spares X s) (x0 x1) (hcx0 : ¬ X x0) :
    OutHolds (a.Spares X) (execNwait x0 x1 s) := by
  unfold execNwait
  repeat' (first
      | with_reducible assumption | intro _ | dsimp only | with_reducible apply Done.Holds.mkOk
      | with_reducible apply Done.Holds.mkStay | with_reducible apply OutHolds.mk | with_reducible apply State.issueAs_spares
      | ((with_reducible refine State.Spares.modNe ?_ ?_); on_goal 2 => assumption) | split)

theorem execCsrr_spares {X : Nat → Prop} {a s : State} (h : a.Spares X s) (x0 x1 x2) (hcx0 : ¬ X x0) :
    OutHolds (a.Spares X) (execCsrr x0 x1 x2 s) := by
  unfold execCsrr
  repeat' (first
      | with_reducible assumption | intro _ | with_reducible apply Done.Holds.mkOk | with_reducible apply Done.Holds.mkExc
      | with_reducible apply OutHolds.mk | with_reducible apply State.issue_spares
      | ((with_reducible refine State.Spares.modNe ?_ ?_); on_goal 2 => assumption) | split)

theorem execCsrw_spares {X : Nat → Prop} {a s : State} (h : a.Spares X s) (x0 x1 x2) (hcx0 : ¬ X x0) :
    OutHolds (a.Spares X) (execCsrw x0 x1 x2 s) := by
  unfold execCsrw
  repeat' (first | with_reducible assumption | with_reducible apply OutHolds.mk | with_reducible apply State.csrChange_spares)

theorem execCsrs_spares {X : Nat → Prop} {a s : State} (h : a.Spares X s) (x0 x1 x2 x3) (hcx0 : ¬ X x0) :
    OutHolds (a.Spares X) (execCsrs x0 x1 x2 x3 s) := by
  unfold execCsrs
  repeat' (first | with_reducible assumption | with_reducible apply OutHolds.mk | with_reducible apply State.csrChange_spares)

theorem execCsrc_spares {X : Nat → Prop} {a s : State} (h : a.Spares X s) (x0 x1 x2 x3) (hcx0 : ¬ X x0) :
    OutHolds (a.Spares X) (execCsrc x0 x1 x2 x3 s) := by
  unfold execCsrc
  repeat' (first | with_reducible assumption | with_reducible apply OutHolds.mk | with_reducible apply State.csrChange_spares)

theorem execEret_spares {X : Nat → Prop} {a s : State} (h : a.Spares X s) (x0) (hcx0 : ¬ X x0) :
    OutHolds (a.Spares X) (execEret x0 s) := by
  unfold execEret
  repeat' (first
      | with_reducible assumption | intro _ | dsimp only | with_reducible apply Done.Holds.mkExc
      | with_reducible apply Done.Holds.mkStay | with_reducible apply OutHolds.mk | with_reducible apply State.issue_spares
      | with_reducible apply atLeast_spares | with_reducible apply State.drainAll_spares
      | with_reducible apply State.frameLines_spares | with_reducible apply State.stopAtM_spares
      | with_reducible apply State.cycles_spares | with_reducible apply State.takeEvent_spares
      | with_reducible apply State.readFrame_spares
      | ((with_reducible refine State.Spares.modNe ?_ ?_); on_goal 2 => assumption)
      | with_reducible apply State.poisonRecord_spares | with_reducible apply State.chain_spares
      | with_reducible apply State.unwind_spares | with_reducible refine State.Spares.snd (by assumption) ?_ | split)

theorem execCalls_spares {X : Nat → Prop} {a s : State} (h : a.Spares X s) (x0) (hcx0 : ¬ X x0) :
    OutHolds (a.Spares X) (execCalls x0 s) := by
  unfold execCalls
  repeat' (first | with_reducible assumption | with_reducible apply OutHolds.mk | with_reducible apply State.callTo_spares)

theorem execCallh_spares {X : Nat → Prop} {a s : State} (h : a.Spares X s) (x0) (hcx0 : ¬ X x0) :
    OutHolds (a.Spares X) (execCallh x0 s) := by
  unfold execCallh
  repeat' (first | with_reducible assumption | with_reducible apply OutHolds.mk | with_reducible apply State.callTo_spares)

theorem execCallm_spares {X : Nat → Prop} {a s : State} (h : a.Spares X s) (x0) (hcx0 : ¬ X x0) :
    OutHolds (a.Spares X) (execCallm x0 s) := by
  unfold execCallm
  repeat' (first | with_reducible assumption | with_reducible apply OutHolds.mk | with_reducible apply State.callTo_spares)

theorem execBrk_spares {X : Nat → Prop} {a s : State} (h : a.Spares X s) (x0) (hcx0 : ¬ X x0) :
    OutHolds (a.Spares X) (execBrk x0 s) := by
  unfold execBrk
  repeat' (first
      | with_reducible assumption | intro _ | with_reducible apply Done.Holds.mkCall | with_reducible apply OutHolds.mk
      | with_reducible apply State.issue_spares)

theorem execWfe_spares {X : Nat → Prop} {a s : State} (h : a.Spares X s) (x0) (hcx0 : ¬ X x0) :
    OutHolds (a.Spares X) (execWfe x0 s) := by
  unfold execWfe
  repeat' (first
      | with_reducible assumption | intro _ | dsimp only | with_reducible apply Done.Holds.mkOk
      | with_reducible apply Done.Holds.mkStay | with_reducible apply OutHolds.mk | with_reducible apply State.issueAs_spares
      | ((with_reducible refine State.Spares.modNe ?_ ?_); on_goal 2 => assumption)
      | with_reducible apply State.leaveOn_spares | with_reducible apply State.modDom_spares | split)

theorem execFence_spares {X : Nat → Prop} {a s : State} (h : a.Spares X s) (x0 x1) (hcx0 : ¬ X x0) :
    OutHolds (a.Spares X) (execFence x0 x1 s) := by
  unfold execFence
  repeat' (first
      | with_reducible assumption | intro _ | dsimp only | with_reducible apply Done.Holds.mkOk
      | with_reducible apply Done.Holds.mkStay | with_reducible apply OutHolds.mk | with_reducible apply State.issue_spares
      | with_reducible apply State.drainWhile_spares | split)

theorem execSync_spares {X : Nat → Prop} {a s : State} (h : a.Spares X s) (x0) (hcx0 : ¬ X x0) :
    OutHolds (a.Spares X) (execSync x0 s) := by
  unfold execSync
  repeat' (first
      | with_reducible assumption | intro _ | dsimp only | with_reducible apply Done.Holds.mkOk
      | with_reducible apply Done.Holds.mkStay | with_reducible apply OutHolds.mk | with_reducible apply State.issue_spares
      | with_reducible apply State.drainAll_spares | split)

theorem execLbar_spares {X : Nat → Prop} {a s : State} (h : a.Spares X s) (x0) (hcx0 : ¬ X x0) :
    OutHolds (a.Spares X) (execLbar x0 s) := by
  unfold execLbar
  repeat' (first
      | with_reducible assumption | intro _ | with_reducible apply Done.Holds.mkOk | with_reducible apply OutHolds.mk
      | with_reducible apply State.issue_spares)

theorem execIfence_spares {X : Nat → Prop} {a s : State} (h : a.Spares X s) (x0) (hcx0 : ¬ X x0) :
    OutHolds (a.Spares X) (execIfence x0 s) := by
  unfold execIfence
  repeat' (first
      | with_reducible assumption | intro _ | with_reducible apply Done.Holds.mkOk | with_reducible apply Done.Holds.mkStay
      | with_reducible apply OutHolds.mk | with_reducible apply State.issue_spares
      | with_reducible apply State.drainAll_spares
      | ((with_reducible refine State.Spares.modNe ?_ ?_); on_goal 2 => assumption)
      | with_reducible refine State.Spares.snd (by assumption) ?_ | split)

theorem execBpbar_spares {X : Nat → Prop} {a s : State} (h : a.Spares X s) (x0) (hcx0 : ¬ X x0) :
    OutHolds (a.Spares X) (execBpbar x0 s) := by
  unfold execBpbar
  repeat' (first
      | with_reducible assumption | intro _ | with_reducible apply Done.Holds.mkOk | with_reducible apply OutHolds.mk
      | with_reducible apply State.issue_spares)

theorem execBpflush_spares {X : Nat → Prop} {a s : State} (h : a.Spares X s) (x0) (hcx0 : ¬ X x0) :
    OutHolds (a.Spares X) (execBpflush x0 s) := by
  unfold execBpflush
  repeat' (first | with_reducible assumption | with_reducible apply OutHolds.mk | with_reducible apply State.compute_spares)

theorem execRand_spares {X : Nat → Prop} {a s : State} (h : a.Spares X s) (x0 x1 x2) (hcx0 : ¬ X x0) :
    OutHolds (a.Spares X) (execRand x0 x1 x2 s) := by
  unfold execRand
  repeat' (first
      | with_reducible assumption | intro _ | dsimp only | with_reducible apply Done.Holds.mkOk
      | with_reducible apply OutHolds.mk | with_reducible apply State.issue_spares | with_reducible apply State.draw_spares
      | ((with_reducible refine State.Spares.modNe ?_ ?_); on_goal 2 => assumption))

theorem execUndefinedEncoding_spares {X : Nat → Prop} {a s : State} (h : a.Spares X s) (x0 x1) (hcx0 : ¬ X x0) :
    OutHolds (a.Spares X) (execUndefinedEncoding x0 x1 s) := by
  unfold execUndefinedEncoding
  repeat' (first
      | with_reducible assumption | intro _ | dsimp only | with_reducible apply Done.Holds.mkExc
      | with_reducible apply OutHolds.mk | with_reducible apply State.issue_spares | with_reducible apply State.draw_spares
      | ((with_reducible refine State.Spares.modNe ?_ ?_); on_goal 2 => assumption) | with_reducible apply State.Spares.ite)

theorem execDcclean_spares {X : Nat → Prop} {a s : State} (h : a.Spares X s) (x0 x1) (hcx0 : ¬ X x0) :
    OutHolds (a.Spares X) (execDcclean x0 x1 s) := by
  unfold execDcclean
  repeat' (first
      | with_reducible assumption | intro _ | with_reducible apply OutHolds.mk | with_reducible apply State.issue_spares
      | with_reducible apply State.lineOp_spares | with_reducible apply State.cleanLine_spares)

theorem execDcflush_spares {X : Nat → Prop} {a s : State} (h : a.Spares X s) (x0 x1) (hcx0 : ¬ X x0) :
    OutHolds (a.Spares X) (execDcflush x0 x1 s) := by
  unfold execDcflush
  repeat' (first
      | with_reducible assumption | intro _ | with_reducible apply OutHolds.mk | with_reducible apply State.issue_spares
      | with_reducible apply State.lineOp_spares | with_reducible apply State.flushLine_spares)

theorem execDcinv_spares {X : Nat → Prop} {a s : State} (h : a.Spares X s) (x0 x1) (hcx0 : ¬ X x0) :
    OutHolds (a.Spares X) (execDcinv x0 x1 s) := by
  unfold execDcinv
  repeat' (first
      | with_reducible assumption | intro _ | with_reducible apply OutHolds.mk | with_reducible apply State.issue_spares
      | with_reducible apply atLeast_spares | with_reducible apply State.lineOp_spares
      | with_reducible apply State.flushLine_spares)

theorem execIcinv_spares {X : Nat → Prop} {a s : State} (h : a.Spares X s) (x0 x1) (hcx0 : ¬ X x0) :
    OutHolds (a.Spares X) (execIcinv x0 x1 s) := by
  unfold execIcinv
  repeat' (first
      | with_reducible assumption | intro _ | dsimp only | with_reducible apply OutHolds.mk
      | with_reducible apply State.issue_spares | with_reducible apply State.lineOp_spares
      | ((with_reducible refine State.Spares.setNe ?_ ?_); on_goal 2 => assumption)
      | with_reducible apply State.homeEvn_spares | with_reducible apply State.Spares.ite)

theorem execPfl_spares {X : Nat → Prop} {a s : State} (h : a.Spares X s) (x0 x1) (hcx0 : ¬ X x0) :
    OutHolds (a.Spares X) (execPfl x0 x1 s) := by
  unfold execPfl
  repeat' (first | with_reducible assumption | with_reducible apply OutHolds.mk | with_reducible apply State.hint_spares)

theorem execPfs_spares {X : Nat → Prop} {a s : State} (h : a.Spares X s) (x0 x1) (hcx0 : ¬ X x0) :
    OutHolds (a.Spares X) (execPfs x0 x1 s) := by
  unfold execPfs
  repeat' (first | with_reducible assumption | with_reducible apply OutHolds.mk | with_reducible apply State.hint_spares)

theorem execPfnt_spares {X : Nat → Prop} {a s : State} (h : a.Spares X s) (x0 x1) (hcx0 : ¬ X x0) :
    OutHolds (a.Spares X) (execPfnt x0 x1 s) := by
  unfold execPfnt
  repeat' (first | with_reducible assumption | with_reducible apply OutHolds.mk | with_reducible apply State.hint_spares)

theorem execTlbiva_spares {X : Nat → Prop} {a s : State} (h : a.Spares X s) (x0 x1) (hcx0 : ¬ X x0) :
    OutHolds (a.Spares X) (execTlbiva x0 x1 s) := by
  unfold execTlbiva
  repeat' (first
      | with_reducible assumption | dsimp only | with_reducible apply OutHolds.mk | with_reducible apply State.tlbOp_spares)

theorem execTlbiall_spares {X : Nat → Prop} {a s : State} (h : a.Spares X s) (x0) (hcx0 : ¬ X x0) :
    OutHolds (a.Spares X) (execTlbiall x0 s) := by
  unfold execTlbiall
  repeat' (first
      | with_reducible assumption | dsimp only | with_reducible apply OutHolds.mk | with_reducible apply State.tlbOp_spares)

theorem execTlbigva_spares {X : Nat → Prop} {a s : State} (h : a.Spares X s) (x0 x1) (hcx0 : ¬ X x0) :
    OutHolds (a.Spares X) (execTlbigva x0 x1 s) := by
  unfold execTlbigva
  repeat' (first | with_reducible assumption | with_reducible apply OutHolds.mk | with_reducible apply State.tlbOp_spares)

theorem execTlbidom_spares {X : Nat → Prop} {a s : State} (h : a.Spares X s) (x0 x1) (hcx0 : ¬ X x0) :
    OutHolds (a.Spares X) (execTlbidom x0 x1 s) := by
  unfold execTlbidom
  repeat' (first | with_reducible assumption | with_reducible apply OutHolds.mk | with_reducible apply State.tlbOp_spares)

theorem execEventEntry_spares {X : Nat → Prop} {a s : State} (h : a.Spares X s) (x0) (hcx0 : ¬ X x0) :
    OutHolds (a.Spares X) (execEventEntry x0 s) := by
  unfold execEventEntry
  repeat' (first
      | with_reducible assumption | with_reducible apply OutHolds.mk | with_reducible apply State.orWait_spares
      | with_reducible apply State.takeAsync_spares | with_reducible apply State.Spares.ite | split)

theorem execLongOperationComplete_spares {X : Nat → Prop} {a s : State} (h : a.Spares X s) (x0) (hcx0 : ¬ X x0) :
    OutHolds (a.Spares X) (execLongOperationComplete x0 s) := by
  unfold execLongOperationComplete
  repeat' (first
      | with_reducible assumption | with_reducible apply OutHolds.mk
      | ((with_reducible refine State.Spares.modNe ?_ ?_); on_goal 2 => assumption) | with_reducible apply State.Spares.ite)

theorem execStoreWriteAfterRetirement_spares {X : Nat → Prop} {a s : State} (h : a.Spares X s) (x0) (hcx0 : ¬ X x0) :
    OutHolds (a.Spares X) (execStoreWriteAfterRetirement x0 s) := by
  unfold execStoreWriteAfterRetirement
  repeat' (first
      | with_reducible assumption | with_reducible apply OutHolds.mk | with_reducible apply State.orWait_spares
      | with_reducible apply State.drainOne_spares | with_reducible apply State.Spares.ite)

theorem execMemoryOrderReplay_spares {X : Nat → Prop} {a s : State} (h : a.Spares X s) (x0) (hcx0 : ¬ X x0) :
    OutHolds (a.Spares X) (execMemoryOrderReplay x0 s) := by
  unfold execMemoryOrderReplay
  repeat' (first
      | with_reducible assumption | with_reducible apply OutHolds.mk | with_reducible apply State.cycles_spares
      | with_reducible apply State.Spares.ite)

/-- A command leaves the registers of every core that leavesCore gives it. -/
theorem exec_spares (i : Instr) (s : State) :
    OutHolds (s.Spares (fun d => leavesCore d i = true)) (exec i s) := by
  cases i with
  | add x0 x1 x2 x3 => exact execAdd_spares (State.Spares.refl _ s) x0 x1 x2 x3 (bne_false x0)
  | sub x0 x1 x2 x3 => exact execSub_spares (State.Spares.refl _ s) x0 x1 x2 x3 (bne_false x0)
  | andR x0 x1 x2 x3 => exact execAndR_spares (State.Spares.refl _ s) x0 x1 x2 x3 (bne_false x0)
  | orR x0 x1 x2 x3 => exact execOrR_spares (State.Spares.refl _ s) x0 x1 x2 x3 (bne_false x0)
  | xorR x0 x1 x2 x3 => exact execXorR_spares (State.Spares.refl _ s) x0 x1 x2 x3 (bne_false x0)
  | andn x0 x1 x2 x3 => exact execAndn_spares (State.Spares.refl _ s) x0 x1 x2 x3 (bne_false x0)
  | sll x0 x1 x2 x3 => exact execSll_spares (State.Spares.refl _ s) x0 x1 x2 x3 (bne_false x0)
  | srl x0 x1 x2 x3 => exact execSrl_spares (State.Spares.refl _ s) x0 x1 x2 x3 (bne_false x0)
  | sra x0 x1 x2 x3 => exact execSra_spares (State.Spares.refl _ s) x0 x1 x2 x3 (bne_false x0)
  | ror x0 x1 x2 x3 => exact execRor_spares (State.Spares.refl _ s) x0 x1 x2 x3 (bne_false x0)
  | slt x0 x1 x2 x3 => exact execSlt_spares (State.Spares.refl _ s) x0 x1 x2 x3 (bne_false x0)
  | sltu x0 x1 x2 x3 => exact execSltu_spares (State.Spares.refl _ s) x0 x1 x2 x3 (bne_false x0)
  | minS x0 x1 x2 x3 => exact execMinS_spares (State.Spares.refl _ s) x0 x1 x2 x3 (bne_false x0)
  | maxS x0 x1 x2 x3 => exact execMaxS_spares (State.Spares.refl _ s) x0 x1 x2 x3 (bne_false x0)
  | minu x0 x1 x2 x3 => exact execMinu_spares (State.Spares.refl _ s) x0 x1 x2 x3 (bne_false x0)
  | maxu x0 x1 x2 x3 => exact execMaxu_spares (State.Spares.refl _ s) x0 x1 x2 x3 (bne_false x0)
  | sel x0 x1 x2 x3 => exact execSel_spares (State.Spares.refl _ s) x0 x1 x2 x3 (bne_false x0)
  | clz x0 x1 x2 => exact execClz_spares (State.Spares.refl _ s) x0 x1 x2 (bne_false x0)
  | ctz x0 x1 x2 => exact execCtz_spares (State.Spares.refl _ s) x0 x1 x2 (bne_false x0)
  | pop x0 x1 x2 => exact execPop_spares (State.Spares.refl _ s) x0 x1 x2 (bne_false x0)
  | bswap x0 x1 x2 => exact execBswap_spares (State.Spares.refl _ s) x0 x1 x2 (bne_false x0)
  | addi x0 x1 x2 x3 => exact execAddi_spares (State.Spares.refl _ s) x0 x1 x2 x3 (bne_false x0)
  | andi x0 x1 x2 x3 => exact execAndi_spares (State.Spares.refl _ s) x0 x1 x2 x3 (bne_false x0)
  | ori x0 x1 x2 x3 => exact execOri_spares (State.Spares.refl _ s) x0 x1 x2 x3 (bne_false x0)
  | xori x0 x1 x2 x3 => exact execXori_spares (State.Spares.refl _ s) x0 x1 x2 x3 (bne_false x0)
  | slti x0 x1 x2 x3 => exact execSlti_spares (State.Spares.refl _ s) x0 x1 x2 x3 (bne_false x0)
  | sltiu x0 x1 x2 x3 => exact execSltiu_spares (State.Spares.refl _ s) x0 x1 x2 x3 (bne_false x0)
  | shi x0 x1 x2 x3 => exact execShi_spares (State.Spares.refl _ s) x0 x1 x2 x3 (bne_false x0)
  | movz x0 x1 x2 x3 => exact execMovz_spares (State.Spares.refl _ s) x0 x1 x2 x3 (bne_false x0)
  | movk x0 x1 x2 x3 => exact execMovk_spares (State.Spares.refl _ s) x0 x1 x2 x3 (bne_false x0)
  | mul x0 x1 x2 x3 => exact execMul_spares (State.Spares.refl _ s) x0 x1 x2 x3 (bne_false x0)
  | mulh x0 x1 x2 x3 => exact execMulh_spares (State.Spares.refl _ s) x0 x1 x2 x3 (bne_false x0)
  | mulhu x0 x1 x2 x3 => exact execMulhu_spares (State.Spares.refl _ s) x0 x1 x2 x3 (bne_false x0)
  | divS x0 x1 x2 x3 => exact execDivS_spares (State.Spares.refl _ s) x0 x1 x2 x3 (bne_false x0)
  | divu x0 x1 x2 x3 => exact execDivu_spares (State.Spares.refl _ s) x0 x1 x2 x3 (bne_false x0)
  | remS x0 x1 x2 x3 => exact execRemS_spares (State.Spares.refl _ s) x0 x1 x2 x3 (bne_false x0)
  | remu x0 x1 x2 x3 => exact execRemu_spares (State.Spares.refl _ s) x0 x1 x2 x3 (bne_false x0)
  | fadd x0 x1 x2 x3 x4 => exact execFadd_spares (State.Spares.refl _ s) x0 x1 x2 x3 x4 (bne_false x0)
  | fsub x0 x1 x2 x3 x4 => exact execFsub_spares (State.Spares.refl _ s) x0 x1 x2 x3 x4 (bne_false x0)
  | fmul x0 x1 x2 x3 x4 => exact execFmul_spares (State.Spares.refl _ s) x0 x1 x2 x3 x4 (bne_false x0)
  | fdiv x0 x1 x2 x3 x4 => exact execFdiv_spares (State.Spares.refl _ s) x0 x1 x2 x3 x4 (bne_false x0)
  | fsqrt x0 x1 x2 x3 => exact execFsqrt_spares (State.Spares.refl _ s) x0 x1 x2 x3 (bne_false x0)
  | fma x0 x1 x2 x3 x4 => exact execFma_spares (State.Spares.refl _ s) x0 x1 x2 x3 x4 (bne_false x0)
  | fmin x0 x1 x2 x3 x4 => exact execFmin_spares (State.Spares.refl _ s) x0 x1 x2 x3 x4 (bne_false x0)
  | fmax x0 x1 x2 x3 x4 => exact execFmax_spares (State.Spares.refl _ s) x0 x1 x2 x3 x4 (bne_false x0)
  | fceq x0 x1 x2 x3 x4 => exact execFceq_spares (State.Spares.refl _ s) x0 x1 x2 x3 x4 (bne_false x0)
  | fclt x0 x1 x2 x3 x4 => exact execFclt_spares (State.Spares.refl _ s) x0 x1 x2 x3 x4 (bne_false x0)
  | fcle x0 x1 x2 x3 x4 => exact execFcle_spares (State.Spares.refl _ s) x0 x1 x2 x3 x4 (bne_false x0)
  | fcvti x0 x1 x2 x3 => exact execFcvti_spares (State.Spares.refl _ s) x0 x1 x2 x3 (bne_false x0)
  | fcvtf x0 x1 x2 x3 => exact execFcvtf_spares (State.Spares.refl _ s) x0 x1 x2 x3 (bne_false x0)
  | fcvtp x0 x1 x2 x3 => exact execFcvtp_spares (State.Spares.refl _ s) x0 x1 x2 x3 (bne_false x0)
  | fclass x0 x1 x2 x3 => exact execFclass_spares (State.Spares.refl _ s) x0 x1 x2 x3 (bne_false x0)
  | ldb x0 x1 x2 x3 => exact execLdb_spares (State.Spares.refl _ s) x0 x1 x2 x3 (bne_false x0)
  | ldbu x0 x1 x2 x3 => exact execLdbu_spares (State.Spares.refl _ s) x0 x1 x2 x3 (bne_false x0)
  | ldh x0 x1 x2 x3 => exact execLdh_spares (State.Spares.refl _ s) x0 x1 x2 x3 (bne_false x0)
  | ldhu x0 x1 x2 x3 => exact execLdhu_spares (State.Spares.refl _ s) x0 x1 x2 x3 (bne_false x0)
  | ldw x0 x1 x2 x3 => exact execLdw_spares (State.Spares.refl _ s) x0 x1 x2 x3 (bne_false x0)
  | ldwu x0 x1 x2 x3 => exact execLdwu_spares (State.Spares.refl _ s) x0 x1 x2 x3 (bne_false x0)
  | ldd x0 x1 x2 x3 => exact execLdd_spares (State.Spares.refl _ s) x0 x1 x2 x3 (bne_false x0)
  | ldp x0 x1 x2 x3 => exact execLdp_spares (State.Spares.refl _ s) x0 x1 x2 x3 (bne_false x0)
  | lda x0 x1 x2 x3 => exact execLda_spares (State.Spares.refl _ s) x0 x1 x2 x3 (bne_false x0)
  | stb _ _ _ _ => exact OutHolds.none _ (fun d h => Bool.noConfusion h)
  | sth _ _ _ _ => exact OutHolds.none _ (fun d h => Bool.noConfusion h)
  | stw _ _ _ _ => exact OutHolds.none _ (fun d h => Bool.noConfusion h)
  | std _ _ _ _ => exact OutHolds.none _ (fun d h => Bool.noConfusion h)
  | stp _ _ _ _ => exact OutHolds.none _ (fun d h => Bool.noConfusion h)
  | stl _ _ _ _ => exact OutHolds.none _ (fun d h => Bool.noConfusion h)
  | vld x0 x1 x2 x3 => exact execVld_spares (State.Spares.refl _ s) x0 x1 x2 x3 (bne_false x0)
  | vst _ _ _ _ => exact OutHolds.none _ (fun d h => Bool.noConfusion h)
  | ldx x0 x1 x2 x3 x4 x5 => exact execLdx_spares (State.Spares.refl _ s) x0 x1 x2 x3 x4 x5 (bne_false x0)
  | stx x0 x1 x2 x3 x4 x5 x6 => exact execStx_spares (State.Spares.refl _ s) x0 x1 x2 x3 x4 x5 x6 (bne_false x0)
  | swp x0 x1 x2 x3 x4 x5 x6 => exact execSwp_spares (State.Spares.refl _ s) x0 x1 x2 x3 x4 x5 x6 (bne_false x0)
  | cas x0 x1 x2 x3 x4 x5 x6 => exact execCas_spares (State.Spares.refl _ s) x0 x1 x2 x3 x4 x5 x6 (bne_false x0)
  | amadd x0 x1 x2 x3 x4 x5 x6 => exact execAmadd_spares (State.Spares.refl _ s) x0 x1 x2 x3 x4 x5 x6 (bne_false x0)
  | amand x0 x1 x2 x3 x4 x5 x6 => exact execAmand_spares (State.Spares.refl _ s) x0 x1 x2 x3 x4 x5 x6 (bne_false x0)
  | amor x0 x1 x2 x3 x4 x5 x6 => exact execAmor_spares (State.Spares.refl _ s) x0 x1 x2 x3 x4 x5 x6 (bne_false x0)
  | amxor x0 x1 x2 x3 x4 x5 x6 => exact execAmxor_spares (State.Spares.refl _ s) x0 x1 x2 x3 x4 x5 x6 (bne_false x0)
  | ammax x0 x1 x2 x3 x4 x5 x6 => exact execAmmax_spares (State.Spares.refl _ s) x0 x1 x2 x3 x4 x5 x6 (bne_false x0)
  | ammin x0 x1 x2 x3 x4 x5 x6 => exact execAmmin_spares (State.Spares.refl _ s) x0 x1 x2 x3 x4 x5 x6 (bne_false x0)
  | mcpy _ _ _ _ => exact OutHolds.none _ (fun d h => Bool.noConfusion h)
  | mset _ _ _ _ => exact OutHolds.none _ (fun d h => Bool.noConfusion h)
  | mcmp x0 x1 x2 x3 => exact execMcmp_spares (State.Spares.refl _ s) x0 x1 x2 x3 (bne_false x0)
  | vadd x0 x1 x2 x3 x4 => exact execVadd_spares (State.Spares.refl _ s) x0 x1 x2 x3 x4 (bne_false x0)
  | vsub x0 x1 x2 x3 x4 => exact execVsub_spares (State.Spares.refl _ s) x0 x1 x2 x3 x4 (bne_false x0)
  | vand x0 x1 x2 x3 => exact execVand_spares (State.Spares.refl _ s) x0 x1 x2 x3 (bne_false x0)
  | vor x0 x1 x2 x3 => exact execVor_spares (State.Spares.refl _ s) x0 x1 x2 x3 (bne_false x0)
  | vxor x0 x1 x2 x3 => exact execVxor_spares (State.Spares.refl _ s) x0 x1 x2 x3 (bne_false x0)
  | vsll x0 x1 x2 x3 x4 => exact execVsll_spares (State.Spares.refl _ s) x0 x1 x2 x3 x4 (bne_false x0)
  | vsrl x0 x1 x2 x3 x4 => exact execVsrl_spares (State.Spares.refl _ s) x0 x1 x2 x3 x4 (bne_false x0)
  | vsra x0 x1 x2 x3 x4 => exact execVsra_spares (State.Spares.refl _ s) x0 x1 x2 x3 x4 (bne_false x0)
  | vmin x0 x1 x2 x3 x4 => exact execVmin_spares (State.Spares.refl _ s) x0 x1 x2 x3 x4 (bne_false x0)
  | vmax x0 x1 x2 x3 x4 => exact execVmax_spares (State.Spares.refl _ s) x0 x1 x2 x3 x4 (bne_false x0)
  | vmul x0 x1 x2 x3 x4 => exact execVmul_spares (State.Spares.refl _ s) x0 x1 x2 x3 x4 (bne_false x0)
  | vceq x0 x1 x2 x3 x4 => exact execVceq_spares (State.Spares.refl _ s) x0 x1 x2 x3 x4 (bne_false x0)
  | vcgt x0 x1 x2 x3 x4 => exact execVcgt_spares (State.Spares.refl _ s) x0 x1 x2 x3 x4 (bne_false x0)
  | vperm x0 x1 x2 x3 => exact execVperm_spares (State.Spares.refl _ s) x0 x1 x2 x3 (bne_false x0)
  | vsplat x0 x1 x2 x3 => exact execVsplat_spares (State.Spares.refl _ s) x0 x1 x2 x3 (bne_false x0)
  | vext x0 x1 x2 x3 x4 => exact execVext_spares (State.Spares.refl _ s) x0 x1 x2 x3 x4 (bne_false x0)
  | vfadd x0 x1 x2 x3 x4 => exact execVfadd_spares (State.Spares.refl _ s) x0 x1 x2 x3 x4 (bne_false x0)
  | vfsub x0 x1 x2 x3 x4 => exact execVfsub_spares (State.Spares.refl _ s) x0 x1 x2 x3 x4 (bne_false x0)
  | vfmul x0 x1 x2 x3 x4 => exact execVfmul_spares (State.Spares.refl _ s) x0 x1 x2 x3 x4 (bne_false x0)
  | vfma x0 x1 x2 x3 x4 => exact execVfma_spares (State.Spares.refl _ s) x0 x1 x2 x3 x4 (bne_false x0)
  | vfdiv x0 x1 x2 x3 x4 => exact execVfdiv_spares (State.Spares.refl _ s) x0 x1 x2 x3 x4 (bne_false x0)
  | vfmin x0 x1 x2 x3 x4 => exact execVfmin_spares (State.Spares.refl _ s) x0 x1 x2 x3 x4 (bne_false x0)
  | vfmax x0 x1 x2 x3 x4 => exact execVfmax_spares (State.Spares.refl _ s) x0 x1 x2 x3 x4 (bne_false x0)
  | aese x0 x1 x2 x3 => exact execAese_spares (State.Spares.refl _ s) x0 x1 x2 x3 (bne_false x0)
  | aesel x0 x1 x2 x3 => exact execAesel_spares (State.Spares.refl _ s) x0 x1 x2 x3 (bne_false x0)
  | aesd x0 x1 x2 x3 => exact execAesd_spares (State.Spares.refl _ s) x0 x1 x2 x3 (bne_false x0)
  | aesdl x0 x1 x2 x3 => exact execAesdl_spares (State.Spares.refl _ s) x0 x1 x2 x3 (bne_false x0)
  | gmul x0 x1 x2 x3 => exact execGmul_spares (State.Spares.refl _ s) x0 x1 x2 x3 (bne_false x0)
  | sha512s x0 x1 x2 x3 => exact execSha512s_spares (State.Spares.refl _ s) x0 x1 x2 x3 (bne_false x0)
  | sha512r x0 x1 x2 x3 => exact execSha512r_spares (State.Spares.refl _ s) x0 x1 x2 x3 (bne_false x0)
  | sha3f _ _ => exact OutHolds.none _ (fun d h => Bool.noConfusion h)
  | aqld x0 x1 x2 x3 => exact execAqld_spares (State.Spares.refl _ s) x0 x1 x2 x3 (bne_false x0)
  | aqst _ _ _ _ => exact OutHolds.none _ (fun d h => Bool.noConfusion h)
  | aclr x0 x1 x2 => exact execAclr_spares (State.Spares.refl _ s) x0 x1 x2 (bne_false x0)
  | aadd x0 x1 x2 x3 => exact execAadd_spares (State.Spares.refl _ s) x0 x1 x2 x3 (bne_false x0)
  | asub x0 x1 x2 x3 => exact execAsub_spares (State.Spares.refl _ s) x0 x1 x2 x3 (bne_false x0)
  | amac x0 x1 x2 x3 x4 => exact execAmac_spares (State.Spares.refl _ s) x0 x1 x2 x3 x4 (bne_false x0)
  | amacs x0 x1 x2 x3 x4 => exact execAmacs_spares (State.Spares.refl _ s) x0 x1 x2 x3 x4 (bne_false x0)
  | ascl x0 x1 x2 => exact execAscl_spares (State.Spares.refl _ s) x0 x1 x2 (bne_false x0)
  | arnd x0 x1 x2 x3 x4 => exact execArnd_spares (State.Spares.refl _ s) x0 x1 x2 x3 x4 (bne_false x0)
  | amrg x0 x1 x2 => exact execAmrg_spares (State.Spares.refl _ s) x0 x1 x2 (bne_false x0)
  | asav _ _ _ => exact OutHolds.none _ (fun d h => Bool.noConfusion h)
  | arst x0 x1 x2 => exact execArst_spares (State.Spares.refl _ s) x0 x1 x2 (bne_false x0)
  | aflg x0 x1 x2 => exact execAflg_spares (State.Spares.refl _ s) x0 x1 x2 (bne_false x0)
  | afclr x0 x1 => exact execAfclr_spares (State.Spares.refl _ s) x0 x1 (bne_false x0)
  | br x0 x1 => exact execBr_spares (State.Spares.refl _ s) x0 x1 (bne_false x0)
  | bal x0 x1 => exact execBal_spares (State.Spares.refl _ s) x0 x1 (bne_false x0)
  | bcc x0 x1 x2 x3 x4 => exact execBcc_spares (State.Spares.refl _ s) x0 x1 x2 x3 x4 (bne_false x0)
  | jalr x0 x1 x2 x3 => exact execJalr_spares (State.Spares.refl _ s) x0 x1 x2 x3 (bne_false x0)
  | jr x0 x1 x2 => exact execJr_spares (State.Spares.refl _ s) x0 x1 x2 (bne_false x0)
  | loop x0 x1 x2 => exact execLoop_spares (State.Spares.refl _ s) x0 x1 x2 (bne_false x0)
  | undefinedEncoding x0 x1 => exact execUndefinedEncoding_spares (State.Spares.refl _ s) x0 x1 (bne_false x0)
  | csrr x0 x1 x2 => exact execCsrr_spares (State.Spares.refl _ s) x0 x1 x2 (bne_false x0)
  | csrw x0 x1 x2 => exact execCsrw_spares (State.Spares.refl _ s) x0 x1 x2 (bne_false x0)
  | csrs x0 x1 x2 x3 => exact execCsrs_spares (State.Spares.refl _ s) x0 x1 x2 x3 (bne_false x0)
  | csrc x0 x1 x2 x3 => exact execCsrc_spares (State.Spares.refl _ s) x0 x1 x2 x3 (bne_false x0)
  | eret x0 => exact execEret_spares (State.Spares.refl _ s) x0 (bne_false x0)
  | calls x0 => exact execCalls_spares (State.Spares.refl _ s) x0 (bne_false x0)
  | callh x0 => exact execCallh_spares (State.Spares.refl _ s) x0 (bne_false x0)
  | callm x0 => exact execCallm_spares (State.Spares.refl _ s) x0 (bne_false x0)
  | brk x0 => exact execBrk_spares (State.Spares.refl _ s) x0 (bne_false x0)
  | wfe x0 => exact execWfe_spares (State.Spares.refl _ s) x0 (bne_false x0)
  | fence x0 x1 => exact execFence_spares (State.Spares.refl _ s) x0 x1 (bne_false x0)
  | sync x0 => exact execSync_spares (State.Spares.refl _ s) x0 (bne_false x0)
  | lbar x0 => exact execLbar_spares (State.Spares.refl _ s) x0 (bne_false x0)
  | ifence x0 => exact execIfence_spares (State.Spares.refl _ s) x0 (bne_false x0)
  | bpbar x0 => exact execBpbar_spares (State.Spares.refl _ s) x0 (bne_false x0)
  | bpflush x0 => exact execBpflush_spares (State.Spares.refl _ s) x0 (bne_false x0)
  | dcclean x0 x1 => exact execDcclean_spares (State.Spares.refl _ s) x0 x1 (bne_false x0)
  | dcflush x0 x1 => exact execDcflush_spares (State.Spares.refl _ s) x0 x1 (bne_false x0)
  | dcinv x0 x1 => exact execDcinv_spares (State.Spares.refl _ s) x0 x1 (bne_false x0)
  | dczero _ _ => exact OutHolds.none _ (fun d h => Bool.noConfusion h)
  | icinv x0 x1 => exact execIcinv_spares (State.Spares.refl _ s) x0 x1 (bne_false x0)
  | pfl x0 x1 => exact execPfl_spares (State.Spares.refl _ s) x0 x1 (bne_false x0)
  | pfs x0 x1 => exact execPfs_spares (State.Spares.refl _ s) x0 x1 (bne_false x0)
  | pfnt x0 x1 => exact execPfnt_spares (State.Spares.refl _ s) x0 x1 (bne_false x0)
  | tlbiva x0 x1 => exact execTlbiva_spares (State.Spares.refl _ s) x0 x1 (bne_false x0)
  | tlbiall x0 => exact execTlbiall_spares (State.Spares.refl _ s) x0 (bne_false x0)
  | tlbigva x0 x1 => exact execTlbigva_spares (State.Spares.refl _ s) x0 x1 (bne_false x0)
  | tlbidom x0 x1 => exact execTlbidom_spares (State.Spares.refl _ s) x0 x1 (bne_false x0)
  | npost _ _ => exact OutHolds.none _ (fun d h => Bool.noConfusion h)
  | nrecv _ _ _ => exact OutHolds.none _ (fun d h => Bool.noConfusion h)
  | nwait x0 x1 => exact execNwait_spares (State.Spares.refl _ s) x0 x1 (bne_false x0)
  | rand x0 x1 x2 => exact execRand_spares (State.Spares.refl _ s) x0 x1 x2 (bne_false x0)
  | eventEntry x0 => exact execEventEntry_spares (State.Spares.refl _ s) x0 (bne_false x0)
  | longOperationComplete x0 => exact execLongOperationComplete_spares (State.Spares.refl _ s) x0 (bne_false x0)
  | storeWriteAfterRetirement x0 => exact execStoreWriteAfterRetirement_spares (State.Spares.refl _ s) x0 (bne_false x0)
  | memoryOrderReplay x0 => exact execMemoryOrderReplay_spares (State.Spares.refl _ s) x0 (bne_false x0)
  | streamPrefetch x0 => exact execStreamPrefetch_spares (State.Spares.refl _ s) x0 (bne_false x0)
  | sideBufferEntryExpire x0 x1 => exact execSideBufferEntryExpire_spares (State.Spares.refl _ s) x0 x1 (bne_false x0)
  | windowLockComplete x0 x1 => exact execWindowLockComplete_spares (State.Spares.refl _ s) x0 x1 (bne_false x0)
  | cacheWalkComplete x0 => exact execCacheWalkComplete_spares (State.Spares.refl _ s) x0 (bne_false x0)
  | rds x0 x1 x2 x3 x4 x5 => exact execRds_spares (State.Spares.refl _ s) x0 x1 x2 x3 x4 x5 (bne_false x0)
  | rdx x0 x1 x2 x3 x4 x5 => exact execRdx_spares (State.Spares.refl _ s) x0 x1 x2 x3 x4 x5 (bne_false x0)
  | upg x0 x1 => exact execUpg_spares (State.Spares.refl _ s) x0 x1 (bne_false x0)
  | rdz x0 x1 x2 x3 => exact execRdz_spares (State.Spares.refl _ s) x0 x1 x2 x3 (bne_false x0)
  | wb x0 x1 => exact execWb_spares (State.Spares.refl _ s) x0 x1 (bne_false x0)
  | evn x0 x1 => exact execEvn_spares (State.Spares.refl _ s) x0 x1 (bne_false x0)
  | crd _ _ _ => exact execCrd_spares (State.Spares.refl _ s) ..
  | cwr _ _ _ _ => exact execCwr_spares (State.Spares.refl _ s) ..
  | grantAcknowledgement x0 x1 => exact execGrantAcknowledgement_spares (State.Spares.refl _ s) x0 x1 (bne_false x0)
  | forwardShared x0 x1 => exact execForwardShared_spares (State.Spares.refl _ s) x0 x1 (bne_false x0)
  | forwardExclusive x0 x1 => exact execForwardExclusive_spares (State.Spares.refl _ s) x0 x1 (bne_false x0)
  | invalidation x0 x1 => exact execInvalidation_spares (State.Spares.refl _ s) x0 x1 (bne_false x0)
  | slcWaymaskWrite _ _ => exact execSlcWaymaskWrite_spares (State.Spares.refl _ s) ..
  | leakyBucketLeak _ => exact execLeakyBucketLeak_spares (State.Spares.refl _ s) ..
  | dieLinkFlitReceive _ _ _ => exact execDieLinkFlitReceive_spares (State.Spares.refl _ s) ..
  | linkRetrainComplete _ _ _ _ => exact OutHolds.none _ (fun d h => Bool.noConfusion h)
  | meshFlitError _ _ _ _ => exact OutHolds.none _ (fun d h => Bool.noConfusion h)
  | readyEvaluation _ => exact execReadyEvaluation_spares (State.Spares.refl _ s) ..
  | rootSampling => exact execRootSampling_spares (State.Spares.refl _ s)
  | tickBoundary => exact OutHolds.none _ (fun d h => Bool.noConfusion h)
  | toStoreStage _ => exact execToStoreStage_spares (State.Spares.refl _ s) ..
  | publishAcknowledgement _ => exact execPublishAcknowledgement_spares (State.Spares.refl _ s) ..
  | actionRegister _ => exact execActionRegister_spares (State.Spares.refl _ s) ..
  | actionResendRound _ => exact execActionResendRound_spares (State.Spares.refl _ s) ..
  | tickTimerPost x0 => exact execTickTimerPost_spares (State.Spares.refl _ s) x0 (bne_false x0)
  | holdLimitSlip _ => exact OutHolds.none _ (fun d h => Bool.noConfusion h)
  | ppsEdge _ => exact execPpsEdge_spares (State.Spares.refl _ s) ..
  | ppsLost => exact execPpsLost_spares (State.Spares.refl _ s)
  | routerPost _ => exact execRouterPost_spares (State.Spares.refl _ s) ..
  | msiMessage _ _ _ _ => exact execMsiMessage_spares (State.Spares.refl _ s) ..
  | heldPostDelivery _ _ => exact execHeldPostDelivery_spares (State.Spares.refl _ s) ..
  | routeWrite _ _ _ => exact execRouteWrite_spares (State.Spares.refl _ s) ..
  | logRecordWrite _ _ => exact execLogRecordWrite_spares (State.Spares.refl _ s) ..
  | logHtailWrite _ _ => exact execLogHtailWrite_spares (State.Spares.refl _ s) ..
  | stateErrorDetected _ => exact OutHolds.none _ (fun d h => Bool.noConfusion h)
  | chipFatalStop _ _ => exact OutHolds.none _ (fun d h => Bool.noConfusion h)
  | pllLossOfLock => exact OutHolds.none _ (fun d h => Bool.noConfusion h)
  | pllLock => exact execPllLock_spares (State.Spares.refl _ s)
  | memRead _ _ _ _ _ => exact execMemRead_spares (State.Spares.refl _ s) ..
  | dramReread _ _ => exact execDramReread_spares (State.Spares.refl _ s) ..
  | memWrite _ _ _ _ _ _ => exact execMemWrite_spares (State.Spares.refl _ s) ..
  | partialWrite _ _ _ _ _ => exact execPartialWrite_spares (State.Spares.refl _ s) ..
  | mergeEntryClose _ _ _ => exact execMergeEntryClose_spares (State.Spares.refl _ s) ..
  | rowIdleClose _ _ => exact execRowIdleClose_spares (State.Spares.refl _ s) ..
  | refreshBank _ _ => exact execRefreshBank_spares (State.Spares.refl _ s) ..
  | calibrationWindowOpen _ => exact execCalibrationWindowOpen_spares (State.Spares.refl _ s) ..
  | calibrationWindowClose _ => exact execCalibrationWindowClose_spares (State.Spares.refl _ s) ..
  | writeCrcError _ _ => exact execWriteCrcError_spares (State.Spares.refl _ s) ..
  | retrainChan _ => exact execRetrainChan_spares (State.Spares.refl _ s) ..
  | retrainComplete _ _ => exact execRetrainComplete_spares (State.Spares.refl _ s) ..
  | channelIdleRet _ => exact execChannelIdleRet_spares (State.Spares.refl _ s) ..
  | channelWake _ => exact execChannelWake_spares (State.Spares.refl _ s) ..
  | trainChan _ _ => exact execTrainChan_spares (State.Spares.refl _ s) ..
  | fillComplete => exact execFillComplete_spares (State.Spares.refl _ s)
  | scrubPassStart _ => exact execScrubPassStart_spares (State.Spares.refl _ s) ..
  | scrubRead _ _ => exact execScrubRead_spares (State.Spares.refl _ s) ..
  | deviceBankBucketLeak _ => exact execDeviceBankBucketLeak_spares (State.Spares.refl _ s) ..
  | markConfirm _ => exact execMarkConfirm_spares (State.Spares.refl _ s) ..
  | rowRepairLive _ _ _ => exact execRowRepairLive_spares (State.Spares.refl _ s) ..
  | keyLoad => exact execKeyLoad_spares (State.Spares.refl _ s)
  | keyGenerate => exact execKeyGenerate_spares (State.Spares.refl _ s)
  | keyNull => exact execKeyNull_spares (State.Spares.refl _ s)
  | keyCommandComplete => exact execKeyCommandComplete_spares (State.Spares.refl _ s)
  | tlbShootdown => exact execTlbShootdown_spares (State.Spares.refl _ s)
  | shootdownComplete => exact execShootdownComplete_spares (State.Spares.refl _ s)
  | atsInvalidateCompletion _ _ => exact execAtsInvalidateCompletion_spares (State.Spares.refl _ s) ..
  | atsInvalidationTimeout _ _ => exact execAtsInvalidationTimeout_spares (State.Spares.refl _ s) ..
  | dmaRequest _ _ _ _ _ _ => exact execDmaRequest_spares (State.Spares.refl _ s) ..
  | translatedRequest _ _ _ _ _ _ => exact execTranslatedRequest_spares (State.Spares.refl _ s) ..
  | atsTranslationRequest _ _ _ _ => exact execAtsTranslationRequest_spares (State.Spares.refl _ s) ..
  | pageRequest _ _ _ _ _ _ _ => exact execPageRequest_spares (State.Spares.refl _ s) ..
  | pageRequestGroupResponse _ _ => exact execPageRequestGroupResponse_spares (State.Spares.refl _ s) ..
  | iotEqbWrite _ _ => exact execIotEqbWrite_spares (State.Spares.refl _ s) ..
  | dbTailWrite _ _ _ _ => exact execDbTailWrite_spares (State.Spares.refl _ s) ..
  | resumeDesc _ _ _ => exact execResumeDesc_spares (State.Spares.refl _ s) ..
  | skipDesc _ _ _ => exact execSkipDesc_spares (State.Spares.refl _ s) ..
  | enableInst _ _ => exact execEnableInst_spares (State.Spares.refl _ s) ..
  | quiesceInst _ _ _ => exact execQuiesceInst_spares (State.Spares.refl _ s) ..
  | quiesceComplete _ _ => exact execQuiesceComplete_spares (State.Spares.refl _ s) ..
  | runInst _ _ => exact execRunInst_spares (State.Spares.refl _ s) ..
  | resetInst _ _ => exact execResetInst_spares (State.Spares.refl _ s) ..
  | saveInst _ _ => exact execSaveInst_spares (State.Spares.refl _ s) ..
  | restoreInst _ _ => exact execRestoreInst_spares (State.Spares.refl _ s) ..
  | instCmdUndefined _ _ _ => exact execInstCmdUndefined_spares (State.Spares.refl _ s) ..
  | chunkDispatch _ => exact execChunkDispatch_spares (State.Spares.refl _ s) ..
  | descriptorStart _ _ => exact execDescriptorStart_spares (State.Spares.refl _ s) ..
  | chunkComplete _ _ => exact execChunkComplete_spares (State.Spares.refl _ s) ..
  | descriptorCompletion _ _ => exact execDescriptorCompletion_spares (State.Spares.refl _ s) ..
  | apertureWrite _ _ _ _ _ _ _ _ => exact execApertureWrite_spares (State.Spares.refl _ s) ..
  | ibwCommit _ _ => exact execIbwCommit_spares (State.Spares.refl _ s) ..
  | ibwCommitPoint _ => exact execIbwCommitPoint_spares (State.Spares.refl _ s) ..
  | functionContainment _ _ _ _ => exact execFunctionContainment_spares (State.Spares.refl _ s) ..
  | containmentRelease _ => exact execContainmentRelease_spares (State.Spares.refl _ s) ..
  | containmentReleaseEffect _ => exact execContainmentReleaseEffect_spares (State.Spares.refl _ s) ..
  | powerstateWrite _ _ => exact execPowerstateWrite_spares (State.Spares.refl _ s) ..
  | pmeStatusClear _ => exact execPmeStatusClear_spares (State.Spares.refl _ s) ..
  | commandRegisterWrite _ _ => exact execCommandRegisterWrite_spares (State.Spares.refl _ s) ..
  | msixEntryUnmask _ _ => exact execMsixEntryUnmask_spares (State.Spares.refl _ s) ..
  | linkTraining _ _ _ _ _ _ => exact execLinkTraining_spares (State.Spares.refl _ s) ..
  | completionReceived _ _ _ _ _ _ => exact OutHolds.none _ (fun d h => Bool.noConfusion h)
  | completionTimeout _ _ _ => exact OutHolds.none _ (fun d h => Bool.noConfusion h)
  | tagQuarantineEnd _ _ _ => exact execTagQuarantineEnd_spares (State.Spares.refl _ s) ..
  | crsRetry _ _ _ => exact execCrsRetry_spares (State.Spares.refl _ s) ..
  | pcieMessageReceived _ _ _ _ => exact execPcieMessageReceived_spares (State.Spares.refl _ s) ..
  | errorMessageReceived _ _ _ _ => exact OutHolds.none _ (fun d h => Bool.noConfusion h)
  | pmeMessageReceived _ _ _ => exact execPmeMessageReceived_spares (State.Spares.refl _ s) ..
  | downstreamRequest _ _ _ _ _ _ _ _ _ => exact execDownstreamRequest_spares (State.Spares.refl _ s) ..
  | linkErrorCorrected _ _ _ => exact execLinkErrorCorrected_spares (State.Spares.refl _ s) ..
  | dpcTrigger _ _ _ _ => exact OutHolds.none _ (fun d h => Bool.noConfusion h)
  | dpcTriggerStatusClear _ _ => exact execDpcTriggerStatusClear_spares (State.Spares.refl _ s) ..
  | retEntryComplete _ => exact OutHolds.none _ (fun d h => Bool.noConfusion h)
  | coreWake x0 => exact execCoreWake_spares (State.Spares.refl _ s) x0 (bne_false x0)
  | powerTransitionComplete _ => exact OutHolds.none _ (fun d h => Bool.noConfusion h)
  | padholdRel _ => exact execPadholdRel_spares (State.Spares.refl _ s) ..
  | stackIdleRet _ => exact OutHolds.none _ (fun d h => Bool.noConfusion h)
  | stackWake _ _ => exact execStackWake_spares (State.Spares.refl _ s) ..
  | daybreak _ => exact OutHolds.none _ (fun d h => Bool.noConfusion h)
  | telemetrySample _ _ _ => exact execTelemetrySample_spares (State.Spares.refl _ s) ..
  | resetNAssert => exact OutHolds.none _ (fun d h => Bool.noConfusion h)
  | startDevice => exact execStartDevice_spares (State.Spares.refl _ s)
  | phaseOverrun => exact execPhaseOverrun_spares (State.Spares.refl _ s)
  | slotSelection => exact OutHolds.none _ (fun d h => Bool.noConfusion h)
  | handover => exact execHandover_spares (State.Spares.refl _ s)
  | releaseBoot => exact execReleaseBoot_spares (State.Spares.refl _ s)
  | lockBoot => exact execLockBoot_spares (State.Spares.refl _ s)
  | bootLockTimeout => exact execBootLockTimeout_spares (State.Spares.refl _ s)
  | releaseComplete => exact OutHolds.none _ (fun d h => Bool.noConfusion h)
  | imageSessionOpen _ => exact execImageSessionOpen_spares (State.Spares.refl _ s) ..
  | imageHeader _ => exact execImageHeader_spares (State.Spares.refl _ s) ..
  | imageBody _ => exact execImageBody_spares (State.Spares.refl _ s) ..
  | finalizeImg => exact OutHolds.none _ (fun d h => Bool.noConfusion h)
  | liveRestartComplete => exact execLiveRestartComplete_spares (State.Spares.refl _ s)
  | monitorPlacement => exact execMonitorPlacement_spares (State.Spares.refl _ s)
  | nonceSign _ _ => exact execNonceSign_spares (State.Spares.refl _ s) ..
  | slateRead _ _ _ _ _ => exact OutHolds.none _ (fun d h => Bool.noConfusion h)
  | slateWrite _ _ _ _ _ => exact OutHolds.none _ (fun d h => Bool.noConfusion h)
  | slateStage _ _ _ _ _ => exact OutHolds.none _ (fun d h => Bool.noConfusion h)
  | slateCommit _ _ _ => exact OutHolds.none _ (fun d h => Bool.noConfusion h)
  | slateDiscard _ _ _ => exact OutHolds.none _ (fun d h => Bool.noConfusion h)
  | snapshotTimeout _ => exact execSnapshotTimeout_spares (State.Spares.refl _ s) ..
  | writeBufferTimeout _ => exact execWriteBufferTimeout_spares (State.Spares.refl _ s) ..
  | logFldPointerWrite _ _ => exact execLogFldPointerWrite_spares (State.Spares.refl _ s) ..
  | proposalReject _ => exact execProposalReject_spares (State.Spares.refl _ s) ..
  | spiReadStatus => exact execSpiReadStatus_spares (State.Spares.refl _ s)
  | spiWriteMessage _ => exact OutHolds.none _ (fun d h => Bool.noConfusion h)
  | spiWriteMessageQuad _ => exact OutHolds.none _ (fun d h => Bool.noConfusion h)
  | spiReadResponse _ => exact execSpiReadResponse_spares (State.Spares.refl _ s) ..
  | spiReadResponseQuad _ => exact execSpiReadResponseQuad_spares (State.Spares.refl _ s) ..
  | spiTransactionNak _ _ => exact execSpiTransactionNak_spares (State.Spares.refl _ s) ..
  | fieldFrame _ => exact OutHolds.none _ (fun d h => Bool.noConfusion h)
  | busOffRecovery => exact execBusOffRecovery_spares (State.Spares.refl _ s)
  | hostMailboxGo _ => exact OutHolds.none _ (fun d h => Bool.noConfusion h)
  | idcodeTap => exact execIdcodeTap_spares (State.Spares.refl _ s)
  | slateTap _ _ => exact OutHolds.none _ (fun d h => Bool.noConfusion h)
  | clearTap => exact execClearTap_spares (State.Spares.refl _ s)
  | scanTap => exact execScanTap_spares (State.Spares.refl _ s)
  | bypassTap _ => exact execBypassTap_spares (State.Spares.refl _ s) ..
  | lbistDemandStart _ _ => exact execLbistDemandStart_spares (State.Spares.refl _ s) ..
  | lbistAbort _ _ => exact execLbistAbort_spares (State.Spares.refl _ s) ..
  | lbistPatternTimeout _ _ => exact execLbistPatternTimeout_spares (State.Spares.refl _ s) ..
  | lbistRunEnd _ _ _ _ _ => exact execLbistRunEnd_spares (State.Spares.refl _ s) ..
  | blockReplacementComplete _ => exact OutHolds.none _ (fun d h => Bool.noConfusion h)
  | blockTestEnd _ _ _ _ => exact execBlockTestEnd_spares (State.Spares.refl _ s) ..
  | thermalTrip _ => exact OutHolds.none _ (fun d h => Bool.noConfusion h)
  | pwrgoodLoss => exact OutHolds.none _ (fun d h => Bool.noConfusion h)
  | registerWrite _ _ _ => exact OutHolds.none _ (fun d h => Bool.noConfusion h)
  | powerOn => exact OutHolds.none _ (fun d h => Bool.noConfusion h)
  | powerRemoved => exact OutHolds.none _ (fun d h => Bool.noConfusion h)
  | railRangeChange _ _ => exact execRailRangeChange_spares (State.Spares.refl _ s) ..
  | busError _ _ => exact execBusError_spares (State.Spares.refl _ s) ..
  | canFdClockSwitch => exact execCanFdClockSwitch_spares (State.Spares.refl _ s)
  | morningRestartComplete _ => exact execMorningRestartComplete_spares (State.Spares.refl _ s) ..
  | commandSlot _ => exact execCommandSlot_spares (State.Spares.refl _ s) ..

/-- The registers that a command leaves. -/
theorem exec_next_spares {i : Instr} {s t : State} (h : exec i s = .next t) {d : Nat} (hd : leavesCore d i = true) :
    (t.core d).arch = (s.core d).arch := by
  have := exec_spares i s
  rw [h] at this
  exact this.core d hd

end Sys2Proof.Machine
end

section
/-! SUPPORT. The scope of the model: what one step can do, what the state right after reset holds, and the obligations that
follow from the laws of State.Keeps and State.Spares for every command. -/

namespace Sys2Proof.Machine

/-! ### What one step can do (log 3) -/

/-- A step on an empty queue idles. -/
theorem step_of_pending_nil {s : State} (h : s.pending = []) : step s = .next s := by
  simp only [step, h]

/-- A step on a queue that is not empty is the front command on the state with the rest of the queue. -/
theorem step_of_pending_cons {s : State} {i : Instr} {rest : List Instr} (h : s.pending = i :: rest) :
    step s = exec i { s with pending := rest } := by
  simp only [step, h]

/-- The two ways in which a step reaches a next state. -/
theorem step_next_cases {s t : State} (h : step s = .next t) :
    (s.pending = [] ∧ t = s) ∨
      ∃ i rest, s.pending = i :: rest ∧ exec i { s with pending := rest } = .next t := by
  cases hp : s.pending with
  | nil =>
    rw [step_of_pending_nil hp] at h
    exact .inl ⟨rfl, (Host.Outcome.next.inj h).symm⟩
  | cons i rest =>
    rw [step_of_pending_cons hp] at h
    exact .inr ⟨i, rest, rfl, h⟩

/-! ### The queue is no memory and no core -/

theorem State.memOk_pending {s : State} {q : List Instr} : State.MemOk { s with pending := q } ↔ s.MemOk := Iff.rfl

theorem State.core_pending {s : State} {q : List Instr} {c : Nat} :
    State.core { s with pending := q } c = s.core c := rfl

/-! ### The units of the reset state, by number: each is at its own reset value (R12) -/

@[simp] theorem State.core_reset (c : Nat) : State.reset.core c = Core.reset := rfl
@[simp] theorem State.region_reset (r : Nat) : State.reset.region r = Region.reset := rfl
@[simp] theorem State.dom_reset (i : Nat) : State.reset.dom i = Pwr.reset := rfl
@[simp] theorem State.stage_reset (p : Nat) : State.reset.stage p = Stage.reset := rfl

/-- The chip's log and the log of every region. -/
@[simp] theorem State.log_reset (l : Nat) : State.reset.log l = Log.reset := by
  unfold State.log
  split
  · rfl
  · rw [State.region_reset]; rfl

/-! ### The obligations -/

/-- Settles O5: every command keeps the canonical form (State.Keeps, the field mem), and idling changes nothing. -/
theorem memoryStaysCanonical : Obligations.MemoryStaysCanonical := by
  intro s t hs ht
  obtain ⟨_, rfl⟩ | ⟨i, rest, _, hexec⟩ := step_next_cases ht
  · exact hs
  · exact (exec_next_keeps hexec).mem (State.memOk_pending.mpr hs)

/-- Settles O7: every command spares the cores that leavesCore gives it (State.Spares), and a step hands its command a
state with the same cores. -/
theorem registersConfined : Obligations.RegistersConfined := by
  constructor
  · intro i s t d hexec hd
    exact exec_next_spares hexec hd
  · intro i rest s t d hp ht hd
    rw [step_of_pending_cons hp] at ht
    rw [exec_next_spares ht hd, State.core_pending]

/-- Settles O2: every unit of the reset state is at its own reset value, and those hold what the rules give. -/
theorem resetValues : Obligations.ResetValues := by
  refine ⟨fun c => ?core, fun i => ?dom, rfl, rfl, rfl, rfl, rfl, rfl, fun _ => rfl, fun p => ?stage, rfl, rfl,
    fun l => ?log, rfl⟩
  case core =>
    rw [State.core_reset]
    exact ⟨rfl, rfl, rfl, rfl, rfl, rfl, rfl, rfl, rfl, rfl, rfl, rfl, rfl, rfl, rfl⟩
  case dom => rw [State.dom_reset]; exact ⟨rfl, rfl⟩
  case stage => rw [State.stage_reset]; rfl
  case log => rw [State.log_reset]; exact ⟨rfl, rfl, rfl⟩

/-- Settles O6: every memory of the reset state lists no byte. -/
theorem memoryAtReset : Obligations.MemoryAtReset := ⟨rfl, rfl, rfl, rfl⟩

end Sys2Proof.Machine
end

section
/-! SUPPORT. Totality of the commands, the passing of cycles and the retirement of an instruction (R49, R61, R85, R103). -/

namespace Sys2Proof.Machine

/-! ### Every command answers a next state (logs 1 and 2) -/

/-- No arm of exec refuses its command or stops the device: each is a next state at its head. -/
theorem exec_completes (i : Instr) (s : State) : ∃ t, exec i s = .next t := by
  cases i <;> exact ⟨_, rfl⟩

theorem step_completes (s : State) : ∃ t, step s = .next t := by
  cases hp : s.pending with
  | nil => exact ⟨s, step_of_pending_nil hp⟩
  | cons i rest =>
    rw [step_of_pending_cons hp]
    exact exec_completes i _

/-! ### Cycles (R61, log 12) -/

theorem State.cycles_metered {s : State} {c met : Nat} (h : (s.core c).meter = true) :
    s.cycles c met = s.modCore c (fun k => { k with cycle := k.cycle + BitVec.ofNat 64 met }) := by
  simp [State.cycles, h, State.modCore]

theorem State.cycles_free {s : State} {c met : Nat} (h : (s.core c).meter = false) :
    s.cycles c met = { s with free := s.free + 1 }.modCore c
      (fun k => { k with cycle := k.cycle + BitVec.ofNat 64 (Config.freeCycles s.free) }) := by
  rw [State.cycles, if_neg (by simp [h])]; rfl

/-- Cycles change CYCLE of their core and nothing else of it. -/
theorem State.core_cycles (s : State) (c met : Nat) :
    ∃ cyc, (s.cycles c met).core c = { s.core c with cycle := cyc } := by
  cases h : (s.core c).meter with
  | true => exact ⟨_, by rw [State.cycles_metered h, State.core_modCore]⟩
  | false => exact ⟨_, by rw [State.cycles_free h, State.core_modCore]; rfl⟩

theorem State.core_cycles_ne (s : State) {c d : Nat} (met : Nat) (hd : d ≠ c) : (s.cycles c met).core d = s.core d := by
  cases h : (s.core c).meter with
  | true => rw [State.cycles_metered h, State.core_modCore_ne _ _ hd]
  | false => rw [State.cycles_free h, State.core_modCore_ne _ _ hd]; rfl

/-- Cycles change only the cores and the counter of free values. -/
theorem State.cycles_frame (s : State) (c met : Nat) :
    { s.cycles c met with cores := s.cores, free := s.free } = s := by
  cases h : (s.core c).meter with
  | true => rw [State.cycles_metered h]; rfl
  | false => rw [State.cycles_free h]; rfl

/-! ### Retirement (R85, R103) -/

/-- The loop rule changes LC and the PC and nothing else of a core. -/
theorem Core.loopRetire_eq (k : Core) (taken : Bool) (next : W64) :
    k.loopRetire taken next =
      { k with pc := (k.loopRetire taken next).pc, lc := (k.loopRetire taken next).lc } := by
  unfold Core.loopRetire
  split_ifs <;> rfl

theorem Core.loopValid_iff (k : Core) : k.loopValid = true ↔
    k.ls.toNat % 4 = 0 ∧ k.le.toNat % 4 = 0 ∧ k.ls.toNat ≤ k.le.toNat ∧ k.le.toNat - k.ls.toNat ≤ 252 := by
  simp [Core.loopValid, and_assoc]

/-- No loop is active. -/
theorem Core.loopRetire_inactive {k : Core} (h : ¬ (k.lc ≠ 0 ∧ k.loopValid = true)) (taken : Bool) (next : W64) :
    k.loopRetire taken next = { k with pc := next } := by
  have h' : k.lc = 0 ∨ k.loopValid = false := by
    by_cases hl : k.lc = 0
    · exact .inl hl
    · exact .inr (Bool.eq_false_iff.mpr (fun hv => h ⟨hl, hv⟩))
  rw [Core.loopRetire, if_pos h']

/-- The last instruction of an active loop's body, not a taken branch. -/
theorem Core.loopRetire_end {k : Core} (hlc : k.lc ≠ 0) (hv : k.loopValid = true) (hpc : k.pc = k.le) (next : W64) :
    k.loopRetire false next = { k with lc := k.lc - 1, pc := if k.lc - 1 ≠ 0 then k.ls else next } := by
  rw [Core.loopRetire, if_neg (not_or.mpr ⟨hlc, by simp [hv]⟩), if_pos ⟨hpc, rfl⟩]

/-- A taken branch out of an active loop's body. -/
theorem Core.loopRetire_leave {k : Core} {next : W64} (hlc : k.lc ≠ 0) (hv : k.loopValid = true)
    (hin : k.ls.toNat ≤ k.pc.toNat ∧ k.pc.toNat ≤ k.le.toNat)
    (hout : ¬ (k.ls.toNat ≤ next.toNat ∧ next.toNat ≤ k.le.toNat)) :
    k.loopRetire true next = { k with lc := 0, pc := next } := by
  rw [Core.loopRetire, if_neg (not_or.mpr ⟨hlc, by simp [hv]⟩), if_neg (by simp), if_pos ⟨hin.1, hin.2, rfl, hout⟩]

/-- In an active loop, neither the end of the body nor a taken branch out of it. -/
theorem Core.loopRetire_go {k : Core} {taken : Bool} {next : W64} (hlc : k.lc ≠ 0) (hv : k.loopValid = true)
    (hend : ¬ (k.pc = k.le ∧ taken = false))
    (hleave : ¬ ((k.ls.toNat ≤ k.pc.toNat ∧ k.pc.toNat ≤ k.le.toNat) ∧ taken = true
      ∧ ¬ (k.ls.toNat ≤ next.toNat ∧ next.toNat ≤ k.le.toNat))) :
    k.loopRetire taken next = { k with pc := next } := by
  rw [Core.loopRetire, if_neg (not_or.mpr ⟨hlc, by simp [hv]⟩), if_neg hend, if_neg (by simpa only [and_assoc] using hleave)]

/-- What a retirement leaves of its core. -/
theorem State.core_retire (b : State) (c met : Nat) (taken : Bool) (next : W64) :
    ∃ cyc, (b.retire c met taken next).core c = { b.core c with
      pc := ((b.core c).loopRetire taken next).pc, lc := ((b.core c).loopRetire taken next).lc, cycle := cyc
      instret := (b.core c).instret + 1, half := none, strDone := 0, strKey := none } := by
  obtain ⟨cyc, h⟩ := (b.retireNow c taken next).core_cycles c met
  refine ⟨cyc, ?_⟩
  rw [State.retire, h, State.retireNow, State.core_modCore, Core.loopRetire_eq]

theorem State.core_retire_ne (b : State) {c d : Nat} (met : Nat) (taken : Bool) (next : W64) (hd : d ≠ c) :
    (b.retire c met taken next).core d = b.core d := by
  rw [State.retire, State.core_cycles_ne _ _ hd, State.retireNow, State.core_modCore_ne _ _ hd]

theorem State.retire_frame (b : State) (c met : Nat) (taken : Bool) (next : W64) :
    { b.retire c met taken next with cores := b.cores, free := b.free } = b := by
  have h := (b.retireNow c taken next).cycles_frame c met
  calc
    _ = { { (b.retireNow c taken next).cycles c met with
          cores := (b.retireNow c taken next).cores, free := (b.retireNow c taken next).free } with
          cores := b.cores, free := b.free } := rfl
    _ = _ := by rw [h]; rfl

/-- A metered core's CYCLE counts the instruction's own cycles, and no free value is drawn. -/
theorem State.retire_metered {b : State} {c : Nat} (h : (b.core c).meter = true) (met : Nat) (taken : Bool) (next : W64) :
    ((b.retire c met taken next).core c).cycle = (b.core c).cycle + BitVec.ofNat 64 met
      ∧ (b.retire c met taken next).free = b.free := by
  have hm : ((b.retireNow c taken next).core c).meter = true := by
    rw [State.retireNow, State.core_modCore, Core.loopRetire_eq]; exact h
  rw [State.retire, State.cycles_metered hm]
  refine ⟨?_, rfl⟩
  rw [State.core_modCore, State.retireNow, State.core_modCore, Core.loopRetire_eq]

/-! ### The obligations -/

/-- Settles O1: the two equations of step. -/
theorem stepRunsFront : Obligations.StepRunsFront :=
  ⟨fun _ _ _ hp => step_of_pending_cons hp, fun _ hp => step_of_pending_nil hp⟩

/-- Settles O3: each arm of exec is a next state, and a step is an arm of exec or idles. -/
theorem everyCommandCompletes : Obligations.EveryCommandCompletes := ⟨exec_completes, step_completes⟩

/-- Settles O32: the four cases of the loop rule, and the frame of the retirement. -/
theorem retirementRule : Obligations.RetirementRule := by
  intro b c met taken next k t valid body active result
  obtain ⟨cyc, hcore⟩ := b.core_retire c met taken next
  have hvalid : k.loopValid = true ↔ valid := k.loopValid_iff
  have hresult {pc lc} (h : k.loopRetire taken next = { k with pc, lc }) : result pc lc :=
    ⟨cyc, by rw [hcore, show (b.core c).loopRetire taken next = _ from h]⟩
  have hgo (hact : active) (hend : ¬ (k.pc = k.le ∧ taken = false))
      (hleave : ¬ (body k.pc ∧ taken = true ∧ ¬ body next)) : result next k.lc :=
    hresult (Core.loopRetire_go hact.1 (hvalid.mpr hact.2) hend hleave)
  refine ⟨?again, ?last, ?leave, ?inside, ?next, ?outside, ?inactive, ?metered, ?others, b.retire_frame ..⟩
  case again =>
    rintro ⟨hlc, hv⟩ hpc rfl hne
    have hsub : k.lc - 1 ≠ 0 := sub_ne_zero.mpr hne
    exact hresult (by rw [Core.loopRetire_end hlc (hvalid.mpr hv) hpc, if_pos hsub])
  case last =>
    rintro ⟨hlc, hv⟩ hpc rfl hone
    exact hresult (by rw [Core.loopRetire_end hlc (hvalid.mpr hv) hpc, hone]; rfl)
  case leave =>
    rintro ⟨hlc, hv⟩ hin rfl hout
    exact hresult (Core.loopRetire_leave hlc (hvalid.mpr hv) hin hout)
  case inside => exact fun hact htaken hin => hgo hact (by simp [htaken]) (fun h => h.2.2 hin)
  case next => exact fun hact htaken hne => hgo hact (fun h => hne h.1) (by simp [htaken])
  case outside =>
    intro hact hout
    refine hgo hact (fun h => hout ?_) (fun h => hout h.1)
    rw [h.1]
    exact ⟨hact.2.2.2.1, le_refl _⟩
  case inactive => exact fun h => hresult (Core.loopRetire_inactive (fun h' => h ⟨h'.1, hvalid.mp h'.2⟩) ..)
  case metered => exact fun h => State.retire_metered h ..
  case others => exact fun d hd => State.core_retire_ne _ _ _ _ hd

end Sys2Proof.Machine
end

section
/-! SUPPORT. The event registers of a level, the frame of an event, and event entry (R45, R46). -/

namespace Sys2Proof.Machine

/-! ### The event registers of a level (R34) -/

theorem Lvl.num_inj {l j : Lvl} : l.num = j.num ↔ l = j := by
  cases l <;> cases j <;> decide

theorem Lvl.num_eq_zero {l : Lvl} : l.num = 0 ↔ l = .u := Lvl.num_inj (j := .u)

/-- The event registers are three banks: what agrees on these agrees on the registers of every level. -/
theorem Core.bank_congr {k k' : Core} (hs : k.bankS = k'.bankS) (hh : k.bankH = k'.bankH) (hm : k.bankM = k'.bankM)
    (l : Lvl) : k.bank l = k'.bank l := by
  cases l with
  | u => rfl
  | s => exact hs
  | h => exact hh
  | m => exact hm

theorem Core.bank_setBank {l : Lvl} (hl : l ≠ .u) (k : Core) (b : EvBank) : (k.setBank l b).bank l = b := by
  cases l with
  | u => exact absurd rfl hl
  | s => rfl
  | h => rfl
  | m => rfl

theorem Core.bank_setBank_ne {l j : Lvl} (hj : j ≠ l) (k : Core) (b : EvBank) : (k.setBank l b).bank j = k.bank j := by
  cases l <;> cases j <;> simp [Core.setBank, Core.bank] at hj ⊢

/-- A break changes its own record and nothing else of a core (R119). -/
theorem Core.brk_eq (k : Core) (cause : Nat) (pc : W64) :
    k.brk cause pc = { k with
      mbreak := (k.brk cause pc).mbreak, mcause := (k.brk cause pc).mcause, mbpc := (k.brk cause pc).mbpc } := by
  unfold Core.brk
  split_ifs <;> rfl

/-! ### The frame (R45) -/

theorem frameBytes_length (k : Core) (pc cause addr : W64) : (frameBytes k pc cause addr).length = 192 := by
  simp [frameBytes]

/-- Three lines hold the bytes of a frame, in order. -/
theorem append_three_lines {α : Type} {l : List α} (h : l.length = 192) :
    l.take 64 ++ (l.drop 64).take 64 ++ (l.drop 128).take 64 = l := by
  have h3 : (l.drop 128).take 64 = l.drop 128 := List.take_of_length_le (by simp [h])
  have h2 : (l.drop 64).take 64 ++ l.drop 128 = l.drop 64 := by
    rw [show l.drop 128 = (l.drop 64).drop 64 by rw [List.drop_drop]]
    exact List.take_append_drop ..
  rw [h3, List.append_assoc, h2, List.take_append_drop]

/-- The store of a line of a frame, from core `k` (R46, R101). -/
def frameStore (k : Core) (tgt : Lvl) (a : CoreAcc) (bytes : List Byte) : SqEntry :=
  { pa := a.pa, bytes, td := k.tdAt tgt, ks := a.ks, zero := false, tord := none, pc := k.pc, old := false }

/-- The stores of a frame, line by line (R46, R101). -/
def frameStores (k : Core) (tgt : Lvl) (x y z : CoreAcc) (bytes : List Byte) : List SqEntry :=
  [frameStore k tgt x (bytes.take 64), frameStore k tgt y ((bytes.drop 64).take 64),
    frameStore k tgt z ((bytes.drop 128).take 64)]

/-- The event registers `b` of level `tgt` after event `e` (R34, R45). -/
def EvBank.entered (b : EvBank) (e : Exc) (tgt : Lvl) : EvBank :=
  { b with
    frame := BitVec.ofNat 64 (b.frame.toNat - 192), cause := causeWord e.num e.sub false, addr := e.addr
    finfo := e.finfo.getD 0, gpa := if tgt = .s then 0 else e.gpa.getD 0 }

theorem EvBank.entered_base (b : EvBank) (e : Exc) (tgt : Lvl) : (b.entered e tgt).base = b.base := by
  simp only [EvBank.entered]

theorem EvBank.entered_lim (b : EvBank) (e : Exc) (tgt : Lvl) : (b.entered e tgt).lim = b.lim := by
  simp only [EvBank.entered]

/-- The core after event `e` is entered at level `tgt`, whose event registers were `b`, with the three lines of its frame;
the cycles and the breaks of the entry are left out. -/
def Core.entered (k : Core) (b : EvBank) (e : Exc) (async : Bool) (tgt : Lvl) (pcFrame : W64) (x y z : CoreAcc) : Core :=
  { k with
    sq := k.sq ++ frameStores k tgt x y z (frameBytes k pcFrame (causeWord e.num e.sub false) e.addr)
    bankS := (k.setBank tgt (b.entered e tgt)).bankS, bankH := (k.setBank tgt (b.entered e tgt)).bankH
    bankM := (k.setBank tgt (b.entered e tgt)).bankM
    evlvl := if async then e.num / 32 else if k.lvl.num = tgt.num then k.evlvl else 0
    lvl := tgt, ie := false, guest := if tgt.num ≤ 1 then k.guest else false
    pc := b.base + BitVec.ofNat 64 (32 * e.num)
    resv := none, loopBuf := none, lineBuf := [], run := .run, half := none, strDone := 0, strKey := none
    pend := if async then k.pend.filter (· != pendKey tgt e.num) else k.pend
    impend := if e.num = 18 then false else k.impend
    longs := if e.num = 18 then k.longs.filter (fun o => !o.failed) else k.longs
    amtrap := match e.am with | some w => w | none => k.amtrap }

/-- A write of the event registers of a level, after stores entered the queue. -/
theorem Core.setBank_pushStores (k : Core) (es : List SqEntry) (l : Lvl) (b : EvBank) :
    (k.pushStores es).setBank l b = { k with
      sq := k.sq ++ es
      bankS := (k.setBank l b).bankS, bankH := (k.setBank l b).bankH, bankM := (k.setBank l b).bankM } := by
  cases l <;> rfl

/-- The break that the lines of a frame are, on core `k0` before the entry (R119). -/
def Core.entryBreak (k0 k : Core) (ls : List CoreAcc) : Core :=
  if !ls.all (·.win) then k.brk 4 k0.pc
  else if ls.any (fun l => k0.lost.contains (l.pa / 64)) then k.brk 3 k0.pc else k

theorem Core.entryBreak_eq (k0 k : Core) (ls : List CoreAcc) : ∃ mb mc mp, k0.entryBreak k ls =
    { k with mbreak := mb, mcause := mc, mbpc := mp } := by
  unfold Core.entryBreak
  split_ifs
  · exact ⟨_, _, _, Core.brk_eq ..⟩
  · exact ⟨_, _, _, Core.brk_eq ..⟩
  · exact ⟨_, _, _, rfl⟩

/-! ### Event entry (R45, R46) -/

section enter
variable {s u : State} {c n : Nat} {e : Exc} {async : Bool} {tgt : Lvl} {pcFrame : W64}

theorem State.enter_overflow (h : ((s.core c).bank tgt).frame.toNat < ((s.core c).bank tgt).lim.toNat + 192) :
    s.enter c (n + 1) e async tgt pcFrame =
      if tgt = .m then s.stopAtM c else s.enter c n (mkExc 16) false tgt.up (s.core c).pc := by
  rw [State.enter]
  exact if_pos h

theorem State.enter_fault {f : Exc} (h : ((s.core c).bank tgt).lim.toNat + 192 ≤ ((s.core c).bank tgt).frame.toNat)
    (hl : s.frameLines c tgt accStore (((s.core c).bank tgt).frame.toNat - 192) = (.error f, u)) :
    s.enter c (n + 1) e async tgt pcFrame =
      if tgt = .m then u.stopAtM c else u.enter c n f false tgt.up (s.core c).pc := by
  rw [State.enter]
  dsimp only
  rw [if_neg (Nat.not_lt.mpr h), hl]

theorem State.enter_ok {x y z : CoreAcc} (h : ((s.core c).bank tgt).lim.toNat + 192 ≤ ((s.core c).bank tgt).frame.toNat)
    (hl : s.frameLines c tgt accStore (((s.core c).bank tgt).frame.toNat - 192) = (.ok [x, y, z], u)) :
    s.enter c (n + 1) e async tgt pcFrame =
      (u.setCore c ((u.core c).entryBreak
        ((u.core c).entered ((s.core c).bank tgt) e async tgt pcFrame x y z) [x, y, z])).cycles c 24 := by
  rw [State.enter]
  dsimp only
  rw [if_neg (Nat.not_lt.mpr h), hl]
  dsimp only
  rw [Core.setBank_pushStores]
  rfl

/-- What an entry leaves of its core. -/
theorem State.core_enter_ok {x y z : CoreAcc}
    (h : ((s.core c).bank tgt).lim.toNat + 192 ≤ ((s.core c).bank tgt).frame.toNat)
    (hl : s.frameLines c tgt accStore (((s.core c).bank tgt).frame.toNat - 192) = (.ok [x, y, z], u)) :
    ∃ mb mc mp cyc, (s.enter c (n + 1) e async tgt pcFrame).core c =
      { (u.core c).entered ((s.core c).bank tgt) e async tgt pcFrame x y z with
        mbreak := mb, mcause := mc, mbpc := mp, cycle := cyc } := by
  obtain ⟨mb, mc, mp, hb⟩ := (u.core c).entryBreak_eq
    ((u.core c).entered ((s.core c).bank tgt) e async tgt pcFrame x y z) [x, y, z]
  obtain ⟨cyc, hc⟩ := (u.setCore c ((u.core c).entryBreak
    ((u.core c).entered ((s.core c).bank tgt) e async tgt pcFrame x y z) [x, y, z])).core_cycles c 24
  exact ⟨mb, mc, mp, cyc, by rw [State.enter_ok h hl, hc, State.core_setCore, hb]⟩

end enter

/-! ### The event registers and the stores of an entry -/

theorem Core.bank_entered {tgt : Lvl} (ht : tgt ≠ .u) (k : Core) (b : EvBank) (e : Exc) (async : Bool) (pcFrame : W64)
    (x y z : CoreAcc) : (k.entered b e async tgt pcFrame x y z).bank tgt = b.entered e tgt :=
  (Core.bank_congr rfl rfl rfl tgt).trans (Core.bank_setBank ht k _)

theorem Core.bank_entered_ne {tgt l : Lvl} (hl : l ≠ tgt) (k : Core) (b : EvBank) (e : Exc) (async : Bool) (pcFrame : W64)
    (x y z : CoreAcc) : (k.entered b e async tgt pcFrame x y z).bank l = k.bank l :=
  (Core.bank_congr rfl rfl rfl l).trans (Core.bank_setBank_ne hl k _)

/-- The three stores of a frame: the lines, the domain and the bytes. -/
theorem frameStores_eq {bytes : List Byte} (h : bytes.length = 192) (k : Core) (tgt : Lvl) (x y z : CoreAcc) :
    ∃ e0 e1 e2 : SqEntry, frameStores k tgt x y z bytes = [e0, e1, e2] ∧ e0.pa = x.pa ∧ e1.pa = y.pa ∧ e2.pa = z.pa
      ∧ e0.tord = none ∧ e1.tord = none ∧ e2.tord = none
      ∧ e0.td = k.tdAt tgt ∧ e1.td = k.tdAt tgt ∧ e2.td = k.tdAt tgt ∧ e0.bytes ++ e1.bytes ++ e2.bytes = bytes :=
  ⟨_, _, _, rfl, rfl, rfl, rfl, rfl, rfl, rfl, rfl, rfl, rfl, append_three_lines h⟩

/-- Settles O38: the two failures of a frame lead one level up or stop the core at M; otherwise the core is the one
entered, up to its breaks and cycles. -/
theorem eventEntryRule : Obligations.EventEntryRule := by
  intro s c n e async tgt pcFrame k b t lines htgt
  refine ⟨fun h => State.enter_overflow h, fun h => ⟨fun f u hl => State.enter_fault h hl, ?_⟩⟩
  intro x y z u hl j cause k' b'
  have hframe : BitVec.ofNat 64 (b.frame.toNat - 192) = b.frame - 192 := by
    apply BitVec.eq_of_toNat_eq
    bv_omega
  obtain ⟨mb, mc, mp, cyc, hk⟩ := State.core_enter_ok (n := n) (e := e) (async := async) (pcFrame := pcFrame) h hl
  have hk' : k' = { j.entered b e async tgt pcFrame x y z with mbreak := mb, mcause := mc, mbpc := mp, cycle := cyc } := hk
  have hb' : b' = b.entered e tgt := by
    show k'.bank tgt = _
    rw [hk', ← Core.bank_entered htgt j b e async pcFrame x y z]
    exact Core.bank_congr rfl rfl rfl tgt
  have hothers (l : Lvl) (hl : l ≠ tgt) : k'.bank l = j.bank l := by
    rw [hk', ← Core.bank_entered_ne hl j b e async pcFrame x y z]
    exact Core.bank_congr rfl rfl rfl l
  have hcores (d : Nat) (hd : d ≠ c) : t.core d = u.core d := by
    rw [show t = _ from State.enter_ok h hl, State.core_cycles_ne _ _ hd, State.core_setCore_ne _ _ hd]
  have hrest : { t with cores := u.cores, free := u.free } = u := by
    rw [show t = _ from State.enter_ok h hl]
    exact congrArg (fun v : State => { v with cores := u.cores }) (State.cycles_frame (u.setCore c _) c 24)
  have hcause : causeWord e.num e.sub false = cause := by simp [causeWord, bit, cause]
  obtain ⟨e0, e1, e2, hstores, hstore⟩ := frameStores_eq (frameBytes_length j pcFrame cause e.addr) j tgt x y z
  have hsq : k'.sq = j.sq ++ [e0, e1, e2] := by rw [hk', ← hstores, ← hcause]; rfl
  rw [frameBytes] at hstore
  rw [hb', hk']
  refine ⟨⟨e0, e1, e2, hk' ▸ hsq, hstore⟩, hframe, hcause, rfl, b.entered_base .., b.entered_lim .., ?others, rfl, rfl, rfl, rfl,
    ?guest, ?evlvl, rfl, rfl, rfl, rfl, rfl, rfl, rfl, rfl, rfl, rfl, rfl, rfl, rfl, rfl, rfl, rfl, rfl, hcores, hrest⟩
  case others => exact hk' ▸ hothers
  case guest =>
    show (if tgt.num ≤ 1 then j.guest else false) = _
    by_cases hle : tgt.num ≤ 1 <;> simp [hle]
  case evlvl => exact if_congr Iff.rfl rfl (if_congr Lvl.num_inj rfl rfl)

end Sys2Proof.Machine
end

section
/-! SUPPORT. The return: the event with which it chains, the registers that a frame gives back, and ERET (R38, R47). -/

namespace Sys2Proof.Machine

/-! ### The event taken first (R43) -/

/-- The order in which events are taken: by number, and of equal numbers by level (R43). -/
def keyLt (x y : Nat) : Prop := x % 256 < y % 256 ∨ (x % 256 = y % 256 ∧ x / 256 < y / 256)

/-- Of two keys the later one in the order of R43. -/
def laterKey (b : Option Nat) (key : Nat) : Option Nat :=
  match b with
  | none => some key
  | some o => if o % 256 < key % 256 ∨ (o % 256 = key % 256 ∧ o / 256 < key / 256) then some key else b

theorem bestKey_eq (l : List Nat) : bestKey l = l.foldl laterKey none := rfl

theorem laterKey_of_lt {o key : Nat} (h : keyLt o key) : laterKey (some o) key = some key := if_pos h
theorem laterKey_of_not_lt {o key : Nat} (h : ¬ keyLt o key) : laterKey (some o) key = some o := if_neg h

theorem keyLt_total {x y : Nat} (h : ¬ keyLt x y) : keyLt y x ∨ x = y := by
  unfold keyLt at *
  omega

/-- A key that no key of the list beats is the best of the list. -/
theorem foldl_laterKey {key : Nat} {l : List Nat} {o : Nat} (hmem : key ∈ o :: l) (hmax : ∀ x ∈ o :: l, ¬ keyLt key x) :
    l.foldl laterKey (some o) = some key := by
  induction l generalizing o with
  | nil => rw [List.mem_singleton.mp hmem]; rfl
  | cons x t ih =>
    rw [List.foldl_cons]
    have hx := hmax x (by simp)
    have ho := hmax o (by simp)
    by_cases hlt : keyLt o x
    · rw [laterKey_of_lt hlt]
      refine ih ?_ (fun y hy => hmax y (List.mem_cons_of_mem _ hy))
      rcases List.mem_cons.mp hmem with rfl | hmem
      · exact absurd hlt hx
      · exact hmem
    · rw [laterKey_of_not_lt hlt]
      refine ih ?_ (fun y hy => hmax y ?_)
      · rcases List.mem_cons.mp hmem with rfl | hmem
        · exact List.mem_cons_self
        rcases List.mem_cons.mp hmem with rfl | hmem
        · rcases keyLt_total hlt with h | rfl
          · exact absurd h ho
          · exact List.mem_cons_self
        · exact List.mem_cons_of_mem _ hmem
      · rcases List.mem_cons.mp hy with rfl | hy
        · exact List.mem_cons_self
        · exact List.mem_cons_of_mem _ (List.mem_cons_of_mem _ hy)

theorem bestKey_eq_some {key : Nat} {l : List Nat} (hmem : key ∈ l) (hmax : ∀ x ∈ l, ¬ keyLt key x) :
    bestKey l = some key := by
  cases l with
  | nil => exact absurd hmem List.not_mem_nil
  | cons o t => rw [bestKey_eq, List.foldl_cons]; exact foldl_laterKey hmem hmax

/-! ### Chaining (R47, log 23) -/

theorem testBit_two (w : Nat) : w.testBit 2 = true ↔ w / 4 % 2 = 1 := by
  simp [Nat.testBit_eq_decide_div_mod_eq]

theorem bits_evlvl (w : Nat) : bits w 8 3 = w / 256 % 8 := by
  simp [bits, Nat.shiftRight_eq_div_pow]

/-- The pending bits with which a return at level `l` may chain under the STATUS word `w` of the frame. -/
def Core.chains (k : Core) (l : Lvl) (w : Nat) : List Nat :=
  k.pend.filter (fun key => decide (key / 256 = l.num) && decide (bits w 8 3 < key % 256 / 32))

theorem Core.mem_chains {k : Core} {l : Lvl} {w key : Nat} :
    key ∈ k.chains l w ↔ key ∈ k.pend ∧ key / 256 = l.num ∧ w / 256 % 8 < key % 256 / 32 := by
  simp [Core.chains, bits_evlvl]

theorem Core.chainPick_eq_none {k : Core} {l : Lvl} {w : Nat} (h : w / 4 % 2 = 0 ∨ ∀ key, key ∉ k.chains l w) :
    k.chainPick l w = none := by
  unfold Core.chainPick
  split
  · next hb =>
    rcases h with h | h
    · rw [testBit_two] at hb; omega
    · change bestKey (k.chains l w) = none
      rw [List.eq_nil_iff_forall_not_mem.mpr h]; rfl
  · rfl

theorem Core.chainPick_eq_some {k : Core} {l : Lvl} {w key : Nat} (hb : w / 4 % 2 = 1) (hmem : key ∈ k.chains l w)
    (hmax : ∀ x ∈ k.chains l w, ¬ keyLt key x) : k.chainPick l w = some key := by
  rw [Core.chainPick, if_pos ((testBit_two w).mpr hb)]
  exact bestKey_eq_some hmem hmax

/-! ### The registers of a frame (R45, R47) -/

/-- The registers with the first `n` of them taken from a frame. -/
def frameRegs (bs : List Byte) (g : Vector W64 32) (n : Nat) : Vector W64 32 :=
  (List.range n).foldl (fun (g : Vector W64 32) i =>
    if h : i < 32 then g.set i (BitVec.ofNat 64 (frameWord bs (0x20 + 8 * i))) h else g) g

theorem frameRegs_getElem (bs : List Byte) (g : Vector W64 32) {n : Nat} (hn : n ≤ 32) (i : Fin 32) :
    (frameRegs bs g n)[i] = if i.val < n then BitVec.ofNat 64 (frameWord bs (0x20 + 8 * i)) else g[i] := by
  induction n with
  | zero => simp [frameRegs]
  | succ m ih =>
    have hstep : frameRegs bs g (m + 1) =
        (frameRegs bs g m).set m (BitVec.ofNat 64 (frameWord bs (0x20 + 8 * m))) (by omega) := by
      simp only [frameRegs, List.range_succ, List.foldl_append, List.foldl_cons, List.foldl_nil]
      rw [dif_pos (by omega)]
    rw [hstep, Fin.getElem_fin, Vector.getElem_set]
    by_cases hi : m = i.val
    · subst hi; simp
    · rw [if_neg hi, ← Fin.getElem_fin, ih (by omega)]
      exact if_congr (by omega) rfl rfl

/-! ### ERET (R38, R47, R90) -/

theorem atLeast_of_lt {c : Nat} {l : Lvl} {body : State → Done} {s : State} (h : (s.core c).lvl.num < l.num) :
    atLeast c l body s = .exc s illegal := if_pos h

theorem atLeast_of_le {c : Nat} {l : Lvl} {body : State → Done} {s : State} (h : l.num ≤ (s.core c).lvl.num) :
    atLeast c l body s = body s := if_neg (Nat.not_lt.mpr h)

/-- What ERET comes to at level `l` once it has read the bytes of its frame. -/
def State.eretDone (s : State) (c : Nat) (l : Lvl) (bs : List Byte) : Done :=
  if l.num < frameWord bs 8 % 4 then .exc s illegal
  else
    match (s.core c).chainPick l (frameWord bs 8) with
    | some key => .stay (s.chain c (key % 256) key)
    | none => .stay (s.unwind c bs)

section eret
variable {s : State} {c : Nat}

/-- ERET below S. -/
theorem exec_eret_user (h : s.Ready c true []) (hl : ((s.begun c true [] []).core c).lvl = .u) :
    exec (.eret c) s = .next (s.orWait ((s.begun c true [] []).trapped c 8 illegal)) :=
  congrArg _ (State.issue_exc h (atLeast_of_lt (by rw [hl]; decide)))

/-- ERET from S on, once its frame is read. -/
theorem exec_eret_read {l : Lvl} (h : s.Ready c true []) (hl : ((s.begun c true [] []).core c).lvl = l) (hu : l ≠ .u)
    {s1 s2 s3 : State} {ls : List CoreAcc} {bs : List Byte} (hdrain : (s.begun c true [] []).drainAll c = (true, s1))
    (hlines : s1.frameLines c l accLoad (((s.begun c true [] []).core c).bank l).frame.toNat = (.ok ls, s2))
    (hstall : ls.any (fun a => s2.homed a.pa && s2.walkStalls c (a.pa / 64)) = false)
    (hread : (s2.modCore c (fun k => k.frameBreaks ls)).readFrame c (((s.begun c true [] []).core c).tdAt l) ls =
      ((bs, none), s3)) :
    exec (.eret c) s = .next (s.orWait (State.finish c 8 (s3.eretDone c l bs))) := by
  subst hl
  have hs : Lvl.s.num ≤ ((s.begun c true [] []).core c).lvl.num :=
    Nat.one_le_iff_ne_zero.mpr (fun h0 => hu (Lvl.num_eq_zero.mp h0))
  refine congrArg _ ((State.issue_ready h).trans ?_)
  rw [atLeast_of_le hs]
  dsimp only
  rw [hdrain]
  dsimp only
  rw [hlines]
  dsimp only
  rw [hstall, hread]
  rfl

end eret

@[simp] theorem State.chain_waits (s : State) (c n key : Nat) : (s.chain c n key).waits = s.waits := by
  simp [State.chain, State.retireNow]

@[simp] theorem State.unwind_waits (s : State) (c : Nat) (bs : List Byte) : (s.unwind c bs).waits = s.waits := by
  simp [State.unwind, State.retireNow]

theorem State.eretDone_illegal {s : State} {c : Nat} {l : Lvl} {bs : List Byte} (h : l.num < frameWord bs 8 % 4) :
    s.eretDone c l bs = .exc s illegal := if_pos h

theorem State.eretDone_chain {s : State} {c key : Nat} {l : Lvl} {bs : List Byte} (h : frameWord bs 8 % 4 ≤ l.num)
    (hp : (s.core c).chainPick l (frameWord bs 8) = some key) :
    s.eretDone c l bs = .stay (s.chain c (key % 256) key) := by
  rw [State.eretDone, if_neg (Nat.not_lt.mpr h), hp]

theorem State.eretDone_return {s : State} {c : Nat} {l : Lvl} {bs : List Byte} (h : frameWord bs 8 % 4 ≤ l.num)
    (hp : (s.core c).chainPick l (frameWord bs 8) = none) : s.eretDone c l bs = .stay (s.unwind c bs) := by
  rw [State.eretDone, if_neg (Nat.not_lt.mpr h), hp]

/-- Settles O33: ERET reads its frame, and the frame's STATUS decides between ILLEGAL, the chain and the return. -/
theorem returnResults : Obligations.ReturnResults := by
  intro s c b l h
  refine ⟨exec_eret_user h, ?_⟩
  intro hu s1 ls s2 bs s3 hdrain hlines hstall hread hw w k takes
  have hexec := exec_eret_read h rfl hu hdrain hlines hstall hread
  refine ⟨fun hpl => ?illegal, fun n hpl hie htake hn hmax => ?chain, fun hpl hno => ?unwind⟩
  case illegal => rw [hexec, State.eretDone_illegal hpl]; rfl
  case chain =>
    have hpick : k.chainPick l w = some (256 * l.num + n) := by
      refine Core.chainPick_eq_some hie (Core.mem_chains.mpr htake) (fun x hx => ?_)
      have hx' : takes x := Core.mem_chains.mp hx
      have hxn := hmax (x % 256) (Nat.mod_lt _ (by decide))
        (by rw [← hx'.2.1, Nat.div_add_mod]; exact hx')
      have := hx'.2.1
      unfold keyLt
      omega
    have hmod : (256 * l.num + n) % 256 = n := by omega
    rw [hexec, State.eretDone_chain hpl hpick, hmod, State.finish, State.orWait_of _ (by rw [State.chain_waits, hw])]
    rfl
  case unwind =>
    have hpick : k.chainPick l w = none :=
      Core.chainPick_eq_none (hno.imp_right (fun hno key hkey => hno key (Core.mem_chains.mp hkey)))
    refine ⟨frameRegs bs k.g 16, frameRegs_getElem bs k.g (by decide), ?_⟩
    rw [hexec, State.eretDone_return hpl hpick, State.finish, State.orWait_of _ (by rw [State.unwind_waits, hw])]
    rw [← bits_evlvl]
    rfl

end Sys2Proof.Machine
end

section
/-! SUPPORT. The event routers and the error logs: posts, messages, held posts and entry rewrites; records and the read
pointers of a log (R51 to R53, R226, R231 to R233). -/

namespace Sys2Proof.Machine

/-! ### Posts (R52, R53) -/

section deliver
variable {s : State} {msg : Bool} {i : Nat}

/-- A post to an entry that holds one already. -/
theorem State.deliverPost_held (h : routePend (s.routeEntry msg i) = true) : s.deliverPost msg i = s := if_pos h

/-- A post to a core that is not awake. -/
theorem State.deliverPost_asleep (h : routePend (s.routeEntry msg i) = false)
    (ha : s.coreAwake (routeCore (s.routeEntry msg i)) = false) :
    s.deliverPost msg i =
      (s.setRoute msg i (setFld (s.routeEntry msg i) 25 1 1)).wakeCore (routeCore (s.routeEntry msg i)) 2 := by
  rw [State.deliverPost, if_neg (by simp [h]), if_pos (by simp [ha])]

/-- A post at S to a core of another domain. -/
theorem State.deliverPost_other (h : routePend (s.routeEntry msg i) = false)
    (ha : s.coreAwake (routeCore (s.routeEntry msg i)) = true) (hl : routeLevel (s.routeEntry msg i) = 1)
    (hd : (s.core (routeCore (s.routeEntry msg i))).tdid ≠ routeTd (s.routeEntry msg i)) :
    s.deliverPost msg i = (s.setRoute msg i (setFld (s.routeEntry msg i) 25 1 1)).modCore
      (routeCore (s.routeEntry msg i)) (fun k => k.setPend .h 63) := by
  rw [State.deliverPost, if_neg (by simp [h]), if_neg (by simp [ha]), if_pos ⟨hl, hd⟩]

/-- A post that sets its pending bit. -/
theorem State.deliverPost_now (h : routePend (s.routeEntry msg i) = false)
    (ha : s.coreAwake (routeCore (s.routeEntry msg i)) = true)
    (hd : routeLevel (s.routeEntry msg i) ≠ 1
      ∨ (s.core (routeCore (s.routeEntry msg i))).tdid = routeTd (s.routeEntry msg i)) :
    s.deliverPost msg i = (s.modCore (routeCore (s.routeEntry msg i)) (fun k =>
      k.setPend (Lvl.ofNum (routeLevel (s.routeEntry msg i))) (routeVector (s.routeEntry msg i)))).wakeCore
        (routeCore (s.routeEntry msg i)) 2 := by
  rw [State.deliverPost, if_neg (by simp [h]), if_neg (by simp [ha]), if_neg (by tauto)]

end deliver

/-- The five outcomes of a post that the checks of its entry let deliver or count as dropped. -/
theorem State.post_outcomes {s : State} {msg : Bool} {n router : Nat} {i : Instr}
    (hi : exec i s =
      .next (if s.routeOk (s.routeEntry msg n) then s.deliverPost msg n else s.countDrop router)) :
    let e := s.routeEntry msg n
    let c := routeCore e
    let held := s.setRoute msg n (setFld e 25 1 1)
    (s.routeOk e = false → exec i s = .next (s.countDrop router))
    ∧ (s.routeOk e = true → routePend e = true → exec i s = .next s)
    ∧ (s.routeOk e = true → routePend e = false → s.coreAwake c = false → exec i s = .next (held.wakeCore c 2))
    ∧ (s.routeOk e = true → routePend e = false → s.coreAwake c = true → routeLevel e = 1 → (s.core c).tdid ≠ routeTd e →
      exec i s = .next (held.modCore c (fun k => k.setPend .h 63)))
    ∧ (s.routeOk e = true → routePend e = false → s.coreAwake c = true → (routeLevel e ≠ 1 ∨ (s.core c).tdid = routeTd e) →
      exec i s = .next
        ((s.modCore c (fun k => k.setPend (Lvl.ofNum (routeLevel e)) (routeVector e))).wakeCore c 2)) := by
  rw [hi]
  refine ⟨fun ho => ?_, fun ho hp => ?_, fun ho hp ha => ?_, fun ho hp ha hl hd => ?_, fun ho hp ha hd => ?_⟩
  · rw [if_neg (by simp [ho])]
  · rw [if_pos ho, State.deliverPost_held hp]
  · rw [if_pos ho, State.deliverPost_asleep hp ha]
  · rw [if_pos ho, State.deliverPost_other hp ha hl hd]
  · rw [if_pos ho, State.deliverPost_now hp ha hd]

theorem exec_routerPost {s : State} {src : Nat} (hup : s.up = true) (hsrc : src < 4096) :
    exec (.routerPost src) s = .next (if s.routeOk (s.routeEntry false src) then s.deliverPost false src
      else s.countDrop (if src < 3072 then src / 384 else 8)) := by
  change Host.Outcome.next (if !s.up || decide (4096 ≤ src) then s else s.post src) = _
  rw [if_neg (by simp [hup, hsrc])]
  rfl

/-! ### Messages (R51, R52) -/

section message
variable {s : State} {td rid off : Nat} {bytes : List Byte}

theorem exec_msiMessage (hup : s.up = true) :
    exec (.msiMessage td rid off bytes) s = .next (s.message td rid off bytes) :=
  congrArg Host.Outcome.next (if_neg (by simp [hup]))

/-- A 4-byte write at the base of the window whose upper bits are 0 is a message. -/
theorem State.message_post (h : off = 0 ∧ bytes.length = 4 ∧ leNat bytes < 2 ^ 15) :
    s.message td rid off bytes = s.postFrom true (leNat bytes) td rid := if_pos h

theorem State.message_drop (h : ¬ (off = 0 ∧ bytes.length = 4 ∧ leNat bytes < 2 ^ 15)) :
    s.message td rid off bytes = s.countDrop 8 := if_neg h

theorem State.postFrom_own {n : Nat} (h : routeTd (s.routeEntry true n) = td) :
    s.postFrom true n td rid = if s.routeOk (s.routeEntry true n) then s.deliverPost true n else s.countDrop 8 :=
  if_neg (not_not.mpr h)

theorem State.postFrom_foreign {n : Nat} (h : routeTd (s.routeEntry true n) ≠ td) :
    s.postFrom true n td rid = (s.countDrop 8).record (recAt (srcId 9 0 0 0 1) 3 0 0x0901 (some td) none
      [n % 256, n / 256 % 256, 1, routeTd (s.routeEntry true n), rid % 256, rid / 256] 0) := if_pos h

end message

/-! ### Held posts and rewrites of an entry (R53) -/

section held
variable {s : State} {msg : Bool} {n : Nat}

theorem exec_heldPostDelivery (hup : s.up = true) : exec (.heldPostDelivery msg n) s = .next (s.deliverHeld msg n) :=
  congrArg Host.Outcome.next (if_neg (by simp [hup]))

/-- The conditions under which a held post is delivered (R53). -/
def State.heldReady (s : State) (e : W64) : Prop :=
  s.coreAwake (routeCore e) = true ∧ s.routeOk e = true
    ∧ (routeLevel e = 1 → (s.core (routeCore e)).lvl.num ≤ 1 ∧ (s.core (routeCore e)).tdid = routeTd e)

theorem State.deliverHeld_eq (s : State) (msg : Bool) (n : Nat) :
    (routePend (s.routeEntry msg n) = true → s.heldReady (s.routeEntry msg n) → s.deliverHeld msg n =
      (s.setRoute msg n (setFld (s.routeEntry msg n) 25 1 0)).modCore (routeCore (s.routeEntry msg n)) (fun k =>
        k.setPend (Lvl.ofNum (routeLevel (s.routeEntry msg n))) (routeVector (s.routeEntry msg n))))
    ∧ (routePend (s.routeEntry msg n) = false ∨ ¬ s.heldReady (s.routeEntry msg n) → s.deliverHeld msg n = s) := by
  have hcond : (routePend (s.routeEntry msg n) && s.routeOk (s.routeEntry msg n)
      && s.coreAwake (routeCore (s.routeEntry msg n))
      && (decide (routeLevel (s.routeEntry msg n) ≠ 1)
        || (decide ((s.core (routeCore (s.routeEntry msg n))).lvl.num ≤ 1)
          && decide ((s.core (routeCore (s.routeEntry msg n))).tdid = routeTd (s.routeEntry msg n))))) = true ↔
      routePend (s.routeEntry msg n) = true ∧ s.heldReady (s.routeEntry msg n) := by
    simp only [State.heldReady, Bool.and_eq_true, Bool.or_eq_true, decide_eq_true_eq]
    tauto
  constructor
  · exact fun hp hr => if_pos (hcond.mpr ⟨hp, hr⟩)
  · refine fun h => if_neg (fun hc => ?_)
    obtain ⟨hp, hr⟩ := hcond.mp hc
    rcases h with h | h
    · rw [hp] at h; cases h
    · exact h hr

theorem exec_routeWrite {v : W64} (hup : s.up = true) (hn : n < (if msg then 32768 else 4096)) :
    exec (.routeWrite msg n v) s = .next (s.writeRoute msg n v) :=
  congrArg Host.Outcome.next (if_neg (by simp only [hup, decide_eq_false (Nat.not_le.mpr hn)]; decide))

/-- The fields that software writes to an entry (R51). -/
def routeFields (v : W64) : W64 := BitVec.ofNat 64 (v.toNat % 2 ^ 25)

theorem State.writeRoute_free {v : W64} (hp : routePend (s.routeEntry msg n) = false) :
    s.writeRoute msg n v = s.setRoute msg n (setFld (routeFields v) 25 1 0) := by
  simp only [State.writeRoute, hp]
  rfl

/-- A held post that the new fields can deliver stays held. -/
theorem State.writeRoute_held {v : W64} (hp : routePend (s.routeEntry msg n) = true)
    (ho : s.routeOk (setFld (routeFields v) 25 1 1) = true) :
    s.writeRoute msg n v = s.setRoute msg n (setFld (routeFields v) 25 1 1) := by
  simp only [State.writeRoute, hp]
  have hcond : (true && !s.routeOk (setFld (routeFields v) 25 1 1)) ≠ true := by rw [ho]; decide
  exact if_neg hcond

/-- A held post that the new fields cannot deliver is dropped and counted. -/
theorem State.writeRoute_drops {v : W64} (hp : routePend (s.routeEntry msg n) = true)
    (ho : s.routeOk (setFld (routeFields v) 25 1 1) = false) :
    s.writeRoute msg n v =
      (s.setRoute msg n (setFld (setFld (routeFields v) 25 1 1) 25 1 0)).countDrop (routerOf msg n) := by
  simp only [State.writeRoute, hp]
  have hcond : (true && !s.routeOk (setFld (routeFields v) 25 1 1)) = true := by rw [ho]; decide
  exact if_pos hcond

end held

/-! ### Logs (R226, R231) -/

/-- An entry of a sparse map, after one of them is set. -/
theorem SMap.find_set {α : Type} (m : List (Nat × α)) (k j : Nat) (v : α) :
    ((SMap.set m k v).find? (fun e => e.1 == j)).map (·.2) =
      if j = k then some v else (m.find? (fun e => e.1 == j)).map (·.2) := by
  induction m with
  | nil =>
    by_cases h : k = j
    · simp [SMap.set, h]
    · simp [SMap.set, h, Ne.symm h]
  | cons e t ih =>
    obtain ⟨i, a⟩ := e
    rw [SMap.set]
    by_cases hik : i = k
    · subst hik
      by_cases hij : i = j
      · simp [hij]
      · simp [hij, Ne.symm hij]
    · rw [if_neg hik]
      split
      · by_cases hkj : k = j
        · simp [hkj]
        · simp [hkj, Ne.symm hkj]
      · by_cases hij : i = j
        · simp [hij, show j ≠ k from hij ▸ hik]
        · simpa [List.find?_cons, hij] using ih

/-- The log with record `e` in the slot at HEAD (R231). -/
def Log.placed (g : Log) (size : Nat) (e : Rec) : Log :=
  { g with
    slots := SMap.set g.slots g.head e, head := (g.head + 1) % size, seq := (g.seq + 1) % 2 ^ 32
    htail := if g.count = size then (g.htail + 1) % size else g.htail
    count := if g.count = size then size else g.count + 1
    fld := if g.fldCount = size then (g.fld + 1) % size else g.fld
    fldCount := if g.fldCount = size then size else g.fldCount + 1
    ovf := g.ovf.filter (· != e.src) }

/-- The record as it stands in a log (R226). -/
def Log.stamp (g : Log) (r : Rec) : Rec := { r with seq := g.seq, ovf := g.ovf.contains r.src }

section push
variable {g : Log} {size : Nat} {r o : Rec}

theorem Log.push_empty (h : g.slot g.head = none) : g.push size r = (g.placed size (g.stamp r), true) := by
  simp only [Log.push, h]; rfl

theorem Log.push_over (h : g.slot g.head = some o) (hp : g.protects size g.head o = false) :
    g.push size r = ({ g.placed size (g.stamp r) with
      lost := satAdd 32 g.lost, ovf := insNat (g.placed size (g.stamp r)).ovf o.src }, true) := by
  simp only [Log.push, h, hp]; rfl

/-- A record whose slot is protected is dropped and counted. -/
theorem Log.push_protected (h : g.slot g.head = some o) (hp : g.protects size g.head o = true) :
    g.push size r = ({ g with
      seq := (g.seq + 1) % 2 ^ 32, lost := satAdd 32 g.lost, ovf := insNat g.ovf r.src }, false) := by
  simp only [Log.push, h, hp]; rfl

/-- A record whose slot is not protected takes it. -/
theorem Log.push_written (h : ∀ o, g.slot g.head = some o → g.protects size g.head o = false) :
    (g.push size r).1.slots = SMap.set g.slots g.head (g.stamp r) ∧ (g.push size r).1.head = (g.head + 1) % size
      ∧ (g.push size r).1.seq = (g.seq + 1) % 2 ^ 32
      ∧ (g.push size r).1.count = if g.count = size then size else g.count + 1 := by
  cases ho : g.slot g.head with
  | none => rw [Log.push_empty ho]; exact ⟨rfl, rfl, rfl, rfl⟩
  | some o => rw [Log.push_over ho (h o ho)]; exact ⟨rfl, rfl, rfl, rfl⟩

end push

theorem Log.slot_of_set {g g' : Log} {i : Nat} {e : Rec} (h : g'.slots = SMap.set g.slots i e) (j : Nat) :
    g'.slot j = if j = i then some e else g.slot j := by
  rw [Log.slot, h, SMap.find_set]; rfl

/-! ### What leaves the logs as they are -/

section logs
variable (s : State) (l : Nat)

@[simp] theorem State.log_modLog (f : Log → Log) : (s.modLog l f).log l = f (s.log l) := by
  unfold State.modLog State.log
  split
  · rfl
  · rw [State.region_modRegion]

@[simp] theorem State.log_modCore (c : Nat) (f : Core → Core) : (s.modCore c f).log l = s.log l := rfl
@[simp] theorem State.log_modDom (c : Nat) (f : Pwr → Pwr) : (s.modDom c f).log l = s.log l := rfl

@[simp] theorem State.log_setRoute (msg : Bool) (i : Nat) (v : W64) : (s.setRoute msg i v).log l = s.log l := by
  unfold State.setRoute
  split <;> rfl

@[simp] theorem State.log_wakeCore (c cause : Nat) : (s.wakeCore c cause).log l = s.log l := by
  unfold State.wakeCore
  dsimp only
  split_ifs <;> rfl

@[simp] theorem State.log_countDrop (rt : Nat) : (s.countDrop rt).log l = s.log l := by
  unfold State.countDrop
  split
  · rfl
  · unfold State.log
    by_cases h : l = rt
    · rw [h, State.region_modRegion]; rfl
    · rw [State.region_modRegion_ne _ _ h]; rfl

@[simp] theorem State.log_deliverPost (msg : Bool) (i : Nat) : (s.deliverPost msg i).log l = s.log l := by
  unfold State.deliverPost
  dsimp only
  split_ifs <;> simp

@[simp] theorem State.log_post (src : Nat) : (s.post src).log l = s.log l := by
  unfold State.post
  split <;> simp

@[simp] theorem State.log_postIf (p : Prop) [Decidable p] (src : Nat) : (if p then s.post src else s).log l = s.log l := by
  split <;> simp

/-- Of the logs, a record changes its own; its notifications change none. -/
theorem State.log_logRecord (r : Rec) : (s.logRecord l r).log l = ((s.log l).push (logSize l) r).1 := by
  rcases hp : (s.log l).push (logSize l) r with ⟨g, ok⟩
  rw [State.logRecord]
  dsimp only
  rw [hp]
  dsimp only
  cases ok with
  | false => rw [if_neg Bool.false_ne_true, State.log_modLog]
  | true =>
    rw [if_pos rfl]
    cases r.td <;> simp

end logs

section exec
variable {s : State} {log : Nat}

theorem exec_logRecordWrite {r : RecIn} (hrun : s.noon.run = true) (hl : log ≤ 8) :
    exec (.logRecordWrite log r) s = .next (s.logRecord log (s.mkRec r)) :=
  congrArg Host.Outcome.next (if_neg (by simp [hrun, hl]))

theorem exec_logHtailWrite {p : Nat} (hup : s.up = true) (hl : log ≤ 8) :
    exec (.logHtailWrite log p) s = .next (s.modLog log (fun g => g.htailWrite (logSize log) p)) :=
  congrArg Host.Outcome.next (if_neg (by simp [hup, hl]))

theorem exec_logFldPointerWrite_in {p : Nat} {g : Log} (hr : s.pins.resetN = true) (hs : s.scan = false) (hl : log ≤ 8)
    (hw : (s.log log).fldWrite (logSize log) p = some g) :
    exec (.logFldPointerWrite log p) s = .next (s.modLog log (fun _ => g)) := by
  refine congrArg Host.Outcome.next ((if_neg (by simp [hr, hs, hl])).trans ?_)
  rw [hw]

theorem exec_logFldPointerWrite_out {p : Nat} (hr : s.pins.resetN = true) (hs : s.scan = false) (hl : log ≤ 8)
    (hw : (s.log log).fldWrite (logSize log) p = none) : exec (.logFldPointerWrite log p) s = .next s := by
  refine congrArg Host.Outcome.next ((if_neg (by simp [hr, hs, hl])).trans ?_)
  rw [hw]

end exec

/-- A log as it is written depends on the log that stands there alone. -/
theorem State.modLog_congr {s : State} {l : Nat} {f f' : Log → Log} (h : f (s.log l) = f' (s.log l)) :
    s.modLog l f = s.modLog l f' := by
  unfold State.modLog
  unfold State.log at h
  split
  · next hl => rw [if_pos hl] at h; rw [h]
  · next hl =>
    rw [if_neg hl] at h
    exact congrArg (fun g => { s with regions := SMap.set s.regions l { s.region l with log := g } }) h

/-! ### The obligation -/

/-- Settles O43: the five outcomes of a post serve the sources and the messages alike; a record's notifications leave the
logs, so its log is the one it was pushed on. -/
theorem routerLogResults : Obligations.RouterLogResults := by
  refine ⟨fun s hup => ?routers, fun s log p r hl => ?logs⟩
  case routers =>
    refine ⟨fun src hsrc => State.post_outcomes (exec_routerPost hup hsrc), ?message, ?drop, ?held, ?rewrite⟩
    case message =>
      intro td rid off bytes hoff hlen hbytes n
      have hmsg := (exec_msiMessage (td := td) (rid := rid) hup).trans
        (congrArg Host.Outcome.next (State.message_post ⟨hoff, hlen, hbytes⟩))
      refine ⟨fun htd => State.post_outcomes ?_, fun htd => ?_⟩
      · rw [hmsg, State.postFrom_own htd]
      · rw [hmsg, State.postFrom_foreign htd]
    case drop => exact fun td rid off bytes h => by rw [exec_msiMessage hup, State.message_drop h]
    case held =>
      intro msg n e c ready
      rw [exec_heldPostDelivery hup]
      obtain ⟨hdeliver, hstay⟩ := s.deliverHeld_eq msg n
      exact ⟨fun hp hr => by rw [hdeliver hp hr], fun h => by rw [hstay h]⟩
    case rewrite =>
      intro msg n v hn e w
      rw [exec_routeWrite hup hn]
      exact ⟨fun hp => congrArg _ (State.writeRoute_free hp), fun hp ho => congrArg _ (State.writeRoute_held hp ho),
        fun hp ho => congrArg _ (State.writeRoute_drops hp ho)⟩
  case logs =>
    intro size g
    refine ⟨fun hrun => ?record, fun hup => ?hst, fun hr hs => ?fld⟩
    case record =>
      refine ⟨_, exec_logRecordWrite hrun hl, ?_⟩
      rw [State.log_logRecord]
      refine ⟨fun hfree => ?_, fun o ho hp => by rw [Log.push_protected ho hp]; rfl⟩
      obtain ⟨hslots, hhead, hseq, hcount⟩ := Log.push_written (r := s.mkRec r) hfree
      refine ⟨?_, hhead, hseq, fun i hi => ?_, hcount⟩
      · rw [Log.slot_of_set hslots, if_pos rfl]; rfl
      · rw [Log.slot_of_set hslots, if_neg hi]
    case hst =>
      rw [exec_logHtailWrite hup hl]
      refine ⟨fun hp hd => ?_, fun h => ?_⟩
      · exact congrArg _ (State.modLog_congr (if_pos ⟨hp, hd⟩))
      · exact congrArg _ (State.modLog_congr (if_neg (fun hc => h.elim (Nat.not_le.mpr hc.1) (Nat.not_lt.mpr hc.2))))
    case fld =>
      refine ⟨fun hp hd => ?_, fun h => ?_⟩
      · rw [exec_logFldPointerWrite_in hr hs hl (if_pos ⟨hp, hd⟩)]
        exact congrArg _ (State.modLog_congr rfl)
      · exact exec_logFldPointerWrite_out hr hs hl (if_neg (fun hc => h.elim (Nat.not_le.mpr hc.1) (Nat.not_lt.mpr hc.2)))

end Sys2Proof.Machine
end

section
/-! SUPPORT. Loads and stores that trap by their own fields, branches and jumps, calls, waits and barriers (R37, R54, R68,
R83, R92, R193). -/

namespace Sys2Proof.Machine

/-! ### Loads and stores that trap (R43, R68, R72) -/

section traps
variable {s s1 : State} {c met : Nat} {reads writes : List LDest} {body : State → Done}

/-- A misaligned access whose checks pass raises ATOMIC_ALIGN. -/
theorem State.checkAccess_misaligned {b : State} {a : Acc} {use : DevUse} {va n al : Nat} {hs : List Half}
    (hal : va % al ≠ 0) (hcheck : b.checkPieces c a use (vaPieces va n) = (.ok hs, s1)) :
    b.checkAccess c a use va n al = (.error (alignExc va), s1) := by
  rw [State.checkAccess, hcheck]
  dsimp only
  rw [if_neg hal]
  rfl

theorem State.loadTo_error {b : State} {a : Acc} {use : DevUse} {va n al : Nat} {dst : PDest} {e : Exc}
    (h : b.checkAccess c a use va n al = (.error e, s1)) : b.loadTo c met a use va n al dst = .exc s1 e := by
  rw [State.loadTo, h]

theorem State.storeFrom_error {b : State} {a : Acc} {use : DevUse} {va al : Nat} {zero : Bool} {bs : List Byte} {e : Exc}
    (h : b.checkAccess c a use va bs.length al = (.error e, s1)) :
    b.storeFrom c met a use va al zero bs = .exc s1 e := by
  rw [State.storeFrom, h]

end traps

/-- Settles O19: the trap comes before any access is performed. -/
theorem loadStoreTraps : Obligations.LoadStoreTraps := by
  intro s c rd ra imm
  refine ⟨fun hodd h => ?ldp, fun hodd h => ?stp, ?lda, ?stl⟩
  case ldp => exact congrArg Host.Outcome.next (State.issue_exc h (if_pos hodd))
  case stp => exact congrArg Host.Outcome.next (State.issue_exc h (if_pos hodd))
  case lda =>
    intro b va hs s1 h hal hcheck
    exact congrArg Host.Outcome.next (State.issue_exc h (State.loadTo_error (State.checkAccess_misaligned hal hcheck)))
  case stl =>
    intro b va hs s1 h hal hcheck
    refine congrArg Host.Outcome.next (State.issue_exc h (State.storeFrom_error ?_))
    rw [natLe_length]
    exact State.checkAccess_misaligned hal hcheck

/-! ### Targets and conditions (R57, R83) -/

/-- The target of a relative branch, as a sum of integers. -/
theorem relTarget_eq_ofInt {n : Nat} (pc : W64) (off : BitVec n) :
    relTarget pc off = BitVec.ofInt 64 (pc.toNat + 4 * off.toInt) := by
  rw [relTarget, BitVec.signExtend, BitVec.ofInt_add, BitVec.ofInt_mul, BitVec.ofInt_natCast]
  simp

theorem add_immS_eq_ofInt (a : W64) (imm : BitVec 16) : a + immS imm = BitVec.ofInt 64 (a.toNat + imm.toInt) := by
  rw [immS, BitVec.signExtend, BitVec.ofInt_add, BitVec.ofInt_natCast]
  simp

/-- The condition `n` of Bcc holds of two words (R83). -/
def branchHolds (n : Nat) (x y : W64) : Prop :=
  match n with
  | 0 => x = y
  | 1 => x ≠ y
  | 2 => x.toInt < y.toInt
  | 3 => y.toInt ≤ x.toInt
  | 4 => x.toNat < y.toNat
  | _ => y.toNat ≤ x.toNat

theorem branchCond_eq_some {cond : Fin 8} (h : cond.val < 6) (x y : W64) :
    ∃ t, branchCond cond x y = some t ∧ (t = true ↔ branchHolds cond.val x y) := by
  obtain ⟨n, hn⟩ := cond
  dsimp only at h
  interval_cases n <;> exact ⟨_, rfl, by simp [branchHolds, BitVec.slt, BitVec.ult]⟩

theorem branchCond_eq_none {cond : Fin 8} (h : 6 ≤ cond.val) (x y : W64) : branchCond cond x y = none := by
  obtain ⟨n, hn⟩ := cond
  dsimp only at h
  interval_cases n <;> rfl

/-! ### Training leaves the registers (R107) -/

section train
variable (k : Core) (kind : Nat) (cond taken : Bool) (t a : W64)

@[simp] theorem Core.train_g : (k.train kind cond taken t).g = k.g := by unfold Core.train; split <;> rfl
@[simp] theorem Core.train_pc : (k.train kind cond taken t).pc = k.pc := by unfold Core.train; split <;> rfl
@[simp] theorem Core.rasPush_g : (k.rasPush a).g = k.g := by unfold Core.rasPush; split <;> rfl

/-- The link register is written beside the training of a call. -/
theorem Core.setG_rasPush_train (rd : Reg) (v : W64) :
    ((k.train kind cond taken t).rasPush a).setG rd v =
      { (k.train kind cond taken t).rasPush a with g := k.g.set rd v } := by
  simp only [Core.setG, Core.rasPush_g, Core.train_g]

theorem Core.setG_train (rd : Reg) (v : W64) :
    (k.train kind cond taken t).setG rd v = { k.train kind cond taken t with g := k.g.set rd v } := by
  simp only [Core.setG, Core.train_g]

end train

/-! ### Ends of an instruction's work -/

/-- A core as it is changed depends on the core that stands there alone. -/
theorem State.modCore_congr {s : State} {c : Nat} {f f' : Core → Core} (h : f (s.core c) = f' (s.core c)) :
    s.modCore c f = s.modCore c f' := congrArg (s.setCore c) h

section ends
variable {s t : State} {c met : Nat} {ser : Bool} {reads writes : List LDest} {body : State → Done} {w : RunState}
  {f : Core → Core}

/-- An instruction whose work ends with its core changed by `f`. -/
theorem State.issueAs_after (h : s.Ready c ser reads) (hb : body (s.begun c ser reads writes) = .ok (t.modCore c f))
    (hw : t.waits = false) (hpc : (f (t.core c)).pc = (t.core c).pc) :
    s.issueAs c met w ser reads writes body = t.after c met f := by
  rw [State.issueAs_ready h, hb, State.finish, State.core_modCore, hpc]
  exact State.orWait_of _ (by simp [hw])

/-- An instruction that goes on waiting. -/
theorem State.issueAs_stay (h : s.Ready c ser reads) (hb : body (s.begun c ser reads writes) = .stay t) :
    s.issueAs c met w ser reads writes body = s.orWait t := by
  rw [State.issueAs_ready h, hb]; rfl

theorem State.issueAs_stay_of (h : s.Ready c ser reads) (hb : body (s.begun c ser reads writes) = .stay t)
    (hw : t.waits = false) : s.issueAs c met w ser reads writes body = t :=
  (State.issueAs_stay h hb).trans (State.orWait_of _ hw)

theorem State.issue_after_of (h : s.Ready c ser reads) (hb : body (s.begun c ser reads writes) = .ok (t.modCore c f))
    (hw : t.waits = false) (hpc : (f (t.core c)).pc = (t.core c).pc) :
    s.issue c met ser reads writes body = t.after c met f := State.issueAs_after h hb hw hpc

theorem State.issue_stay_of (h : s.Ready c ser reads) (hb : body (s.begun c ser reads writes) = .stay t)
    (hw : t.waits = false) : s.issue c met ser reads writes body = t := State.issueAs_stay_of h hb hw

/-- A jump of a core changed by `f`. -/
theorem State.issue_jumped {a : W64} (h : s.Ready c ser reads)
    (hb : body (s.begun c ser reads writes) = .jump ((s.begun c ser reads writes).modCore c f) a) :
    s.issue c met ser reads writes body = (s.begun c ser reads writes).jumped c met f a :=
  State.issue_jump h hb (by simp [State.begun_waits h])

/-- An instruction that retires and raises an event (R45). -/
theorem State.issue_call {e : Exc} (h : s.Ready c ser reads) (hb : body (s.begun c ser reads writes) = .call t e) :
    s.issue c met ser reads writes body = s.orWait (State.finish c met (.call t e)) := by
  rw [State.issue_ready h, hb]

end ends

/-! ### Branches and jumps (R83) -/

section jumps
variable {s : State} {c : Nat} {t : W64}

theorem exec_br {off : BitVec 26} (h : s.Ready c false [])
    (ht : t = BitVec.ofInt 64 (((s.begun c false [] []).core c).pc.toNat + 4 * off.toInt)) :
    exec (.br c off) s = .next ((s.begun c false [] []).jumped c 3 (fun k => k.train 0 false true t) t) := by
  rw [← relTarget_eq_ofInt] at ht
  subst ht
  exact congrArg Host.Outcome.next (State.issue_jumped h rfl)

theorem exec_bal {off : BitVec 26} (h : s.Ready c false [])
    (ht : t = BitVec.ofInt 64 (((s.begun c false [] [.g 31]).core c).pc.toNat + 4 * off.toInt)) :
    exec (.bal c off) s = .next ((s.begun c false [] [.g 31]).jumped c 3
      (fun k => ((k.train 2 false true t).rasPush (k.pc + 4)).setG 31 (k.pc + 4)) t) := by
  rw [← relTarget_eq_ofInt] at ht
  subst ht
  refine congrArg Host.Outcome.next (State.issue_jumped h ?_)
  simp only [Core.setG_rasPush_train]
  rfl

section bcc
variable {cond : Fin 8} {ra rb : Reg} {off : BitVec 13}

/-- A branch whose condition is `taken`. -/
theorem exec_bcc_some {taken : Bool} (h : s.Ready c false [.g ra, .g rb])
    (ht : t = BitVec.ofInt 64 (((s.begun c false [.g ra, .g rb] []).core c).pc.toNat + 4 * off.toInt))
    (hc : branchCond cond ((s.begun c false [.g ra, .g rb] []).core c).g[ra]
      ((s.begun c false [.g ra, .g rb] []).core c).g[rb] = some taken) :
    exec (.bcc c cond ra rb off) s = .next (if taken then
        (s.begun c false [.g ra, .g rb] []).jumped c 3 (fun k => k.train 1 true true t) t
      else (s.begun c false [.g ra, .g rb] []).after c 3 (fun k => k.train 1 true false t)) := by
  rw [← relTarget_eq_ofInt] at ht
  subst ht
  refine congrArg Host.Outcome.next ?_
  cases taken with
  | true =>
    refine State.issue_jumped h ?_
    dsimp only
    rw [hc]
    rfl
  | false =>
    refine State.issue_after h ?_ (Core.train_pc ..)
    dsimp only
    rw [hc]
    rfl

theorem exec_bcc_none (h : s.Ready c false [.g ra, .g rb]) (hc : 6 ≤ cond.val) :
    exec (.bcc c cond ra rb off) s =
      .next (s.orWait ((s.begun c false [.g ra, .g rb] []).trapped c 3 illegal)) := by
  refine congrArg Host.Outcome.next (State.issue_exc h ?_)
  dsimp only
  rw [branchCond_eq_none hc]

end bcc

section jalr
variable {rd ra : Reg} {imm : BitVec 16}

theorem exec_jalr {b : State} (h : s.Ready c false [.g ra]) (hb : b = s.begun c false [.g ra] [.g rd])
    (ht : t = BitVec.ofInt 64 ((b.core c).g[ra].toNat + imm.toInt)) :
    (t.toNat % 4 = 0 → rd ≠ 31 → exec (.jalr c rd ra imm) s = .next (b.jumped c 4
      (fun k => (k.train 3 false true t).setG rd (k.pc + 4)) t))
    ∧ (t.toNat % 4 = 0 → rd = 31 → exec (.jalr c rd ra imm) s = .next (b.jumped c 4
      (fun k => ((k.train 2 false true t).rasPush (k.pc + 4)).setG 31 (k.pc + 4)) t))
    ∧ (t.toNat % 4 ≠ 0 → exec (.jalr c rd ra imm) s = .next (s.orWait (b.trapped c 4 (instrAlign t)))) := by
  rw [← add_immS_eq_ofInt] at ht
  subst ht hb
  refine ⟨fun hal hrd => ?_, fun hal hrd => ?_, fun hal => ?_⟩
  · refine congrArg Host.Outcome.next (State.issue_jumped h ?_)
    simp only [if_neg (not_not.mpr hal), if_neg hrd, Core.setG_train]
    rfl
  · subst hrd
    refine congrArg Host.Outcome.next (State.issue_jumped h ?_)
    simp only [if_neg (not_not.mpr hal), if_true, Core.setG_rasPush_train]
    rfl
  · exact congrArg Host.Outcome.next (State.issue_exc h (if_pos hal))

theorem exec_jr {b : State} (h : s.Ready c false [.g ra]) (hb : b = s.begun c false [.g ra] [])
    (ht : t = BitVec.ofInt 64 ((b.core c).g[ra].toNat + imm.toInt)) :
    (t.toNat % 4 = 0 → ra ≠ 31 → exec (.jr c ra imm) s = .next (b.jumped c 4 (fun k => k.train 3 false true t) t))
    ∧ (t.toNat % 4 = 0 → ra = 31 →
      exec (.jr c ra imm) s = .next (b.jumped c 4 (fun k => (k.train 3 false true t).rasPop) t))
    ∧ (t.toNat % 4 ≠ 0 → exec (.jr c ra imm) s = .next (s.orWait (b.trapped c 4 (instrAlign t)))) := by
  rw [← add_immS_eq_ofInt] at ht
  subst ht hb
  refine ⟨fun hal hra => ?_, fun hal hra => ?_, fun hal => ?_⟩
  · refine congrArg Host.Outcome.next (State.issue_jumped h ?_)
    simp only [if_neg (not_not.mpr hal), if_neg hra]
    rfl
  · subst hra
    refine congrArg Host.Outcome.next (State.issue_jumped h ?_)
    simp only [if_neg (not_not.mpr hal), if_true]
    rfl
  · exact congrArg Host.Outcome.next (State.issue_exc h (if_pos hal))

end jalr
end jumps

/-! ### Calls (R37) -/

section calls
variable {s : State} {c num : Nat} {l : Lvl}

/-- A call to a level above the current one: it retires and raises its event. -/
theorem State.callTo_above (h : s.Ready c false []) (hl : ((s.begun c false [] []).core c).lvl.num < l.num) :
    s.callTo c l num = s.orWait (State.finish c 1 (.call (s.begun c false [] []) (mkExc num))) :=
  State.issue_call h (if_neg (Nat.not_le.mpr hl))

theorem State.callTo_refused (h : s.Ready c false []) (hl : l.num ≤ ((s.begun c false [] []).core c).lvl.num) :
    s.callTo c l num = s.orWait ((s.begun c false [] []).trapped c 1 illegal) :=
  State.issue_exc h (if_pos hl)

/-- A word that no table lists, of a metered core: it takes cycles that the tables do not give (log 24). -/
theorem exec_undefinedEncoding {w : BitVec 32} (h : s.Ready c false []) (hw : listed w = false) :
    exec (.undefinedEncoding c w) s = .next (s.orWait
      (({ s.begun c false [] [] with free := (s.begun c false [] []).free + 1 }.modCore c (fun k =>
        if k.meter then
          { k with cycle := k.cycle + BitVec.ofNat 64 (Config.freeCycles (s.begun c false [] []).free) }
        else k)).trapped c 0 illegal)) := by
  refine congrArg Host.Outcome.next ((if_neg (by simp [hw])).trans ?_)
  exact State.issue_exc h rfl

end calls

/-- Settles O30: the targets as sums of integers, the conditions as their relations, and the calls by their levels. -/
theorem controlFlowResults : Obligations.ControlFlowResults := by
  refine ⟨fun s c o26 o13 imm cond rd ra rb => ?jumps, fun s c w => ?calls⟩
  case jumps =>
    refine ⟨fun h t ht => exec_br h ht, fun h t ht => exec_bal h ht, ?bcc, fun h t ht => exec_jalr h rfl ht,
      fun h t ht => exec_jr h rfl ht⟩
    intro b x y holds h t ht
    refine ⟨fun hc hyes => ?_, fun hc hno => ?_, fun hc => exec_bcc_none h hc⟩
    · obtain ⟨taken, hcond, htaken⟩ := branchCond_eq_some hc x y
      rw [exec_bcc_some h ht hcond, if_pos (htaken.mpr hyes)]
    · obtain ⟨taken, hcond, htaken⟩ := branchCond_eq_some hc x y
      rw [exec_bcc_some h ht hcond, if_neg (fun ht => hno (htaken.mp ht))]
  case calls =>
    intro b k called refused h
    have hu : k.lvl ≠ .u → 1 ≤ k.lvl.num := fun hne => Nat.one_le_iff_ne_zero.mpr (fun h0 => hne (Lvl.num_eq_zero.mp h0))
    have hm : k.lvl ≠ .m → k.lvl.num < 3 := by
      intro hne
      cases hk : k.lvl <;> simp_all [Lvl.num]
    refine ⟨fun hl => ?_, fun hl => ?_, fun hl => ?_, fun hl => ?_, fun hl => ?_, fun hl => ?_, ?_, fun hw hmeter => ?_,
      fun hw hmeter => ?_⟩
    · exact congrArg Host.Outcome.next (State.callTo_above h (by change k.lvl.num < 1; rw [hl]; decide))
    · exact congrArg Host.Outcome.next (State.callTo_refused h (hu hl))
    · exact congrArg Host.Outcome.next (State.callTo_above h hl)
    · exact congrArg Host.Outcome.next (State.callTo_refused h hl)
    · exact congrArg Host.Outcome.next (State.callTo_above h (hm hl))
    · exact congrArg Host.Outcome.next (State.callTo_refused h (by change 3 ≤ k.lvl.num; rw [hl]; decide))
    · exact congrArg Host.Outcome.next (State.issue_call h rfl)
    · exact (exec_undefinedEncoding h hw).trans (congrArg (fun u => Host.Outcome.next (s.orWait (State.trapped u c 0 illegal)))
        (State.modCore_congr (if_pos hmeter)))
    · exact (exec_undefinedEncoding h hw).trans (congrArg (fun u => Host.Outcome.next (s.orWait (State.trapped u c 0 illegal)))
        (State.modCore_congr (if_neg (Bool.eq_false_iff.mp hmeter))))

end Sys2Proof.Machine
end

section
/-! SUPPORT. Waits, barriers and random bits, and what a core does between instructions (R43, R54, R90, R92, R101, R105,
R117, R133, R134, R151, R153, R193). -/

namespace Sys2Proof.Machine

/-! ### Waits (R92, R193, R354) -/

section waits
variable {s : State} {c : Nat}

theorem State.wfeReady_iff (s : State) (c : Nat) :
    s.wfeReady c = true ↔ (s.core c).pend ≠ [] ∨ s.mailbox c ≠ [] := by
  simp [State.wfeReady]

theorem exec_wfe_ready (h : s.Ready c false []) (hr : (s.begun c false [] []).wfeReady c = true) :
    exec (.wfe c) s = .next ((s.begun c false [] []).after c 2 (fun k => { k with run := .run })) :=
  congrArg Host.Outcome.next (State.issueAs_after h (if_pos hr) (State.begun_waits h) rfl)

/-- The state in which a core waits. -/
def State.waiting (s : State) (c : Nat) (r : RunState) : State := s.modCore c (fun k => { k with run := r })

theorem exec_wfe_waits (h : s.Ready c false []) (hr : (s.begun c false [] []).wfeReady c = false)
    (hret : ((s.begun c false [] []).core c).retwfe = false) :
    exec (.wfe c) s = .next ((s.begun c false [] []).waiting c .wfe) := by
  have hret' : (((s.begun c false [] []).waiting c .wfe).core c).retwfe = false := by
    rw [State.waiting, State.core_modCore, hret]
  refine congrArg Host.Outcome.next (State.issueAs_stay_of (writes := []) h ?_ (State.begun_waits (writes := []) h))
  exact (if_neg (by simp [hr])).trans (if_neg (Bool.eq_false_iff.mp hret'))

theorem exec_wfe_ret (h : s.Ready c false []) (hr : (s.begun c false [] []).wfeReady c = false)
    (hret : ((s.begun c false [] []).core c).retwfe = true) :
    exec (.wfe c) s = .next (s.orWait ((((s.begun c false [] []).waiting c .wfe).modDom c (fun d =>
      { d with st := 3, dest := 1, src := 0, viaWfe := true, wakeReq := false })).leaveOn c .ret)) := by
  have hret' : (((s.begun c false [] []).waiting c .wfe).core c).retwfe = true := by
    rw [State.waiting, State.core_modCore, hret]
  refine congrArg Host.Outcome.next (State.issueAs_stay h ?_)
  exact (if_neg (by simp [hr])).trans (if_pos hret')

section nwait
variable {ra : Reg} {b : State}

theorem exec_nwait (h : s.Ready c false [.g ra]) (hb : b = s.begun c false [.g ra] []) :
    ((b.core c).g[ra].toNat ≤ b.noon.tick →
      exec (.nwait c ra) s = .next (b.after c 2 (fun k => { k with run := .run })))
    ∧ (b.noon.tick < (b.core c).g[ra].toNat → (b.core c).bind = true → b.noonQuiet c = true →
      exec (.nwait c ra) s = .next (b.modCore c (fun k =>
        { k.completeWhere (fun _ => true) with run := .nwait, closedTo := max k.closedTo (b.core c).g[ra].toNat })))
    ∧ (b.noon.tick < (b.core c).g[ra].toNat → (b.core c).bind = false ∨ b.noonQuiet c = false →
      exec (.nwait c ra) s = .next (b.waiting c .nwait)) := by
  subst hb
  refine ⟨fun ht => ?_, fun ht hbind hquiet => ?_, fun ht hopen => ?_⟩
  · exact congrArg Host.Outcome.next (State.issueAs_after h (if_pos ht) (State.begun_waits h) rfl)
  · refine congrArg Host.Outcome.next (State.issueAs_stay_of (writes := []) h ?_ (State.begun_waits (writes := []) h))
    exact (if_neg (Nat.not_le.mpr ht)).trans (if_pos (by simp [hbind, hquiet]))
  · refine congrArg Host.Outcome.next (State.issueAs_stay_of (writes := []) h ?_ (State.begun_waits (writes := []) h))
    exact (if_neg (Nat.not_le.mpr ht)).trans (if_neg (by rcases hopen with ho | ho <;> simp [ho]))

end nwait

/-! ### Barriers (R54, R109) -/

theorem Core.plainQueued_iff (k : Core) : k.plainQueued = true ↔ ∃ e ∈ k.sq, e.tord = none := by
  simp [Core.plainQueued]

theorem exec_fence_free {m : BitVec 4} (h : s.Ready c false []) (hm : m.getLsbD 1 = false) :
    exec (.fence c m) s = .next ((s.begun c false [] []).after c 1 id) :=
  congrArg Host.Outcome.next (State.issue_id h (if_neg (by rw [hm]; decide)) (State.begun_waits h))

/-- FENCE with SL, after the queued ordinary stores have been performed as far as they can be. -/
theorem exec_fence_stores {m : BitVec 4} {ok : Bool} {t : State} (h : s.Ready c false []) (hm : m.getLsbD 1 = true)
    (hd : (s.begun c false [] []).drainWhile c (fun e => e.tord.isNone) ((s.begun c false [] []).core c).sq.length = (ok, t))
    (hw : t.waits = false) :
    exec (.fence c m) s = .next (if (t.core c).plainQueued then t else t.after c 1 id) := by
  by_cases hq : (t.core c).plainQueued = true
  · rw [if_pos hq]
    refine congrArg Host.Outcome.next (State.issue_stay_of (writes := []) h ((if_pos hm).trans ?_) hw)
    rw [hd]
    exact if_pos hq
  · rw [if_neg hq]
    refine congrArg Host.Outcome.next (State.issue_id (writes := []) h ((if_pos hm).trans ?_) hw)
    rw [hd]
    exact if_neg hq

theorem exec_ifence {t : State} (h : s.Ready c false []) (hd : (s.begun c false [] []).drainAll c = (true, t))
    (hw : t.waits = false) :
    exec (.ifence c) s = .next (t.after c 6 (fun k => { k with lineBuf := [], loopBuf := none })) := by
  refine congrArg Host.Outcome.next (State.issue_after_of h ?_ hw rfl)
  rw [hd]

/-- What SYNC waits for: a queued store, or a TO store of its core that is not acknowledged (R54, R201). -/
def State.syncWaits (s : State) (c : Nat) : Prop :=
  (s.core c).sq ≠ [] ∨ ∃ p ∈ (s.block (coreBlock c)).pub, p.key.core = c % 2

theorem State.syncWaits_iff (s : State) (c : Nat) : s.syncWaits c ↔
    (!(s.core c).sq.isEmpty || (s.block (coreBlock c)).pub.any (fun p => decide (p.key.core = c % 2))) = true := by
  simp [State.syncWaits]

section sync
variable {ok : Bool} {t : State} (h : s.Ready c true []) (hd : (s.begun c true [] []).drainAll c = (ok, t))
  (hw : t.waits = false)
include h hd hw

theorem exec_sync_done (hq : ¬ t.syncWaits c) : exec (.sync c) s = .next (t.after c 2 id) := by
  refine congrArg Host.Outcome.next (State.issue_id h ?_ hw)
  rw [hd]
  exact if_neg (fun hc => hq ((t.syncWaits_iff c).mpr hc))

theorem exec_sync_waits (hq : t.syncWaits c) : exec (.sync c) s = .next t := by
  refine congrArg Host.Outcome.next (State.issue_stay_of h ?_ hw)
  rw [hd]
  exact if_pos ((t.syncWaits_iff c).mp hq)

end sync

end waits

/-- RAND: the free value drawn says whether bits are ready, and which (log 17). -/
theorem exec_rand {s u : State} {c : Nat} {rd ra : Reg} (h : s.Ready c false [])
    (hu : u = { s.begun c false [] [.g rd, .g ra] with free := (s.begun c false [] [.g rd, .g ra]).free + 1 }) :
    exec (.rand c rd ra) s = .next (u.after c 200 (fun k =>
      (k.setG rd (if Config.randomReady (s.begun c false [] [.g rd, .g ra]).free then
          Config.random (s.begun c false [] [.g rd, .g ra]).free else 0)).setG ra
        (flag (Config.randomReady (s.begun c false [] [.g rd, .g ra]).free)))) := by
  subst hu
  exact congrArg Host.Outcome.next (State.issue_after_of h rfl (State.begun_waits (writes := [.g rd, .g ra]) h) rfl)

/-- Settles O34: each wait and barrier by whether what it waits for holds. -/
theorem waitBarrierResults : Obligations.WaitBarrierResults := by
  refine ⟨fun s c ra => ⟨?wfe, ?nwait⟩, fun s c m rd ra => ⟨fun h => ?barriers, fun h => ?long, ?rand⟩⟩
  case wfe =>
    intro b w h
    have hidle (hp : (b.core c).pend = []) (hm : b.mailbox c = []) : b.wfeReady c = false := by
      simp [State.wfeReady, hp, hm]
    exact ⟨fun hr => exec_wfe_ready h ((b.wfeReady_iff c).mpr hr), fun hp hm hret => exec_wfe_waits h (hidle hp hm) hret,
      fun hp hm hret => exec_wfe_ret h (hidle hp hm) hret⟩
  case nwait => exact fun h => exec_nwait h rfl
  case barriers =>
    intro b
    refine ⟨exec_fence_free h, fun hm ok t hd hw => ?_, ?_, ?_, fun t hd hw => exec_ifence h hd hw⟩
    · rw [exec_fence_stores h hm hd hw]
      refine ⟨fun hall => ?_, fun hq => ?_⟩
      · have hno : ¬ (t.core c).plainQueued = true := by
          rw [Core.plainQueued_iff]
          rintro ⟨e, he, hn⟩
          simpa [hn] using hall e he
        rw [if_neg hno]
      · rw [if_pos ((Core.plainQueued_iff _).mpr hq)]
    · exact congrArg Host.Outcome.next (State.issue_id h rfl (State.begun_waits h))
    · exact congrArg Host.Outcome.next (State.compute_ready h (fun _ => rfl))
  case long =>
    intro b
    refine ⟨congrArg Host.Outcome.next (State.issue_id h rfl (State.begun_waits h)), ?_⟩
    intro ok t hd hw own
    refine ⟨fun hsq hpub => exec_sync_done h hd hw ?_, exec_sync_waits h hd hw⟩
    rintro (hq | ⟨p, hp, ho⟩)
    · exact hq hsq
    · exact hpub p hp ho
  case rand =>
    intro b u h
    refine ⟨fun hr => ?_, fun hr => ?_⟩
    · exact (exec_rand h rfl).trans (by simp only [show Config.randomReady (s.begun c false [] _).free = true from hr]; rfl)
    · exact (exec_rand h rfl).trans (by simp only [show Config.randomReady (s.begun c false [] _).free = false from hr]; rfl)

end Sys2Proof.Machine
end

section
/-! SUPPORT. What a core does between instructions (R43, R50, R101, R102, R105, R117, R133, R134, R151, R153). -/

namespace Sys2Proof.Machine

/-! ### Long operations (R50, R105) -/

/-- A result changes the registers it is delivered to, and not the operations outstanding. -/
@[simp] theorem Core.deliver_longs (k : Core) (d : LDest) (r : LRes) : (k.deliver d r).longs = k.longs := by
  unfold Core.deliver
  split <;> rfl

section longs
variable {k : Core} {failed rest : List LongOp} {o : LongOp}

/-- Past operations that have failed, the first that has not is the one completed. -/
theorem findIdx_first_whole (hf : ∀ x ∈ failed, x.failed = true) (ho : o.failed = false) :
    (failed ++ o :: rest).findIdx (fun x => !x.failed) = failed.length := by
  induction failed with
  | nil => simp [List.findIdx_cons, ho]
  | cons x t ih =>
    rw [List.cons_append, List.findIdx_cons, hf x List.mem_cons_self, ih (fun y hy => hf y (List.mem_cons_of_mem _ hy))]
    rfl

theorem Core.completeLong_ok (h : o.exc = none) :
    k.completeLong o = (({ k with fpcsr := k.fpcsr ||| BitVec.ofNat 64 o.flags } : Core).deliver o.dest o.res, none) := by
  simp only [Core.completeLong, h]

theorem Core.completeLong_fails (h : o.exc ≠ none) :
    k.completeLong o = ({ k with fpcsr := k.fpcsr ||| BitVec.ofNat 64 o.flags, impend := true },
      some { o with failed := true }) := by
  obtain ⟨e, he⟩ := Option.ne_none_iff_exists'.mp h
  simp only [Core.completeLong, he]

variable (hk : k.longs = failed ++ o :: rest) (hf : ∀ x ∈ failed, x.failed = true) (ho : o.failed = false)
include hk hf ho

theorem Core.longs_at_first : k.longs.findIdx (fun x => !x.failed) = failed.length ∧ k.longs[failed.length]? = some o := by
  rw [hk]
  exact ⟨findIdx_first_whole hf ho, by simp⟩

/-- The operation delivers its result and is outstanding no more. -/
theorem Core.completeNext_delivers (hx : o.exc = none) :
    k.completeNext = { ({ k with fpcsr := k.fpcsr ||| BitVec.ofNat 64 o.flags } : Core).deliver o.dest o.res with
      longs := failed ++ rest } := by
  obtain ⟨hidx, hget⟩ := Core.longs_at_first hk hf ho
  have herase : k.longs.eraseIdx failed.length = failed ++ rest := by
    rw [hk, List.eraseIdx_append_of_length_le (le_refl _), Nat.sub_self]
    rfl
  simp only [Core.completeNext, hidx, hget, Core.completeLong_ok hx, Core.deliver_longs, herase]

/-- The operation has failed and stays outstanding. -/
theorem Core.completeNext_fails (hx : o.exc ≠ none) :
    k.completeNext = { k with
      fpcsr := k.fpcsr ||| BitVec.ofNat 64 o.flags, impend := true
      longs := failed ++ { o with failed := true } :: rest } := by
  obtain ⟨hidx, hget⟩ := Core.longs_at_first hk hf ho
  have hset : k.longs.set failed.length { o with failed := true } = failed ++ { o with failed := true } :: rest := by
    rw [hk]; simp
  simp only [Core.completeNext, hidx, hget, Core.completeLong_fails hx, hset]

end longs

/-! ### The commands -/

section commands
variable {s : State} {c : Nat}

/-- The event that the boundary takes (R43, R92). -/
theorem exec_eventEntry {key : Nat} (hlive : s.coreLive c = true) (hdev : (s.core c).run ≠ .dev)
    (hhalf : (s.core c).half = none) (hkey : (s.core c).asyncPick = some key) :
    exec (.eventEntry c) s = .next (s.orWait (s.takeAsync c key)) := by
  refine congrArg (fun t => Host.Outcome.next (s.orWait t)) ((if_neg (by simp [hlive, hdev, hhalf])).trans ?_)
  rw [hkey]

theorem exec_longOperationComplete (hlive : s.coreLive c = true) :
    exec (.longOperationComplete c) s = .next (s.modCore c Core.completeNext) :=
  congrArg Host.Outcome.next (if_neg (by simp [hlive]))

/-- The oldest store, an ordinary one, leaves the queue (R101). -/
theorem State.drainOne_plain {e : SqEntry} {rest : List SqEntry} (hsq : (s.core c).sq = e :: rest) (ht : e.tord = none)
    (hst : s.homed e.pa = false ∨ s.walkStalls c (e.pa / 64) = false) :
    s.drainOne c = (true, (if s.homed e.pa then (s.modCore c (fun k => { k with sq := rest })).relock c (e.pa / 64)
      else s.modCore c (fun k => { k with sq := rest })).writeStore c e) := by
  have hgo : ¬ (s.homed e.pa && s.walkStalls c (e.pa / 64)) = true := by rcases hst with h | h <;> simp [h]
  simp only [State.drainOne, hsq, ht, if_neg hgo]
  rfl

theorem exec_storeWriteAfterRetirement {t : State} {ok : Bool} (hup : s.up = true) (hc : s.corePresent c = true)
    (hd : s.drainOne c = (ok, t)) (hw : t.waits = false) : exec (.storeWriteAfterRetirement c) s = .next t := by
  have hrun : (if !s.up || !s.corePresent c then s else (s.drainOne c).2) = t :=
    (if_neg (by simp [hup, hc])).trans (by rw [hd])
  exact congrArg Host.Outcome.next ((congrArg s.orWait hrun).trans (State.orWait_of _ hw))

theorem exec_memoryOrderReplay (hlive : s.coreLive c = true) (hm : (s.core c).meter = false) :
    exec (.memoryOrderReplay c) s = .next (s.cycles c 0) :=
  congrArg Host.Outcome.next (if_neg (by simp [hlive, hm]))

theorem exec_streamPrefetch {t : State} (hlive : s.coreLive c = true) (hpf : (s.core c).pfctl.getLsbD 0 = true)
    (hm : (s.core c).meter = false)
    (ht : t = (s.core c).trackers.foldl (fun u tr => (tr.wants (fld (s.core c).pfctl 1 4)).foldl
      (fun u la => u.prefetch c la tr.td tr.ks tr.store tr.stream) u) s) (hw : t.waits = false) :
    exec (.streamPrefetch c) s = .next t := by
  subst ht
  exact congrArg Host.Outcome.next ((congrArg s.orWait (if_neg (by rw [hlive, hpf, hm]; decide))).trans (State.orWait_of _ hw))

theorem exec_sideBufferEntryExpire {la : Nat} {l : CLine} (hup : s.up = true) (hc : s.corePresent c = true)
    (hl : (s.core c).sbFind la = some l) :
    exec (.sideBufferEntryExpire c la) s =
      .next ((s.modCore c (fun k => { k with sb := k.sb.filter (fun x => x.la != la) })).release c l) := by
  have hrun : execSideBufferEntryExpire c la s = .next (if !s.up || !s.corePresent c then s
      else (s.modCore c (fun k => { k with sb := k.sb.filter (fun x => x.la != la) })).release c l) := by
    rw [execSideBufferEntryExpire, hl]
  exact hrun.trans (congrArg Host.Outcome.next (if_neg (by simp [hup, hc])))

/-- A window can be locked: it has lines, all in DRAM, and the core may fetch them (R117). -/
def State.lockable (s : State) (c : Nat) (las : List Nat) : Prop :=
  s.coreLive c = true ∧ s.boot.handed = true ∧ las ≠ [] ∧ (s.core c).l2en = true ∧ (s.core c).walk = none
    ∧ ∀ la ∈ las, inDram (64 * la) = true ∧ s.dramOk (64 * la) = true

theorem State.lockable_iff (s : State) (c : Nat) (las : List Nat) : s.lockable c las ↔
    ¬ (!s.coreLive c || !s.boot.handed || las.isEmpty || !(s.core c).l2en || (s.core c).walk.isSome
      || !(las.all (fun la => inDram (64 * la) && s.dramOk (64 * la)))) = true := by
  simp [State.lockable, and_assoc]

theorem exec_windowLockComplete {data : Bool} {las : List Nat} {t : State}
    (hlas : las = if data then (s.core c).dataLines else (s.core c).codeLines) (h : s.lockable c las)
    (ht : t = if data then
        (las.foldl (fun s la => s.lockData c la) s).modCore c (fun k => { k with mdpa := setFld k.mdpa 5 1 1 })
      else (las.foldl (fun s la => s.lockCode c la) s).modCore c (fun k => { k with mcpa := setFld k.mcpa 2 1 1 }))
    (hw : t.waits = false) : exec (.windowLockComplete c data) s = .next t := by
  subst hlas ht
  exact congrArg Host.Outcome.next
    ((congrArg s.orWait (if_neg ((s.lockable_iff c _).mp h))).trans (State.orWait_of _ hw))

theorem exec_cacheWalkComplete_disable (hup : s.up = true) (hc : s.corePresent c = true)
    (hwalk : (s.core c).walk = some .disable) :
    exec (.cacheWalkComplete c) s = .next ((s.walkRelease c).modCore c (fun k => { k with
      cleaning := false, walk := none, l2en := k.reEnable, reEnable := false, resv := none })) := by
  refine congrArg Host.Outcome.next ((if_neg (by simp [hup, hc])).trans ?_)
  rw [hwalk]

theorem exec_cacheWalkComplete_wball (hup : s.up = true) (hc : s.corePresent c = true)
    (hwalk : (s.core c).walk = some .wball) :
    exec (.cacheWalkComplete c) s =
      .next ((s.walkClean c).modCore c (fun k => { k with cleaning := false, walk := none })) := by
  refine congrArg Host.Outcome.next ((if_neg (by simp [hup, hc])).trans ?_)
  rw [hwalk]

end commands

/-- Settles O39: one case for each of the eight commands, and for the two walks. -/
theorem coreBetweenInstructions : Obligations.CoreBetweenInstructions := by
  intro s c la data
  refine ⟨fun key hlive hdev hhalf hkey => exec_eventEntry hlive hdev hhalf hkey, ?long, ?store, ?replay, ?prefetch,
    fun hup hc l hl => exec_sideBufferEntryExpire hup hc hl, ?lock,
    fun hup hc => ⟨exec_cacheWalkComplete_disable hup hc, exec_cacheWalkComplete_wball hup hc⟩⟩
  case long =>
    intro hlive failed o rest hk hf ho
    rw [exec_longOperationComplete hlive]
    exact ⟨fun hx => congrArg Host.Outcome.next (State.modCore_congr (Core.completeNext_delivers hk hf ho hx)),
      fun hx => congrArg Host.Outcome.next (State.modCore_congr (Core.completeNext_fails hk hf ho hx))⟩
  case store =>
    intro hup hc e rest t hsq ho hst ht hw
    subst ht
    exact exec_storeWriteAfterRetirement hup hc (State.drainOne_plain hsq ho hst) hw
  case replay =>
    intro hlive hm
    rw [exec_memoryOrderReplay hlive hm, State.cycles_free hm]
  case prefetch =>
    intro hlive hpf hm tr t htr ht hw
    refine exec_streamPrefetch hlive hpf hm ?_ hw
    rw [htr, ht]
    rfl
  case lock =>
    intro las hlive hh hne hl2 hwalk hall t ht hw
    exact exec_windowLockComplete rfl ⟨hlive, hh, hne, hl2, hwalk, hall⟩ ht hw

end Sys2Proof.Machine
end

section
/-! SUPPORT. The fields of a word that a format builds, and the decoding of the word of every instruction (R57 to R59). -/

namespace Sys2Proof.Machine

/-! ### The fields of a word, by format (R57, R59) -/

/-- A field within the low `m` bits of a number. -/
theorem mod_two_pow_field {N lo n m : Nat} (h : lo + n ≤ m) : N % 2 ^ m / 2 ^ lo % 2 ^ n = N / 2 ^ lo % 2 ^ n := by
  obtain ⟨d, rfl⟩ := Nat.exists_eq_add_of_le h
  rw [Nat.add_assoc, Nat.pow_add 2 lo, Nat.mod_mul_right_div_self, Nat.pow_add 2 n, Nat.mod_mul_right_mod]

/-- A field of the word of a number is a field of the number. -/
theorem wordField_ofNat {N lo n : Nat} (h : lo + n ≤ 32) :
    wordField (BitVec.ofNat 32 N) lo n = N / 2 ^ lo % 2 ^ n := by
  rw [wordField, BitVec.toNat_ofNat, mod_two_pow_field h]

/-- A field within the low `k` bits of a word. -/
theorem wordField_within {lo n : Nat} (k : Nat) (w : BitVec 32) (h : lo + n ≤ k) :
    wordField w lo n = wordField w 0 k / 2 ^ lo % 2 ^ n := by
  rw [wordField, wordField, Nat.pow_zero, Nat.div_one, mod_two_pow_field h]

theorem extractLsb'_eq_ofNat_wordField (w : BitVec 32) (n : Nat) : w.extractLsb' 0 n = BitVec.ofNat n (wordField w 0 n) := by
  apply BitVec.eq_of_toNat_eq
  simp [wordField]

theorem flagField_eq_wordField (w : BitVec 32) (lo : Nat) : flagField w lo = decide (wordField w lo 1 = 1) := by
  rw [flagField, wordField, ← BitVec.testBit_toNat, Nat.testBit_eq_decide_div_mod_eq, Nat.pow_one]

/-! #### Format RR -/

section RR
variable {op rd ra rb fn : Nat} (hop : op < 64) (hrd : rd < 32) (hra : ra < 32) (hrb : rb < 32) (hfn : fn < 2048)

include hop hrd hra hrb hfn in
theorem wordRR_op : wordField (wordRR op rd ra rb fn) 26 6 = op := by rw [wordRR, wordField_ofNat (by decide)]; omega
include hrd hra hrb hfn in
theorem wordRR_rd : wordField (wordRR op rd ra rb fn) 21 5 = rd := by rw [wordRR, wordField_ofNat (by decide)]; omega
include hra hrb hfn in
theorem wordRR_ra : wordField (wordRR op rd ra rb fn) 16 5 = ra := by rw [wordRR, wordField_ofNat (by decide)]; omega
include hrb hfn in
theorem wordRR_rb : wordField (wordRR op rd ra rb fn) 11 5 = rb := by rw [wordRR, wordField_ofNat (by decide)]; omega
include hfn in
theorem wordRR_fn : wordField (wordRR op rd ra rb fn) 0 11 = fn := by rw [wordRR, wordField_ofNat (by decide)]; omega

include hrd hra hrb hfn in
theorem listed_wordRR (hop : op < 8) : listed (wordRR op rd ra rb fn) = listedRR op fn rb := by
  rw [listed, wordRR_op (by omega) hrd hra hrb hfn, wordRR_rb hrb hfn, wordRR_fn hfn]
  exact if_pos hop

end RR

/-! #### Format RI -/

section RI
variable {op rd ra : Nat} {imm : BitVec 16} (hop : op < 64) (hrd : rd < 32) (hra : ra < 32)

include hop hrd hra in
theorem wordRI_op : wordField (wordRI op rd ra imm) 26 6 = op := by rw [wordRI, wordField_ofNat (by decide)]; omega
include hrd hra in
theorem wordRI_rd : wordField (wordRI op rd ra imm) 21 5 = rd := by rw [wordRI, wordField_ofNat (by decide)]; omega
include hra in
theorem wordRI_ra : wordField (wordRI op rd ra imm) 16 5 = ra := by rw [wordRI, wordField_ofNat (by decide)]; omega
theorem wordRI_imm : wordField (wordRI op rd ra imm) 0 16 = imm.toNat := by
  rw [wordRI, wordField_ofNat (by decide)]; omega

include hrd hra in
theorem listed_wordRI (hlo : 8 ≤ op) (hhi : op ≤ 0x24) :
    listed (wordRI op rd ra imm) = listedRI op rd ra imm.toNat := by
  rw [listed, wordRI_op (by omega) hrd hra, wordRI_rd hrd hra, wordRI_ra hra, wordRI_imm]
  exact (if_neg (by omega)).trans (if_pos hhi)

end RI

/-! #### Formats BL and BC -/

section BL
variable {op : Nat} {off : BitVec 26}

theorem wordBL_op (hop : op < 64) : wordField (wordBL op off) 26 6 = op := by
  rw [wordBL, wordField_ofNat (by decide)]; omega
theorem wordBL_off : wordField (wordBL op off) 0 26 = off.toNat := by
  rw [wordBL, wordField_ofNat (by decide)]; omega

end BL

section BC
variable {ra rb cond : Nat} {off : BitVec 13} (hra : ra < 32) (hrb : rb < 32) (hc : cond < 8)

include hra hrb hc in
theorem wordBC_op : wordField (wordBC ra rb cond off) 26 6 = 0x2A := by rw [wordBC, wordField_ofNat (by decide)]; omega
include hra hrb hc in
theorem wordBC_ra : wordField (wordBC ra rb cond off) 21 5 = ra := by rw [wordBC, wordField_ofNat (by decide)]; omega
include hrb hc in
theorem wordBC_rb : wordField (wordBC ra rb cond off) 16 5 = rb := by rw [wordBC, wordField_ofNat (by decide)]; omega
include hc in
theorem wordBC_cond : wordField (wordBC ra rb cond off) 13 3 = cond := by rw [wordBC, wordField_ofNat (by decide)]; omega
theorem wordBC_off : wordField (wordBC ra rb cond off) 0 13 = off.toNat := by
  rw [wordBC, wordField_ofNat (by decide)]; omega

end BC

/-! #### Format VA -/

section VA
variable {op vd va vb acc fn : Nat} (hop : op < 64) (hvd : vd < 32) (hva : va < 32) (hvb : vb < 32) (hacc : acc < 8)
  (hfn : fn < 256)

include hop hvd hva hvb hacc hfn in
theorem wordVA_op : wordField (wordVA op vd va vb acc fn) 26 6 = op := by rw [wordVA, wordField_ofNat (by decide)]; omega
include hvd hva hvb hacc hfn in
theorem wordVA_vd : wordField (wordVA op vd va vb acc fn) 21 5 = vd := by rw [wordVA, wordField_ofNat (by decide)]; omega
include hva hvb hacc hfn in
theorem wordVA_va : wordField (wordVA op vd va vb acc fn) 16 5 = va := by rw [wordVA, wordField_ofNat (by decide)]; omega
include hvb hacc hfn in
theorem wordVA_vb : wordField (wordVA op vd va vb acc fn) 11 5 = vb := by rw [wordVA, wordField_ofNat (by decide)]; omega
include hacc hfn in
theorem wordVA_acc : wordField (wordVA op vd va vb acc fn) 8 3 = acc := by rw [wordVA, wordField_ofNat (by decide)]; omega
include hfn in
theorem wordVA_fn : wordField (wordVA op vd va vb acc fn) 0 8 = fn := by rw [wordVA, wordField_ofNat (by decide)]; omega

include hvd hva hvb hacc hfn in
theorem listed_wordVA (hlo : 0x30 ≤ op) (hhi : op ≤ 0x33) :
    listed (wordVA op vd va vb acc fn) = listedVA op vd va vb acc fn := by
  rw [listed, wordVA_op (by omega) hvd hva hvb hacc hfn, wordVA_vd hvd hva hvb hacc hfn, wordVA_va hva hvb hacc hfn,
    wordVA_vb hvb hacc hfn, wordVA_acc hacc hfn, wordVA_fn hfn]
  rw [if_neg (by omega), if_neg (by omega), if_neg (by omega), if_neg (by omega), if_pos ⟨hlo, hhi⟩]

end VA

/-! #### Format SY -/

section SY
variable {op rd ra sub imm : Nat} (hop : op < 64) (hrd : rd < 32) (hra : ra < 32) (hsub : sub < 16) (himm : imm < 4096)

include hop hrd hra hsub himm in
theorem wordSY_op : wordField (wordSY op rd ra sub imm) 26 6 = op := by rw [wordSY, wordField_ofNat (by decide)]; omega
include hrd hra hsub himm in
theorem wordSY_rd : wordField (wordSY op rd ra sub imm) 21 5 = rd := by rw [wordSY, wordField_ofNat (by decide)]; omega
include hra hsub himm in
theorem wordSY_ra : wordField (wordSY op rd ra sub imm) 16 5 = ra := by rw [wordSY, wordField_ofNat (by decide)]; omega
include hsub himm in
theorem wordSY_sub : wordField (wordSY op rd ra sub imm) 12 4 = sub := by rw [wordSY, wordField_ofNat (by decide)]; omega
include himm in
theorem wordSY_imm : wordField (wordSY op rd ra sub imm) 0 12 = imm := by rw [wordSY, wordField_ofNat (by decide)]; omega

include hrd hra hsub himm in
theorem listed_wordSY (hop : op = 0x38 ∨ op = 0x39) :
    listed (wordSY op rd ra sub imm) = listedSY op rd ra sub imm := by
  rw [listed, wordSY_op (by omega) hrd hra hsub himm, wordSY_rd hrd hra hsub himm, wordSY_ra hra hsub himm,
    wordSY_sub hsub himm, wordSY_imm himm]
  rw [if_neg (by omega), if_neg (by omega), if_neg (by omega), if_neg (by omega), if_neg (by omega), if_pos hop]

end SY

/-! #### The parts of FN -/

section parts
variable {op rd ra rb vd va vb acc f m : Nat} {sp l aq rl dw : Bool} {sz : Fin 4}

/-- FN of scalar floating point: the precision above the operation (R66). -/
theorem wordRR_fpOp (hf : f < 1024) : wordField (wordRR op rd ra rb (1024 * sp.toNat + f)) 0 10 = f := by
  have := sp.toNat_le
  rw [wordField_within 11 _ (by decide), wordRR_fn (by omega)]; omega

theorem wordRR_fpSp (hf : f < 1024) : flagField (wordRR op rd ra rb (1024 * sp.toNat + f)) 10 = sp := by
  have := sp.toNat_le
  rw [flagField_eq_wordField, wordField_within 11 _ (by decide), wordRR_fn (by omega)]
  cases sp <;> simp <;> omega

theorem atomFn_lt (hf : f < 16) : atomFn aq rl dw f < 2048 := by
  have := aq.toNat_le; have := rl.toNat_le; have := dw.toNat_le
  rw [atomFn]; omega

/-- FN of an atomic: the operation, and its flags (R69). -/
theorem wordRR_atomOp (hf : f < 16) : wordField (wordRR op rd ra rb (atomFn aq rl dw f)) 0 4 = f := by
  rw [wordField_within 11 _ (by decide), wordRR_fn (atomFn_lt hf), atomFn]; omega

theorem wordRR_atomAq (hf : f < 16) : flagField (wordRR op rd ra rb (atomFn aq rl dw f)) 10 = aq := by
  have := rl.toNat_le; have := dw.toNat_le
  rw [flagField_eq_wordField, wordField_within 11 _ (by decide), wordRR_fn (atomFn_lt hf), atomFn]
  cases aq <;> simp <;> omega

theorem wordRR_atomRl (hf : f < 16) : flagField (wordRR op rd ra rb (atomFn aq rl dw f)) 9 = rl := by
  have := dw.toNat_le
  rw [flagField_eq_wordField, wordField_within 11 _ (by decide), wordRR_fn (atomFn_lt hf), atomFn]
  cases rl <;> simp <;> omega

theorem wordRR_atomDw (hf : f < 16) : flagField (wordRR op rd ra rb (atomFn aq rl dw f)) 7 = dw := by
  rw [flagField_eq_wordField, wordField_within 11 _ (by decide), wordRR_fn (atomFn_lt hf), atomFn]
  cases dw <;> simp <;> omega

theorem listedRR_atomFn (hf : f ≤ 9) : listedRR 0x05 (atomFn aq rl dw f) rb = true := by
  have hrange : 2 ≤ atomFn aq rl dw f / 128 % 4 ∧ atomFn aq rl dw f / 16 % 8 = 0 ∧ atomFn aq rl dw f % 16 ≤ 9 := by
    have := dw.toNat_le
    rw [atomFn]; omega
  simpa [listedRR, and_assoc] using hrange

/-- FN of a vector operation: the operation above the element size or the precision (R78, R79). -/
theorem wordVA_op6 (hf : f < 64) (hm : m < 4) : wordField (wordVA op vd va vb acc (4 * f + m)) 2 6 = f := by
  rw [wordField_within 8 _ (by decide), wordVA_fn (by omega)]; omega

theorem wordVA_size (hf : f < 64) : sizeField (wordVA op vd va vb acc (4 * f + sz.val)) = sz := by
  apply Fin.ext
  change wordField _ 0 2 = _
  rw [wordField_within 8 _ (by decide), wordVA_fn (by omega)]; omega

theorem wordVA_sp (hf : f < 64) : flagField (wordVA op vd va vb acc (4 * f + sp.toNat)) 0 = sp := by
  have := sp.toNat_le
  rw [flagField_eq_wordField, wordField_within 8 _ (by decide), wordVA_fn (by omega)]
  cases sp <;> simp <;> omega

theorem listedVA_vec (hm : m < 4) (hf : f ≤ 1 ∨ 5 ≤ f ∧ f ≤ 0xC ∨ f = 0x11) :
    listedVA 0x30 vd va vb 0 (4 * f + m) = true := by
  have hdiv : (4 * f + m) / 4 = f := by omega
  simp only [listedVA, hdiv, Bool.and_eq_true, Bool.or_eq_true, decide_eq_true_eq, true_and]
  omega

theorem listedVA_vext (hm : m < 4) (hvb : vb < 32 / 2 ^ m) : listedVA 0x30 vd va vb 0 (4 * 0x12 + m) = true := by
  have hdiv : (4 * 0x12 + m) / 4 = 0x12 := by omega
  have hmod : (4 * 0x12 + m) % 4 = m := by omega
  simp [listedVA, hdiv, hmod, hvb]

/-- FN of an Amber instruction: the operation above the lane and the rounding mode (R82). -/
theorem wordVA_op4_mode (hf : f < 16) (hm : m < 8) :
    wordField (wordVA op vd va vb acc (16 * f + 8 * l.toNat + m)) 4 4 = f := by
  have := l.toNat_le
  rw [wordField_within 8 _ (by decide), wordVA_fn (by omega)]; omega

theorem wordVA_lane_mode (hf : f < 16) (hm : m < 8) :
    flagField (wordVA op vd va vb acc (16 * f + 8 * l.toNat + m)) 3 = l := by
  have := l.toNat_le
  rw [flagField_eq_wordField, wordField_within 8 _ (by decide), wordVA_fn (by omega)]
  cases l <;> simp <;> omega

theorem wordVA_mode (hf : f < 16) (hm : m < 8) :
    wordField (wordVA op vd va vb acc (16 * f + 8 * l.toNat + m)) 0 3 = m := by
  have := l.toNat_le
  rw [wordField_within 8 _ (by decide), wordVA_fn (by omega)]; omega

theorem wordVA_op4 (hf : f < 16) : wordField (wordVA op vd va vb acc (16 * f + 8 * l.toNat)) 4 4 = f :=
  wordVA_op4_mode hf (m := 0) (by decide)

theorem wordVA_lane (hf : f < 16) : flagField (wordVA op vd va vb acc (16 * f + 8 * l.toNat)) 3 = l :=
  wordVA_lane_mode hf (m := 0) (by decide)

theorem listedVA_arnd (hm : m ≤ 5) : listedVA 0x33 vd 0 0 acc (16 * 0x8 + 8 * l.toNat + m) = true := by
  have := l.toNat_le
  have hdiv : (16 * 0x8 + 8 * l.toNat + m) / 16 = 8 := by omega
  have hmod : (16 * 0x8 + 8 * l.toNat + m) % 8 = m := by omega
  simp [listedVA, hdiv, hmod, hm]

/-- FENCE is what the system row 1 spells below 0x10 (R90). -/
theorem instrSys_fence {w : BitVec 32} (hs : wordField w 12 4 = 1) (hm : wordField w 0 12 < 16) (c : Nat) :
    instrSys c w = some (.fence c (w.extractLsb' 0 4)) := by
  rw [instrSys, hs]
  generalize wordField w 0 12 = n at hm
  interval_cases n <;> rfl

end parts

/-! ### The instruction of a listed word (R58) -/

/-- The instruction that OP and the word spell, by the table of OP. -/
def instrTable (op c : Nat) (w : BitVec 32) : Option Instr :=
  match op with
  | 0x01 => instrInt c w
  | 0x02 => instrMul c w
  | 0x03 => instrFp c w
  | 0x04 => instrStr c w
  | 0x05 => instrAtom c w
  | 0x30 => instrVec c w
  | 0x31 => instrVecFp c w
  | 0x32 => instrCrypto c w
  | 0x33 => instrAmber c w
  | 0x38 => instrCsr c w
  | 0x39 => instrSys c w
  | _ => instrOp c w

theorem instrOf_listed {w : BitVec 32} (h : listed w = true) (c : Nat) :
    instrOf c w = (instrTable (wordField w 26 6) c w).getD (.undefinedEncoding c w) := if_pos h

theorem instrOf_unlisted {w : BitVec 32} (h : listed w = false) (c : Nat) : instrOf c w = .undefinedEncoding c w :=
  if_neg (Bool.eq_false_iff.mp h)

section decode
variable {c : Nat} {i : Instr}

theorem instrOf_eq {w : BitVec 32} {op : Nat} (hl : listed w = true) (hop : wordField w 26 6 = op)
    (hi : instrTable op c w = some i) : instrOf c w = i := by
  rw [instrOf_listed hl, hop, hi]; rfl

theorem instrOf_wordRR {op rb fn : Nat} {rd ra : Reg} (hl : listedRR op fn rb = true) (hop : op < 8) (hrb : rb < 32)
    (hfn : fn < 2048) (hi : instrTable op c (wordRR op rd.val ra.val rb fn) = some i) :
    instrOf c (wordRR op rd.val ra.val rb fn) = i :=
  instrOf_eq ((listed_wordRR rd.isLt ra.isLt hrb hfn hop).trans hl)
    (wordRR_op (hop.trans (by decide)) rd.isLt ra.isLt hrb hfn) hi


theorem instrOf_wordRI {op rd : Nat} {ra : Reg} {imm : BitVec 16} (hl : listedRI op rd ra.val imm.toNat = true) (hlo : 8 ≤ op)
    (hhi : op ≤ 0x24) (hrd : rd < 32) (hi : instrTable op c (wordRI op rd ra.val imm) = some i) :
    instrOf c (wordRI op rd ra.val imm) = i :=
  instrOf_eq ((listed_wordRI hrd ra.isLt hlo hhi).trans hl) (wordRI_op (hhi.trans_lt (by decide)) hrd ra.isLt) hi

theorem instrOf_wordBL {op : Nat} {off : BitVec 26} (hop : op = 0x28 ∨ op = 0x29)
    (hi : instrTable op c (wordBL op off) = some i) : instrOf c (wordBL op off) = i := by
  have hfield : wordField (wordBL op off) 26 6 = op := wordBL_op (by omega)
  refine instrOf_eq ?_ hfield hi
  rw [listed, hfield]
  exact (if_neg (by omega)).trans ((if_neg (by omega)).trans (if_pos hop))

theorem instrOf_wordBC {cond : Fin 8} {ra rb : Reg} {off : BitVec 13} (hc : cond.val ≤ 5)
    (hi : instrTable 0x2A c (wordBC ra.val rb.val cond.val off) = some i) :
    instrOf c (wordBC ra.val rb.val cond.val off) = i := by
  have hop := wordBC_op (off := off) ra.isLt rb.isLt cond.isLt
  refine instrOf_eq ?_ hop hi
  rw [listed, hop, wordBC_cond cond.isLt]
  exact decide_eq_true hc

theorem instrOf_wordVA {op vd va vb acc fn : Nat} (hl : listedVA op vd va vb acc fn = true) (hlo : 0x30 ≤ op) (hhi : op ≤ 0x33)
    (hvd : vd < 32) (hva : va < 32) (hvb : vb < 32) (hacc : acc < 8) (hfn : fn < 256)
    (hi : instrTable op c (wordVA op vd va vb acc fn) = some i) : instrOf c (wordVA op vd va vb acc fn) = i :=
  instrOf_eq ((listed_wordVA hvd hva hvb hacc hfn hlo hhi).trans hl)
    (wordVA_op (hhi.trans_lt (by decide)) hvd hva hvb hacc hfn) hi

theorem instrOf_wordSY {op rd ra sub imm : Nat} (hl : listedSY op rd ra sub imm = true) (hop : op = 0x38 ∨ op = 0x39)
    (hrd : rd < 32) (hra : ra < 32) (hsub : sub < 16) (himm : imm < 4096)
    (hi : instrTable op c (wordSY op rd ra sub imm) = some i) : instrOf c (wordSY op rd ra sub imm) = i :=
  instrOf_eq ((listed_wordSY hrd hra hsub himm hop).trans hl) (wordSY_op (by omega) hrd hra hsub himm) hi

end decode

/-- Decoding the word of a well-formed instruction gives the instruction: one case a table. -/
theorem instrOf_encode {i : Instr} {w : BitVec 32} (hwf : i.wf = true) (he : encode i = some w) :
    ∃ c, c < 256 ∧ instrOf c w = i := by
  cases i
  case add c rd ra rb | sub c rd ra rb | andR c rd ra rb | orR c rd ra rb | xorR c rd ra rb | andn c rd ra rb
      | sll c rd ra rb | srl c rd ra rb | sra c rd ra rb | ror c rd ra rb | slt c rd ra rb | sltu c rd ra rb
      | minS c rd ra rb | maxS c rd ra rb | minu c rd ra rb | maxu c rd ra rb | sel c rd ra rb =>
    obtain rfl := Option.some.inj he
    refine ⟨c, of_decide_eq_true hwf, instrOf_wordRR rfl (by decide) rb.isLt (by decide) ?_⟩
    simp (disch := omega) only [instrTable, instrInt, regField, wordRR_fn, wordRR_rd, wordRR_ra, wordRR_rb]
  case clz c rd ra | ctz c rd ra | pop c rd ra | bswap c rd ra =>
    obtain rfl := Option.some.inj he
    refine ⟨c, of_decide_eq_true hwf, instrOf_wordRR rfl (by decide) (by decide) (by decide) ?_⟩
    simp (disch := omega) only [instrTable, instrInt, regField, wordRR_fn, wordRR_rd, wordRR_ra]
  case mul c rd ra rb | mulh c rd ra rb | mulhu c rd ra rb | divS c rd ra rb | divu c rd ra rb | remS c rd ra rb
      | remu c rd ra rb =>
    obtain rfl := Option.some.inj he
    refine ⟨c, of_decide_eq_true hwf, instrOf_wordRR rfl (by decide) rb.isLt (by decide) ?_⟩
    simp (disch := omega) only [instrTable, instrMul, regField, wordRR_fn, wordRR_rd, wordRR_ra, wordRR_rb]
  case fadd c sp rd ra rb | fsub c sp rd ra rb | fmul c sp rd ra rb | fdiv c sp rd ra rb | fma c sp rd ra rb
      | fmin c sp rd ra rb | fmax c sp rd ra rb | fceq c sp rd ra rb | fclt c sp rd ra rb | fcle c sp rd ra rb =>
    obtain rfl := Option.some.inj he
    have hsp := sp.toNat_le
    refine ⟨c, of_decide_eq_true hwf, instrOf_wordRR (by cases sp <;> rfl) (by decide) rb.isLt (by omega) ?_⟩
    simp (disch := omega) only [instrTable, instrFp, regField, wordRR_fpOp, wordRR_fpSp, wordRR_rd, wordRR_ra, wordRR_rb]
  case fsqrt c sp rd ra | fcvti c sp rd ra | fcvtf c sp rd ra | fcvtp c sp rd ra | fclass c sp rd ra =>
    obtain rfl := Option.some.inj he
    have hsp := sp.toNat_le
    refine ⟨c, of_decide_eq_true hwf, instrOf_wordRR (by cases sp <;> rfl) (by decide) (by decide) (by omega) ?_⟩
    simp (disch := omega) only [instrTable, instrFp, regField, wordRR_fpOp, wordRR_fpSp, wordRR_rd, wordRR_ra]
  case mcpy c rd ra rb | mset c rd ra rb | mcmp c rd ra rb =>
    obtain rfl := Option.some.inj he
    refine ⟨c, of_decide_eq_true hwf, instrOf_wordRR rfl (by decide) rb.isLt (by decide) ?_⟩
    simp (disch := omega) only [instrTable, instrStr, regField, wordRR_fn, wordRR_rd, wordRR_ra, wordRR_rb]
  case ldx c aq rl dw rd ra =>
    obtain rfl := Option.some.inj he
    have hfn := atomFn_lt (aq := aq) (rl := rl) (dw := dw) (f := 0) (by decide)
    refine ⟨c, of_decide_eq_true hwf, instrOf_wordRR (listedRR_atomFn (by decide)) (by decide) (by decide) hfn ?_⟩
    simp (disch := omega) only [instrTable, instrAtom, regField, wordRR_atomOp, wordRR_atomAq, wordRR_atomRl, wordRR_atomDw,
      wordRR_rd, wordRR_ra]
  case stx c aq rl dw rd ra rb | swp c aq rl dw rd ra rb | cas c aq rl dw rd ra rb | amadd c aq rl dw rd ra rb
      | amand c aq rl dw rd ra rb | amor c aq rl dw rd ra rb | amxor c aq rl dw rd ra rb | ammax c aq rl dw rd ra rb
      | ammin c aq rl dw rd ra rb =>
    obtain rfl := Option.some.inj he
    have hfn {f : Nat} (hf : f < 16) := atomFn_lt (aq := aq) (rl := rl) (dw := dw) hf
    refine ⟨c, of_decide_eq_true hwf,
      instrOf_wordRR (listedRR_atomFn (by decide)) (by decide) rb.isLt (hfn (by decide)) ?_⟩
    simp (disch := first | omega | exact hfn (by decide)) only [instrTable, instrAtom, regField, wordRR_atomOp,
      wordRR_atomAq, wordRR_atomRl, wordRR_atomDw, wordRR_rd, wordRR_ra, wordRR_rb]
  case addi c rd ra imm | andi c rd ra imm | ori c rd ra imm | xori c rd ra imm | slti c rd ra imm | sltiu c rd ra imm
      | jalr c rd ra imm | ldb c rd ra imm | ldbu c rd ra imm | ldh c rd ra imm | ldhu c rd ra imm | ldw c rd ra imm
      | ldwu c rd ra imm | ldd c rd ra imm | lda c rd ra imm | stb c rd ra imm | sth c rd ra imm | stw c rd ra imm
      | std c rd ra imm | stl c rd ra imm | vld c rd ra imm | vst c rd ra imm =>
    obtain rfl := Option.some.inj he
    refine ⟨c, of_decide_eq_true hwf, instrOf_wordRI rfl (by decide) (by decide) rd.isLt ?_⟩
    simp (disch := omega) only [instrTable, instrOp, regField, wordRI_op, wordRI_rd, wordRI_ra,
      extractLsb'_eq_ofNat_wordField, wordRI_imm, BitVec.ofNat_toNat, BitVec.setWidth_eq]
  case shi c rd ra imm | ldp c rd ra imm | stp c rd ra imm | movz c rd ra imm | movk c rd ra imm =>
    obtain rfl := Option.some.inj he
    obtain ⟨hc, hfield⟩ := Bool.and_eq_true_iff.mp hwf
    refine ⟨c, of_decide_eq_true hc, instrOf_wordRI hfield (by decide) (by decide) rd.isLt ?_⟩
    simp (disch := omega) only [instrTable, instrOp, regField, wordRI_op, wordRI_rd, wordRI_ra,
      extractLsb'_eq_ofNat_wordField, wordRI_imm, BitVec.ofNat_toNat, BitVec.setWidth_eq]
  case loop c ra imm =>
    obtain rfl := Option.some.inj he
    obtain ⟨hc, hfield⟩ := Bool.and_eq_true_iff.mp hwf
    refine ⟨c, of_decide_eq_true hc, instrOf_wordRI hfield (by decide) (by decide) (by decide) ?_⟩
    simp (disch := omega) only [instrTable, instrOp, regField, wordRI_op, wordRI_ra,
      extractLsb'_eq_ofNat_wordField, wordRI_imm, BitVec.ofNat_toNat, BitVec.setWidth_eq]
  case jr c ra imm =>
    obtain rfl := Option.some.inj he
    refine ⟨c, of_decide_eq_true hwf, instrOf_wordRI rfl (by decide) (by decide) (by decide) ?_⟩
    simp (disch := omega) only [instrTable, instrOp, regField, wordRI_op, wordRI_ra,
      extractLsb'_eq_ofNat_wordField, wordRI_imm, BitVec.ofNat_toNat, BitVec.setWidth_eq]
  case br c off | bal c off =>
    obtain rfl := Option.some.inj he
    refine ⟨c, of_decide_eq_true hwf, instrOf_wordBL (by decide) ?_⟩
    simp (disch := omega) only [instrTable, instrOp, wordBL_op,
      extractLsb'_eq_ofNat_wordField, wordBL_off, BitVec.ofNat_toNat, BitVec.setWidth_eq]
  case bcc c cond ra rb off =>
    obtain rfl := Option.some.inj he
    obtain ⟨hc, hcond⟩ := Bool.and_eq_true_iff.mp hwf
    refine ⟨c, of_decide_eq_true hc, instrOf_wordBC (of_decide_eq_true hcond) ?_⟩
    simp (disch := omega) only [instrTable, instrOp, regField, accField, wordBC_op, wordBC_cond, wordBC_ra, wordBC_rb,
      extractLsb'_eq_ofNat_wordField, wordBC_off, BitVec.ofNat_toNat, BitVec.setWidth_eq]
  case vadd c sz vd va vb | vsub c sz vd va vb | vsll c sz vd va vb | vsrl c sz vd va vb | vsra c sz vd va vb
      | vmin c sz vd va vb | vmax c sz vd va vb | vmul c sz vd va vb | vceq c sz vd va vb | vcgt c sz vd va vb =>
    obtain rfl := Option.some.inj he
    refine ⟨c, of_decide_eq_true hwf, instrOf_wordVA (listedVA_vec sz.isLt (by decide)) (by decide) (by decide) vd.isLt
      va.isLt vb.isLt (by decide) (by omega) ?_⟩
    simp (disch := omega) only [instrTable, instrVec, regField, wordVA_op6, wordVA_size, wordVA_vd, wordVA_va, wordVA_vb]
  case vand c vd va vb | vor c vd va vb | vxor c vd va vb | vperm c vd va vb =>
    obtain rfl := Option.some.inj he
    refine ⟨c, of_decide_eq_true hwf, instrOf_wordVA rfl (by decide) (by decide) vd.isLt va.isLt vb.isLt (by decide)
      (by decide) ?_⟩
    simp (disch := omega) only [instrTable, instrVec, regField, wordField_within (lo := 2) (n := 6) 8, wordVA_fn,
      wordVA_vd, wordVA_va, wordVA_vb, Nat.reduceMul, Nat.reducePow, Nat.reduceDiv, Nat.reduceMod]
  case vsplat c sz vd ga =>
    obtain rfl := Option.some.inj he
    refine ⟨c, of_decide_eq_true hwf, instrOf_wordVA (listedVA_vec sz.isLt (by decide)) (by decide) (by decide) vd.isLt
      ga.isLt (by decide) (by decide) (by omega) ?_⟩
    simp (disch := omega) only [instrTable, instrVec, regField, wordVA_op6, wordVA_size, wordVA_vd, wordVA_va]
  case vext c sz gd va idx =>
    obtain rfl := Option.some.inj he
    obtain ⟨hc, hidx⟩ := Bool.and_eq_true_iff.mp hwf
    refine ⟨c, of_decide_eq_true hc, instrOf_wordVA (listedVA_vext sz.isLt (of_decide_eq_true hidx)) (by decide) (by decide)
      gd.isLt va.isLt idx.isLt (by decide) (by omega) ?_⟩
    simp (disch := omega) only [instrTable, instrVec, regField, wordVA_op6, wordVA_size, wordVA_vd, wordVA_va, wordVA_vb]
  case vfadd c sp vd va vb | vfsub c sp vd va vb | vfmul c sp vd va vb | vfma c sp vd va vb | vfdiv c sp vd va vb
      | vfmin c sp vd va vb | vfmax c sp vd va vb =>
    obtain rfl := Option.some.inj he
    have hsp := sp.toNat_le
    refine ⟨c, of_decide_eq_true hwf, instrOf_wordVA (by cases sp <;> rfl) (by decide) (by decide) vd.isLt va.isLt vb.isLt
      (by decide) (by omega) ?_⟩
    simp (disch := omega) only [instrTable, instrVecFp, regField, wordVA_op6, wordVA_sp, wordVA_vd, wordVA_va, wordVA_vb]
  case aese c vd va vb | aesel c vd va vb | aesd c vd va vb | aesdl c vd va vb | gmul c vd va vb | sha512s c vd va vb
      | sha512r c vd va vb =>
    obtain rfl := Option.some.inj he
    refine ⟨c, of_decide_eq_true hwf, instrOf_wordVA rfl (by decide) (by decide) vd.isLt va.isLt vb.isLt (by decide)
      (by decide) ?_⟩
    simp (disch := omega) only [instrTable, instrCrypto, regField, wordVA_fn, wordVA_vd, wordVA_va, wordVA_vb]
  case sha3f c ga =>
    obtain rfl := Option.some.inj he
    refine ⟨c, of_decide_eq_true hwf, instrOf_wordVA rfl (by decide) (by decide) (by decide) ga.isLt (by decide)
      (by decide) (by decide) ?_⟩
    simp (disch := omega) only [instrTable, instrCrypto, regField, wordVA_fn, wordVA_va]
  case aqld c l vd ga | aqst c l vd ga =>
    obtain rfl := Option.some.inj he
    have hl := l.toNat_le
    refine ⟨c, of_decide_eq_true hwf, instrOf_wordVA (by cases l <;> rfl) (by decide) (by decide) vd.isLt ga.isLt
      (by decide) (by decide) (by omega) ?_⟩
    simp (disch := omega) only [instrTable, instrAmber, regField, wordVA_op4, wordVA_lane, wordVA_vd, wordVA_va]
  case aadd c l x va | asub c l x va =>
    obtain rfl := Option.some.inj he
    have hl := l.toNat_le
    refine ⟨c, of_decide_eq_true hwf, instrOf_wordVA (by cases l <;> rfl) (by decide) (by decide) (by decide) va.isLt
      (by decide) x.isLt (by omega) ?_⟩
    simp (disch := omega) only [instrTable, instrAmber, regField, accField, wordVA_op4, wordVA_lane, wordVA_acc, wordVA_va]
  case amac c l x va vb | amacs c l x va vb =>
    obtain rfl := Option.some.inj he
    have hl := l.toNat_le
    refine ⟨c, of_decide_eq_true hwf, instrOf_wordVA (by cases l <;> rfl) (by decide) (by decide) (by decide) va.isLt
      vb.isLt x.isLt (by omega) ?_⟩
    simp (disch := omega) only [instrTable, instrAmber, regField, accField, wordVA_op4, wordVA_lane, wordVA_acc, wordVA_va,
      wordVA_vb]
  case aclr c x ga | ascl c x ga | amrg c x ga | asav c x ga | arst c x ga =>
    obtain rfl := Option.some.inj he
    refine ⟨c, of_decide_eq_true hwf, instrOf_wordVA rfl (by decide) (by decide) (by decide) ga.isLt (by decide) x.isLt
      (by decide) ?_⟩
    simp (disch := omega) only [instrTable, instrAmber, regField, accField, wordField_within (lo := 4) (n := 4) 8,
      wordVA_fn, wordVA_acc, wordVA_va, Nat.reducePow, Nat.reduceDiv, Nat.reduceMod]
  case arnd c l mode vd x =>
    obtain rfl := Option.some.inj he
    obtain ⟨hc, hmode⟩ := Bool.and_eq_true_iff.mp hwf
    have hl := l.toNat_le
    refine ⟨c, of_decide_eq_true hc, instrOf_wordVA (listedVA_arnd (of_decide_eq_true hmode)) (by decide) (by decide)
      vd.isLt (by decide) (by decide) x.isLt (by omega) ?_⟩
    simp (disch := omega) only [instrTable, instrAmber, regField, accField, wordVA_op4_mode, wordVA_lane_mode, wordVA_mode,
      wordVA_vd, wordVA_acc]
  case aflg c gd x =>
    obtain rfl := Option.some.inj he
    refine ⟨c, of_decide_eq_true hwf, instrOf_wordVA rfl (by decide) (by decide) gd.isLt (by decide) (by decide) x.isLt
      (by decide) ?_⟩
    simp (disch := omega) only [instrTable, instrAmber, regField, accField, wordField_within (lo := 4) (n := 4) 8,
      wordVA_fn, wordVA_acc, wordVA_vd, Nat.reducePow, Nat.reduceDiv, Nat.reduceMod]
  case afclr c x =>
    obtain rfl := Option.some.inj he
    refine ⟨c, of_decide_eq_true hwf, instrOf_wordVA rfl (by decide) (by decide) (by decide) (by decide) (by decide) x.isLt
      (by decide) ?_⟩
    simp (disch := omega) only [instrTable, instrAmber, accField, wordField_within (lo := 4) (n := 4) 8, wordVA_fn,
      wordVA_acc, Nat.reducePow, Nat.reduceDiv, Nat.reduceMod]
  case csrr c rd csr =>
    obtain rfl := Option.some.inj he
    refine ⟨c, of_decide_eq_true hwf, instrOf_wordSY rfl (.inl rfl) rd.isLt (by decide) (by decide) csr.isLt ?_⟩
    simp (disch := omega) only [instrTable, instrCsr, regField, wordSY_sub, wordSY_rd, extractLsb'_eq_ofNat_wordField,
      wordSY_imm, BitVec.ofNat_toNat, BitVec.setWidth_eq]
  case csrw c ra csr =>
    obtain rfl := Option.some.inj he
    refine ⟨c, of_decide_eq_true hwf, instrOf_wordSY rfl (.inl rfl) (by decide) ra.isLt (by decide) csr.isLt ?_⟩
    simp (disch := omega) only [instrTable, instrCsr, regField, wordSY_sub, wordSY_ra, extractLsb'_eq_ofNat_wordField,
      wordSY_imm, BitVec.ofNat_toNat, BitVec.setWidth_eq]
  case csrs c rd ra csr | csrc c rd ra csr =>
    obtain rfl := Option.some.inj he
    refine ⟨c, of_decide_eq_true hwf, instrOf_wordSY rfl (.inl rfl) rd.isLt ra.isLt (by decide) csr.isLt ?_⟩
    simp (disch := omega) only [instrTable, instrCsr, regField, wordSY_sub, wordSY_rd, wordSY_ra,
      extractLsb'_eq_ofNat_wordField, wordSY_imm, BitVec.ofNat_toNat, BitVec.setWidth_eq]
  case eret c | calls c | callh c | callm c | brk c | wfe c | sync c | lbar c | ifence c | bpbar c | bpflush c | tlbiall c =>
    obtain rfl := Option.some.inj he
    refine ⟨c, of_decide_eq_true hwf, instrOf_wordSY rfl (.inr rfl) (by decide) (by decide) (by decide) (by decide) ?_⟩
    simp (disch := omega) only [instrTable, instrSys, wordSY_sub, wordSY_imm]
  case fence c m =>
    obtain rfl := Option.some.inj he
    have hm : m.toNat < 16 := m.isLt
    refine ⟨c, of_decide_eq_true hwf, instrOf_wordSY (by simp [listedSY, hm]) (.inr rfl) (by decide) (by decide) (by decide)
      (by omega) ?_⟩
    have himm := wordSY_imm (op := 0x39) (rd := 0) (ra := 0) (sub := 1) (imm := m.toNat) (by omega)
    refine (instrSys_fence (wordSY_sub (by decide) (by omega)) (by omega) c).trans ?_
    rw [extractLsb'_eq_ofNat_wordField, wordField_within 12 _ (by decide), himm]
    simp [Nat.mod_eq_of_lt hm]
  case dcclean c ra | dcflush c ra | dcinv c ra | dczero c ra | icinv c ra | pfl c ra | pfs c ra | pfnt c ra | tlbiva c ra
      | tlbigva c ra | tlbidom c ra | npost c ra | nwait c ra =>
    obtain rfl := Option.some.inj he
    refine ⟨c, of_decide_eq_true hwf, instrOf_wordSY rfl (.inr rfl) (by decide) ra.isLt (by decide) (by decide) ?_⟩
    simp (disch := omega) only [instrTable, instrSys, regField, wordSY_sub, wordSY_imm, wordSY_ra]
  case nrecv c rd ra | rand c rd ra =>
    obtain rfl := Option.some.inj he
    refine ⟨c, of_decide_eq_true hwf, instrOf_wordSY rfl (.inr rfl) rd.isLt ra.isLt (by decide) (by decide) ?_⟩
    simp (disch := omega) only [instrTable, instrSys, regField, wordSY_sub, wordSY_imm, wordSY_rd, wordSY_ra]
  case undefinedEncoding c v =>
    obtain rfl := Option.some.inj he
    obtain ⟨hc, hv⟩ := Bool.and_eq_true_iff.mp hwf
    exact ⟨c, of_decide_eq_true hc, instrOf_unlisted (by simpa using hv) c⟩
  all_goals cases he

/-- Settles O8: the word of an instruction has the instruction's fields, and an unlisted word is the row that raises
ILLEGAL. -/
theorem decodeEncode : Obligations.DecodeEncode :=
  ⟨fun _ _ hwf he => instrOf_encode hwf he, fun c _ h => instrOf_unlisted h c, by decide⟩

end Sys2Proof.Machine
end

section
/-! SUPPORT. Integer register operations, counts of bits, immediate operations, products and quotients: each operation of the
model as the function of numbers that the tables give (R63 to R65). -/

namespace Sys2Proof.Machine

/-! ### Operations of the register file -/

section alu
variable {s : State} {c met : Nat} {rd : Reg} {reads : List LDest} {i : Instr} {f v : Core → W64}

/-- An instruction that is an operation of the register file sets its register. -/
theorem setsG_of_alu (hi : exec i s = .next (s.alu c met rd reads f)) (hv : ∀ k, f k = v k) :
    SetsG i s c met reads rd v := by
  intro h
  rw [hi, State.alu_ready h, funext hv]

/-- An instruction whose work sets a register and nothing else. -/
theorem setsG_of_issue {body : State → Done} (hi : exec i s = .next (s.issue c met false reads [.g rd] body))
    (hb : ∀ b : State, body b = .ok (b.modCore c (fun k => k.setG rd (v k)))) : SetsG i s c met reads rd v := by
  intro h
  rw [hi, State.issue_after h (hb _) rfl]

end alu

/-! ### Words as numbers (R63) -/

section word
variable (a b : W64)

theorem add_eq_ofNat : a + b = BitVec.ofNat 64 (a.toNat + b.toNat) := by simp [BitVec.ofNat_add]

theorem sub_eq_ofInt : a - b = BitVec.ofInt 64 (a.toInt - b.toInt) := by
  rw [Int.sub_eq_add_neg, BitVec.ofInt_add, BitVec.ofInt_neg, BitVec.ofInt_toInt, BitVec.ofInt_toInt, BitVec.sub_eq_add_neg]

theorem shiftLeft_eq_ofNat (n : Nat) : a <<< n = BitVec.ofNat 64 (a.toNat * 2 ^ n) := by
  apply BitVec.eq_of_toNat_eq
  simp [Nat.shiftLeft_eq]

theorem shiftRight_eq_ofNat (n : Nat) : a >>> n = BitVec.ofNat 64 (a.toNat / 2 ^ n) := by
  apply BitVec.eq_of_toNat_eq
  rw [BitVec.toNat_ushiftRight, Nat.shiftRight_eq_div_pow, BitVec.toNat_ofNat,
    Nat.mod_eq_of_lt ((Nat.div_le_self _ _).trans_lt a.isLt)]

theorem sshiftRight_eq_ofInt (n : Nat) : a.sshiftRight n = BitVec.ofInt 64 (a.toInt / 2 ^ n) := by
  rw [BitVec.sshiftRight_eq, Int.shiftRight_eq_div_pow]
  norm_cast

theorem rotateRight_eq_or {n : Nat} (h : n < 64) : a.rotateRight n = a >>> n ||| a <<< (64 - n) :=
  BitVec.rotateRight_eq_rotateRightAux_of_lt h

theorem flag_slt : flag (a.slt b) = if a.toInt < b.toInt then 1 else 0 := by simp [flag, BitVec.slt]

theorem flag_ult : flag (a.ult b) = if a.toNat < b.toNat then 1 else 0 := by simp [flag, BitVec.ult]

theorem min_toInt : (if a.slt b then a else b) = BitVec.ofInt 64 (min a.toInt b.toInt) := by
  by_cases h : a.toInt < b.toInt
  · simp [BitVec.slt, h, min_eq_left h.le]
  · simp [BitVec.slt, h, min_eq_right (not_lt.mp h)]

theorem max_toInt : (if a.slt b then b else a) = BitVec.ofInt 64 (max a.toInt b.toInt) := by
  by_cases h : a.toInt < b.toInt
  · simp [BitVec.slt, h, max_eq_right h.le]
  · simp [BitVec.slt, h, max_eq_left (not_lt.mp h)]

theorem min_toNat : (if a.ult b then a else b) = BitVec.ofNat 64 (min a.toNat b.toNat) := by
  by_cases h : a.toNat < b.toNat
  · simp [BitVec.ult, h, min_eq_left h.le]
  · simp [BitVec.ult, h, min_eq_right (not_lt.mp h)]

theorem max_toNat : (if a.ult b then b else a) = BitVec.ofNat 64 (max a.toNat b.toNat) := by
  by_cases h : a.toNat < b.toNat
  · simp [BitVec.ult, h, max_eq_right h.le]
  · simp [BitVec.ult, h, max_eq_left (not_lt.mp h)]

end word

/-- Settles O9: each operation of the register file is the function of numbers that its row gives. -/
theorem integerResults : Obligations.IntegerResults := by
  intro s c rd ra rb
  refine ⟨?add, ?sub, ?and, ?or, ?xor, ?andn, ?sll, ?srl, ?sra, ?ror, ?slt, ?sltu, ?min, ?max, ?minu, ?maxu, ?sel⟩
  case add => exact setsG_of_alu rfl (fun _ => add_eq_ofNat ..)
  case sub => exact setsG_of_alu rfl (fun _ => sub_eq_ofInt ..)
  case and | or | xor | andn | sel => exact setsG_of_alu rfl (fun _ => rfl)
  case sll => exact setsG_of_alu rfl (fun _ => shiftLeft_eq_ofNat ..)
  case srl => exact setsG_of_alu rfl (fun _ => shiftRight_eq_ofNat ..)
  case sra => exact setsG_of_alu rfl (fun _ => sshiftRight_eq_ofInt ..)
  case ror => exact setsG_of_alu rfl (fun _ => rotateRight_eq_or _ (Nat.mod_lt _ (by decide)))
  case slt => exact setsG_of_alu rfl (fun _ => flag_slt ..)
  case sltu => exact setsG_of_alu rfl (fun _ => flag_ult ..)
  case min => exact setsG_of_alu rfl (fun _ => min_toInt ..)
  case max => exact setsG_of_alu rfl (fun _ => max_toInt ..)
  case minu => exact setsG_of_alu rfl (fun _ => min_toNat ..)
  case maxu => exact setsG_of_alu rfl (fun _ => max_toNat ..)

/-! ### Counts of bits and the byte order (R63) -/

section bits
variable (a : W64)

/-- The number of leading zeros is the one that the bits fix. -/
theorem clz64_spec : clz64 a ≤ 64 ∧ (∀ i < clz64 a, a.getMsbD i = false) ∧ (clz64 a < 64 → a.getMsbD (clz64 a) = true) := by
  by_cases ha : a = 0
  · subst ha
    exact ⟨by decide, fun i _ => by simp, fun h => absurd h (by decide)⟩
  · have hne : a.toNat ≠ 0 := fun h => ha (BitVec.eq_of_toNat_eq h)
    have htop : a.toNat.log2 < 64 := (Nat.log2_lt hne).mpr a.isLt
    have hclz : clz64 a = 63 - a.toNat.log2 := by rw [clz64, if_neg ha]; omega
    rw [hclz]
    refine ⟨by omega, fun i hi => ?_, fun _ => ?_⟩
    · have habove : a.toNat < 2 ^ (63 - i) :=
        Nat.lt_log2_self.trans_le (Nat.pow_le_pow_right (by decide) (by omega))
      rw [BitVec.getMsbD_eq_getLsbD, ← BitVec.testBit_toNat, show 64 - 1 - i = 63 - i by omega,
        Nat.testBit_lt_two_pow habove, Bool.and_false]
    · rw [BitVec.getMsbD_eq_getLsbD, ← BitVec.testBit_toNat, show 64 - 1 - (63 - a.toNat.log2) = a.toNat.log2 by omega,
        Nat.testBit_log2 hne, Bool.and_true, decide_eq_true (by omega)]

/-- The number of trailing zeros is the one that the bits fix. -/
theorem ctz64_spec : ctz64 a ≤ 64 ∧ (∀ i < ctz64 a, a.getLsbD i = false) ∧ (ctz64 a < 64 → a.getLsbD (ctz64 a) = true) := by
  rw [ctz64]
  cases h : (List.range 64).find? (fun i => a.getLsbD i) with
  | none =>
    exact ⟨le_refl _, fun i hi => by simpa using List.find?_range_eq_none.mp h i hi, fun h => absurd h (by decide)⟩
  | some n =>
    obtain ⟨hbit, hmem, hbelow⟩ := List.find?_range_eq_some.mp h
    exact ⟨(List.mem_range.mp hmem).le, fun i hi => by simpa using hbelow i hi, fun _ => hbit⟩

theorem foldl_bit_eq_countP (p : Nat → Bool) (l : List Nat) (n : Nat) :
    l.foldl (fun t i => t + bit (p i)) n = n + l.countP p := by
  induction l generalizing n with
  | nil => rfl
  | cons i l ih => rw [List.foldl_cons, ih, List.countP_cons, bit]; omega

theorem pop64_eq_countP : pop64 a = (List.range 64).countP (fun i => a.getLsbD i) := by
  rw [pop64, foldl_bit_eq_countP, Nat.zero_add]

theorem bswap64_byte {i : Nat} (h : i < 8) : (bswap64 a).extractLsb' (8 * i) 8 = a.extractLsb' (8 * (7 - i)) 8 := by
  have hpow (j : Nat) : 256 ^ j = 2 ^ (8 * j) := by rw [show 256 = 2 ^ 8 by rfl, ← Nat.pow_mul]
  have hlen : leNat (natLe 8 a.toNat).reverse < 2 ^ 64 := by
    simpa using leNat_lt (natLe 8 a.toNat).reverse
  have hbyte : (natLe 8 a.toNat).reverse.getD i 0 = BitVec.ofNat 8 (a.toNat / 256 ^ (7 - i)) := by
    rw [← natLe_getD 8 a.toNat (7 - i) (by omega), List.getD_eq_getElem _ _ (by simpa using h), List.getElem_reverse,
      List.getD_eq_getElem _ _ (by simp; omega)]
    simp
  apply BitVec.eq_of_toNat_eq
  rw [BitVec.extractLsb'_toNat, BitVec.extractLsb'_toNat, bswap64, BitVec.toNat_ofNat, Nat.mod_eq_of_lt hlen,
    Nat.shiftRight_eq_div_pow, Nat.shiftRight_eq_div_pow, ← hpow, ← hpow, leNat_digit, hbyte, BitVec.toNat_ofNat]

end bits

/-! ### Immediates (R64) -/

section immediate
variable (a : W64) (imm : BitVec 16)

theorem add_immS_eq_ofInt_toInt : a + immS imm = BitVec.ofInt 64 (a.toInt + imm.toInt) := by
  rw [BitVec.ofInt_add, BitVec.ofInt_toInt, immS, BitVec.signExtend]

theorem flag_slt_immS : flag (a.slt (immS imm)) = if a.toInt < imm.toInt then 1 else 0 := by
  rw [flag_slt, immS, BitVec.toInt_signExtend_of_le (by decide)]

variable {imm}

/-- The shift by `n` places that selector `op` names (R64). -/
def shiftOp (op n : Nat) (a : W64) : W64 :=
  match op with
  | 0 => a <<< n
  | 1 => a >>> n
  | 2 => a.sshiftRight n
  | _ => a.rotateRight n

/-- What SHI does by the selector IMM[7:6] and the amount IMM[5:0]. -/
theorem shiftImm_eq {op n : Nat} (hn : n < 64) (h : imm.toNat = 64 * op + n) (hop : op < 4) :
    shiftImm imm a = shiftOp op n a := by
  have hsel : fld imm 6 2 = op := by rw [fld, bits, Nat.shiftRight_eq_div_pow, h]; omega
  have hamt : imm.toNat % 64 = n := by omega
  rw [shiftImm, hsel, hamt]
  rfl

theorem movz_eq_ofNat (h : Nat) : immZ imm <<< (16 * h) = BitVec.ofNat 64 (imm.toNat * 2 ^ (16 * h)) := by
  have himm : imm.toNat % 2 ^ 64 = imm.toNat := Nat.mod_eq_of_lt (imm.isLt.trans (by decide))
  rw [shiftLeft_eq_ofNat, immZ, BitVec.toNat_setWidth, himm]

/-- The halfwords of a word after one of them is set. -/
theorem setFld_halfword {h i : Nat} (hh : h < 4) (hi : i < 4) :
    (setFld a (16 * h) 16 imm.toNat).extractLsb' (16 * i) 16 = if i = h then imm else a.extractLsb' (16 * i) 16 := by
  have hlt := imm.isLt
  have ha := a.isLt
  apply BitVec.eq_of_toNat_eq
  rw [apply_ite BitVec.toNat]
  simp only [BitVec.extractLsb'_toNat, setFld, setBits, bits, BitVec.toNat_ofNat, Nat.shiftRight_eq_div_pow,
    Nat.shiftLeft_eq]
  interval_cases h <;> interval_cases i <;> simp <;> omega

end immediate

theorem State.after_congr {b : State} {c met : Nat} {f f' : Core → Core} (h : f (b.core c) = f' (b.core c)) :
    b.after c met f = b.after c met f' := by
  rw [State.after, State.after, State.modCore_congr h]

section shi
variable {s : State} {c : Nat} {rd ra : Reg} {imm : BitVec 16}

theorem fld_imm_high : fld imm 8 8 = imm.toNat / 256 := by
  have := imm.isLt
  rw [fld, bits, Nat.shiftRight_eq_div_pow]; omega

/-- SHI whose amount field fits is the shift of its selector. -/
theorem setsG_shi {op n : Nat} {v : W64 → W64} (hn : n < 64) (h : imm.toNat = 64 * op + n) (hop : op < 4)
    (hv : ∀ a : W64, shiftOp op n a = v a) : SetsG (.shi c rd ra imm) s c 1 [.g ra] rd (fun k => v k.g[ra]) := by
  refine setsG_of_issue rfl (fun b => (if_neg ?_).trans ?_)
  · rw [fld_imm_high]; omega
  · simp only [← hv, shiftImm_eq _ hn h hop]; rfl

theorem exec_shi_refused (h : s.Ready c false [.g ra]) (himm : 256 ≤ imm.toNat) :
    exec (.shi c rd ra imm) s = .next (s.orWait ((s.begun c false [.g ra] [.g rd]).trapped c 1 illegal)) := by
  refine congrArg Host.Outcome.next (State.issue_exc h (if_pos ?_))
  rw [fld_imm_high]; omega

end shi

/-- Settles O10: the counts are the numbers that the bits fix, and an immediate operation is its function of numbers where
its fields are in range. -/
theorem bitImmediateResults : Obligations.BitImmediateResults := by
  refine ⟨fun s c rd ra => ?_, fun s c rd ra h imm => ?_⟩
  · intro b a sets hr
    have hsets {i : Instr} (f : W64 → W64) (hi : exec i s = .next (s.aluR c 2 rd ra f)) : sets i (f a) :=
      (hi.trans (congrArg Host.Outcome.next (State.alu_ready hr))).trans
        (congrArg Host.Outcome.next (State.after_congr rfl))
    obtain ⟨hclz, hclzBelow, hclzAt⟩ := clz64_spec a
    obtain ⟨hctz, hctzBelow, hctzAt⟩ := ctz64_spec a
    refine ⟨⟨clz64 a, hclz, hsets (fun a => BitVec.ofNat 64 (clz64 a)) rfl, hclzBelow, hclzAt⟩,
      ⟨ctz64 a, hctz, hsets (fun a => BitVec.ofNat 64 (ctz64 a)) rfl, hctzBelow, hctzAt⟩, ?_,
      ⟨bswap64 a, hsets bswap64 rfl, fun i hi => bswap64_byte a hi⟩⟩
    rw [← pop64_eq_countP]
    exact hsets (fun a => BitVec.ofNat 64 (pop64 a)) rfl
  · refine ⟨?addi, ?andi, ?ori, ?xori, ?slti, ?sltiu, ?sll, ?srl, ?sra, ?ror, ?movz, ?movk, ?shiBad, ?movzBad, ?movkBad⟩
    case addi => exact setsG_of_alu rfl (fun _ => add_immS_eq_ofInt_toInt ..)
    case andi | ori | xori => exact setsG_of_alu rfl (fun _ => rfl)
    case slti => exact setsG_of_alu rfl (fun _ => flag_slt_immS ..)
    case sltiu => exact setsG_of_alu rfl (fun _ => flag_ult ..)
    case sll =>
      exact fun hlt => setsG_shi (op := 0) (v := fun a => BitVec.ofNat 64 (a.toNat * 2 ^ imm.toNat)) hlt (by omega)
        (by decide) (fun _ => shiftLeft_eq_ofNat ..)
    case srl =>
      exact fun hge hlt => setsG_shi (op := 1) (n := imm.toNat - 64)
        (v := fun a => BitVec.ofNat 64 (a.toNat / 2 ^ (imm.toNat - 64))) (by omega) (by omega) (by decide)
        (fun _ => shiftRight_eq_ofNat ..)
    case sra =>
      exact fun hge hlt => setsG_shi (op := 2) (n := imm.toNat - 128)
        (v := fun a => BitVec.ofInt 64 (a.toInt / 2 ^ (imm.toNat - 128))) (by omega) (by omega) (by decide)
        (fun _ => sshiftRight_eq_ofInt ..)
    case ror =>
      intro hge hlt
      have hn : imm.toNat - 192 < 64 := by omega
      rw [show 256 - imm.toNat = 64 - (imm.toNat - 192) by omega]
      exact setsG_shi (op := 3) (v := fun a => a >>> (imm.toNat - 192) ||| a <<< (64 - (imm.toNat - 192))) hn (by omega)
        (by decide) (fun _ => rotateRight_eq_or _ hn)
    case movz =>
      refine fun hh => setsG_of_issue rfl (fun b => (if_neg (Nat.not_le.mpr hh)).trans ?_)
      rw [movz_eq_ofNat]; rfl
    case movk =>
      exact fun hh => ⟨fun o => setFld o (16 * h.val) 16 imm.toNat,
        setsG_of_issue rfl (fun b => if_neg (Nat.not_le.mpr hh)), fun o i hi => setFld_halfword o hh hi⟩
    case shiBad => exact fun himm hr => exec_shi_refused hr himm
    case movzBad => exact fun hh hr => congrArg Host.Outcome.next (State.issue_exc hr (if_pos hh))
    case movkBad => exact fun hh hr => congrArg Host.Outcome.next (State.issue_exc hr (if_pos hh))

/-! ### Products and quotients (R65) -/

section product
variable (a b : W64)

theorem mul_eq_ofNat : a * b = BitVec.ofNat 64 (a.toNat * b.toNat) := by simp [BitVec.ofNat_mul]

/-- The high half of a number of 128 bits. -/
theorem extractLsb'_high_ofInt (p : Int) : (BitVec.ofInt 128 p).extractLsb' 64 64 = BitVec.ofInt 64 (p / 2 ^ 64) := by
  apply BitVec.eq_of_toNat_eq
  rw [BitVec.extractLsb'_toNat, BitVec.toNat_ofInt, BitVec.toNat_ofInt, Nat.shiftRight_eq_div_pow]
  omega

theorem mulHigh_eq_ofInt : mulHigh a b = BitVec.ofInt 64 (a.toInt * b.toInt / 2 ^ 64) := by
  rw [mulHigh, BitVec.signExtend, BitVec.signExtend, ← BitVec.ofInt_mul, extractLsb'_high_ofInt]

theorem mulHighU_eq_ofNat : mulHighU a b = BitVec.ofNat 64 (a.toNat * b.toNat / 2 ^ 64) := by
  have hp : a.toNat * b.toNat < 2 ^ 128 := (Nat.mul_lt_mul'' a.isLt b.isLt).trans_eq (by decide)
  have hw (x : W64) : x.toNat % 2 ^ 128 = x.toNat := Nat.mod_eq_of_lt (x.isLt.trans (by decide))
  apply BitVec.eq_of_toNat_eq
  rw [mulHighU, BitVec.extractLsb'_toNat, BitVec.toNat_mul, BitVec.toNat_setWidth, BitVec.toNat_setWidth, hw, hw,
    Nat.shiftRight_eq_div_pow, BitVec.toNat_ofNat, Nat.mod_eq_of_lt hp]

theorem sdiv_eq_ofInt : a.sdiv b = BitVec.ofInt 64 (a.toInt.tdiv b.toInt) := by
  apply BitVec.eq_of_toInt_eq
  rw [BitVec.toInt_sdiv, BitVec.toInt_ofInt]

theorem divSigned_eq : divSigned a b = if b = 0 then BitVec.allOnes 64 else BitVec.ofInt 64 (a.toInt.tdiv b.toInt) := by
  rw [divSigned, sdiv_eq_ofInt]

theorem remSigned_eq : remSigned a b = if b = 0 then a else BitVec.ofInt 64 (a.toInt.tmod b.toInt) := by
  have hprod : a.sdiv b * b = BitVec.ofInt 64 (b.toInt * a.toInt.tdiv b.toInt) := by
    rw [sdiv_eq_ofInt, mul_comm b.toInt, BitVec.ofInt_mul, BitVec.ofInt_toInt]
  rw [remSigned, hprod, Int.tmod_def, Int.sub_eq_add_neg, BitVec.ofInt_add, BitVec.ofInt_neg, BitVec.ofInt_toInt,
    BitVec.sub_eq_add_neg]

theorem divUnsigned_eq : divUnsigned a b = if b = 0 then BitVec.allOnes 64 else BitVec.ofNat 64 (a.toNat / b.toNat) := by
  rw [divUnsigned, ← BitVec.toNat_udiv, BitVec.ofNat_toNat, BitVec.setWidth_eq]

theorem remUnsigned_eq : remUnsigned a b = if b = 0 then a else BitVec.ofNat 64 (a.toNat % b.toNat) := by
  rw [remUnsigned, ← BitVec.toNat_umod, BitVec.ofNat_toNat, BitVec.setWidth_eq]

end product

/-! ### Long operations (R104, R105) -/

section long
variable {b : State} {c flags : Nat} {d : LDest} {r : LRes} {exc : Option Exc}

/-- Detached, with fewer than eight operations outstanding, a long operation becomes the youngest of them. -/
theorem longDone_detached (hd : (b.core c).detached = true) (hn : (b.core c).longs.length < 8) :
    longDone c d r flags exc b = .ok (b.modCore c (fun k =>
      k.leaves { pc := k.pc, dest := d, res := r, flags, exc, failed := false })) := by
  simp only [longDone, hd, if_true, if_neg (Nat.not_le.mpr hn)]
  rfl

theorem Core.raises_zero (k : Core) : k.raises 0 = k := by simp [Core.raises]

/-- Attached, a long operation sets its flags and writes its destination. -/
theorem longDone_attached (hd : (b.core c).detached = false) :
    longDone c d r flags none b = .ok (b.modCore c (fun k => (k.raises flags).deliver d r)) := by
  simp only [longDone, hd]
  rfl

/-- Attached, a long operation with an event sets its flags and raises it. -/
theorem longDone_attached_exc {e : Exc} (hd : (b.core c).detached = false) :
    longDone c d r flags (some e) b = .exc (b.modCore c (fun k => k.raises flags)) e := by
  simp only [longDone, hd]
  rfl

end long

/-- Attached, a division writes its register. -/
theorem exec_divide_attached {s : State} {c : Nat} {rd ra rb : Reg} {i : Instr} (f : W64 → W64 → W64)
    (hi : exec i s = .next (s.divide c rd ra rb f)) (hr : s.Ready c false [.g ra, .g rb])
    (hd : ((s.begun c false [.g ra, .g rb] [.g rd]).core c).detached = false) :
    exec i s = .next ((s.begun c false [.g ra, .g rb] [.g rd]).after c 42 (fun k => k.setG rd (f k.g[ra] k.g[rb]))) := by
  rw [hi, State.divide]
  refine congrArg Host.Outcome.next (State.issue_after (writes := [.g rd]) hr ((longDone_attached hd).trans ?_) rfl)
  exact congrArg Done.ok (State.modCore_congr (by rw [Core.raises_zero]; rfl))

/-- Settles O11: the products and quotients as numbers; attached, a division writes its register. -/
theorem multiplyDivideResults : Obligations.MultiplyDivideResults := by
  intro s c rd ra rb divides
  refine ⟨setsG_of_alu rfl (fun _ => mul_eq_ofNat ..), setsG_of_alu rfl (fun _ => mulHigh_eq_ofInt ..),
    setsG_of_alu rfl (fun _ => mulHighU_eq_ofNat ..), fun hr hd => ?div, fun hr hd => ?divu, fun hr hd => ?rem,
    fun hr hd => ?remu⟩
  case div => simp only [← divSigned_eq]; exact exec_divide_attached divSigned rfl hr hd
  case divu => simp only [← divUnsigned_eq]; exact exec_divide_attached divUnsigned rfl hr hd
  case rem => simp only [← remSigned_eq]; exact exec_divide_attached remSigned rfl hr hd
  case remu => simp only [← remUnsigned_eq]; exact exec_divide_attached remUnsigned rfl hr hd

end Sys2Proof.Machine
end

section
/-! SUPPORT. Long operations detached and attached, scalar floating point and the cryptographic instructions (R66, R67, R80,
R104, R105). -/

namespace Sys2Proof.Machine

/-! ### A long operation by the way its core runs it (R104, R105) -/

section long
variable {s : State} {c met : Nat} {reads writes : List LDest} {i : Instr} {body : State → Done} {d : LDest}
  {res : Core → LRes} {fl : Core → Nat} {exc : Core → Option Exc} {put : Core → Core}

/-- A long operation whose result, flags and event are functions of its core leaves them outstanding. -/
theorem detaches_of_long (hi : exec i s = .next (s.issue c met false reads writes body))
    (hb : ∀ b : State, body b = longDone c d (res (b.core c)) (fl (b.core c)) (exc (b.core c)) b) :
    Detaches i s c met reads writes
      (fun k => { pc := k.pc, dest := d, res := res k, flags := fl k, exc := exc k, failed := false }) := by
  intro hr hd hn
  rw [hi]
  exact congrArg Host.Outcome.next (State.issue_after hr ((hb _).trans (longDone_detached hd hn)) rfl)

/-- A long operation that raises no flag and no event writes its destination. -/
theorem changesLong_of_long (hi : exec i s = .next (s.issue c met false reads writes body))
    (hb : ∀ b : State, body b = longDone c d (res (b.core c)) 0 none b)
    (hput : ∀ k : Core, k.deliver d (res k) = put k) (hpc : ∀ k, (put k).pc = k.pc) :
    ChangesLong i s c met reads writes put := by
  intro hr hd
  rw [hi]
  refine congrArg Host.Outcome.next (State.issue_after (writes := writes) hr ?_ (hpc _))
  rw [hb, longDone_attached hd]
  exact congrArg Done.ok (State.modCore_congr (by rw [Core.raises_zero, hput]))

/-- A floating-point result: written with its flags unless one of them is enabled (R67). -/
theorem floats_of_done {b : State} (hr : s.Ready c false reads) (hbegun : b = s.begun c false reads writes)
    (hi : exec i s = .next (s.issue c met false reads writes body))
    (hpc : ∀ k, (put k).pc = k.pc)
    (hput : (b.core c).fpTraps (fl (b.core c)) = false →
      body b = .ok (b.modCore c (fun k => (put k).raises (fl (b.core c)))))
    (htrap : (b.core c).fpTraps (fl (b.core c)) = true →
      body b = .exc (b.modCore c (fun k => k.raises (fl (b.core c)))) (mkExc 11)) :
    Floats i s c met reads writes fl put := by
  subst hbegun
  constructor
  · intro h
    rw [hi]
    exact congrArg Host.Outcome.next (State.issue_after hr (hput (decide_eq_false (not_not.mpr h))) (hpc _))
  · intro h
    rw [hi]
    exact congrArg Host.Outcome.next (State.issue_exc hr (htrap (decide_eq_true h)))

/-- A short floating-point operation. -/
theorem floats_of_fpWrite {wr : Core → Core → Core} (hi : exec i s = .next (s.issue c met false reads writes body))
    (hb : ∀ b : State, body b = fpWrite (fl (b.core c)) (wr (b.core c)) b c)
    (hput : ∀ k, wr k (k.raises (fl k)) = (put k).raises (fl k)) (hpc : ∀ k, (put k).pc = k.pc)
    (hr : s.Ready c false reads) : Floats i s c met reads writes fl put := by
  refine floats_of_done hr rfl hi hpc (fun h => ?_) (fun h => ?_)
  · rw [hb, fpWrite, if_neg (Bool.eq_false_iff.mp h)]
    exact congrArg (fun k => Done.ok (State.setCore _ c k)) (hput _)
  · rw [hb, fpWrite, if_pos h]
    rfl

/-- A long floating-point operation of a core that runs it attached. -/
theorem floats_of_long (hi : exec i s = .next (s.issue c met false reads writes body))
    (hb : ∀ b : State, body b = longDone c d (res (b.core c)) (fl (b.core c))
      (if (b.core c).fpTraps (fl (b.core c)) then some (mkExc 11) else none) b)
    (hput : ∀ k : Core, (k.raises (fl k)).deliver d (res k) = (put k).raises (fl k)) (hpc : ∀ k, (put k).pc = k.pc)
    (hr : s.Ready c false reads) (hd : ((s.begun c false reads writes).core c).detached = false) :
    Floats i s c met reads writes fl put := by
  refine floats_of_done hr rfl hi hpc (fun h => ?_) (fun h => ?_)
  · rw [hb, if_neg (Bool.eq_false_iff.mp h), longDone_attached hd]
    exact congrArg Done.ok (State.modCore_congr (hput _))
  · rw [hb, if_pos h, longDone_attached_exc hd]

end long

/-- The event of a long floating-point operation, where one of its exceptions is enabled (R67). -/
theorem fpTraps_ite {α : Type} (k : Core) (flags : Nat) (x y : α) :
    (if k.fpTraps flags then x else y) = if flags &&& fld k.fpcsr 8 5 ≠ 0 then x else y :=
  if_congr (by rw [Core.fpTraps, decide_eq_true_eq]) rfl rfl

theorem exec_divide_detached {s : State} {c : Nat} {rd ra rb : Reg} {i : Instr} (f : W64 → W64 → W64)
    (hi : exec i s = .next (s.divide c rd ra rb f)) :
    Detaches i s c 42 [.g ra, .g rb] [.g rd] (fun k =>
      { pc := k.pc, dest := .g rd, res := .g (f k.g[ra] k.g[rb]), flags := 0, exc := none, failed := false }) :=
  detaches_of_long (fl := fun _ => 0) (exc := fun _ => none) hi (fun _ => rfl)

/-- Settles O12: a long operation of a detached core is its result, flags and event left outstanding. -/
theorem longOpsDetached : Obligations.LongOpsDetached := by
  refine ⟨fun s c rd ra rb => ?_, fun s c sp rd ra rb => ?_⟩
  · intro b leaves hr hd hn
    refine ⟨?div, ?divu, ?rem, ?remu⟩
    case div => simp only [leaves, ← divSigned_eq]; exact exec_divide_detached divSigned rfl hr hd hn
    case divu => simp only [leaves, ← divUnsigned_eq]; exact exec_divide_detached divUnsigned rfl hr hd hn
    case rem => simp only [leaves, ← remSigned_eq]; exact exec_divide_detached remSigned rfl hr hd hn
    case remu => simp only [leaves, ← remUnsigned_eq]; exact exec_divide_detached remUnsigned rfl hr hd hn
  · simp only [← fpTraps_ite]
    exact ⟨detaches_of_long rfl (fun _ => rfl), detaches_of_long rfl (fun _ => rfl), detaches_of_long rfl (fun _ => rfl)⟩

/-- A scalar floating-point operation of two operands (R66). -/
theorem floats_fp2 {s : State} {c met : Nat} {sp : Bool} {rd ra rb : Reg} {i : Instr} (f : Nat → Nat → Nat → Nat × Nat)
    (hi : exec i s = .next (s.fp2 c met sp rd ra rb f)) (hr : s.Ready c false [.g ra, .g rb]) :
    Floats i s c met [.g ra, .g rb] [.g rd] (fun k => (f k.rm (fpArg sp k.g[ra]) (fpArg sp k.g[rb])).2)
      (fun k => k.setG rd (BitVec.ofNat 64 (f k.rm (fpArg sp k.g[ra]) (fpArg sp k.g[rb])).1)) :=
  floats_of_fpWrite (wr := fun k0 k => k.setG rd (BitVec.ofNat 64 (f k0.rm (fpArg sp k0.g[ra]) (fpArg sp k0.g[rb])).1))
    hi (fun _ => rfl) (fun _ => rfl) (fun _ => rfl) hr

/-- A scalar floating-point operation of one operand (R66). -/
theorem floats_fp1 {s : State} {c met : Nat} {rd ra : Reg} {i : Instr} (f : Nat → W64 → Nat × Nat)
    (hi : exec i s = .next (s.fp1 c met rd ra f)) (hr : s.Ready c false [.g ra]) :
    Floats i s c met [.g ra] [.g rd] (fun k => (f k.rm k.g[ra]).2)
      (fun k => k.setG rd (BitVec.ofNat 64 (f k.rm k.g[ra]).1)) :=
  floats_of_fpWrite (wr := fun k0 k => k.setG rd (BitVec.ofNat 64 (f k0.rm k0.g[ra]).1))
    hi (fun _ => rfl) (fun _ => rfl) (fun _ => rfl) hr

/-- Settles O13: an operation of one or two operands, the fused one, the two long ones and FCLASS. -/
theorem floatResults : Obligations.FloatResults := by
  intro s c sp rd ra rb x y puts putsLong
  refine ⟨floats_fp2 (fpAdd sp) rfl, floats_fp2 (fpSub sp) rfl, floats_fp2 (fpMul sp) rfl, ?div, ?sqrt, ?fma,
    floats_fp2 (fun _ => fpMinMax sp false) rfl, floats_fp2 (fun _ => fpMinMax sp true) rfl,
    floats_fp2 (fun _ => fpCmp sp 0) rfl, floats_fp2 (fun _ => fpCmp sp 1) rfl, floats_fp2 (fun _ => fpCmp sp 2) rfl,
    floats_fp1 (fun rm w => fpToInt sp rm (fpArg sp w)) rfl, floats_fp1 (fun rm w => fpOfInt sp rm w.toNat) rfl,
    floats_fp1 (fun rm w => fpConv sp rm (fpArg (!sp) w)) rfl, setsG_of_alu rfl (fun _ => rfl)⟩
  case div =>
    exact floats_of_long (d := .g rd) (res := fun k => .g (BitVec.ofNat 64 (fpDiv sp k.rm (x k) (y k)).1)) rfl
      (fun _ => rfl) (fun _ => rfl)
      (fun _ => rfl)
  case sqrt =>
    exact floats_of_long (d := .g rd) (res := fun k => .g (BitVec.ofNat 64 (fpSqrt sp k.rm (x k)).1)) rfl
      (fun _ => rfl) (fun _ => rfl)
      (fun _ => rfl)
  case fma =>
    exact floats_of_fpWrite (wr := fun k0 k => k.setG rd (BitVec.ofNat 64
      (fpFma sp k0.rm (fpArg sp k0.g[ra]) (fpArg sp k0.g[rb]) (fpArg sp k0.g[rd])).1))
      rfl (fun _ => rfl) (fun _ => rfl) (fun _ => rfl)

/-- A cryptographic instruction attached and detached (R80). -/
theorem cryptoOp_both {s : State} {c met : Nat} {vd va vb : Reg} {rdOld : Bool} {i : Instr} {reads : List LDest}
    (f : W256 → W256 → W256 → W256) (hi : exec i s = .next (s.cryptoOp c met vd va vb rdOld f))
    (hreads : reads = if rdOld then [.v va, .v vb, .v vd] else [.v va, .v vb]) :
    ChangesLong i s c met reads [.v vd] (fun k => k.setV vd (f k.v[vd] k.v[va] k.v[vb]))
      ∧ Detaches i s c met reads [.v vd] (fun k =>
        { pc := k.pc, dest := .v vd, res := .v (f k.v[vd] k.v[va] k.v[vb]), flags := 0, exc := none, failed := false }) := by
  subst hreads
  exact ⟨changesLong_of_long (d := .v vd) (res := fun k => .v (f k.v[vd] k.v[va] k.v[vb])) hi (fun _ => rfl) (fun _ => rfl)
    (fun _ => rfl), detaches_of_long (fl := fun _ => 0) (exc := fun _ => none) hi (fun _ => rfl)⟩

/-- Settles O16: attached, the instruction writes vd; detached, it leaves the result outstanding. -/
theorem cryptoResults : Obligations.CryptoResults := by
  intro s c vd va vb both lanes
  exact ⟨cryptoOp_both (fun _ a b => lanes2 (aesRound false) a b) rfl rfl,
    cryptoOp_both (fun _ a b => lanes2 (aesRound true) a b) rfl rfl,
    cryptoOp_both (fun _ a b => lanes2 (aesInvRound false) a b) rfl rfl,
    cryptoOp_both (fun _ a b => lanes2 (aesInvRound true) a b) rfl rfl,
    cryptoOp_both (fun _ a b => lanes2 gcmMul a b) rfl rfl,
    cryptoOp_both Config.sha512s rfl rfl, cryptoOp_both sha512r rfl rfl⟩

end Sys2Proof.Machine
end

section
/-! SUPPORT. Vector integer and floating-point instructions: the elements of a vector and the operation of each (R78, R79). -/

namespace Sys2Proof.Machine

/-! ### The elements of a vector -/

/-- A digit of a number that is built digit by digit. -/
theorem foldr_digit {B : Nat} (hB : 0 < B) (g : Nat → Nat) (l : List Nat) {j : Nat} (h : j < l.length) :
    l.foldr (fun i acc => g i % B + B * acc) 0 / B ^ j % B = g l[j] % B := by
  induction l generalizing j with
  | nil => exact absurd h (Nat.not_lt_zero _)
  | cons i l ih =>
    cases j with
    | zero => simp
    | succ j =>
      have hdiv (acc : Nat) : (g i % B + B * acc) / B = acc := by
        rw [Nat.add_mul_div_left _ _ hB, Nat.div_eq_of_lt (Nat.mod_lt _ hB), Nat.zero_add]
      rw [List.foldr_cons, Nat.pow_succ', ← Nat.div_div_eq_div_mul, hdiv, List.getElem_cons_succ]
      exact ih (Nat.lt_of_succ_lt_succ h)

theorem fld_eq_extractLsb' {n : Nat} (a : BitVec n) (lo len : Nat) : fld a lo len = (a.extractLsb' lo len).toNat := by
  rw [BitVec.extractLsb'_toNat, fld, bits]

/-- An element of a vector of elements. -/
theorem vMap2_extractLsb' {w : Nat} (f : Nat → Nat → Nat) (a b : W256) {j : Nat} (h : j < 256 / w) :
    (vMap2 w f a b).extractLsb' (w * j) w =
      BitVec.ofNat w (f (a.extractLsb' (w * j) w).toNat (b.extractLsb' (w * j) w).toNat) := by
  have hfit : w * j + w ≤ 256 := by
    have := Nat.mul_le_mul_left w (Nat.succ_le_of_lt h)
    have := Nat.mul_div_le 256 w
    rw [Nat.mul_succ] at *
    omega
  apply BitVec.eq_of_toNat_eq
  rw [BitVec.extractLsb'_toNat, vMap2, BitVec.toNat_ofNat, BitVec.toNat_ofNat, Nat.shiftRight_eq_div_pow,
    mod_two_pow_field hfit, Nat.pow_mul,
    foldr_digit (Nat.two_pow_pos w) (fun i => f (fld a (w * i) w) (fld b (w * i) w)) _ (by simpa using h)]
  simp only [List.getElem_range, fld_eq_extractLsb']

/-! ### The operation of an element (R78) -/

section element
variable {w : Nat} (x y : BitVec w)

theorem ofNat_toTwos (w : Nat) (i : Int) : BitVec.ofNat w (toTwos w i) = BitVec.ofInt w i := by
  have hpow : ((2 ^ w : Nat) : Int) = (2 : Int) ^ w := by norm_cast
  apply BitVec.eq_of_toNat_eq
  rw [BitVec.toNat_ofNat, BitVec.toNat_ofInt, toTwos, ← hpow]
  refine Nat.mod_eq_of_lt ((Int.toNat_lt (Int.emod_nonneg _ ?_)).mpr (Int.emod_lt_of_pos _ ?_)) <;> positivity

variable {x y}

theorem sInt_toNat (hw : 0 < w) : sInt w x.toNat = x.toInt := by
  obtain ⟨n, rfl⟩ := Nat.exists_eq_add_of_lt hw
  have hhalf : x.toNat < 2 ^ (0 + n + 1 - 1) ↔ 2 * x.toNat < 2 ^ (0 + n + 1) := by
    rw [Nat.pow_succ, Nat.add_sub_cancel]; omega
  rw [sInt, BitVec.toInt_eq_toNat_cond, Nat.mod_eq_of_lt x.isLt]
  exact if_congr hhalf rfl (by norm_cast)

theorem elem_sub : BitVec.ofNat w (x.toNat + 2 ^ w - y.toNat) = x - y := by
  apply BitVec.eq_of_toNat_eq
  rw [BitVec.toNat_ofNat, BitVec.toNat_sub]
  congr 1
  have := y.isLt
  omega

theorem elem_shiftLeft (n : Nat) : BitVec.ofNat w (x.toNat <<< n) = x <<< n := by
  apply BitVec.eq_of_toNat_eq
  rw [BitVec.toNat_ofNat, BitVec.toNat_shiftLeft]

theorem elem_shiftRight (n : Nat) : BitVec.ofNat w (x.toNat >>> n) = x >>> n := by
  apply BitVec.eq_of_toNat_eq
  rw [BitVec.toNat_ofNat, ← BitVec.toNat_ushiftRight, Nat.mod_eq_of_lt (BitVec.isLt _)]

theorem elem_sshiftRight (hw : 0 < w) (n : Nat) :
    BitVec.ofNat w (toTwos w (sInt w x.toNat / 2 ^ n)) = x.sshiftRight n := by
  rw [ofNat_toTwos, sInt_toNat hw, BitVec.sshiftRight_eq, Int.shiftRight_eq_div_pow]
  norm_cast

theorem elem_min (hw : 0 < w) :
    BitVec.ofNat w (if sInt w x.toNat < sInt w y.toNat then x.toNat else y.toNat) = if x.toInt < y.toInt then x else y := by
  rw [sInt_toNat hw, sInt_toNat hw, apply_ite (BitVec.ofNat w), BitVec.ofNat_toNat, BitVec.ofNat_toNat, BitVec.setWidth_eq,
    BitVec.setWidth_eq]

theorem elem_max (hw : 0 < w) :
    BitVec.ofNat w (if sInt w x.toNat < sInt w y.toNat then y.toNat else x.toNat) = if x.toInt < y.toInt then y else x := by
  rw [sInt_toNat hw, sInt_toNat hw, apply_ite (BitVec.ofNat w), BitVec.ofNat_toNat, BitVec.ofNat_toNat, BitVec.setWidth_eq,
    BitVec.setWidth_eq]

theorem ofNat_onesIf (w : Nat) (p : Prop) [Decidable p] :
    BitVec.ofNat w (onesIf w (decide p)) = if p then BitVec.allOnes w else 0 := by
  by_cases h : p
  · rw [if_pos h, onesIf, if_pos (decide_eq_true h), BitVec.allOnes, BitVec.ofNatLT_eq_ofNat]
  · rw [if_neg h, onesIf, if_neg (by simp [h])]
    rfl

theorem elem_eq : BitVec.ofNat w (onesIf w (x.toNat == y.toNat)) = if x = y then BitVec.allOnes w else 0 :=
  (ofNat_onesIf w (x.toNat = y.toNat)).trans (if_congr BitVec.toNat_inj rfl rfl)

theorem elem_gt (hw : 0 < w) :
    BitVec.ofNat w (onesIf w (decide (sInt w y.toNat < sInt w x.toNat))) =
      if y.toInt < x.toInt then BitVec.allOnes w else 0 := by
  rw [ofNat_onesIf, sInt_toNat hw, sInt_toNat hw]

end element

/-! ### Vector instructions (R78, R79) -/

section vector
variable {s : State} {c met : Nat} {vd va vb : Reg} {i : Instr}

theorem setsV_vec2 (f : W256 → W256 → W256) (hi : exec i s = .next (s.vec2 c met vd va vb f)) :
    SetsV i s c met [.v va, .v vb] vd (fun k => f k.v[va] k.v[vb]) :=
  fun h => hi.trans (congrArg Host.Outcome.next (State.compute_ready h (fun _ => rfl)))

/-- An instruction that does the same operation on every element. -/
theorem setsV_vecE {sz : Fin 4} {g : BitVec (8 * 2 ^ sz.val) → BitVec (8 * 2 ^ sz.val) → BitVec (8 * 2 ^ sz.val)}
    (f : Nat → Nat → Nat → Nat) (hi : exec i s = .next (s.vecE c met sz vd va vb f))
    (hf : ∀ x y : BitVec (8 * 2 ^ sz.val), BitVec.ofNat _ (f (8 * 2 ^ sz.val) x.toNat y.toNat) = g x y) :
    ∃ v : W256 → W256 → W256, SetsV i s c met [.v va, .v vb] vd (fun k => v k.v[va] k.v[vb])
      ∧ ∀ (a b : W256) (j : Nat), j < 256 / (8 * 2 ^ sz.val) →
        (v a b).extractLsb' (8 * 2 ^ sz.val * j) (8 * 2 ^ sz.val) =
          g (a.extractLsb' (8 * 2 ^ sz.val * j) (8 * 2 ^ sz.val)) (b.extractLsb' (8 * 2 ^ sz.val * j) (8 * 2 ^ sz.val)) :=
  ⟨vMap2 (8 * 2 ^ sz.val) (f (8 * 2 ^ sz.val)), setsV_vec2 _ hi,
    fun a b _ hj => (vMap2_extractLsb' _ a b hj).trans (hf _ _)⟩

/-- A vector floating-point instruction: its lanes together (R79). -/
theorem floats_vecF {sp rdOld : Bool} {reads : List LDest} (f : Nat → Nat → Nat → Nat → Nat × Nat)
    (hi : exec i s = .next (s.vecF c met sp vd va vb rdOld f))
    (hreads : reads = if rdOld then [.v va, .v vb, .v vd] else [.v va, .v vb]) (hr : s.Ready c false reads) :
    Floats i s c met reads [.v vd] (fun k => (vfLanes sp (f k.rm) k.v[va] k.v[vb] k.v[vd]).2)
      (fun k => k.setV vd (vfLanes sp (f k.rm) k.v[va] k.v[vb] k.v[vd]).1) := by
  subst hreads
  exact floats_of_fpWrite (wr := fun k0 k => k.setV vd (vfLanes sp (f k0.rm) k0.v[va] k0.v[vb] k0.v[vd]).1)
    hi (fun _ => rfl) (fun _ => rfl) (fun _ => rfl) hr

end vector

/-- Settles O15: the lanes of a floating-point instruction together, and the elements of an integer one each by itself. -/
theorem vectorResults : Obligations.VectorResults := by
  constructor
  · intro s c sp vd va vb puts
    refine ⟨floats_vecF (fun rm a b _ => fpAdd sp rm a b) rfl rfl, floats_vecF (fun rm a b _ => fpSub sp rm a b) rfl rfl,
      floats_vecF (fun rm a b _ => fpMul sp rm a b) rfl rfl, floats_vecF (fun rm a b d => fpFma sp rm a b d) rfl rfl,
      floats_vecF (fun _ a b _ => fpMinMax sp false a b) rfl rfl, floats_vecF (fun _ a b _ => fpMinMax sp true a b) rfl rfl,
      fun hd hr => ?_⟩
    exact floats_of_long (d := .v vd)
      (res := fun k => .v (vfLanes sp (fun a b _ => fpDiv sp k.rm a b) k.v[va] k.v[vb] k.v[vd]).1) rfl (fun _ => rfl)
      (fun _ => rfl) (fun _ => rfl) hr hd
  · intro s c sz vd va vb w each
    have hw : 0 < w := Nat.mul_pos (by decide) (Nat.two_pow_pos _)
    refine ⟨?add, ?sub, ?sll, ?srl, ?sra, ?min, ?max, ?mul, ?ceq, ?cgt, setsV_vec2 _ rfl, setsV_vec2 _ rfl, setsV_vec2 _ rfl,
      ?perm, ?splat, ?ext, ?extBad⟩
    case add => exact setsV_vecE (fun _ a b => a + b) rfl (fun x y => by simp [BitVec.ofNat_add])
    case sub => exact setsV_vecE (fun w a b => a + 2 ^ w - b) rfl (fun _ _ => elem_sub)
    case sll => exact setsV_vecE (fun w a b => a <<< (b % w)) rfl (fun _ _ => elem_shiftLeft _)
    case srl => exact setsV_vecE (fun w a b => a >>> (b % w)) rfl (fun _ _ => elem_shiftRight _)
    case sra =>
      exact setsV_vecE (fun w a b => toTwos w (sInt w a / 2 ^ (b % w))) rfl (fun _ _ => elem_sshiftRight hw _)
    case min => exact setsV_vecE (fun w a b => if sInt w a < sInt w b then a else b) rfl (fun _ _ => elem_min hw)
    case max => exact setsV_vecE (fun w a b => if sInt w a < sInt w b then b else a) rfl (fun _ _ => elem_max hw)
    case mul => exact setsV_vecE (fun _ a b => a * b) rfl (fun x y => by simp [BitVec.ofNat_mul])
    case ceq => exact setsV_vecE (fun w a b => onesIf w (a == b)) rfl (fun _ _ => elem_eq)
    case cgt => exact setsV_vecE (fun w a b => onesIf w (decide (sInt w b < sInt w a))) rfl (fun _ _ => elem_gt hw)
    case perm =>
      refine ⟨vperm, setsV_vec2 vperm rfl, fun a b j hj => ?_⟩
      rw [vperm, vMap2_extractLsb' _ _ _ hj, fld_eq_extractLsb', BitVec.ofNat_toNat, BitVec.setWidth_eq]
    case splat =>
      refine ⟨fun g => vMap2 w (fun _ _ => g.toNat) 0 0, fun h => ?_, fun a j hj => ?_⟩
      · exact congrArg Host.Outcome.next (State.compute_ready h (fun _ => rfl))
      · exact (vMap2_extractLsb' _ _ _ hj).trans (BitVec.ofNat_toNat ..)
    case ext =>
      refine fun hlt => setsG_of_issue rfl (fun b => (if_neg (Nat.not_le.mpr hlt)).trans ?_)
      simp only [← BitVec.ofNat_toNat, ← fld_eq_extractLsb']
      rfl
    case extBad => exact fun hge h => congrArg Host.Outcome.next (State.issue_exc h (if_pos hge))

end Sys2Proof.Machine
end

section
/-! SUPPORT. The division of an access at line boundaries (R71). -/

namespace Sys2Proof.Machine

section pieces
variable {va n : Nat} (hva : va < 2 ^ 64) (hpos : 0 < n) (hn : n ≤ 32)
include hva hpos hn

/-- An access within one line is one piece. -/
theorem vaPieces_within (h : va % 64 + n ≤ 64) : vaPieces va n = [(va, n)] := by
  have hfuel : n / 64 + 2 = 2 := by omega
  have hmin : min n (64 - va % 64) = n := by omega
  rw [vaPieces, hfuel, linePieces, if_neg hpos.ne']
  dsimp only
  rw [hmin, Nat.sub_self, linePieces, if_pos rfl, List.map_singleton, Nat.mod_eq_of_lt hva]

/-- An access that crosses a line boundary is two pieces, parted there. -/
theorem vaPieces_crossing (h : 64 < va % 64 + n) : vaPieces va n =
    [(va, 64 - va % 64), ((va + (64 - va % 64)) % 2 ^ 64, n - (64 - va % 64))] := by
  have hfuel : n / 64 + 2 = 2 := by omega
  have hlow : min n (64 - va % 64) = 64 - va % 64 := by omega
  have hhigh : min (n - (64 - va % 64)) (64 - (va + (64 - va % 64)) % 64) = n - (64 - va % 64) := by omega
  rw [vaPieces, hfuel, linePieces, if_neg hpos.ne']
  dsimp only
  rw [hlow, linePieces, if_neg (by omega)]
  dsimp only
  rw [hhigh, linePieces, List.map_cons, List.map_singleton, Nat.mod_eq_of_lt hva]

end pieces

/-- Settles O21: one piece within a line, or two that meet at its boundary. -/
theorem splitAtLineBoundary : Obligations.SplitAtLineBoundary := by
  intro va n hva hpos hn
  by_cases h : va % 64 + n ≤ 64
  · have hone := vaPieces_within hva hpos hn h
    simp only [hone]
    exact ⟨by simp, by simp [hpos, h], by simp, fun _ => trivial, fun h' => absurd h (Nat.not_le.mpr h')⟩
  · have htwo := vaPieces_crossing hva hpos hn (Nat.not_le.mp h)
    have haligned : (va + (64 - va % 64)) % 2 ^ 64 % 64 = 0 := by omega
    simp only [htwo]
    refine ⟨by simp, ?_, by simp; omega, fun h' => absurd h' h, fun _ => trivial⟩
    simp only [List.mem_cons, List.not_mem_nil, or_false, forall_eq_or_imp, forall_eq]
    omega

end Sys2Proof.Machine
end

section
/-! SUPPORT. The accumulator instructions that read or change an accumulator, and the rounding of ARND (R157, R160 to
R164). -/

namespace Sys2Proof.Machine

/-! ### Accumulators as numbers (R155, R157) -/

theorem accFits_iff (v : Int) : accFits v = true ↔ -(2 : Int) ^ 323 ≤ v ∧ v < 2 ^ 323 := by
  rw [accFits, Bool.and_eq_true, decide_eq_true_eq, decide_eq_true_eq, Int.le_sub_one_iff]

theorem AmAcc.put_eq (a : AmAcc) (v : Int) : a.put v = { a with val := BitVec.ofInt 324 v } := by
  rw [AmAcc.put, ofNat_toTwos]

theorem qOf_eq_ofInt (v : Int) : qOf v = BitVec.ofInt 128 v := ofNat_toTwos 128 v

theorem fld_low6 (w : W64) : fld w 0 6 = w.toNat % 64 := by rw [fld, bits]; rfl

theorem bit_le_one (b : Bool) : bit b ≤ 1 := by cases b <;> decide

theorem decide_bit_eq_one (b : Bool) : decide (bit b = 1) = b := by cases b <;> rfl

/-- The flag word of AFLG, field by field. -/
theorem flagWord_fields (a : AmAcc) : (flagWord a).getLsbD 0 = a.ov ∧ (flagWord a).getLsbD 1 = a.ix
    ∧ (flagWord a).getLsbD 2 = a.ms ∧ (flagWord a).getLsbD 3 = decide (a.val.toInt = 0)
    ∧ (flagWord a).getLsbD 4 = decide (a.val.toInt < 0) ∧ (flagWord a).extractLsb' 5 3 = 0
    ∧ (flagWord a).extractLsb' 8 6 = a.scale ∧ (flagWord a).extractLsb' 14 50 = 0 := by
  have hzero : decide (a.val = 0) = decide (a.val.toInt = 0) := decide_eq_decide.mpr (by
    rw [← BitVec.toInt_inj]; simp)
  have hov := bit_le_one a.ov
  have hix := bit_le_one a.ix
  have hms := bit_le_one a.ms
  have hz := bit_le_one (decide (a.val.toInt = 0))
  have hneg := bit_le_one (decide (a.val.toInt < 0))
  have hscale : a.scale.toNat < 64 := a.scale.isLt
  rw [flagWord, hzero, AmAcc.int]
  have hbit {N i : Nat} {p : Bool} (hi : i < 64) (h : N / 2 ^ i % 2 = bit p) : (BitVec.ofNat 64 N).getLsbD i = p := by
    rw [BitVec.getLsbD_ofNat, decide_eq_true hi, Bool.true_and, Nat.testBit_eq_decide_div_mod_eq, h,
      decide_bit_eq_one]
  have hfield {N lo n : Nat} (h : lo + n ≤ 64) : ((BitVec.ofNat 64 N).extractLsb' lo n).toNat = N / 2 ^ lo % 2 ^ n := by
    rw [BitVec.extractLsb'_toNat, BitVec.toNat_ofNat, Nat.shiftRight_eq_div_pow, mod_two_pow_field h]
  refine ⟨hbit (by decide) ?_, hbit (by decide) ?_, hbit (by decide) ?_, hbit (by decide) ?_, hbit (by decide) ?_,
    BitVec.eq_of_toNat_eq ((hfield (by decide)).trans ?_), BitVec.eq_of_toNat_eq ((hfield (by decide)).trans ?_),
    BitVec.eq_of_toNat_eq ((hfield (by decide)).trans ?_)⟩
  case refine_6 | refine_8 => rw [show (0 : BitVec _).toNat = 0 from rfl]; omega
  all_goals omega

/-! ### The read-out of an accumulator (R163, R164) -/

/-- The quotient of `a` by `D`, whose truncation `q` leaves `rem`, rounded by the mode. -/
def roundedBy (a D q rem : Int) : Nat → Int
  | 0 =>
    let away := if a < 0 then q - 1 else q + 1
    let twice : Int := 2 * rem.natAbs
    if D < twice then away else if twice < D then q else if q % 2 = 0 then q else away
  | 1 => if D ≤ 2 * (rem.natAbs : Int) then (if a < 0 then q - 1 else q + 1) else q
  | 3 => if rem < 0 then q - 1 else q
  | 4 => if 0 < rem then q + 1 else q
  | _ => q

/-- `a` over `D`, rounded by the mode. -/
def roundedTo (a D : Int) (mode : Nat) : Int := roundedBy a D (Int.tdiv a D) (a - Int.tdiv a D * D) mode

/-- The last check of a read-out: the quantity is representable. -/
def readFin (r : Int) (inexact : Bool) : Except (Nat × Bool) (W128 × Bool) :=
  if r < -(2 : Int) ^ 125 ∨ 2 ^ 125 - 1 < r then .error (6, false) else .ok (qOf r, inexact)

section readout
variable {a : AmAcc} {d mode : Nat}

theorem readout_flagged (h : (a.ov || a.ms) = true) : readout a d mode = .error (4, false) := if_pos h

theorem readout_raised (h : (a.ov || a.ms) = false) (ht : a.scale.toNat ≤ d) :
    readout a d mode = readFin (a.int * 10 ^ (d - a.scale.toNat)) false :=
  (if_neg (Bool.eq_false_iff.mp h)).trans (if_pos ht)

theorem rem_ne_zero_iff (a D : Int) : a - Int.tdiv a D * D ≠ 0 ↔ ¬ D ∣ a := by
  rw [mul_comm, ← Int.tmod_def, Int.dvd_iff_tmod_eq_zero]

theorem readout_exact_only (h : (a.ov || a.ms) = false) (ht : d < a.scale.toNat) (hm : mode = 5)
    (hrem : ¬ (10 : Int) ^ (a.scale.toNat - d) ∣ a.int) : readout a d mode = .error (5, true) :=
  (if_neg (Bool.eq_false_iff.mp h)).trans
    ((if_neg (Nat.not_le.mpr ht)).trans (if_pos ⟨hm, (rem_ne_zero_iff _ _).mpr hrem⟩))

theorem readout_rounded (h : (a.ov || a.ms) = false) (ht : d < a.scale.toNat)
    (hm : ¬ (mode = 5 ∧ ¬ (10 : Int) ^ (a.scale.toNat - d) ∣ a.int)) :
    readout a d mode = readFin (roundedTo a.int (10 ^ (a.scale.toNat - d)) mode)
      (decide (¬ (10 : Int) ^ (a.scale.toNat - d) ∣ a.int)) := by
  have hm' : ¬ (mode = 5 ∧ a.int - Int.tdiv a.int (pow10 (a.scale.toNat - d)) * pow10 (a.scale.toNat - d) ≠ 0) := by
    rw [rem_ne_zero_iff]; exact hm
  rw [← decide_eq_decide.mpr (rem_ne_zero_iff a.int (10 ^ (a.scale.toNat - d)))]
  exact (if_neg (Bool.eq_false_iff.mp h)).trans ((if_neg (Nat.not_le.mpr ht)).trans (if_neg hm'))

end readout

/-- What the truncated quotient leaves is smaller than the divisor. -/
theorem natAbs_rem_lt (a : Int) {D : Int} (hD : 0 < D) : (a - Int.tdiv a D * D).natAbs < D.natAbs := by
  rw [mul_comm, ← Int.tmod_def, Int.natAbs_tmod]
  exact Nat.mod_lt _ (Int.natAbs_pos.mpr hD.ne')

/-- A number that differs from `a` over `D` by at most one unit is the truncated quotient or a neighbour of it. -/
theorem eq_tdiv_or_neighbour {a D r : Int} (hD : 0 < D) (hlo : -D ≤ r * D - a) (hhi : r * D - a ≤ D) :
    ∃ k : Int, (k = -1 ∨ k = 0 ∨ k = 1) ∧ r = Int.tdiv a D + k
      ∧ r * D - a = k * D - (a - Int.tdiv a D * D) := by
  have habs := natAbs_rem_lt a hD
  refine ⟨r - Int.tdiv a D, ?_, by omega, by rw [Int.sub_mul]; omega⟩
  have hk : (r - Int.tdiv a D) * D = r * D - Int.tdiv a D * D := Int.sub_mul ..
  have hlt : (r - Int.tdiv a D) * D < 2 * D := by omega
  have hgt : -2 * D < (r - Int.tdiv a D) * D := by omega
  have := lt_of_mul_lt_mul_right hlt hD.le
  have := lt_of_mul_lt_mul_right hgt hD.le
  omega

/-- A value that reads out is within one unit, whatever the mode. -/
theorem ReadsOut.near {a r D : Int} {t d m : Nat} (ht : d < t) (hD : D = 10 ^ (t - d)) (h : ReadsOut a t d m r) :
    -D ≤ r * D - a ∧ r * D - a ≤ D := by
  have hpos : 0 < D := hD ▸ (by positivity)
  rw [ReadsOut.eq_def, if_neg (Nat.not_le.mpr ht), ← hD] at h
  split at h
  case h_3 => split at h <;> omega
  all_goals omega

/-- The read-out that the rule describes is the one computed. -/
theorem roundedTo_of_readsOut {a r : Int} {t d m : Nat} (ht : d < t) (hm : m < 6) (h : ReadsOut a t d m r) :
    roundedTo a (10 ^ (t - d)) m = r := by
  obtain ⟨hlo, hhi⟩ := h.near ht rfl
  rw [ReadsOut.eq_def, if_neg (Nat.not_le.mpr ht)] at h
  have hD : (0 : Int) < 10 ^ (t - d) := by positivity
  generalize (10 : Int) ^ (t - d) = D at *
  obtain ⟨k, hk, rfl, hoff⟩ := eq_tdiv_or_neighbour hD hlo hhi
  have hsign : 0 ≤ a → 0 ≤ a - Int.tdiv a D * D := fun ha => by
    rw [mul_comm, ← Int.tmod_def]; exact Int.tmod_nonneg D ha
  have hsign' : a < 0 → a - Int.tdiv a D * D ≤ 0 := fun ha => by
    have := Int.tmod_nonneg D (a := -a) (by omega)
    rw [mul_comm, ← Int.tmod_def]
    rw [Int.neg_tmod] at this
    omega
  have habs := natAbs_rem_lt a hD
  rw [hoff] at h hlo hhi
  have hmul : (Int.tdiv a D + k) * D = k * D - (a - Int.tdiv a D * D) + a := by rw [← hoff]; omega
  rw [hmul] at h
  rw [roundedTo]
  generalize a - Int.tdiv a D * D = rem at *
  generalize Int.tdiv a D = q at *
  clear hmul hoff
  split at h
  case h_1 | h_2 | h_4 | h_5 => simp only [roundedBy]; rcases hk with rfl | rfl | rfl <;> split_ifs <;> omega
  case h_3 => simp only [roundedBy]; rcases hk with rfl | rfl | rfl <;> split at h <;> omega
  case h_6 h0 h1 h2 h3 h4 =>
    rw [imp_false] at h0 h1 h2 h3 h4
    obtain rfl : m = 5 := by omega
    simp only [roundedBy]
    rcases hk with rfl | rfl | rfl <;> omega


/-- A value that the rule allows is the one read out. -/
theorem readout_of_readsOut {a : AmAcc} {d m : Nat} {r : Int} (h : (a.ov || a.ms) = false) (hm : m < 6)
    (hr : ReadsOut a.val.toInt a.scale.toNat d m r) :
    readout a d m = readFin r (decide (d < a.scale.toNat ∧ ¬ (10 : Int) ^ (a.scale.toNat - d) ∣ a.val.toInt)) := by
  by_cases ht : a.scale.toNat ≤ d
  · rw [ReadsOut.eq_def, if_pos ht] at hr
    rw [readout_raised h ht, hr, decide_eq_false (fun hlt => Nat.not_le.mpr hlt.1 ht), AmAcc.int]
  · have hlt := Nat.not_le.mp ht
    have hexact : ¬ (m = 5 ∧ ¬ (10 : Int) ^ (a.scale.toNat - d) ∣ a.int) := by
      rintro ⟨rfl, hdvd⟩
      rw [ReadsOut.eq_def, if_neg ht] at hr
      exact hdvd (Dvd.intro_left r hr)
    rw [readout_rounded h hlt hexact, AmAcc.int, roundedTo_of_readsOut hlt hm hr]
    simp only [hlt, true_and]

theorem readFin_error {r : Int} (ix : Bool) (h : r < -(2 : Int) ^ 125 ∨ 2 ^ 125 ≤ r) : readFin r ix = .error (6, false) :=
  if_pos (h.imp_right Int.sub_one_lt_iff.mpr)

theorem readFin_ok {r : Int} (ix : Bool) (hlo : -(2 : Int) ^ 125 ≤ r) (hhi : r < 2 ^ 125) :
    readFin r ix = .ok (BitVec.ofInt 128 r, ix) := by
  rw [readFin, if_neg (not_or.mpr ⟨Int.not_lt.mpr hlo, Int.not_lt.mpr (Int.le_sub_one_iff.mpr hhi)⟩), qOf_eq_ofInt]

/-! ### The core that an instruction has begun -/

theorem State.modCore_modCore (s : State) (c : Nat) (f g : Core → Core) :
    (s.modCore c f).modCore c g = s.modCore c (fun k => g (f k)) := by
  simp only [State.modCore, State.core_setCore, State.setCore_setCore]

/-- On the state an instruction has begun in, writing its core back as it is changes nothing. -/
theorem State.begun_modCore_self {s : State} {c : Nat} {ser : Bool} {reads writes : List LDest} {f : Core → Core}
    (h : f ((s.begun c ser reads writes).core c) = (s.begun c ser reads writes).core c) :
    (s.begun c ser reads writes).modCore c f = s.begun c ser reads writes := by
  rw [State.modCore, h]
  simp only [State.begun, State.modCore, State.core_setCore, State.setCore_setCore]

/-! ### ACLR, ASCL, AFLG, AFCLR and ARND -/

section amber
variable {s : State} {c : Nat}

theorem exec_aclr {x : Fin 8} {r : Reg} (hr : s.Ready c false [.g r]) :
    let b := s.begun c false [.g r] [.a x]
    let sc := (b.core c).g[r].toNat % 64
    (sc ≤ 38 → exec (.aclr c x r) s = .next (b.after c 1 (fun k => k.setA x
      { val := 0, scale := BitVec.ofNat 6 sc, ov := false, ix := false, ms := false })))
    ∧ (38 < sc → exec (.aclr c x r) s = .next (s.orWait (b.trapped c 1 (amberTrap 3 x false)))) := by
  intro b sc
  refine ⟨fun h => congrArg Host.Outcome.next (State.issue_after hr ?_ rfl),
    fun h => congrArg Host.Outcome.next (State.issue_exc hr (if_pos ?_))⟩
  · rw [fld_low6, if_neg (Nat.not_lt.mpr h)]
    rfl
  · rwa [fld_low6]

/-- ASCL: what its work does, by the accumulator and the exponent it finds. -/
theorem exec_ascl {x : Fin 8} {r : Reg} (hr : s.Ready c false [.a x, .g r]) :
    let b := s.begun c false [.a x, .g r] [.a x]
    let k := b.core c
    let a := k.acc[x]
    let n := k.g[r].toNat % 64
    let v := a.val.toInt * 10 ^ n
    let fits := -(2 : Int) ^ 323 ≤ v ∧ v < 2 ^ 323
    (38 < a.scale.toNat + n → exec (.ascl c x r) s = .next (s.orWait (b.trapped c 3 (amberTrap 3 x false))))
    ∧ (a.scale.toNat + n ≤ 38 → fits → exec (.ascl c x r) s = .next (b.after c 3 (fun k => k.setA x
        { a with val := BitVec.ofInt 324 v, scale := BitVec.ofNat 6 (a.scale.toNat + n) })))
    ∧ (a.scale.toNat + n ≤ 38 → ¬ fits → k.amscl.getLsbD 24 = false →
        exec (.ascl c x r) s = .next (b.after c 3 (fun k => k.setA x { a with ov := true })))
    ∧ (a.scale.toNat + n ≤ 38 → ¬ fits → k.amscl.getLsbD 24 = true → exec (.ascl c x r) s =
        .next (s.orWait ((b.modCore c (fun k => k.setA x { a with ov := true })).trapped c 3 (amberTrap 4 x false)))) := by
  intro b k a n v fits
  have hn : fld k.g[r] 0 6 = n := fld_low6 _
  have hscale : a.scale + BitVec.ofNat 6 n = BitVec.ofNat 6 (a.scale.toNat + n) := by
    rw [BitVec.ofNat_add, BitVec.ofNat_toNat, BitVec.setWidth_eq]
  refine ⟨fun h => congrArg Host.Outcome.next (State.issue_exc hr (if_pos (hn.symm ▸ h))),
    fun h hfits => congrArg Host.Outcome.next (State.issue_after hr ?_ rfl),
    fun h hfits htov => congrArg Host.Outcome.next (State.issue_after hr ?_ rfl),
    fun h hfits htov => congrArg Host.Outcome.next (State.issue_exc hr ?_)⟩
  · refine (if_neg (hn.symm ▸ Nat.not_lt.mpr h)).trans ((if_pos (hn.symm ▸ (accFits_iff v).mpr hfits)).trans ?_)
    rw [AmAcc.put_eq, hn, hscale]
    rfl
  all_goals
    refine (if_neg (hn.symm ▸ Nat.not_lt.mpr h)).trans ((if_neg (hn.symm ▸ mt (accFits_iff v).mp hfits)).trans ?_)
    rw [Core.tov, htov]
    rfl

/-- ARND, attached: a read-out that gives a code sets IX as it says and traps. -/
theorem exec_arnd_error {l : Bool} {mode : Fin 8} {vd : Reg} {x : Fin 8} {n : Nat} {ix : Bool}
    (hr : s.Ready c false [.a x, .v vd]) (hm : mode.val < 6)
    (hd : ((s.begun c false [.a x, .v vd] [.v vd]).core c).detached = false)
    (he : readout ((s.begun c false [.a x, .v vd] [.v vd]).core c).acc[x]
      ((s.begun c false [.a x, .v vd] [.v vd]).core c).amSD mode.val = .error (n, ix)) :
    exec (.arnd c l mode vd x) s = .next (s.orWait (((s.begun c false [.a x, .v vd] [.v vd]).modCore c
      (fun k => k.setA x { k.acc[x] with ix := k.acc[x].ix || ix })).trapped c 40 (amberTrap n x l))) := by
  refine congrArg Host.Outcome.next (State.issue_exc hr ((if_neg (Nat.not_le.mpr hm)).trans ?_))
  rw [he]
  dsimp only
  rw [longDone_attached_exc (by rw [State.core_modCore]; exact hd), State.modCore_modCore]
  exact congrArg (fun t => Done.exc t (amberTrap n x l)) (State.modCore_congr (Core.raises_zero _))

/-- A value read out is delivered to its lane, with IX. -/
theorem raises_deliver_lane (k : Core) (vd : Reg) (l : Bool) (q : W128) (ix : Bool) (x : Fin 8) :
    (k.raises 0).deliver (.v vd) (.lane l q ix x) =
      (k.setV vd (putLane k.v[vd] l q)).setA x { k.acc[x] with ix := k.acc[x].ix || ix } := by
  rw [Core.raises_zero]
  rfl

/-- ARND, attached: a read-out that gives a value writes the lane and sets IX as it says. -/
theorem exec_arnd_ok {l : Bool} {mode : Fin 8} {vd : Reg} {x : Fin 8} {q : W128} {ix : Bool}
    (hr : s.Ready c false [.a x, .v vd]) (hm : mode.val < 6)
    (hd : ((s.begun c false [.a x, .v vd] [.v vd]).core c).detached = false)
    (he : readout ((s.begun c false [.a x, .v vd] [.v vd]).core c).acc[x]
      ((s.begun c false [.a x, .v vd] [.v vd]).core c).amSD mode.val = .ok (q, ix)) :
    exec (.arnd c l mode vd x) s = .next ((s.begun c false [.a x, .v vd] [.v vd]).after c 40 (fun k =>
      (k.setV vd (putLane k.v[vd] l q)).setA x { k.acc[x] with ix := k.acc[x].ix || ix })) := by
  refine congrArg Host.Outcome.next (State.issue_after hr ((if_neg (Nat.not_le.mpr hm)).trans ?_) rfl)
  rw [he]
  dsimp only
  rw [longDone_attached hd]
  exact congrArg Done.ok (State.modCore_congr (raises_deliver_lane ..))

end amber

theorem setA_self (k : Core) (x : Fin 8) : k.setA x { k.acc[x] with ix := k.acc[x].ix || false } = k := by
  rw [Bool.or_false, Core.setA]
  exact congrArg (fun acc => { k with acc }) (Vector.set_getElem_self _)

/-- Settles O27: the read-out by cases of the scales and of the mode, each with the one value that the mode allows. -/
theorem accumulatorReadout : Obligations.AccumulatorReadout := by
  refine ⟨fun s c x r => ⟨exec_aclr, exec_ascl, ?afclr, flagWord, ?aflg, flagWord_fields⟩, ?arnd⟩
  case afclr => exact fun h => congrArg Host.Outcome.next (State.compute_ready h (fun _ => rfl))
  case aflg => exact setsG_of_alu rfl (fun _ => rfl)
  case arnd =>
    intro s c l mode vd x b k a t d inexact i traps hr hd
    have htrap {n : Nat} (hm : mode.val < 6) (he : readout a d mode.val = .error (n, false)) : traps b n := by
      refine (exec_arnd_error hr hm hd he).trans ?_
      rw [State.begun_modCore_self (setA_self _ x)]
    refine ⟨fun h => congrArg Host.Outcome.next (State.issue_exc hr (if_pos h)),
      fun hm h => htrap hm (readout_flagged h), fun hm h => ⟨fun h5 hix => ?_, fun r hro => ?_⟩⟩
    · obtain ⟨hlt, hdvd⟩ := of_decide_eq_true hix
      refine (exec_arnd_error hr hm hd (readout_exact_only h hlt h5 hdvd)).trans ?_
      simp only [Bool.or_true]
      rfl
    · have hread := readout_of_readsOut h hm hro
      refine ⟨fun hout => htrap hm (hread.trans (readFin_error _ hout)), fun hlo hhi => ?_⟩
      refine (exec_arnd_ok hr hm hd (hread.trans (readFin_ok _ hlo hhi))).trans ?_
      exact congrArg Host.Outcome.next (State.after_congr rfl)

end Sys2Proof.Machine
end

section
/-! SUPPORT. The string instructions: one step of each (R74 to R77). -/

namespace Sys2Proof.Machine

/-- The end of a step of a string instruction that changed `did` bytes and its core by `f`: the instruction retires, or it
stays at its PC for another step (R75). -/
def State.strEnd (t : State) (c did : Nat) (more : Bool) (f : Core → Core) : State :=
  let u := t.modCore c (fun k => { f k with half := none, strDone := k.strDone + did })
  let met := (if (t.core c).strDone = 0 then 6 else 0) + 16
  if more then u.cycles c met else u.retire c met false ((u.core c).pc + 4)

theorem strStep_eq (t : State) (c did : Nat) (more : Bool) (f : Core → Core) :
    strStep c did more f t = .stay (t.strEnd c did more f) := by
  cases more <;> rfl

theorem State.strEnd_waits (t : State) (c did : Nat) (more : Bool) (f : Core → Core) :
    (t.strEnd c did more f).waits = t.waits := by
  cases more <;> simp [State.strEnd]

section step
variable {s t : State} {c met : Nat} {reads : List LDest} {body : State → Done} {i : Instr} {did : Nat} {more : Bool}
  {f : Core → Core}

/-- An instruction whose work is one step of a string. -/
theorem exec_strStep (hi : exec i s = .next (s.issue c met false reads [] body)) (hr : s.Ready c false reads)
    (hb : body (s.begun c false reads []) = strStep c did more f t) (hw : t.waits = false) :
    exec i s = .next (t.strEnd c did more f) := by
  rw [hi, State.issue_stay_of hr (hb.trans (strStep_eq ..)) ((State.strEnd_waits ..).trans hw)]

end step

/-- The first index below `len` at which two lists differ, or `len`. -/
theorem find_diff {x y : List Byte} {len same : Nat} (hle : same ≤ len) (heq : ∀ i < same, x.getD i 0 = y.getD i 0)
    (hne : same < len → x.getD same 0 ≠ y.getD same 0) :
    ((List.range len).find? (fun i => x.getD i 0 != y.getD i 0)).getD len = same := by
  rcases hle.lt_or_eq with hlt | rfl
  · have h : (List.range len).find? (fun i => x.getD i 0 != y.getD i 0) = some same := by
      rw [List.find?_range_eq_some]
      exact ⟨by simpa using hne hlt, List.mem_range.mpr hlt, fun j hj => by simpa using heq j hj⟩
    rw [h, Option.getD_some]
  · have h : (List.range same).find? (fun i => x.getD i 0 != y.getD i 0) = none := by
      rw [List.find?_range_eq_none]
      exact fun i hi => by simpa using heq i hi
    rw [h, Option.getD_none]

section string
variable {s : State} {c : Nat} {rd ra rb : Reg}

/-- One step of MSET. -/
theorem exec_mset_step (hr : s.Ready c false [.g rd, .g ra, .g rb]) :
    let b := s.begun c false [.g rd, .g ra, .g rb] []
    let d := (b.core c).g[rd].toNat
    let n := (b.core c).g[rb].toNat
    let len := min n (64 - d % 64)
    0 < n → ∀ hs s1 r t, b.checkPieces c accStore .allow (vaPieces d len) = (.ok hs, s1) →
      s1.strStore c [] hs (List.replicate len ((b.core c).g[ra].setWidth 8)) = .ok r t → t.waits = false →
      exec (.mset c rd ra rb) s = .next (t.strEnd c len (decide (len < n))
        (fun k => (k.setG rd (BitVec.ofNat 64 (d + len))).setG rb (BitVec.ofNat 64 (n - len)))) := by
  intro b d n len hn hs s1 r t hcheck hstore hw
  refine exec_strStep rfl hr ?_ hw
  refine (if_neg hn.ne').trans ?_
  have hbyte : BitVec.ofNat 8 (b.core c).g[ra].toNat = (b.core c).g[ra].setWidth 8 := BitVec.ofNat_toNat ..
  dsimp only
  rw [show stepLen d n = len from rfl, hcheck]
  dsimp only
  rw [hbyte, hstore]
  rfl

/-- One step of MCPY, upward or downward by `down`, once its halves are checked and its bytes read and written. -/
theorem exec_mcpy_step {down : Bool} {lo len : Nat} (hr : s.Ready c false [.g rd, .g ra, .g rb]) :
    let b := s.begun c false [.g rd, .g ra, .g rb] []
    let d := (b.core c).g[rd].toNat
    let a := (b.core c).g[ra].toNat
    let n := (b.core c).g[rb].toNat
    0 < n → mcpyDown d a n = down → (if down then downBase d n else d) = lo →
      (if down then d + n - lo else stepLen d n) = len → ∀ hl s1 hs s2 got s3 r t,
      b.checkPieces c accLoad .allow (vaPieces (a + (lo - d)) len) = (.ok hl, s1) →
      s1.checkPieces c accStore .allow (vaPieces lo len) = (.ok hs, s2) →
      s2.loadHalves c 0 (s2.core c).strProg accLoad none hl = .ok got s3 →
      s3.strStore c (got.take len) hs (got.take len) = .ok r t → t.waits = false →
      exec (.mcpy c rd ra rb) s = .next (t.strEnd c len (decide (len < n)) (fun k =>
        (if down then k else (k.setG rd (BitVec.ofNat 64 (d + len))).setG ra (BitVec.ofNat 64 (a + len))).setG rb
          (BitVec.ofNat 64 (n - len)))) := by
  intro b d a n hn hdown hlo hlen hl s1 hs s2 got s3 r t hload hcheck hread hstore hw
  refine exec_strStep rfl hr ?_ hw
  refine (if_neg hn.ne').trans ?_
  subst hdown hlo hlen
  dsimp only
  rw [hload]
  dsimp only
  rw [hcheck]
  dsimp only
  rw [hread]
  dsimp only
  rw [hstore]
  rfl

/-- One step of MCMP. -/
theorem exec_mcmp_step (hr : s.Ready c false [.g rd, .g ra, .g rb]) :
    let b := s.begun c false [.g rd, .g ra, .g rb] []
    let d := (b.core c).g[rd].toNat
    let a := (b.core c).g[ra].toNat
    let n := (b.core c).g[rb].toNat
    let len := min n (64 - d % 64)
    0 < n → ∀ h1 s1 h2 s2 x y t same, b.checkPieces c accLoad .allow (vaPieces d len) = (.ok h1, s1) →
      s1.checkPieces c accLoad .allow (vaPieces a len) = (.ok h2, s2) →
      s2.loadHalves c 0 (s2.core c).strProg accLoad none (h1 ++ h2) = .ok (x ++ y) t → t.waits = false →
      x.length = len → y.length = len → same ≤ len →
      (∀ i < same, x.getD i 0 = y.getD i 0) → (same < len → x.getD same 0 ≠ y.getD same 0) →
      exec (.mcmp c rd ra rb) s = .next (t.strEnd c len (decide (same = len) && decide (len < n)) (fun k =>
        ((k.setG rd (BitVec.ofNat 64 (d + same))).setG ra (BitVec.ofNat 64 (a + same))).setG rb
          (BitVec.ofNat 64 (n - same)))) := by
  intro b d a n len hn h1 s1 h2 s2 x y t same hd ha hread hw hx hy hle heq hne
  refine exec_strStep rfl hr ?_ hw
  refine (if_neg hn.ne').trans ?_
  have hsame := find_diff hle heq hne
  dsimp only
  rw [show stepLen d n = len from rfl, hd]
  dsimp only
  rw [ha]
  dsimp only
  rw [hread]
  dsimp only
  rw [List.take_left' hx, List.drop_left' hx, hsame]
  rfl

end string

/-- Settles O25: a count of 0 does nothing; else one step, whose extent is that of its direction. -/
theorem stringResults : Obligations.StringResults := by
  refine ⟨?zero, ?step⟩
  case zero =>
    intro s c rd ra rb b hr hn
    have h0 : (b.core c).g[rb].toNat = 0 := congrArg BitVec.toNat hn
    have hw : b.waits = false := State.begun_waits hr
    exact ⟨congrArg Host.Outcome.next (State.issue_id hr (if_pos h0) hw),
      congrArg Host.Outcome.next (State.issue_id hr (if_pos h0) hw),
      congrArg Host.Outcome.next (State.issue_id hr (if_pos h0) hw)⟩
  case step =>
    intro s c rd ra rb b d a n len ends hr hn
    refine ⟨exec_mset_step hr hn, ?up, ?down, exec_mcmp_step hr hn⟩
    case up =>
      intro hup hl s1 hs s2 got s3 r t hload hcheck hread hstore hw
      have hdir : mcpyDown d a n = false := by
        rw [mcpyDown, ← Bool.decide_and]
        exact decide_eq_false hup
      have hbase : a + (d - d) = a := by rw [Nat.sub_self, Nat.add_zero]
      exact exec_mcpy_step (down := false) (lo := d) (len := len) hr hn hdir (if_neg Bool.false_ne_true)
        (if_neg Bool.false_ne_true) hl s1 hs s2 got s3 r t (hbase.symm ▸ hload) hcheck hread hstore hw
    case down =>
      intro had hda hl s1 hs s2 got s3 r t lo hload hcheck hread hstore hw
      have hdir : mcpyDown d a n = true := by
        rw [mcpyDown, ← Bool.decide_and]
        exact decide_eq_true ⟨had, hda⟩
      exact exec_mcpy_step (down := true) (lo := lo) (len := d + n - lo) hr hn hdir (if_pos rfl) (if_pos rfl) hl s1
        hs s2 got s3 r t hload hcheck hread hstore hw

end Sys2Proof.Machine
end

section
/-! SUPPORT. Loads and stores whose accesses are performed (R62, R68). -/

namespace Sys2Proof.Machine

/-! ### What a load writes -/

theorem leNat_take_lt (bs : List Byte) (n : Nat) : leNat (bs.take n) < 2 ^ (8 * n) :=
  calc leNat (bs.take n) < 256 ^ (bs.take n).length := leNat_lt _
    _ ≤ 256 ^ n := Nat.pow_le_pow_right (by decide) (List.length_take_le n bs)
    _ = 2 ^ (8 * n) := by rw [Nat.pow_mul]

/-- A load that extends the sign. -/
theorem putDest_signed (k : Core) (r : Reg) {n : Nat} (hn : 0 < n) (bs : List Byte) :
    k.putDest (.g r n true) bs = k.setG r ((BitVec.ofNat (8 * n) (leNat (bs.take n))).signExtend 64) := by
  have hv : (BitVec.ofNat (8 * n) (leNat (bs.take n))).toNat = leNat (bs.take n) :=
    BitVec.toNat_ofNat .. ▸ Nat.mod_eq_of_lt (leNat_take_lt bs n)
  rw [BitVec.signExtend, ← sInt_toNat (by omega), hv]
  rfl

/-- A load that extends with zeros. -/
theorem putDest_unsigned (k : Core) (r : Reg) (n : Nat) (bs : List Byte) :
    k.putDest (.g r n false) bs = k.setG r ((BitVec.ofNat (8 * n) (leNat (bs.take n))).setWidth 64) := by
  have hv : (BitVec.ofNat (8 * n) (leNat (bs.take n))).toNat = leNat (bs.take n) :=
    BitVec.toNat_ofNat .. ▸ Nat.mod_eq_of_lt (leNat_take_lt bs n)
  rw [← BitVec.ofNat_toNat, hv]
  rfl

theorem putDest_word (k : Core) (r : Reg) (bs : List Byte) :
    k.putDest (.g r 8 false) bs = k.setG r (BitVec.ofNat 64 (leNat (bs.take 8))) := rfl

@[simp] theorem putDest_pc (k : Core) (d : PDest) (bs : List Byte) : (k.putDest d bs).pc = k.pc := by cases d <;> rfl

/-! ### The accesses of an instruction -/

section access
variable {s b t : State} {c met va n al : Nat} {a : Acc} {use : DevUse} {dst : PDest} {bs : List Byte}
  {reads writes : List LDest} {body : State → Done} {i : Instr} {f : Core → Core}

theorem loadTo_of_loads (h : b.Loads c met 0 a use (some dst) va n al bs t) :
    b.loadTo c met a use va n al dst = .ok (t.modCore c (fun k => k.putDest dst bs)) := by
  obtain ⟨-, -, hs, s1, hcheck, hread⟩ := h
  rw [State.loadTo, hcheck]
  dsimp only
  rw [hread]

theorem storeFrom_of_stores (h : b.Stores c met use va al bs t) :
    b.storeFrom c met accStore use va al false bs = .ok t := by
  obtain ⟨-, -, hs, s1, r, hcheck, hwrite⟩ := h
  rw [State.storeFrom, hcheck]
  dsimp only
  rw [hwrite]

/-- An instruction whose work is a load. -/
theorem exec_load (hi : exec i s = .next (s.issue c met false reads writes body)) (hr : s.Ready c false reads)
    (hb : body (s.begun c false reads writes) = (s.begun c false reads writes).loadTo c met a use va n al dst)
    (h : (s.begun c false reads writes).Loads c met 0 a use (some dst) va n al bs t)
    (hf : ∀ k, k.putDest dst bs = f k) : exec i s = .next (t.after c met f) := by
  rw [hi, ← funext hf]
  exact congrArg Host.Outcome.next
    (State.issue_after_of hr (hb.trans (loadTo_of_loads h)) h.2.1 (putDest_pc ..))

/-- An instruction whose work is a store. -/
theorem exec_store (hi : exec i s = .next (s.issue c met false reads writes body)) (hr : s.Ready c false reads)
    (hb : body (s.begun c false reads writes)
      = (s.begun c false reads writes).storeFrom c met accStore use va al false bs)
    (h : (s.begun c false reads writes).Stores c met use va al bs t) : exec i s = .next (t.after c met id) := by
  rw [hi]
  exact congrArg Host.Outcome.next (State.issue_id hr (hb.trans (storeFrom_of_stores h)) h.2.1)

end access

/-- Settles O17: each load is the access of its row, and its register takes what the bytes hold. -/
theorem loadResults : Obligations.LoadResults := by
  intro s c rd ra imm bs t b va loads lo
  refine ⟨?ldb, ?ldbu, ?ldh, ?ldhu, ?ldw, ?ldwu, ?ldd, ?lda, ?ldp, ?vld⟩
  case ldb | ldh | ldw => exact fun hr h => exec_load rfl hr rfl h (fun k => putDest_signed k rd (by decide) bs)
  case ldbu | ldhu | ldwu => exact fun hr h => exec_load rfl hr rfl h (fun k => putDest_unsigned k rd _ bs)
  case ldd | lda => exact fun hr h => exec_load rfl hr rfl h (fun k => putDest_word k rd bs)
  case ldp =>
    exact fun hrd hr h => exec_load rfl hr (if_neg (hrd.symm ▸ Nat.zero_ne_one)) h (fun k => rfl)
  case vld => exact fun hr h => exec_load rfl hr rfl h (fun k => rfl)

/-- Settles O18: each store is the access of its row. -/
theorem storeResults : Obligations.StoreResults := by
  intro s c rd ra imm t b va stores
  refine ⟨?stb, ?sth, ?stw, ?std, ?stl, ?stp, ?vst⟩
  case stb | sth | stw | std | stl | vst => exact fun hr h => exec_store rfl hr rfl h
  case stp => exact fun hrd hr h => exec_store rfl hr (if_neg (hrd.symm ▸ Nat.zero_ne_one)) h

end Sys2Proof.Machine
end

section
/-! SUPPORT. Atomic operations and the exclusive pair, where their accesses are performed (R69, R70, R152). -/

namespace Sys2Proof.Machine

section rmw
variable {s t : State} {c old : Nat} {dw : Bool} {rd ra : Reg} {reads : List LDest} {f : Core → Nat → Option Nat} {h : Half}

/-- An atomic operation on an owned line: the new value, where there is one, is written, and rd takes the old one. -/
theorem State.atomic_owns (hr : s.Ready c false (.g ra :: reads))
    (ho : (s.begun c false (.g ra :: reads) [.g rd]).Owns c
      ((s.begun c false (.g ra :: reads) [.g rd]).core c).g[ra].toNat (atomSize dw) h old t) {u : State}
    (hu : (match f (t.core c) old with | some v => t.writeLine c h (natLe (atomSize dw) v) | none => t) = u)
    (hw : u.waits = false) :
    s.atomic c dw rd ra reads f = u.after c 18 (fun k => k.setG rd (BitVec.ofNat 64 old)) := by
  obtain ⟨s1, s2, bs, hcheck, hdrain, hstall, hread, rfl⟩ := ho
  refine State.issue_after_of hr ?_ hw rfl
  subst hu
  dsimp only
  rw [hcheck]
  dsimp only
  rw [hdrain]
  dsimp only
  rw [if_neg (Bool.eq_false_iff.mp hstall), hread]
  rfl

/-- An atomic operation that always writes. -/
theorem exec_atomic_some {i : Instr} {v : Nat} (hi : exec i s = .next (s.atomic c dw rd ra reads f))
    (hv : f (t.core c) old = some v) (hr : s.Ready c false (.g ra :: reads))
    (ho : (s.begun c false (.g ra :: reads) [.g rd]).Owns c
      ((s.begun c false (.g ra :: reads) [.g rd]).core c).g[ra].toNat (atomSize dw) h old t)
    (hw : (t.writeLine c h (natLe (atomSize dw) v)).waits = false) :
    exec i s = .next ((t.writeLine c h (natLe (atomSize dw) v)).after c 18 (fun k => k.setG rd (BitVec.ofNat 64 old))) := by
  rw [hi, State.atomic_owns hr ho (by rw [hv]) hw]

/-- An atomic operation that leaves memory as it is. -/
theorem exec_atomic_none {i : Instr} (hi : exec i s = .next (s.atomic c dw rd ra reads f))
    (hv : f (t.core c) old = none) (hr : s.Ready c false (.g ra :: reads))
    (ho : (s.begun c false (.g ra :: reads) [.g rd]).Owns c
      ((s.begun c false (.g ra :: reads) [.g rd]).core c).g[ra].toNat (atomSize dw) h old t) (hw : t.waits = false) :
    exec i s = .next (t.after c 18 (fun k => k.setG rd (BitVec.ofNat 64 old))) := by
  rw [hi, State.atomic_owns hr ho (by rw [hv]) hw]

end rmw

/-- Settles O23: every atomic operation is one read-modify-write of an owned line, with the value of its row. -/
theorem atomicResults : Obligations.AtomicResults := by
  intro s c aq rl dw rd ra rb h old t n b x writes
  refine ⟨?swp, ?add, ?and, ?or, ?xor, ?max, ?min, ?cas⟩
  case swp | add | and | or | xor | max | min => exact exec_atomic_some rfl rfl
  case cas =>
    intro b hr ho
    exact ⟨fun heq hw => exec_atomic_some rfl (if_pos heq) hr ho hw,
      fun hne hw => exec_atomic_none rfl (if_neg hne) hr ho hw⟩

section exclusive
variable {s : State} {c : Nat} {aq rl dw : Bool} {rd ra rb : Reg} {h : Half}

/-- LDX whose line is read. -/
theorem exec_ldx_read {s1 s2 t : State} {bs : List Byte} (hr : s.Ready c false [.g ra])
    (hcheck : (s.begun c false [.g ra] [.g rd]).checkAccess c accLdx .refuse
      ((s.begun c false [.g ra] [.g rd]).core c).g[ra].toNat (atomSize dw) (atomSize dw) = (.ok [h], s1))
    (hdrain : s1.drainAll c = (true, s2)) (hread : s2.loadHalves c 14 0 accLdx none [h] = .ok bs t) (hw : t.waits = false) :
    exec (.ldx c aq rl dw rd ra) s = .next (t.after c 14 (fun k => { k.setG rd (BitVec.ofNat 64 (leNat bs)) with
      resv := if k.l2en && (!t.homed h.acc.pa || (k.copy (h.acc.pa / 64)).isSome) then some (h.acc.pa / 64) else none })) := by
  refine congrArg Host.Outcome.next (State.issue_after_of hr ?_ hw rfl)
  dsimp only
  rw [hcheck]
  dsimp only
  rw [hdrain]
  dsimp only
  rw [hread]
  rfl

/-- STX whose address passes its checks: the store of a reserved line, or nothing. -/
theorem exec_stx_checked {s1 t u : State} {v : W64} (hr : s.Ready c false [.g ra, .g rb])
    (hcheck : (s.begun c false [.g ra, .g rb] [.g rd]).checkAccess c accStx .refuse
      ((s.begun c false [.g ra, .g rb] [.g rd]).core c).g[ra].toNat (atomSize dw) (atomSize dw) = (.ok [h], s1))
    (hdrain : s1.drainAll c = (true, t)) {ok : Bool}
    (hok : ((t.core c).l2en && decide ((t.core c).resv = some (h.acc.pa / 64))) = ok)
    (hu : (if ok then (t.commitHalves c accStx [h]).writeLine c h (natLe (atomSize dw) (t.core c).g[rb].toNat) else t) = u)
    (hv : flag (!ok) = v) (hw : u.waits = false) :
    exec (.stx c aq rl dw rd ra rb) s = .next (u.after c 16 (fun k => { k.setG rd v with resv := none })) := by
  refine congrArg Host.Outcome.next (State.issue_after_of hr ?_ hw rfl)
  subst hok hu hv
  dsimp only
  rw [hcheck]
  dsimp only
  rw [hdrain]
  rfl

end exclusive

/-- Settles O24: LDX by its read, STX by whether the reservation covers its line. -/
theorem exclusiveResults : Obligations.ExclusiveResults := by
  intro s c aq rl dw rd ra rb h n
  refine ⟨?ldx, ?stx⟩
  case ldx => exact fun s1 s2 bs t hr hcheck hdrain hread hw => exec_ldx_read hr hcheck hdrain hread hw
  case stx =>
    intro b s1 t hr hcheck hdrain hw k u
    refine ⟨fun hen hresv hu => ?_, fun hno => ?_⟩
    · exact exec_stx_checked (ok := true) hr hcheck hdrain (by rw [hen, hresv]; simp) (if_pos rfl) rfl hu
    · exact exec_stx_checked (ok := false) hr hcheck hdrain (by rcases hno with hno | hno <;> simp [k, hno])
        (if_neg Bool.false_ne_true) rfl hw

end Sys2Proof.Machine
end

section
/-! SUPPORT. The Amber loads and stores (R155, R158, R162), and LOOP (R84). -/

namespace Sys2Proof.Machine

/-! ### Lanes and images -/

/-- Settles O29: the lanes and images are the loads and stores of their rows. -/
theorem amberMemoryResults : Obligations.AmberMemoryResults := by
  intro s c l x vd ga bs t
  refine ⟨?aqld, ?aqst, ?asav, ?arst⟩
  case aqld => exact fun hr h => exec_load rfl hr rfl h (fun _ => rfl)
  case aqst | asav =>
    intro b hr h
    exact exec_store rfl hr rfl h
  case arst =>
    rintro hr ⟨-, hw, hs, s1, hcheck, hread⟩
    refine ⟨fun a ha => congrArg Host.Outcome.next (State.issue_after_of hr ?_ hw rfl),
      fun hnone => congrArg Host.Outcome.next (State.issue_exc hr ?_)⟩
    all_goals
      rw [hcheck]
      dsimp only
      rw [hread]
      dsimp only
    · rw [ha]
      rfl
    · rw [hnone]

/-! ### LOOP -/

theorem fld_high10_ne_zero (imm : BitVec 16) : fld imm 6 10 ≠ 0 ↔ 64 ≤ imm.toNat := by
  have := imm.isLt
  rw [fld, bits]
  omega

theorem four_mul_ofNat (n : Nat) : (4 : W64) * BitVec.ofNat 64 n = BitVec.ofNat 64 (4 * n) := (BitVec.ofNat_mul ..).symm

theorem setWidth32_eq_ofNat (w : W64) : w.setWidth 32 = BitVec.ofNat 32 (w.toNat % 2 ^ 32) := by
  apply BitVec.eq_of_toNat_eq
  simp

theorem setWidth32_eq_zero_iff (w : W64) : w.setWidth 32 = (0 : BitVec 32) ↔ w.toNat % 2 ^ 32 = 0 := by
  rw [← BitVec.toNat_inj, BitVec.toNat_setWidth]
  rfl

/-- Settles O31: the fields and LC decide the trap; the count decides whether the body is entered. -/
theorem loopResults : Obligations.LoopResults := by
  intro s c ra imm b k n le bounds hr
  have hform (h : imm.toNat < 64) (hlc : k.lc = 0) : ¬ (fld imm 6 10 ≠ 0 ∨ k.lc ≠ 0) := by
    rw [fld_high10_ne_zero, not_or]
    exact ⟨Nat.not_le.mpr h, not_not.mpr hlc⟩
  have hle : k.pc + 4 * BitVec.ofNat 64 (imm.toNat % 64 + 1) = le := by rw [four_mul_ofNat]
  refine ⟨fun h => congrArg Host.Outcome.next (State.issue_exc hr (if_pos ?_)), fun hlc him hn => ?_, fun hlc him hn => ?_⟩
  · rw [fld_high10_ne_zero]
    exact h.symm
  · refine congrArg Host.Outcome.next (State.issue_after hr ((if_neg (hform him hlc)).trans
      ((if_neg (mt (setWidth32_eq_zero_iff _).mp hn)).trans ?_)) rfl)
    rw [setWidth32_eq_ofNat]
    dsimp only
    rw [hle]
    rfl
  · refine congrArg Host.Outcome.next (State.issue_stay_of hr ((if_neg (hform him hlc)).trans
      ((if_pos ((setWidth32_eq_zero_iff _).mpr hn)).trans ?_)) ?_)
    · rw [hle]
      have hzero : BitVec.ofNat 32 n = 0 := congrArg (BitVec.ofNat 32) hn
      exact congrArg (fun lc => Done.stay ((b.modCore c (fun k => { k with ls := k.pc + 4, le := le, lc := lc })).retire
        c 2 false (le + 4))) hzero.symm
    · rw [State.retire_waits, State.modCore_waits]
      exact State.begun_waits hr

end Sys2Proof.Machine
end

section
/-! SUPPORT. Cache maintenance, prefetch hints and the TLB instructions (R91, R133, R135, R293). -/

namespace Sys2Proof.Machine

/-! ### Instructions on a line (R91) -/

section line
variable {s b s1 s2 : State} {c : Nat} {a : Acc} {ra : Reg} {f : State → Nat → State} {h : Half}

theorem State.lineOp_dev (hcheck : b.checkHalf c a .ignore (b.core c).g[ra].toNat 1 = (.ok h, s1))
    (hdev : h.acc.dev = true) : b.lineOp c a ra f = .ok s1 := by
  rw [State.lineOp, State.checkLine, hcheck]
  exact if_pos hdev

theorem State.lineOp_line (hcheck : b.checkHalf c a .ignore (b.core c).g[ra].toNat 1 = (.ok h, s1))
    (hdev : h.acc.dev = false)
    (hdrain : s1.drainWhile c (fun e => decide (e.pa / 64 = h.acc.pa / 64)) (s1.core c).sq.length = (true, s2)) :
    b.lineOp c a ra f = .ok (f (s2.commitHalves c a [h]) (h.acc.pa / 64)) := by
  rw [State.lineOp, State.checkLine, hcheck]
  dsimp only
  rw [if_neg (Bool.eq_false_iff.mp hdev), hdrain]

end line

section effects
variable {u : State} {c la : Nat}

theorem State.cleanLine_dirty {l : CLine} (h : (u.core c).copy la = some l) (hm : l.st = .m) :
    u.cleanLine c la = (u.modCore c (fun k => { k with
      l2 := k.l2.map (fun x => if x.la = la then { x with st := .e } else x)
      vc := k.vc.map (fun x => if x.la = la then { x with st := .e } else x) })).slcFill la l.td l.ks l.data true l.poison
        l.stream := by
  simp only [State.cleanLine, h, if_pos hm, beq_iff_eq]
  rfl

theorem State.cleanLine_clean (h : ∀ l, (u.core c).copy la = some l → l.st ≠ .m) : u.cleanLine c la = u := by
  rw [State.cleanLine]
  rcases hc : (u.core c).copy la with _ | l
  · rfl
  · exact if_neg (h l hc)

theorem State.flushLine_held {l : CLine} (wb : Bool) (h : (u.core c).copy la = some l) :
    u.flushLine c la wb = if wb then (u.modCore c (fun k => k.dropLine la)).release c l
      else (u.modCore c (fun k => k.dropLine la)).homeEvn c la := by
  rw [State.flushLine, h]
  rfl

theorem l1i_any_eq_false {ls : List L1Line} (h : ∀ l ∈ ls, l.la ≠ la) : ls.any (fun l => l.la == la) = false := by
  simpa using h

theorem State.flushLine_absent (wb : Bool) (h : (u.core c).copy la = none) (hi : ∀ l ∈ (u.core c).l1i, l.la ≠ la) :
    u.flushLine c la wb = u.modCore c (fun k => k.dropLine la) := by
  rw [State.flushLine, h, l1i_any_eq_false hi]
  rfl

end effects

/-! ### The TLB instructions (R293) -/

theorem tlbDrop_eq (l : List TlbEnt) (reg td : Nat) (page : Option Nat) :
    tlbDrop l reg td page = l.filter (fun e => !(decide (e.regime = reg ∧ e.td = td)
      && page.all (fun va => decide (e.va = va / 2 ^ e.size * 2 ^ e.size)))) := by
  refine List.filter_congr fun e _ => ?_
  cases page <;> simp [Bool.beq_eq_decide_eq, Bool.or_assoc]

theorem wcDrop_eq (l : List WalkEnt) (reg td : Nat) :
    wcDrop l reg td = l.filter (fun e => !decide (e.regime = reg ∧ e.td = td)) :=
  List.filter_congr fun e _ => by simp [Bool.beq_eq_decide_eq]

/-- What an invalidation of a regime and domain leaves: stage-2 tables go with the guest regime. -/
theorem Core.tlbInval_eq (k : Core) (reg td : Nat) (page : Option Nat) : k.tlbInval reg td page = { k with
    tlb := k.tlb.filter (fun e => !(decide (e.regime = reg ∧ e.td = td)
      && page.all (fun va => decide (e.va = va / 2 ^ e.size * 2 ^ e.size))))
    wcache := k.wcache.filter (fun e => !(decide (e.regime = reg ∧ e.td = td)
      || (decide (reg = 1) && decide (e.regime = 1 ∧ e.td = 0)))) } := by
  rw [Core.tlbInval, tlbDrop_eq]
  congr 1
  by_cases h : reg = 1
  · subst h
    rw [if_pos rfl, wcDrop_eq, wcDrop_eq, List.filter_filter]
    exact List.filter_congr fun e _ => by simp [Bool.and_comm]
  · rw [if_neg h, wcDrop_eq]
    simp [h]

/-- The entries that an invalidation drops, in any form. -/
theorem Core.tlbInval_filter (k : Core) {reg td : Nat} {page : Option Nat} {gone : TlbEnt → Bool}
    {goneTable : WalkEnt → Bool}
    (hg : ∀ e, gone e = (decide (e.regime = reg ∧ e.td = td)
      && page.all (fun va => decide (e.va = va / 2 ^ e.size * 2 ^ e.size))))
    (ht : ∀ e, goneTable e = (decide (e.regime = reg ∧ e.td = td)
      || (decide (reg = 1) && decide (e.regime = 1 ∧ e.td = 0)))) :
    k.tlbInval reg td page =
      { k with tlb := k.tlb.filter (fun e => !gone e), wcache := k.wcache.filter (fun e => !goneTable e) } := by
  rw [Core.tlbInval_eq, funext hg, funext ht]

/-- A domain's entries of both regimes of level S. -/
theorem Core.tlbInval_both (k : Core) (n : Nat) : (k.tlbInval 0 n none).tlbInval 1 n none = { k with
    tlb := k.tlb.filter (fun e => !decide ((e.regime = 0 ∨ e.regime = 1) ∧ e.td = n))
    wcache := k.wcache.filter (fun e => !decide ((e.regime = 0 ∨ e.regime = 1) ∧ e.td = n ∨ e.regime = 1 ∧ e.td = 0)) } := by
  rw [Core.tlbInval_eq k 0, Core.tlbInval_eq _ 1]
  refine congrArg₂ (fun tlb wcache => { k with tlb, wcache }) ?_ ?_
  all_goals
    dsimp only
    rw [List.filter_filter]
    refine List.filter_congr fun e _ => Bool.eq_iff_iff.mpr ?_
    simp
    omega

section tlb
variable {s : State} {c met : Nat} {l : Lvl} {reads : List LDest} {f f' : Core → Core} {i : Instr}

theorem exec_tlbOp_illegal (hi : exec i s = .next (s.tlbOp c met l reads f)) (hr : s.Ready c false reads)
    (hl : ((s.begun c false reads []).core c).lvl.num < l.num) :
    exec i s = .next (s.orWait ((s.begun c false reads []).trapped c met illegal)) := by
  rw [hi]
  exact congrArg Host.Outcome.next (State.issue_exc hr (if_pos hl))

theorem exec_tlbOp (hi : exec i s = .next (s.tlbOp c met l reads f)) (hf : ∀ k, f k = f' k) (hpc : ∀ k, (f' k).pc = k.pc)
    (hr : s.Ready c false reads) (hl : l.num ≤ ((s.begun c false reads []).core c).lvl.num) {t : State}
    (hd : (s.begun c false reads []).drainAll c = (true, t)) (hw : t.waits = false) :
    exec i s = .next (t.after c met f') := by
  rw [hi, funext hf]
  refine congrArg Host.Outcome.next (State.issue_after_of hr ((if_neg (Nat.not_lt.mpr hl)).trans ?_) hw (hpc _))
  dsimp only
  rw [hd]

end tlb

/-! ### Prefetch hints (R133, R135) -/

section hint
variable {s : State} {c : Nat} {ra : Reg} {excl stream : Bool} {i : Instr}

/-- A hint that is dropped before its address is translated. -/
theorem exec_hint_off (hi : exec i s = .next (s.hint c ra excl stream)) (hr : s.Ready c false [.g ra])
    (h : ((s.begun c false [.g ra] []).core c).meter = true
      ∨ ((s.begun c false [.g ra] []).core c).pfctl.getLsbD 12 = false) :
    exec i s = .next ((s.begun c false [.g ra] []).after c 1 id) := by
  rw [hi]
  refine congrArg Host.Outcome.next (State.issue_id hr (if_pos ?_) (State.begun_waits hr))
  rcases h with h | h <;> rw [h] <;> simp only [Bool.true_or, Bool.not_false, Bool.or_true]

/-- The translated line takes no prefetch: outside DRAM, on a TO page, or poisoned. -/
def State.dropsHint (t : State) (c : Nat) (x : Xlat) : Bool :=
  !t.homed x.pa || decide (t.paFault x.pa ≠ 0) || x.to1 || x.to2 || t.linePoisoned c (x.pa / 64)

theorem State.dropsHint_iff (t : State) (c : Nat) (x : Xlat) : t.dropsHint c x = true ↔
    t.homed x.pa = false ∨ t.paFault x.pa ≠ 0 ∨ x.to1 = true ∨ x.to2 = true ∨ t.linePoisoned c (x.pa / 64) = true := by
  simp [State.dropsHint, or_assoc]

/-- The state that a hint of core `k` leaves, by the translation of its address. -/
def State.hinted (t : State) (c : Nat) (k : Core) (va : Nat) (excl stream : Bool) : Except XFault Xlat → State
  | .error _ => t
  | .ok x =>
    if t.dropsHint c x then t
    else
      let u := t.commitXlat (some c) 0 (k.regime false) accLoad va x
      if u.linePending (x.pa / 64) then u else u.prefetch c (x.pa / 64) k.td x.ks excl stream

/-- A hint that is translated. -/
theorem exec_hint_on {y : Except XFault Xlat} {t v : State} (hi : exec i s = .next (s.hint c ra excl stream))
    (hr : s.Ready c false [.g ra]) :
    let b := s.begun c false [.g ra] []
    let k := b.core c
    k.meter = false → k.pfctl.getLsbD 12 = true → (k.guest = false ∨ k.hgatp.getLsbD 0 = true) →
    b.lookup (some c) 0 (k.regime false) accLoad k.g[ra].toNat = (y, t) →
    t.hinted c k k.g[ra].toNat excl stream y = v → v.waits = false → exec i s = .next (v.after c 1 id) := by
  intro b k hmeter hen hguest hlook hv hw
  rw [hi]
  have hon : ¬ (k.meter || !k.pfctl.getLsbD 12) = true := by rw [hmeter, hen]; decide
  have hguest' : ¬ (k.guest && decide (k.lvl.num ≤ 1) && !k.hgatp.getLsbD 0) = true := by
    rcases hguest with h | h <;> rw [h] <;> simp
  refine congrArg Host.Outcome.next (State.issue_id hr ((if_neg hon).trans ((if_neg hguest').trans ?_)) hw)
  subst hv
  dsimp only
  rw [hlook]
  cases y with
  | error e => rfl
  | ok x =>
    dsimp only [State.hinted]
    exact (apply_ite Done.ok _ _ _).symm

end hint

/-- Settles O36: the line instructions by what the core holds of the line, the hints by their translation, the TLB
instructions by the entries that each names. -/
theorem cacheTlbResults : Obligations.CacheTlbResults := by
  refine ⟨?line, fun s c ra => ⟨?hint, ?tlb⟩⟩
  case line =>
    intro s c ra b op flushed dropped clean hr
    have hop {i : Instr} {a : Acc} {body : State → Done} {f : State → Nat → State}
        {effect : State → Nat → State → Prop}
        (hi : exec i s = .next (s.issue c 14 false [.g ra] [] body)) (hb : body b = b.lineOp c a ra f)
        (hf : ∀ u la t, effect u la t → f u la = t) : op i a effect := by
      intro h s1 hcheck
      rw [hi]
      refine ⟨fun hdev hw => congrArg Host.Outcome.next (State.issue_id hr (hb.trans (State.lineOp_dev hcheck hdev)) hw),
        fun hdev s2 t hdrain ht hw => congrArg Host.Outcome.next (State.issue_id hr ?_ hw)⟩
      rw [hb, State.lineOp_line hcheck hdev hdrain, hf _ _ _ ht]
    clear_value op
    have hflushed (u : State) (la : Nat) (t : State) : flushed u la t → u.flushLine c la true = t := by
      rintro (⟨l, hl, rfl⟩ | ⟨hnone, hi, rfl⟩)
      · exact State.flushLine_held true hl
      · exact State.flushLine_absent true hnone hi
    have hdropped (u : State) (la : Nat) (t : State) : dropped u la t → u.flushLine c la false = t := by
      rintro (⟨l, hl, rfl⟩ | ⟨hnone, hi, rfl⟩)
      · exact State.flushLine_held false hl
      · exact State.flushLine_absent false hnone hi
    refine ⟨?clean, hop rfl rfl hflushed, ?user, ?inv, ?ic⟩
    case clean =>
      refine hop (f := fun s la => s.cleanLine c la) rfl rfl ?_
      rintro u la t (⟨l, hl, hm, rfl⟩ | ⟨hclean, rfl⟩)
      · exact State.cleanLine_dirty hl hm
      · exact State.cleanLine_clean hclean
    case user =>
      intro hu
      exact congrArg Host.Outcome.next (State.issue_exc hr (if_pos (by rw [hu]; decide)))
    case inv =>
      intro hu
      have hl : ¬ (b.core c).lvl.num < Lvl.s.num := by
        revert hu
        cases (b.core c).lvl <;> decide
      refine hop (f := fun s la => s.flushLine c la (s.core c).guest) rfl (if_neg hl) ?_
      rintro u la t (⟨hg, h⟩ | ⟨hg, h⟩)
      · exact (congrArg (u.flushLine c la) hg).trans (hflushed u la t h)
      · exact (congrArg (u.flushLine c la) hg).trans (hdropped u la t h)
    case ic =>
      refine hop rfl rfl ?_
      rintro u la t ⟨v, rfl, ⟨hany, hnone, rfl⟩ | ⟨hkeep, rfl⟩⟩
      · exact if_pos (by rw [hany, hnone]; rfl)
      · refine if_neg ?_
        rcases hkeep with h | h
        · rw [h, Bool.false_and]
          exact Bool.false_ne_true
        · rw [Bool.and_eq_true, Option.isNone_iff_eq_none]
          exact fun hc => h hc.2
  case hint =>
    intro b k look hint hr
    have hhint {i : Instr} {excl stream : Bool} (hi : exec i s = .next (s.hint c ra excl stream)) : hint i excl stream := by
      refine ⟨exec_hint_off hi hr, fun hmeter hen hguest => ⟨fun f t hlook hw =>
        exec_hint_on hi hr hmeter hen hguest hlook rfl hw, fun x t hlook hw => ?_⟩⟩
      have hdrop := t.dropsHint_iff c x
      refine ⟨fun hd => exec_hint_on hi hr hmeter hen hguest hlook (if_pos (hdrop.mpr hd)) hw, fun hd hpend v hv hvw => ?_,
        fun hd hpend huw => ?_⟩
      · exact exec_hint_on hi hr hmeter hen hguest hlook
          ((if_neg (mt hdrop.mp hd)).trans ((if_neg (Bool.eq_false_iff.mp hpend)).trans hv.symm)) hvw
      · exact exec_hint_on hi hr hmeter hen hguest hlook ((if_neg (mt hdrop.mp hd)).trans (if_pos hpend)) huw
    exact ⟨hhint rfl, hhint rfl, hhint rfl⟩
  case tlb =>
    intro tlb cur tables page
    have htlb {i : Instr} {met : Nat} {l : Lvl} {reads : List LDest} {gone : Core → TlbEnt → Bool}
        {goneTable : Core → WalkEnt → Bool} {f : Core → Core} (hi : exec i s = .next (s.tlbOp c met l reads f))
        (hf : ∀ k, f k = { k with tlb := k.tlb.filter (fun e => !gone k e)
                                  wcache := k.wcache.filter (fun e => !goneTable k e) }) :
        tlb i met l.num reads gone goneTable := fun hr =>
      ⟨exec_tlbOp_illegal hi hr, fun hl t hd hw => exec_tlbOp hi hf (fun _ => rfl) hr hl hd hw⟩
    refine ⟨htlb (l := .s) rfl fun k => ?iva, htlb (l := .s) rfl fun k => ?iall, htlb (l := .h) rfl fun k => ?igva,
      htlb (l := .h) rfl fun k => ?idom⟩
    case iva => exact k.tlbInval_filter (fun _ => rfl) (fun _ => rfl)
    case iall => exact k.tlbInval_filter (fun _ => (Bool.and_true _).symm) (fun _ => rfl)
    case igva =>
      exact k.tlbInval_filter (fun _ => rfl)
        (fun e => by simp only [and_or_left, Bool.decide_or, decide_true, Bool.true_and])
    case idom =>
      rw [fld_low6]
      exact k.tlbInval_both _

end Sys2Proof.Machine
end

section
/-! SUPPORT. The instructions on a block of memory: SHA3F, DCZERO, NPOST, AMRG and NRECV (R80, R91, R93, R168, R169, R181 to
R184, R188, R200). -/

namespace Sys2Proof.Machine

section block
variable {s : State} {c : Nat} {rd ra : Reg} {x : Fin 8}

/-- SHA3F, attached, on a block that is read and written. -/
theorem exec_sha3f_done (hr : s.Ready c false [.g ra]) :
    let b := s.begun c false [.g ra] []
    let va := (b.core c).g[ra].toNat
    va % 8 = 0 → ∀ hl s1 hs s2 got s3 r t,
      b.checkPieces c accLoad .allow (vaPieces va 200) = (.ok hl, s1) →
      s1.checkPieces c accStore .allow (vaPieces va 200) = (.ok hs, s2) →
      s2.loadHalves c 0 0 accLoad none hl = .ok got s3 →
      s3.storeHalves c 0 accStore false false (got.take 200) none hs (keccakBytes (keccakF (keccakLanes (got.take 200))))
        = .ok r t → t.waits = false → (t.core c).detached = false → exec (.sha3f c ra) s = .next (t.after c 40 id) := by
  intro b va hal hl s1 hs s2 got s3 r t hload hstore hread hwrite hw hd
  refine congrArg Host.Outcome.next ((State.issue_after_of (f := fun k => k.raises 0) hr ?_ hw rfl).trans
    (State.after_congr (Core.raises_zero _)))
  dsimp only
  rw [hload]
  dsimp only
  rw [hstore]
  dsimp only
  rw [decide_eq_true hal]
  dsimp only
  rw [hread]
  dsimp only
  rw [hwrite]
  exact longDone_attached hd

/-- DCZERO whose line is stored. -/
theorem exec_dczero_done (hr : s.Ready c false [.g ra]) :
    let b := s.begun c false [.g ra] []
    ∀ h s1 r t, b.checkHalf c accStore .refuse (b.core c).g[ra].toNat 1 = (.ok h, s1) →
      s1.storeHalves c 14 accStore true true [] none
        [{ h with n := 64, acc := { h.acc with pa := h.acc.pa / 64 * 64 } }] (List.replicate 64 0) = .ok r t →
      t.waits = false → exec (.dczero c ra) s = .next (t.after c 14 id) := by
  intro b h s1 r t hcheck hwrite hw
  refine congrArg Host.Outcome.next (State.issue_id hr ?_ hw)
  dsimp only
  rw [hcheck]
  dsimp only
  rw [hwrite]

theorem exec_npost_held (hr : s.Ready c false [.g ra]) (hh : (s.begun c false [.g ra] []).noonHeld c = true) :
    exec (.npost c ra) s = .next ((s.begun c false [.g ra] []).modCore c (fun k => k.brk 7 k.pc)) :=
  congrArg Host.Outcome.next (State.issue_stay_of (writes := []) hr (if_pos hh) (State.begun_waits (writes := []) hr))

end block

/-! ### Mailboxes (R188) -/

theorem eraseIdx_findIdx_append {α : Type} {p : α → Bool} {older younger : List α} {m : α}
    (ho : ∀ y ∈ older, p y = false) (hm : p m = true) : (older ++ m :: younger).eraseIdx ((older ++ m :: younger).findIdx p) = older ++ younger := by
  induction older with
  | nil => simp [List.findIdx_cons, hm]
  | cons y older ih =>
    rw [List.forall_mem_cons] at ho
    simp [List.findIdx_cons, ho.1, ih ho.2]

theorem State.takeMail_eq {s : State} {c td : Nat} {older younger : List Mail} {m : Mail}
    (hbox : s.mailbox c = older ++ m :: younger) (ho : ∀ y ∈ older, y.td ≠ td) (hm : m.td = td) :
    s.takeMail c td = s.setMailbox c (older ++ younger) := by
  rw [State.takeMail, hbox, eraseIdx_findIdx_append (fun y hy => beq_false_of_ne (ho y hy)) (beq_iff_eq.mpr hm)]

theorem find_mail {l older younger : List Mail} {td : Nat} {m : Mail} (hbox : l = older ++ m :: younger)
    (ho : ∀ y ∈ older, y.td ≠ td) (hm : m.td = td) : l.find? (fun m => m.td == td) = some m := by
  rw [List.find?_eq_some_iff_append]
  exact ⟨beq_iff_eq.mpr hm, older, younger, hbox, fun y hy => by simpa using ho y hy⟩

theorem find_mail_none {l : List Mail} {td : Nat} (h : ∀ m ∈ l, m.td ≠ td) : l.find? (fun m => m.td == td) = none := by
  simpa using h

section nrecv
variable {s : State} {c : Nat} {rd ra : Reg}

theorem exec_nrecv_empty (hr : s.Ready c false [.g ra]) :
    let b := s.begun c false [.g ra] [.g rd]
    let va := (b.core c).g[ra].toNat
    (∀ m ∈ b.mailbox c, ¬ m.td = (b.core c).td) →
    (va % 64 = 0 → exec (.nrecv c rd ra) s = .next (b.after c 20 (fun k => k.setG rd 0)))
    ∧ (va % 64 ≠ 0 → exec (.nrecv c rd ra) s = .next (s.orWait (b.trapped c 20 (alignExc va)))) := by
  intro b va hnone
  refine ⟨fun hal => congrArg Host.Outcome.next (State.issue_after hr ?_ rfl),
    fun hal => congrArg Host.Outcome.next (State.issue_exc hr ?_)⟩
  all_goals
    dsimp only
    rw [find_mail_none hnone]
  · exact if_neg (not_not.mpr hal)
  · exact if_pos hal

theorem exec_nrecv_message (hr : s.Ready c false [.g ra]) :
    let b := s.begun c false [.g ra] [.g rd]
    let va := (b.core c).g[ra].toNat
    ∀ younger m older hs s1 r s2, b.mailbox c = older ++ m :: younger → (∀ y ∈ older, ¬ y.td = (b.core c).td) →
      m.td = (b.core c).td → m.bad = false →
      b.checkAccess c accStore .allow va 64 64 = (.ok hs, s1) →
      s1.storeHalves c 20 accStore false false [] none hs (lineBytes m.data 0 64) = .ok r s2 →
      s2.waits = false → s2.mailbox c = b.mailbox c → ∀ t, t = s2.setMailbox c (older ++ younger) → t.waits = false →
      exec (.nrecv c rd ra) s = .next (t.after c 20 (fun k => k.setG rd 1)) := by
  intro b va younger m older hs s1 r s2 hbox ho hm hgood hcheck hwrite _ hkept t ht hw
  refine congrArg Host.Outcome.next (State.issue_after_of hr ?_ hw rfl)
  dsimp only
  rw [find_mail hbox ho hm]
  dsimp only
  rw [hcheck]
  dsimp only
  rw [if_neg (Bool.eq_false_iff.mp hgood), hwrite]
  dsimp only
  rw [State.takeMail_eq (hkept.trans hbox) ho hm, ← ht]
  rfl

end nrecv

/-! ### Posting (R168, R169, R181 to R184) -/

section post
variable {s t : State} {c met : Nat}

theorem State.finish_ok (hw : t.waits = false) : s.orWait (State.finish c met (.ok t)) = t.after c met id := by
  rw [State.after_id]
  exact State.orWait_of _ (by rw [State.finish, State.retire_waits, hw])

/-- What NPOST does with the data of its action (R182 to R184). -/
def State.postData (u : State) (c : Nat) (e : PostEntry) (hd : List Half) (data : List Byte) : Done :=
  let body := actBodyOf e data (hd.head?.map (·.acc))
  let code := u.postRefusal c e.due (u.core c).td body
  if code ≠ 0 then noonRefuse c code u
  else .ok ((u.commitHalves c accStore hd).postAct c e.slot e.due (u.core c).td body)

/-- What NPOST does with an entry that it has read. -/
def State.postRead (t : State) (c : Nat) (e : PostEntry) : Done :=
  if t.entryRefusal e ≠ 0 then noonRefuse c (t.entryRefusal e) t
  else
    match t.entryData c e with
    | (.error x, s) => .exc s x
    | (.ok (_, .exc s x), _) => .exc s x
    | (.ok (_, .stay s), _) => .stay s
    | (.ok (hd, .ok data u), _) => u.postData c e hd data

theorem State.postRead_data {u n : State} {e : PostEntry} {hd : List Half} {data : List Byte}
    (h0 : t.entryRefusal e = 0) (hdata : t.entryData c e = (.ok (hd, .ok data u), n)) :
    t.postRead c e = u.postData c e hd data := by
  rw [State.postRead, if_neg (not_not.mpr h0), hdata]

theorem exec_npost_read {ra : Reg} {hs : List Half} {s1 s2 : State} {bs : List Byte} {d : Done}
    (hr : s.Ready c false [.g ra]) (hh : (s.begun c false [.g ra] []).noonHeld c = false)
    (hcheck : (s.begun c false [.g ra] []).checkAccess c accLoad .allow
      ((s.begun c false [.g ra] []).core c).g[ra].toNat 64 64 = (.ok hs, s1))
    (hread : s1.loadHalves c 8 progNone accLoad none hs = .ok bs s2)
    (hd : (s2.modCore c (fun k => { k with half := none })).postRead c (postEntry bs) = d) :
    exec (.npost c ra) s = .next (s.orWait (State.finish c 8 d)) := by
  subst hd
  refine congrArg Host.Outcome.next ((State.issue_ready hr).trans (congrArg (fun d => s.orWait (State.finish c 8 d)) ?_))
  refine (if_neg (Bool.eq_false_iff.mp hh)).trans ?_
  rw [hcheck]
  dsimp only
  rw [hread]
  rfl

/-- What AMRG does with a descriptor that it has read (R168, R169, R183). -/
def State.mergeRead (t : State) (c : Nat) (x : Fin 8) (bs : List Byte) : Done :=
  let f (o n : Nat) : Nat := leNat ((bs.drop o).take n)
  let td := (t.core c).td
  let mp := t.mergeReg td
  let pa := 64 * fld mp 6 46 + 64 * (f 8 2 % 4096)
  let body : ActBody := .merge pa (t.core c).acc[x] ((f 0x0B 1).testBit 0)
  if 4096 ≤ f 8 2 ∨ 63 < f 0x0A 1 ∨ 1 < f 0x0B 1 ∨ f 0x0C 4 ≠ 0 then noonRefuse c 2 t
  else if mp.getLsbD 0 = false ∨ fld mp 52 12 < f 8 2 ∨ inDram pa = false ∨ t.dramOk (pa + 63) = false then
    noonRefuse c 3 t
  else if t.postRefusal c (f 0 8) td body ≠ 0 then noonRefuse c (t.postRefusal c (f 0 8) td body) t
  else .ok (t.postAct c (f 0x0A 1) (f 0 8) td body)

theorem exec_amrg_read {x : Fin 8} {ga : Reg} {hs : List Half} {s1 : State} {bs : List Byte} {d : Done}
    (hr : s.Ready c false [.a x, .g ga]) (hh : (s.begun c false [.a x, .g ga] []).noonHeld c = false)
    (hcheck : (s.begun c false [.a x, .g ga] []).checkAccess c accLoad .refuse
      ((s.begun c false [.a x, .g ga] []).core c).g[ga].toNat 16 1 = (.ok hs, s1))
    (hread : s1.loadHalves c 8 progNone accLoad none hs = .ok bs t) (hd : t.mergeRead c x bs = d) :
    exec (.amrg c x ga) s = .next (s.orWait (State.finish c 8 d)) := by
  subst hd
  refine congrArg Host.Outcome.next ((State.issue_ready hr).trans (congrArg (fun d => s.orWait (State.finish c 8 d)) ?_))
  refine (if_neg (Bool.eq_false_iff.mp hh)).trans ?_
  rw [hcheck]
  dsimp only
  rw [hread]
  rfl

end post

/-- Settles O37: each instruction by what it has read and by the first code that applies. -/
theorem blockInstructionResults : Obligations.BlockInstructionResults := by
  intro s c rd ra x b va refused
  refine ⟨fun hr => exec_sha3f_done hr, fun hr => exec_dczero_done hr, exec_npost_held, ?npost, ?nrecv, ?amrg⟩
  case npost =>
    rintro hr hh hs s1 bs s2 hcheck hread - t e rfl rfl
    have hexec {d : Done} := exec_npost_read (d := d) hr hh hcheck hread
    refine ⟨fun hcode => hexec (if_pos hcode), ?_⟩
    intro h0 hd data u n hdata _ body hbody
    have hpost := State.postRead_data h0 hdata
    subst hbody
    refine ⟨fun hcode => hexec (hpost.trans (if_pos hcode)), fun hcode v hv hw => ?_⟩
    rw [hexec (hpost.trans (if_neg (not_not.mpr hcode))), State.finish_ok (hv ▸ hw), hv]
  case nrecv =>
    intro b va mine hr
    exact ⟨fun hnone => (exec_nrecv_empty hr hnone).1, fun hnone => (exec_nrecv_empty hr hnone).2, exec_nrecv_message hr⟩
  case amrg =>
    intro b hr hh hs s1 bs t hcheck hread _ f td mp pa body wellFormed inTable
    have hexec {d : Done} := exec_amrg_read (d := d) hr hh hcheck hread
    have hform : wellFormed ↔ ¬ (4096 ≤ f 8 2 ∨ 63 < f 0x0A 1 ∨ 1 < f 0x0B 1 ∨ f 0x0C 4 ≠ 0) := by
      simp only [wellFormed]; omega
    have htable : inTable ↔
        ¬ (mp.getLsbD 0 = false ∨ fld mp 52 12 < f 8 2 ∨ inDram pa = false ∨ t.dramOk (pa + 63) = false) := by
      simp only [inTable, not_or, Bool.not_eq_false, Nat.not_lt]
    refine ⟨fun hw => hexec (if_pos ?_), fun hw ht => hexec ((if_neg (hform.mp hw)).trans (if_pos ?_)), fun hw ht hcode =>
      hexec ((if_neg (hform.mp hw)).trans ((if_neg (htable.mp ht)).trans (if_pos hcode))), fun hw ht hcode v hv hvw => ?_⟩
    · exact not_not.mp (mt hform.mpr hw)
    · exact not_not.mp (mt htable.mpr ht)
    · rw [hexec ((if_neg (hform.mp hw)).trans ((if_neg (htable.mp ht)).trans (if_neg (not_not.mpr hcode)))),
        State.finish_ok (hv ▸ hvw), hv]

end Sys2Proof.Machine
end

section
/-! SUPPORT. The store queue: what enters it and what it forwards (R101). -/

namespace Sys2Proof.Machine

/-! ### What a store changes and leaves -/

/-- From `s` to `t` core `c` queues the stores `es` behind those already there and keeps its registers and its program
counter, and nothing outside the core changes: its fetch and prefetch state and its cycle counter may. -/
structure State.Queues (c : Nat) (es : List SqEntry) (s t : State) : Prop where
  sq : (t.core c).sq = (s.core c).sq ++ es
  g : (t.core c).g = (s.core c).g
  v : (t.core c).v = (s.core c).v
  pc : (t.core c).pc = (s.core c).pc
  dram : t.dram = s.dram
  sram : t.sram = s.sram
  slcRam : t.slcRam = s.slcRam
  blocks : t.blocks = s.blocks
  others : ∀ d, d ≠ c → t.core d = s.core d

section queues
variable {c : Nat} {s t u : State} {es : List SqEntry} {k : Core}

theorem State.Queues.refl (c : Nat) (s : State) : State.Queues c [] s s :=
  ⟨(List.append_nil _).symm, rfl, rfl, rfl, rfl, rfl, rfl, rfl, fun _ _ => rfl⟩

theorem State.Queues.trans (h : State.Queues c es s t) (g : State.Queues c [] t u) : State.Queues c es s u :=
  ⟨g.sq.trans ((List.append_nil _).trans h.sq), g.g.trans h.g, g.v.trans h.v, g.pc.trans h.pc, g.dram.trans h.dram,
    g.sram.trans h.sram, g.slcRam.trans h.slcRam, g.blocks.trans h.blocks,
    fun d hd => (g.others d hd).trans (h.others d hd)⟩

theorem State.Queues.setCore (hsq : k.sq = (s.core c).sq ++ es) (hg : k.g = (s.core c).g) (hv : k.v = (s.core c).v)
    (hpc : k.pc = (s.core c).pc) : State.Queues c es s (s.setCore c k) where
  sq := by rw [State.core_setCore, hsq]
  g := by rw [State.core_setCore, hg]
  v := by rw [State.core_setCore, hv]
  pc := by rw [State.core_setCore, hpc]
  dram := rfl
  sram := rfl
  slcRam := rfl
  blocks := rfl
  others _ hd := State.core_setCore_ne s k hd

/-- A change of the core that leaves its queue, its registers and its program counter. -/
theorem State.Queues.setCore_nil (hsq : k.sq = (s.core c).sq) (hg : k.g = (s.core c).g) (hv : k.v = (s.core c).v)
    (hpc : k.pc = (s.core c).pc) : State.Queues c [] s (s.setCore c k) :=
  .setCore (hsq.trans (List.append_nil _).symm) hg hv hpc

end queues

/-- Training the stream detector changes its trackers alone (R134). -/
theorem Core.trainStream_eq (k : Core) (la td ks : Nat) (store : Bool) :
    ∃ ts, k.trainStream la td ks store = { k with trackers := ts } := by
  unfold Core.trainStream
  split
  · exact ⟨k.trackers, rfl⟩
  · split <;> exact ⟨_, rfl⟩

theorem State.trainMiss_queues_nil (s : State) (c la td ks : Nat) (store : Bool) :
    State.Queues c [] s (s.trainMiss c la td ks store) := by
  unfold State.trainMiss
  dsimp only
  split
  · obtain ⟨ts, hts⟩ := (s.core c).trainStream_eq la td ks store
    rw [hts]
    exact .setCore_nil rfl rfl rfl rfl
  · exact .refl c s

theorem State.flushFetch_queues_nil (s : State) (c pa : Nat) : State.Queues c [] s (s.flushFetch c pa) := by
  unfold State.flushFetch
  dsimp only
  split
  · exact .setCore_nil rfl rfl rfl rfl
  · exact .refl c s

/-! ### What enters the queue -/

/-- The entry that half `h` of a store with the bytes `bs` leaves in the store queue of core `k`. -/
def Core.storeEntry (k : Core) (td : Nat) (h : Half) (bs : List Byte) (zero : Bool) (key : Option NKey) : SqEntry where
  pa := h.acc.pa
  bytes := bs
  td := td
  ks := h.acc.ks
  zero := zero
  tord := key
  pc := k.pc + 4
  old := false

/-- A store outside the data window enters the queue, and does nothing else that a register or another unit shows. -/
theorem State.pushStore_queues (s : State) (c td : Nat) (h : Half) (bs : List Byte) (zero : Bool) (key : Option NKey)
    (hwin : h.acc.win = false) :
    State.Queues c [(s.core c).storeEntry td h bs zero key] s (s.pushStore c td h bs zero key) := by
  unfold State.pushStore
  dsimp only
  rw [if_neg (Bool.eq_false_iff.mp hwin)]
  have hpush : State.Queues c [(s.core c).storeEntry td h bs zero key] s
      (s.modCore c (fun k => k.pushStores [k.storeEntry td h bs zero key])) := .setCore rfl rfl rfl rfl
  refine .trans (hpush.trans ?_) (State.flushFetch_queues_nil _ c h.acc.pa)
  split
  · exact State.trainMiss_queues_nil ..
  · exact .refl ..

/-! ### The halves of a store -/

/-- The translations of an access leave the registers of every core, its partial access among them. -/
theorem State.commitHalves_half (s : State) (c : Nat) (a : Acc) (hs : List Half) (d : Nat) :
    ((s.commitHalves c a hs).core d).half = (s.core d).half :=
  (congrArg Core.half ((State.commitHalves_spares (.refl (fun _ => True) s) c a hs).core d trivial) :)

/-- Halves of ordinary memory all enter the store queue, and take no Noon key. -/
theorem scatter_plain (c td met : Nat) (fin : Bool) (hs : List Half) (past bs : List Byte) (key : Option NKey)
    (s : State) (hplain : ∀ h ∈ hs, 0 < h.n ∧ h.acc.dev = false ∧ h.acc.tord = false) :
    scatter c td met false fin hs 0 past bs key s = .ok [] (State.pushHalves c td hs bs s) := by
  induction hs generalizing past bs key s with
  | nil => rfl
  | cons h t ih =>
    obtain ⟨hn, hdev, htord⟩ := hplain h List.mem_cons_self
    unfold scatter
    rw [if_neg (Nat.not_le.mpr hn), hdev, htord]
    exact ih _ _ _ _ (fun x hx => hplain x (List.mem_cons_of_mem h hx))

/-- A store of ordinary memory for which the queue has room only enters it. -/
theorem State.storeHalves_plain (s : State) (c met : Nat) (a : Acc) (fin : Bool) (hs : List Half) (bs : List Byte)
    (hplain : ∀ h ∈ hs, 0 < h.n ∧ h.acc.dev = false ∧ h.acc.tord = false) (hhalf : (s.core c).half = none)
    (hroom : (s.core c).sq.length + hs.length ≤ 96) :
    s.storeHalves c met a false fin [] none hs bs =
      .ok [] (State.pushHalves c ((s.commitHalves c a hs).core c).td hs bs (s.commitHalves c a hs)) := by
  have htord : hs.any (fun h => h.acc.tord) = false :=
    List.any_eq_false.mpr (fun h hh => Bool.eq_false_iff.mp (hplain h hh).2.2)
  unfold State.storeHalves
  rw [htord, Bool.false_and, if_neg Bool.false_ne_true]
  dsimp only
  rw [if_pos (Nat.sub_eq_zero_of_le hroom)]
  dsimp only
  rw [State.commitHalves_half, hhalf]
  exact scatter_plain c _ met fin hs [] bs none _ hplain

/-! ### What a load reads -/

theorem overlaps_of_covers {a n b m : Nat} (hm : 0 < m) (hlo : a ≤ b) (hhi : b + m ≤ a + n) :
    overlaps a n b m = true := by
  simp only [overlaps, Bool.and_eq_true, decide_eq_true_eq]
  omega

/-- Searched from the youngest, the queue gives the entry that has the property and only younger ones without it. -/
theorem find?_reverse_eq_youngest {α : Type} {p : α → Bool} (older : List α) {e : α} {younger : List α}
    (he : p e = true) (hy : ∀ y ∈ younger, p y = false) : (older ++ e :: younger).reverse.find? p = some e := by
  have hnone : younger.reverse.find? p = none :=
    List.find?_eq_none.mpr (fun y hm => Bool.eq_false_iff.mp (hy y (List.mem_reverse.mp hm)))
  rw [List.reverse_append, List.reverse_cons, List.append_assoc, List.find?_append, hnone]
  exact List.find?_cons_of_pos he

section load
variable {s : State} {c td prog : Nat} {h : Half}

/-- The youngest queued store that overlaps a load and covers it forwards its bytes (R101). -/
theorem State.readHalf_forwards {e : SqEntry}
    (hfind : (s.core c).sq.reverse.find? (fun e => overlaps e.pa e.bytes.length h.acc.pa h.n) = some e)
    (hlo : e.pa ≤ h.acc.pa) (hhi : h.acc.pa + h.n ≤ e.pa + e.bytes.length) :
    s.readHalf c td prog h = .ok ((e.bytes.drop (h.acc.pa - e.pa)).take h.n) s := by
  unfold State.readHalf
  dsimp only
  rw [hfind]
  exact if_pos ⟨hlo, hhi⟩

/-- A load that no queued store overlaps reads its line. -/
theorem State.readHalf_reads {bs : List Byte} {t : State}
    (hnone : ∀ e ∈ (s.core c).sq, overlaps e.pa e.bytes.length h.acc.pa h.n = false)
    (hread : s.readLine c td h = (some (bs, false), t)) : s.readHalf c td prog h = .ok bs t := by
  have hfind : (s.core c).sq.reverse.find? (fun e => overlaps e.pa e.bytes.length h.acc.pa h.n) = none :=
    List.find?_eq_none.mpr (fun e he => Bool.eq_false_iff.mp (hnone e (List.mem_reverse.mp he)))
  unfold State.readHalf
  dsimp only
  rw [hfind, hread]
  exact if_neg Bool.false_ne_true

/-- The boot SRAM has no home (R127). -/
theorem State.homed_sram {pa : Nat} (hpa : inSram pa = true) : s.homed pa = false := by
  have hdram : inDram pa = false := by
    simp only [inSram, inDram, Bool.and_eq_true, decide_eq_true_eq, decide_eq_false_iff_not] at hpa ⊢
    omega
  rw [State.homed, hdram, Bool.false_and]

theorem State.readLine_sram (hpa : inSram h.acc.pa = true) :
    s.readLine c td h = (some (s.sram.read (h.acc.pa - 0xA001000000000) h.n, false), s) := by
  unfold State.readLine
  dsimp only
  rw [State.homed_sram hpa, State.readPa, if_pos hpa]
  rfl

end load

theorem Mem.read_eq_map (m : Mem) (a n : Nat) : m.read a n = (List.range n).map (fun i => m.byte (a + i)) := by
  induction n generalizing a with
  | zero => rfl
  | succ n ih =>
    rw [Mem.read, ih, List.range_succ_eq_map, List.map_cons, List.map_map]
    simp only [Function.comp_def, Nat.add_zero, Nat.succ_eq_add_one, Nat.add_comm, Nat.add_left_comm]

/-- Settles O22: a store of ordinary memory only enters the queue of its core, at its end; a load finds there the
youngest store that overlaps it, or none and reads its line. -/
theorem storeQueueRules : Obligations.StoreQueueRules := by
  refine ⟨?store, ?load⟩
  case store =>
    intro s c hs bs hplain hhalf hroom s1
    refine ⟨⟨[], State.storeHalves_plain s c 2 accStore true hs bs hplain hhalf hroom⟩, fun h _ hwin => ?_⟩
    obtain ⟨hsq, hg, hv, hpc, hdram, hsram, hslc, hblocks, hothers⟩ :=
      State.pushStore_queues s1 c (s1.core c).td h (bs.take h.n) false none hwin
    exact ⟨hsq, hg, hv, hpc, hdram, hsram, hslc, hblocks, hothers⟩
  case load =>
    intro s c td prog h ov
    refine ⟨fun older e younger hsq hyounger hn hlo hhi => ?forward, fun hnone hpa => ?read⟩
    case forward =>
      have he : ov e = true := overlaps_of_covers hn hlo hhi
      exact State.readHalf_forwards (hsq ▸ find?_reverse_eq_youngest older he hyounger) hlo hhi
    case read =>
      rw [State.readHalf_reads hnone (State.readLine_sram hpa), Mem.read_eq_map]

end Sys2Proof.Machine
end

section
/-! SUPPORT. Coherence: a request at its home, the answers of holders and owners, the acknowledgement of the requester,
releases, uncached accesses and way masks (R136 to R138, R141, R144). -/

namespace Sys2Proof.Machine

/-! ### A request at its home (R136, R138) -/

/-- The grant that a demand request is given. -/
def HReq.grant (q : HReq) (st : Mesi) (fwd : Option Nat) (inv : List Nat) (d : Line) (p : Bool) : Grant :=
  { kind := q.kind, core := q.core, td := q.td, ks := q.ks, stream := q.stream, pf := false, inv := inv, fwd := fwd,
    st := st, data := d, poison := p }

/-- The data that the home supplies for a request that finds no owner: none for RDZ. -/
def State.requestData (s : State) (q : HReq) : (Line × Bool) × State :=
  if q.kind = .rdz then ((0, false), s) else s.homeData q.la q.td q.ks q.stream

section home
variable {s t : State} {q : HReq} {e : DirEnt} {d : Line} {p : Bool}

theorem State.homeRequest_held (hl : s.homeLost q.la = false) (hh : s.homeHolds q.la = true) :
    s.homeRequest q false = s.modBlock (s.home q.la) (fun x => { x with held := x.held ++ [q] }) := by
  simp only [State.homeRequest, hl, hh, if_true, Bool.false_eq_true, if_false]

theorem State.homeRequest_miss (hl : s.homeLost q.la = false) (hh : s.homeHolds q.la = false)
    (he : (s.block (s.home q.la)).dirFind q.la = none) : s.homeRequest q false = s.homeStart q false := by
  simp only [State.homeRequest, hl, hh, he, Bool.false_eq_true, if_false]

theorem State.homeRequest_busy (hl : s.homeLost q.la = false) (hh : s.homeHolds q.la = false)
    (he : (s.block (s.home q.la)).dirFind q.la = some e) (hb : e.busy ≠ none) :
    s.homeRequest q false = s.modBlock (s.home q.la) (fun x => { x with queue := x.queue ++ [q] }) := by
  simp only [State.homeRequest, hl, hh, he, Bool.false_eq_true, if_false, if_pos (Option.isSome_iff_ne_none.mpr hb)]

theorem State.homeRequest_idle (hl : s.homeLost q.la = false) (hh : s.homeHolds q.la = false)
    (he : (s.block (s.home q.la)).dirFind q.la = some e) (hb : e.busy = none) :
    s.homeRequest q false = s.homeStart q false := by
  simp only [State.homeRequest, hl, hh, he, hb, Option.isSome_none, Bool.false_eq_true, if_false]

/-- No entry: the line is granted from the home's data, to an ordinary reader exclusive. -/
theorem State.homeStart_miss (he : (s.block (s.home q.la)).dirFind q.la = none) (hd : s.requestData q = ((d, p), t)) :
    s.homeStart q false = t.dirAlloc q.la { DirEnt.reset with
      la := q.la, busy := some (q.grant (if q.kind = .rds then (if q.tord then .s else .e) else .m) none [] d p) } := by
  have hdata : (if q.kind ≠ .rdz then s.homeData q.la q.td q.ks q.stream else ((0, false), s)) = ((d, p), t) := by
    rw [ite_not]; exact hd
  simp only [State.homeStart, he]
  rw [hdata]
  rfl

/-- An owned line is forwarded to its owner. -/
theorem State.homeStart_owned (he : (s.block (s.home q.la)).dirFind q.la = some e) (hx : e.x = true) :
    s.homeStart q false = s.putDir (s.home q.la) { e with
      busy := some (q.grant (if q.kind = .rds then .s else .m) e.ids.head? [] 0 false) } := by
  simp only [State.homeStart, he, hx, if_true]
  rfl

/-- A shared line is read from the home. -/
theorem State.homeStart_shared (he : (s.block (s.home q.la)).dirFind q.la = some e) (hx : e.x = false)
    (hk : q.kind = .rds) (hd : s.requestData q = ((d, p), t)) :
    s.homeStart q false = t.putDir (s.home q.la) { e with age := 0, busy := some (q.grant .s none [] d p) } := by
  have hdata : s.homeData q.la q.td q.ks q.stream = ((d, p), t) := by
    rwa [State.requestData, if_neg (by rw [hk]; decide)] at hd
  simp only [State.homeStart, he, hx, Bool.false_eq_true, if_false, if_pos hk, hdata]
  rfl

/-- A shared line that is taken exclusive awaits the invalidation of the other holders. -/
theorem State.homeStart_taken (he : (s.block (s.home q.la)).dirFind q.la = some e) (hx : e.x = false)
    (hk : q.kind = .rdx ∨ q.kind = .rdz ∨ q.kind = .upg ∧ q.core ∉ e.holders) (hd : s.requestData q = ((d, p), t)) :
    s.homeStart q false = t.putDir (s.home q.la) { e with
      age := 0, busy := some (q.grant .m none (e.holders.filter (· != q.core)) d p) } := by
  simp only [State.homeStart, he, hx, Bool.false_eq_true, if_false]
  rw [State.requestData] at hd
  rcases hk with hk | hk | ⟨hk, hc⟩
  · rw [if_neg (by rw [hk]; decide)] at hd
    simp only [hk, hd, reduceCtorEq, if_false, HReq.grant]
  · rw [if_pos hk] at hd
    cases hd
    simp only [hk, reduceCtorEq, if_false, HReq.grant]
  · rw [if_neg (by rw [hk]; decide)] at hd
    have hcon : e.holders.contains q.core = false := by simpa using hc
    simp only [hk, hcon, hd, reduceCtorEq, if_false, HReq.grant]

/-- A holder that upgrades its copy keeps its own data. -/
theorem State.homeStart_upgrade {l : CLine} (he : (s.block (s.home q.la)).dirFind q.la = some e) (hx : e.x = false)
    (hk : q.kind = .upg) (hc : q.core ∈ e.holders) (hl : (s.core q.core).copy q.la = some l) :
    s.homeStart q false = s.putDir (s.home q.la) { e with
      age := 0, busy := some (q.grant .m none (e.holders.filter (· != q.core)) l.data l.poison) } := by
  have hcon : e.holders.contains q.core = true := by simpa using hc
  simp only [State.homeStart, he, hx, Bool.false_eq_true, if_false, hk, hcon, hl, Option.map_some, reduceCtorEq,
    HReq.grant]

end home

/-- What a request meets at a home that is not lost: it is held, queued, or starts with the grant of its row (R138). -/
theorem State.homeRequest_outcomes {s : State} {i : Instr} {q : HReq} (hi : exec i s = .next (s.homeRequest q false))
    (hl : s.homeLost q.la = false) :
    let h := s.home q.la
    (s.homeHolds q.la = true → exec i s = .next (s.modBlock h (fun x => { x with held := x.held ++ [q] })))
    ∧ (s.homeHolds q.la = false →
      ((s.block h).dirFind q.la = none → ∀ d p t, s.requestData q = ((d, p), t) →
        exec i s = .next (t.dirAlloc q.la { DirEnt.reset with
          la := q.la, busy := some (q.grant (if q.kind = .rds then (if q.tord then .s else .e) else .m) none [] d p) }))
      ∧ ∀ e, (s.block h).dirFind q.la = some e →
        (e.busy ≠ none → exec i s = .next (s.modBlock h (fun x => { x with queue := x.queue ++ [q] })))
        ∧ (e.busy = none → e.x = true → exec i s = .next (s.putDir h { e with
            busy := some (q.grant (if q.kind = .rds then .s else .m) e.ids.head? [] 0 false) }))
        ∧ (e.busy = none → e.x = false → q.kind = .rds → ∀ d p t, s.requestData q = ((d, p), t) →
          exec i s = .next (t.putDir h { e with age := 0, busy := some (q.grant .s none [] d p) }))
        ∧ (e.busy = none → e.x = false → q.kind = .rdx ∨ q.kind = .rdz ∨ q.kind = .upg ∧ q.core ∉ e.holders →
          ∀ d p t, s.requestData q = ((d, p), t) → exec i s = .next (t.putDir h { e with
            age := 0, busy := some (q.grant .m none (e.holders.filter (· != q.core)) d p) }))) := by
  rw [hi]
  refine ⟨fun hh => congrArg _ (State.homeRequest_held hl hh),
    fun hh => ⟨fun he d p t hd => congrArg _ ?_, fun e he => ?_⟩⟩
  · exact (State.homeRequest_miss hl hh he).trans (State.homeStart_miss he hd)
  · refine ⟨fun hb => congrArg _ (State.homeRequest_busy hl hh he hb), fun hb hx => congrArg _ ?_,
      fun hb hx hk d p t hd => congrArg _ ?_, fun hb hx hk d p t hd => congrArg _ ?_⟩
    · exact (State.homeRequest_idle hl hh he hb).trans (State.homeStart_owned he hx)
    · exact (State.homeRequest_idle hl hh he hb).trans (State.homeStart_shared he hx hk hd)
    · exact (State.homeRequest_idle hl hh he hb).trans (State.homeStart_taken he hx hk hd)

section request
variable {s : State} {c la : Nat} (td ks : Nat) {tord : Bool} (stream : Bool)

theorem exec_rds (tord : Bool) (hm : s.mayRequest c la = true) (hc : (s.core c).copy la = none) :
    exec (.rds c la td ks tord stream) s =
      .next (s.homeRequest { HReq.reset with kind := .rds, core := c, la, td, ks, tord, stream } false) :=
  congrArg Host.Outcome.next (if_neg (by simp [hm, hc]))

theorem exec_rdx (hm : s.mayRequest c la = true) (hc : (s.core c).copy la = none) (ht : tord = false) :
    exec (.rdx c la td ks tord stream) s =
      .next (s.homeRequest { HReq.reset with kind := .rdx, core := c, la, td, ks, stream } false) :=
  congrArg Host.Outcome.next (if_neg (by simp [hm, hc, ht]))

theorem exec_rdz (hm : s.mayRequest c la = true) (hc : (s.core c).copy la = none) :
    exec (.rdz c la td ks) s = .next (s.homeRequest { HReq.reset with kind := .rdz, core := c, la, td, ks } false) :=
  congrArg Host.Outcome.next (if_neg (by simp [hm, hc]))

theorem exec_upg {l : CLine} (hm : s.mayRequest c la = true) (hc : (s.core c).copy la = some l) (hs : l.st = .s) :
    exec (.upg c la) s =
      .next (s.homeRequest { HReq.reset with kind := .upg, core := c, la, td := l.td, ks := l.ks } false) := by
  change execUpg c la s = _
  rw [execUpg, hc]
  exact congrArg Host.Outcome.next (if_neg (by simp [hm, hs]))

end request

/-! ### The answers (R136 to R138, R141) -/

section answers
variable {s : State} {c la : Nat} {g : Grant}

theorem exec_invalidation (hup : s.up = true) (hg : s.grantOf la = some g) (hc : c ∈ g.inv) :
    exec (.invalidation c la) s =
      .next ((s.modCore c (fun k => k.dropLine la)).setGrant la { g with inv := g.inv.filter (· != c) }) := by
  change execInvalidation c la s = _
  have hg' : (s.modCore c (fun k => k.dropLine la)).grantOf la = some g := hg
  simp [execInvalidation, hg, hup, hc, State.invalidate, hg']

theorem exec_forwardExclusive (hup : s.up = true) (hg : s.grantOf la = some g) (hf : g.fwd = some c)
    (hk : g.kind ≠ .rds) :
    exec (.forwardExclusive c la) s = .next (s.forward la true) := by
  change execForwardExclusive c la s = _
  simp [execForwardExclusive, hg, hup, hf, hk]

theorem exec_forwardShared (hup : s.up = true) (hg : s.grantOf la = some g) (hf : g.fwd = some c) (hk : g.kind = .rds) :
    exec (.forwardShared c la) s = .next (s.forward la false) := by
  change execForwardShared c la s = _
  simp [execForwardShared, hg, hup, hf, hk]

/-- The grant once its forward is answered with a copy. -/
def Grant.answered (g : Grant) (l : CLine) : Grant :=
  { g with fwd := none, data := if g.kind = .rdz then 0 else l.data, poison := g.kind != .rdz && l.poison }

/-- The owner's core, its copy of the line kept in S. -/
def Core.shareLine (k : Core) (la : Nat) : Core :=
  let share := fun (x : CLine) => if x.la = la then { x with st := .s } else x
  { k with l2 := k.l2.map share, vc := k.vc.map share, sb := k.sb.map share }

theorem State.forward_exclusive {l : CLine} (hg : s.grantOf la = some g) (hf : g.fwd = some c)
    (hl : (s.core c).copy la = some l) :
    s.forward la true = (s.modCore c (fun k => k.dropLine la)).setGrant la (g.answered l) := by
  simp only [State.forward, hg, hf, hl, if_true]
  rfl

theorem State.forward_shared {l : CLine} (hg : s.grantOf la = some g) (hf : g.fwd = some c)
    (hl : (s.core c).copy la = some l) :
    s.forward la false = (if l.st = .m then
      (s.modCore c (fun k => k.shareLine la)).slcFill la l.td l.ks l.data true l.poison l.stream
      else s.modCore c (fun k => k.shareLine la)).setGrant la (g.answered l) := by
  simp only [State.forward, hg, hf, hl, Bool.false_eq_true, if_false, beq_iff_eq]
  rfl

theorem exec_grantAcknowledgement {e : DirEnt} (hup : s.up = true) (hc : g.core = c) (hinv : g.inv = [])
    (hf : g.fwd = none) (he : (s.block (s.home la)).dirFind la = some e) (hb : e.busy = some g) :
    exec (.grantAcknowledgement c la) s = .next (
      let t := (s.putDir (s.home la) (if g.st = .s then { ({ e with x := false } : DirEnt).addHolder c with busy := none }
        else { e with x := true, ids := [c], vec := none, busy := none })).modCore c
          (fun k => { k.dropLine la with resv := k.resv, lost := k.lost })
      let line : CLine :=
        { la, way := 0, age := if g.stream then 3 else 1, st := g.st, stream := g.stream, poison := g.poison,
          locked := false, td := g.td, ks := g.ks, data := g.data }
      (if g.pf then t.sbInstall c line else t.l2Install c line (t.l2Ways c)).nextQueued la) := by
  have hg : s.grantOf la = some g := by rw [State.grantOf, he]; exact hb
  change execGrantAcknowledgement c la s = _
  subst hc
  simp [execGrantAcknowledgement, hg, hup, State.ackGrant, he, hb, hinv, hf]

end answers

/-! ### Releases and uncached accesses (R132, R138, R144) -/

section release
variable {s : State} {c la : Nat} {l : CLine} {rest : List CLine}

/-- The oldest entry of the victim cache leaves, with data where it is M. -/
theorem State.vcRelease_oldest {dirty : Bool} (hup : s.up = true) (hp : s.corePresent c = true) (hon : s.on c = true)
    (hvc : (s.core c).vc = l :: rest) (hla : l.la = la) (hd : (l.st = .m) = (dirty = true)) :
    s.vcRelease c la dirty =
      (s.modCore c (fun k => { k with vc := rest, resv := if k.resv = some la then none else k.resv })).release c l := by
  simp only [State.vcRelease, hvc]
  exact if_neg (by simp [hup, hp, hon, hla, hd])

end release

/-- Settles O40: a request by what it meets at its home; an answer by the grant that awaits it. -/
theorem coherenceResults : Obligations.CoherenceResults := by
  refine ⟨fun s c la td ks tord stream => ?requests,
    fun s c la td ks => ⟨fun g hup hg => ?grant, ?release, ?crd, ?cwr, ?mask⟩⟩
  case requests =>
    intro h starts req hm
    refine ⟨fun hc => ⟨?rds, fun ht => ?rdx, ?rdz⟩, fun l hc hs => ⟨?upg, ?upgrade⟩⟩
    case rds => exact (State.homeRequest_outcomes (exec_rds td ks stream tord hm hc) :)
    case rdx => exact (State.homeRequest_outcomes (exec_rdx td ks stream hm hc ht) :)
    case rdz => exact (State.homeRequest_outcomes (exec_rdz td ks hm hc) :)
    case upg => exact (State.homeRequest_outcomes (exec_upg hm hc hs) :)
    case upgrade =>
      intro e hl hh he hb hx hce
      let q : HReq := { HReq.reset with kind := .upg, core := c, la, td := l.td, ks := l.ks }
      rw [exec_upg hm hc hs, State.homeRequest_idle (q := q) hl hh he hb,
        State.homeStart_upgrade (q := q) he hx rfl hce hc]
      rfl
  case grant =>
    refine ⟨exec_invalidation hup hg, fun hf l hl => ⟨fun hk => ?_, fun hk hst => ?_, fun hk hst => ?_⟩,
      fun hc hinv hf e he hb => exec_grantAcknowledgement hup hc hinv hf he hb⟩
    · rw [exec_forwardExclusive hup hg hf hk, State.forward_exclusive hg hf hl]; rfl
    · rw [exec_forwardShared hup hg hf hk, State.forward_shared hg hf hl, if_neg hst]; rfl
    · rw [exec_forwardShared hup hg hf hk, State.forward_shared hg hf hl, if_pos hst]; rfl
  case release =>
    intro hup hp hon l rest hvc hla t
    refine ⟨fun hm => congrArg Host.Outcome.next ?_, fun hm => congrArg Host.Outcome.next ?_⟩
    · rw [State.vcRelease_oldest hup hp hon hvc hla (by simp [hm]), State.release, if_pos hm, State.homeWb, hla]
    · rw [State.vcRelease_oldest hup hp hon hvc hla (by simp [hm]), State.release, if_neg hm, hla]
  case crd => exact fun hup hh hd hok hf => congrArg Host.Outcome.next (if_neg (by simp [hup, hh, hd, hok, hf]))
  case cwr =>
    intro pa bytes hup hh hd hok hf hne hlen
    exact congrArg Host.Outcome.next (if_neg (by simp [hup, hh, hd, hok, hf, hne, hlen]))
  case mask => exact fun mask hup htd => congrArg Host.Outcome.next (if_neg (by simp [hup, htd]))

end Sys2Proof.Machine
end

section
/-! SUPPORT. Flits and retrains of the links, leaks of the buckets, and the loss of state by the level that contains it
(R147, R216, R217, R229, R230, R234, R235). -/

namespace Sys2Proof.Machine

/-! ### Flits and retrains of the die links (R217, R234) -/

section bucket
variable {b : Bucket} {tick depth window : Nat}

theorem Bucket.add_within (h : b.count < depth) : b.add tick depth window = ({ b with count := b.count + 1 }, false) := by
  have hovf : ¬ depth < b.count + 1 := by omega
  simp only [Bucket.add, hovf, decide_false, Bool.false_eq_true, if_false]

/-- A full bucket overflows and begins again at 0. -/
theorem Bucket.add_overflow (h : depth ≤ b.count) :
    ∃ stamps, b.add tick depth window = ({ count := 0, stamps }, true) := by
  have hovf : depth < b.count + 1 := by omega
  exact ⟨_, by simp only [Bucket.add, hovf, decide_true, if_true]; rfl⟩

/-- A bucket that is listed takes the leak (R147). -/
theorem leakAt_listed {bs : List (Nat × Bucket)} {k : Nat} (h : ∃ x ∈ bs, x.1 = k) :
    leakAt bs k = SMap.set bs k (SMap.get Bucket.reset bs k).leak :=
  if_pos (by simpa using h)

end bucket

/-- A link of a die counts a bad flit: its bucket is now `bk`, and the sixteenth in a row starts a retrain. -/
def State.badFlit (s : State) (r link : Nat) (bk : Bucket) : State :=
  let n := SMap.get 0 (s.region r).replays link + 1
  ({ s with replayT := some s.noon.tick } : State).modRegion r (fun x => { x with
    links := SMap.set x.links link bk
    replays := if 16 ≤ n then SMap.del x.replays link else SMap.set x.replays link n
    retrain := if 16 ≤ n then insNat x.retrain link else x.retrain })

section dieLink
variable {s : State} {r link : Nat}

theorem exec_dieLinkFlit_good (hup : s.up = true) (hr : r < 8) (hl : link < 16) (ht : link ∉ (s.region r).retrain) :
    exec (.dieLinkFlitReceive r link true) s =
      .next (s.modRegion r (fun x => { x with replays := SMap.del x.replays link })) :=
  congrArg Host.Outcome.next ((if_neg (by simp [hup, hr, hl, ht])).trans (if_pos rfl))

/-- A bad flit: what the bucket answers decides the record of its overflow. -/
theorem exec_dieLinkFlit_bad {bk : Bucket} {ovf : Bool} (hup : s.up = true) (hr : r < 8) (hl : link < 16)
    (ht : link ∉ (s.region r).retrain)
    (hb : (SMap.get Bucket.reset (s.region r).links link).add s.noon.tick (s.settingN 0x7102 1 32)
      (s.settingN 0x7102 3 864000000000) = (bk, ovf)) :
    exec (.dieLinkFlitReceive r link false) s = .next (
      if ovf then (s.badFlit r link bk).record
        (recAt (srcId 4 r 0 0 link) 2 1 0x0401 none none ((Config.recordSynd 4).map (fun (w : BitVec 8) => w.toNat)) 0)
      else s.badFlit r link bk) := by
  refine congrArg Host.Outcome.next (((if_neg (by simp [hup, hr, hl, ht])).trans (if_neg Bool.false_ne_true)).trans ?_)
  rw [hb]
  rfl

end dieLink

/-! ### Loss of state (R229, R230, R235) -/

theorem State.slipCore_unbound {s : State} {c why : Nat} (h : (s.core c).bind = false) : s.slipCore c why = s :=
  if_pos (by simp [h])

theorem State.stopCore_running {s : State} {c : Nat} (hrun : (s.core c).run ≠ .stopped) (hb : (s.core c).bind = false) :
    s.stopCore c = (s.walkAllArrays c).modCore c (fun k =>
      { k with run := .stopped, pend := [], longs := [], resv := none }) := by
  rw [State.stopCore, if_neg hrun, State.slipCore_unbound hb]

theorem State.fenceBlock_fenced (s : State) (b : Nat) : ((s.fenceBlock b).block b).fenced = true := by
  unfold State.fenceBlock
  split
  · assumption
  · rw [State.block_modBlock]

theorem progNone_eq : progNone = 3 * 2 ^ 62 := by decide

/-- A chip-fatal stop keeps its record of class 4 (R235). -/
theorem State.chipFatal_recorded {s : State} (src typ : Nat) (synd : List Nat) (h : s.stopped = false) :
    (s.chipFatal src typ synd).boot.fatal = true
    ∧ ∃ e, (s.chipFatal src typ synd).boot.fatalRec = some e ∧ e.src = src ∧ e.typ = typ ∧ e.cls = 4 := by
  rw [State.chipFatal, if_neg (by simp [h])]
  exact ⟨rfl, _, rfl, rfl, rfl, rfl⟩

section lost
variable {s : State}

/-- An action is dropped; its record names it where its fields could still be read. -/
theorem exec_actionLost {b i : Nat} {a : NAct} (hup : s.up = true) (ha : (s.block b).acts[i]? = some a) (domOk : Bool) :
    exec (.stateErrorDetected (.action b i domOk)) s =
      .next ((s.modBlock b (fun x => { x with acts := x.acts.filter (fun y => y.key ≠ a.key) })).record
        { src := srcAgent b, lvl := 0, clvl := 1, cls := 3, typ := 0x0204, td := if domOk then some a.td else none,
          addr := none, prog := 3 * 2 ^ 62,
          synd := if domOk then [0, a.key.slot, a.key.block, a.key.core] ++ (natLe 4 a.key.seq).map (·.toNat)
            ++ (natLe 8 a.key.tick).map (·.toNat) else [] }) := by
  refine congrArg Host.Outcome.next ((if_neg (by simp [hup])).trans ?_)
  simp only [ha, progNone_eq]
  rfl

end lost

/-- Settles O44: a link by what arrives on it; a loss of state by its unit, each contained at its own level. -/
theorem linkLossResults : Obligations.LinkLossResults := by
  refine ⟨fun s hup => ⟨?mesh, ?flit, ?retrain, ?leak⟩, fun s hup => ?loss⟩
  case mesh =>
    intro b input td hb hi
    have hopen : ¬ (!s.up || !s.blockPresent b || decide (5 < input)) = true := by simp [hup, hb, hi]
    exact ⟨congrArg Host.Outcome.next (if_neg hopen), congrArg Host.Outcome.next (if_neg hopen),
      congrArg Host.Outcome.next (if_neg hopen), congrArg Host.Outcome.next (if_neg hopen)⟩
  case flit =>
    intro r link hr hl ht x old depth n bad
    refine ⟨exec_dieLinkFlit_good hup hr hl ht, fun hc => ?_, fun hc => ?_⟩
    · exact exec_dieLinkFlit_bad hup hr hl ht (Bucket.add_within hc)
    · obtain ⟨stamps, hadd⟩ := Bucket.add_overflow hc
      exact ⟨stamps, exec_dieLinkFlit_bad hup hr hl ht hadd⟩
  case retrain =>
    intro r link failed ht lanes synd
    have hopen : ¬ (!s.up || !(s.region r).retrain.contains link) = true := by simp [hup, ht]
    refine ⟨fun hn => congrArg Host.Outcome.next ((if_neg hopen).trans (if_pos ?_)),
      fun hn => congrArg Host.Outcome.next ((if_neg hopen).trans (if_neg ?_)),
      congrArg Host.Outcome.next ((if_neg hopen).trans (if_neg ?_))⟩
    · exact Bool.and_eq_true_iff.mpr ⟨rfl, decide_eq_true hn⟩
    · exact fun hc => Nat.not_le.mpr hn (of_decide_eq_true (Bool.and_eq_true_iff.mp hc).2)
    · exact Bool.false_ne_true
  case leak =>
    intro dec
    have hopen : ¬ (!s.up) = true := by simp [hup]
    have hdec : ∀ bs k, dec bs k := fun bs k bk hk hget => by rw [leakAt_listed hk, hget]; rfl
    exact ⟨fun c w => ⟨congrArg Host.Outcome.next (if_neg hopen), hdec _ _⟩,
      fun b w => ⟨congrArg Host.Outcome.next (if_neg hopen), hdec _ _⟩,
      fun r l => ⟨congrArg Host.Outcome.next (if_neg hopen), hdec _ _⟩,
      fun ch => congrArg Host.Outcome.next (if_neg hopen),
      fun r f hp => congrArg Host.Outcome.next ((if_neg hopen).trans (if_pos hp))⟩
  case loss =>
    intro loses fatal
    have hopen : ¬ (!s.up) = true := by simp [hup]
    refine ⟨?cores, ?blocks, ?actions, ?channels, ?regions, ?tree0, ?tree1, ?trees, ?routing, ?mram, ?fatal, ?pll⟩
    case cores =>
      intro c hc
      exact ⟨congrArg Host.Outcome.next ((if_neg hopen).trans (if_pos hc)),
        congrArg Host.Outcome.next ((if_neg hopen).trans (if_pos hc)),
        fun hrun hb t ht => ht ▸ State.stopCore_running hrun hb⟩
    case blocks =>
      intro b hb
      have hpresent : ¬ (!s.blockPresent b) = true := by simp [hb]
      exact ⟨fun set => congrArg Host.Outcome.next ((if_neg hopen).trans (if_neg hpresent)),
        congrArg Host.Outcome.next ((if_neg hopen).trans (if_neg hpresent)), s.fenceBlock_fenced b⟩
    case actions => exact fun b i a ha domOk => exec_actionLost hup ha domOk
    case channels =>
      exact fun ch hch => congrArg Host.Outcome.next ((if_neg hopen).trans (if_neg (by simp [hch])))
    case regions =>
      intro r hr
      refine ⟨fun f hp => congrArg Host.Outcome.next ((if_neg hopen).trans (if_pos (by simp [hr, hp]))),
        congrArg Host.Outcome.next ((if_neg hopen).trans (if_pos hr)),
        congrArg Host.Outcome.next ((if_neg hopen).trans (if_pos hr)),
        congrArg Host.Outcome.next ((if_neg hopen).trans (if_pos hr)),
        fun hm hl => congrArg Host.Outcome.next (if_neg (by simp [hup, hr, hm, hl]))⟩
    case tree0 => exact congrArg Host.Outcome.next ((if_neg hopen).trans (if_pos rfl))
    case tree1 => exact congrArg Host.Outcome.next ((if_neg hopen).trans (if_neg one_ne_zero))
    case trees =>
      exact fun n hn =>
        ⟨congrArg Host.Outcome.next ((if_neg hopen).trans ((if_neg (by omega)).trans (if_neg (by omega)))),
          State.chipFatal_recorded _ _ _⟩
    case routing => exact fun b => ⟨congrArg Host.Outcome.next (if_neg hopen), State.chipFatal_recorded _ _ _⟩
    case mram => exact fun w => ⟨congrArg Host.Outcome.next (if_neg hopen), congrArg Host.Outcome.next (if_neg hopen)⟩
    case fatal => exact fun src typ => ⟨congrArg Host.Outcome.next (if_neg hopen), State.chipFatal_recorded _ _ _⟩
    case pll => exact ⟨congrArg Host.Outcome.next (if_neg hopen), State.chipFatal_recorded _ _ _⟩

end Sys2Proof.Machine
end

section
/-! SUPPORT. LBIST, block replacement and block test, the test access port with zeroization, and register writes
(R129, R192, R281, R411 to R420). -/

namespace Sys2Proof.Machine

/-! ### LBIST (R411 to R413) -/

section lbist
variable {s : State} {r u pat cause : Nat} {sig : W64}

/-- The LBIST results with the end of a run entered. -/
def State.lbEnded (s : State) (r u pat : Nat) (sig : W64) (cause status : Nat) (done : Bool) : State :=
  { s with lbist := SMap.set s.lbist (19 * r + u) { status, done, cause, pat := pat % 2 ^ 32, sig } }

/-- The record of a result other than PASS. -/
def lbNote (r u : Nat) (sig : W64) (cause status cls typ : Nat) : RecIn :=
  recAt (srcId 10 r 0 0 0) 2 cls typ none none
    ([u, status, cause, 0, 0, 0, 0, 0] ++ (natLe 8 sig.toNat).map (fun (w : Byte) => w.toNat)) 0

theorem State.lbEnd_pass (h : (SMap.get Lb.reset s.lbist (19 * r + u)).status = 1)
    (hp : pat = if u < 18 then 65536 else 16384) (hs : sig = SMap.get 0 s.fuses.lbistExp (19 * r + u)) :
    s.lbEnd r u pat sig 0 = s.lbEnded r u pat sig 0 2 true := by
  simp only [State.lbEnd, h, ← hp, ← hs, ne_eq, not_true_eq_false, decide_true, Bool.and_self, if_true, if_false]
  rfl

theorem State.lbEnd_fail (h : (SMap.get Lb.reset s.lbist (19 * r + u)).status = 1)
    (hp : pat = if u < 18 then 65536 else 16384) (hs : ¬ sig = SMap.get 0 s.fuses.lbistExp (19 * r + u)) :
    s.lbEnd r u pat sig 0 = (s.lbEnded r u pat sig 0 3 true).record (lbNote r u sig 0 3 3 0x0A01) := by
  simp only [State.lbEnd, h, ← hp, hs, ne_eq, not_true_eq_false, decide_true, Bool.and_self, if_true, if_false]
  rfl

/-- A run that ends for a cause is incomplete, wherever it was. -/
theorem State.lbEnd_cut (h : (SMap.get Lb.reset s.lbist (19 * r + u)).status = 1) (hc : cause ≠ 0) :
    s.lbEnd r u pat sig cause = (s.lbEnded r u pat sig cause 4 false).record (lbNote r u sig cause 4 0 0x0A02) := by
  simp only [State.lbEnd, h, hc, ne_eq, not_true_eq_false, decide_false, Bool.false_and, Bool.false_eq_true, if_false]
  rfl

theorem exec_lbistRunEnd (ho : s.testOpen = true) (hr : r < 8) (hu : u < 19) (hc : cause ≤ 5) :
    exec (.lbistRunEnd r u pat sig cause) s = .next (s.lbEnd r u pat sig cause) :=
  congrArg Host.Outcome.next (if_neg (by simp [ho, hr, hu, hc]))

theorem exec_lbistDemandStart (ho : s.testOpen = true) :
    exec (.lbistDemandStart r u) s = .next ((s.lbistStart r u).getD s) :=
  congrArg Host.Outcome.next (if_neg (by simp [ho]))

theorem exec_lbistCut (ho : s.testOpen = true) (hr : r < 8) (hu : u < 19) :
    exec (.lbistAbort r u) s = .next (s.lbistCut r u 3)
    ∧ exec (.lbistPatternTimeout r u) s = .next (s.lbistCut r u 5) := by
  have hopen : ¬ (!s.testOpen || decide (8 ≤ r) || decide (19 ≤ u)) = true := by simp [ho, hr, hu]
  exact ⟨congrArg Host.Outcome.next (if_neg hopen), congrArg Host.Outcome.next (if_neg hopen)⟩

end lbist

/-! ### Zeroization (R415, R416) -/

/-- What zeroization leaves: no secret of before, a new null key once phase 1 is over, and its record. -/
theorem State.zeroize_result (t : State) (kind : Nat) :
    ∃ z : State, t.zeroize kind = z.record (recAt (srcId 12 0 0 0 0) 3 0 0x0C09 none none [z.boot.scanKinds] 0)
      ∧ z.keys.slots = [] ∧ z.keys.data = [] ∧ z.boot.scanFlag = true ∧ z.boot.zeroized = true
      ∧ z.boot.scanKinds = t.boot.scanKinds ||| 2 ^ kind
      ∧ (t.boot.phase ≤ 1 → z.keys.null = 0 ∧ z.boot.store = [])
      ∧ (1 < t.boot.phase → z.keys.null = Config.randomKey t.draw.1) := by
  unfold State.zeroize
  dsimp only
  by_cases h : t.boot.phase ≤ 1
  · rw [if_pos h]
    exact ⟨_, rfl, rfl, rfl, rfl, rfl, rfl, fun _ => ⟨rfl, rfl⟩, fun h' => absurd h (Nat.not_le.mpr h')⟩
  · rw [if_neg h]
    exact ⟨_, rfl, rfl, rfl, rfl, rfl, rfl, fun h' => absurd h' h, fun _ => rfl⟩

/-! ### Block sparing (R192, R417 to R420) -/

section sparing
variable {s : State} {r p : Nat}

theorem State.mapByte_setMap (s : State) (r p v : Nat) : (s.setMap r p v).mapByte r p = v := SMap.get_set_self ..

theorem State.mapByte_setMap_ne (s : State) {r p q : Nat} (v : Nat) (h : q ≠ p) :
    (s.setMap r p v).mapByte r q = s.mapByte r q := SMap.get_set_ne _ _ _ (by omega)

/-- The block map is in the fuses and in MRAM. -/
theorem State.mapByte_congr {t : State} {q : Nat} (hf : t.fuses = s.fuses) (hm : t.mram = s.mram) :
    t.mapByte r q = s.mapByte r q := by
  unfold State.mapByte State.perRegion State.part
  rw [hf, hm]

/-- The block map after a replacement: the spare has the logical ID, the old position is under test. -/
def State.replacedMap (s : State) (r b p old : Nat) : State :=
  if old < 18 then (s.setMap r p b).setMap r old (64 + 31) else s.setMap r p b

theorem State.mapByte_replacedMap (s : State) {r p old : Nat} (b : Nat) (h : p ≠ old) :
    (s.replacedMap r b p old).mapByte r p = b := by
  unfold State.replacedMap
  split
  · rw [State.mapByte_setMap_ne _ _ h, State.mapByte_setMap]
  · rw [State.mapByte_setMap]

theorem State.mapByte_replacedMap_old (s : State) {r old : Nat} (b p : Nat) (h : old < 18) :
    (s.replacedMap r b p old).mapByte r old = 64 + 31 := by
  rw [State.replacedMap, if_pos h, State.mapByte_setMap]

/-- The state in which a block runs on its new position: its cores are at reset and OFF. -/
def State.replaced (s : State) (r b p old : Nat) : State :=
  let g := 16 * r + b
  let u := ((s.replacedMap r b p old).modRegion r (fun x => { x with sparing := none })).modBlock g
    (fun x => { x with moving := false, fenced := false, l2bkt := [], slcbkt := [] })
  ([2 * g, 2 * g + 1].foldl (fun s c => (s.setCore c Core.reset).modDom c (fun _ => Pwr.reset)) u).modDom (256 + g)
    (fun d => { d with st := 0 })

theorem State.mapByte_replaced (s : State) (r b p old q : Nat) :
    (s.replaced r b p old).mapByte r q = (s.replacedMap r b p old).mapByte r q :=
  State.mapByte_congr (by simp [State.replaced]) (by simp [State.replaced])

theorem exec_blockReplacement_first {b old : Nat} (hup : s.up = true) (hr : r < 8)
    (hs : (s.region r).sparing = some (b, p, old)) (hm : (s.block (16 * r + b)).moving = false) :
    exec (.blockReplacementComplete r) s = .next (s.modBlock (16 * r + b) (fun x => { x with moving := true })) := by
  change execBlockReplacementComplete r s = _
  rw [execBlockReplacementComplete, hs]
  exact congrArg Host.Outcome.next ((if_neg (by simp [hup, hr])).trans (if_pos (by simp [hm])))

theorem exec_blockReplacement_second {b old : Nat} (hup : s.up = true) (hr : r < 8)
    (hs : (s.region r).sparing = some (b, p, old)) (hm : (s.block (16 * r + b)).moving = true) :
    exec (.blockReplacementComplete r) s = .next (((s.replaced r b p old).releaseHeld (16 * r + b)).record
      (recAt (srcId 10 r 0 0 0) 2 0 0x0A03 none none ((Config.recordSynd 10).map (fun (w : Byte) => w.toNat)) 0)) := by
  change execBlockReplacementComplete r s = _
  rw [execBlockReplacementComplete, hs]
  exact congrArg Host.Outcome.next ((if_neg (by simp [hup, hr])).trans (if_neg (by simp [hm])))

/-- What the replacement has changed (R419). -/
theorem State.replaced_result (s : State) (r b p old : Nat) :
    let g := 16 * r + b
    let t := s.replaced r b p old
    t.core (2 * g) = Core.reset ∧ t.core (2 * g + 1) = Core.reset ∧ (t.dom (256 + g)).st = 0
    ∧ (t.region r).sparing = none ∧ (t.block g).moving = false ∧ (t.block g).fenced = false := by
  refine ⟨?_, ?_, ?_, ?_, ?_, ?_⟩
  · simp [State.replaced, State.core_setCore_ne]
  · simp [State.replaced]
  · simp [State.replaced]
  · simp [State.replaced]
  · simp [State.replaced]
  · simp [State.replaced]

theorem exec_blockTestEnd {ok : Bool} {repairs : List W64} (ho : s.testOpen = true) (hr : r < 8) (hp : p < 18)
    (ht : s.role r p = 2) (hs : (s.region r).sparing = none) :
    exec (.blockTestEnd r p ok repairs) s = .next (
      if ok then
        let t := s.setMap r p (32 + 31)
        { t with mram := { t.mram with supp := (t.mram.supp ++ repairs).take 4096 } }
      else (s.setMap r p (96 + 31)).record
        (recAt (srcId 10 r 0 0 0) 2 3 0x0A04 none none ((Config.recordSynd 10).map (fun (w : Byte) => w.toNat)) 0)) :=
  congrArg Host.Outcome.next (if_neg (by simp [ho, hr, hp, ht, hs]))

end sparing

/-- Settles O57: LBIST by the end of its run; a replacement by its two completions; the test access port by its
instruction; a register by the space that its address is in. -/
theorem testResults : Obligations.TestResults := by
  intro s
  refine ⟨fun ho r u hr => ⟨?start, ?none, ?cut, ?ended⟩, fun r b p old hup hr hs => ?replacement,
    fun ho r p hr hp ht hs repairs => ⟨exec_blockTestEnd ho hr hp ht hs, exec_blockTestEnd ho hr hp ht hs⟩,
    fun haon => ⟨?idcode, ?bypass, ?clear, ?scan⟩, State.zeroize_result, fun hup td pa bytes hne hlen => ?registers⟩
  case start =>
    intro hu hlo hhi hst z
    rw [exec_lbistDemandStart ho, State.lbistStart, if_pos (by simp [State.lbistable, hr, hu, hlo, hhi, hst])]
    rfl
  case none =>
    intro hu hrole
    rw [exec_lbistDemandStart ho, State.lbistStart, if_neg]
    · rfl
    · rcases hrole with hrole | hrole <;> simp [State.lbistable, hrole]
  case cut => exact fun hu => exec_lbistCut ho hr hu
  case ended =>
    intro hu hst pat sig target good ended note
    refine ⟨fun hp hs => ?_, fun hp hs => ?_, fun cause hlo hhi => ?_⟩
    · rw [exec_lbistRunEnd ho hr hu (by omega), State.lbEnd_pass hst hp hs]; rfl
    · rw [exec_lbistRunEnd ho hr hu (by omega), State.lbEnd_fail hst hp hs]; rfl
    · rw [exec_lbistRunEnd ho hr hu hhi, State.lbEnd_cut hst (by omega)]; rfl
  case replacement =>
    intro g
    refine ⟨fun hm => exec_blockReplacement_first hup hr hs hm, fun hm => ?_⟩
    obtain ⟨hcore0, hcore1, hdom, hsparing, hmoving, hfenced⟩ := s.replaced_result r b p old
    refine ⟨s.replaced r b p old, exec_blockReplacement_second hup hr hs hm, hcore0, hcore1, hdom, hsparing, hmoving,
      hfenced, fun hne _ => ?_, fun _ ho => ?_⟩
    · rw [State.mapByte_replaced, State.mapByte_replacedMap s b hne]
    · rw [State.mapByte_replaced, State.mapByte_replacedMap_old s b p ho]
  case idcode => exact congrArg Host.Outcome.next (if_neg (by simp [haon]))
  case bypass =>
    intro ir hir
    refine congrArg Host.Outcome.next (if_neg ?_)
    rcases hir with hir | rfl
    · simp [haon]; omega
    · simp [haon]
  case clear => exact fun hs => congrArg Host.Outcome.next (if_neg (by simp [haon, hs]))
  case scan => exact fun hs => congrArg Host.Outcome.next (if_neg (by simp [haon, hs]))
  case registers =>
    intro writes
    have hopen : ¬ (!s.up || bytes.isEmpty || decide (8 < bytes.length)) = true := by simp [hup, hne, hlen]
    refine ⟨fun hspace hw => congrArg Host.Outcome.next ?_, fun hr hc he hb hw => congrArg Host.Outcome.next ?_,
      fun hr hc he hp hw => congrArg Host.Outcome.next ?_⟩
    · rw [if_neg hopen, if_pos (by simpa using hspace)]
      exact s.orWait_of hw
    · rw [if_neg hopen, if_neg (by simp [hr, hc]), if_pos (by simp [he, hb])]
      exact s.orWait_of hw
    · rw [if_neg hopen, if_neg (by simp [hr, hc]), if_neg (by simp [he]), if_pos hp]
      exact s.orWait_of hw

end Sys2Proof.Machine
end

section
/-! SUPPORT. The phases of a start (R128, R174, R251, R353, R370 to R374, R377, R427, R428). -/

namespace Sys2Proof.Machine

/-! ### Folds over the units -/

section fold
variable {α β : Type} {f : State → α → State} {l : List α} {s : State}

/-- What no member of a list changes, its fold leaves. -/
theorem State.foldl_frame (proj : State → β) (h : ∀ t a, proj (f t a) = proj t) : proj (l.foldl f s) = proj s :=
  List.foldlRecOn (motive := fun t => proj t = proj s) l f rfl (fun t ht a _ => (h t a).trans ht)

/-- What one member of a list brings about while `Q` holds, and every member keeps, the fold brings about. -/
theorem State.foldl_reach {P Q : State → Prop} {a : α} (ha : a ∈ l) (hset : ∀ t, Q t → P (f t a))
    (hkeep : ∀ t, ∀ b ∈ l, P t → P (f t b)) (hQ : ∀ t, ∀ b ∈ l, Q t → Q (f t b)) (hs : Q s) :
    P (l.foldl f s) := by
  induction l generalizing s with
  | nil => cases ha
  | cons b l ih =>
    have hkeep' : ∀ t, ∀ c ∈ l, P t → P (f t c) := fun t c hc => hkeep t c (List.mem_cons_of_mem b hc)
    rcases List.mem_cons.mp ha with rfl | ha
    · exact List.foldlRecOn l f (hset s hs) (fun t ht b hb => hkeep' t b hb ht)
    · exact ih ha hkeep' (fun t c hc => hQ t c (List.mem_cons_of_mem b hc)) (hQ s b List.mem_cons_self hs)

end fold

/-- A domain that is ON stays ON when a domain is made ON. -/
theorem State.on_modDom {s : State} {i : Nat} (j : Nat) (h : (s.dom i).st = 0) :
    ((s.modDom j (fun d => { d with st := 0 })).dom i).st = 0 := by
  by_cases hij : i = j
  · rw [hij, State.dom_modDom]
  · rw [State.dom_modDom_ne _ _ hij, h]

/-! ### The beginning of a start and phase 1 (R174, R353, R370) -/

/-- The pins, the node number and the boot counter as a start finds them. -/
def State.started (s : State) : State :=
  { s with
    pins := { s.pins with resetN := true }
    slate := { s.slate with node := s.pins.straps % 16 }
    boot := { s.boot with counter := s.boot.counter + 1, waitRel := false, fatalAtStart := s.boot.fatal } }

/-- A stack takes its bifurcation. -/
def State.bifurcate (s : State) (r : Nat) : State :=
  s.modRegion r (fun x => { x with bifurc := s.settingN 0x6100 (r + 1) 0 })

/-- The Noon root runs from tick 0. -/
def State.noonStart (s : State) : State :=
  { s with
    noon := { s.noon with run := true, tick := 0, k := 0, ordered := false, early := [], strcnt := 0, strq := 0,
                          strlast := 0, rootT := 0, lockRefs := s.noon.refs }
    boot := { s.boot with phase := 1 } }

/-- The shared logic of a block in service is ON. -/
def State.sharedOn (s : State) (b : Nat) : State :=
  if s.physOf b = 31 then s else s.modDom (256 + b) (fun d => { d with st := 0 })

/-- The stack of a region is ON. -/
def State.stackOn (s : State) (r : Nat) : State := s.modDom (408 + r) (fun d => { d with st := 0 })

/-- Phase 1, before LBIST. -/
def State.phaseOne (s : State) : State :=
  (List.range 8).foldl State.stackOn (s.noonStart.allBlocks.foldl State.sharedOn s.noonStart)

section begin
variable {s : State}

theorem State.begin_result (s : State) :
    s.begin.boot.counter = s.boot.counter + 1 ∧ s.begin.pins.resetN = true
    ∧ s.begin.slate.node = s.pins.straps % 16 := by
  have hboot : s.begin.boot = s.started.boot := State.foldl_frame State.boot (f := State.bifurcate) (fun _ _ => rfl)
  have hpins : s.begin.pins = s.started.pins := State.foldl_frame State.pins (f := State.bifurcate) (fun _ _ => rfl)
  have hslate : s.begin.slate = s.started.slate := State.foldl_frame State.slate (f := State.bifurcate) (fun _ _ => rfl)
  rw [hboot, hpins, hslate]
  exact ⟨rfl, rfl, rfl⟩

theorem exec_pllLock (haon : s.pins.aon = true) (hreset : s.pins.resetN = true) (href : s.pins.refclk = true)
    (hstop : s.stopped = false) (hscan : s.scan = false) (hrun : s.noon.run = false) (hphase : s.boot.phase = 0)
    (hrails : s.pins.rails = 127) :
    exec .pllLock s =
      .next (if s.phaseOne.settingN 0x9000 1 0 = 1 then s.phaseOne.lbistAtStart else s.phaseOne) :=
  congrArg Host.Outcome.next (if_neg (by simp [haon, hreset, href, hstop, hscan, hrun, hphase, hrails]))

theorem State.phaseOne_result (s : State) :
    s.phaseOne.noon.run = true ∧ s.phaseOne.noon.tick = 0 ∧ s.phaseOne.boot.phase = 1
    ∧ ∀ r, r < 8 → (s.phaseOne.dom (408 + r)).st = 0 := by
  have hshared : ∀ (t : State) b, (t.sharedOn b).noon = t.noon ∧ (t.sharedOn b).boot = t.boot := fun t b => by
    unfold State.sharedOn
    split <;> exact ⟨rfl, rfl⟩
  have hnoon : s.phaseOne.noon = s.noonStart.noon :=
    (State.foldl_frame State.noon (f := State.stackOn) (fun _ _ => rfl)).trans
      (State.foldl_frame State.noon (fun t b => (hshared t b).1))
  have hboot : s.phaseOne.boot = s.noonStart.boot :=
    (State.foldl_frame State.boot (f := State.stackOn) (fun _ _ => rfl)).trans
      (State.foldl_frame State.boot (fun t b => (hshared t b).2))
  rw [hnoon, hboot]
  refine ⟨rfl, rfl, rfl, fun r hr => ?_⟩
  exact State.foldl_reach (P := fun t => (t.dom (408 + r)).st = 0) (Q := fun _ => True) (List.mem_range.mpr hr)
    (fun t _ => by rw [State.stackOn, State.dom_modDom]) (fun t b _ ht => State.on_modDom _ ht)
    (fun _ _ _ _ => trivial) trivial

end begin

/-! ### Slot selection (R251, R370, R371, R377) -/

/-- The start from a slot with the lower sequence number is recorded. -/
def State.noteFallback (v : State) (slot : Nat) : State :=
  match v.directory slot, v.directory (1 - slot) with
  | some (q, _), some (o, _) =>
    if q < o then
      (v.modBoot (fun b => { b with slotB := true })).record
        (recAt (srcId 12 0 0 0 0) 3 0 0x0C02 none none ((natLe 8 o).map (·.toNat)) 0)
    else v
  | _, _ => v

/-- The monitor of the images of a start is placed. -/
def State.placeStartMonitor (v : State) (slot : Nat) (imgs : List Img) : State :=
  match imgFind imgs 5, v.slotHdr slot 5 with
  | some im, some (off, _) => v.placeMonitor im (v.slotBody slot off im.len)
  | _, _ => v

/-- The device in phase 2: the keys of the start are made. -/
def State.phaseTwo (s : State) : State :=
  let d := s.draw
  { d.2 with
    keys := { d.2.keys with null := Config.randomKey d.1, slots := [] }
    boot := { d.2.boot with phase := 2, keyDerived := true, lbistRes := d.2.lbistByte } }

section slots
variable {s v t : State} {slot : Nat} {imgs : List Img}

theorem State.noteFallback_alone (h : v.directory (1 - slot) = none) : v.noteFallback slot = v := by
  rw [State.noteFallback, h]
  cases v.directory slot <;> rfl

theorem State.placeStartMonitor_some {im : Img} {off : Nat} {hdr : List Byte} (hi : imgFind imgs 5 = some im)
    (hh : v.slotHdr slot 5 = some (off, hdr)) :
    v.placeStartMonitor slot imgs = v.placeMonitor im (v.slotBody slot off im.len) := by
  rw [State.placeStartMonitor, hi, hh]

theorem State.placeStartMonitor_none (hi : imgFind imgs 5 = none) : v.placeStartMonitor slot imgs = v := by
  rw [State.placeStartMonitor, hi]

theorem exec_slotSelection_unusable (hup : s.up = true) (hp : s.boot.phase = 1)
    (hl : s.lbist.any (fun e => e.2.status == 1) = false)
    (ht : s.phaseTwo.trySlots s.phaseTwo.slotOrder = (none, t)) :
    exec .slotSelection s = .next
      ((t.modBoot (fun b => { b with phase := 7 })).record (recAt (srcId 12 0 0 0 0) 3 0 0x0C03 none none [7] 0)) := by
  refine congrArg Host.Outcome.next ((if_neg (by simp [hup, hp, hl])).trans ?_)
  dsimp only [State.phaseTwo, State.draw] at ht ⊢
  rw [ht]

theorem exec_slotSelection_usable (hup : s.up = true) (hp : s.boot.phase = 1)
    (hl : s.lbist.any (fun e => e.2.status == 1) = false)
    (ht : s.phaseTwo.trySlots s.phaseTwo.slotOrder = (some (slot, imgs), t)) :
    exec .slotSelection s = .next
      ((((t.modBoot (fun b => { b with slot })).noteFallback slot).placeStartMonitor slot imgs).bringUp imgs) := by
  refine congrArg Host.Outcome.next ((if_neg (by simp [hup, hp, hl])).trans ?_)
  dsimp only [State.phaseTwo, State.draw] at ht ⊢
  rw [ht]
  rfl

end slots

/-! ### Phase 3 and the handover (R128, R353, R370, R373) -/

/-- The images of a start come into force in a region, whose Morning controller runs. -/
def State.morningUp (store : List Img) (s : State) (r : Nat) : State :=
  s.modRegion r (fun x => { x with
    morning := true, spareOn := decide (r = 0) && decide (s.perRegion < 12)
    fw := (store.filter (fun i => i.comp != 3)).map (fun i => (i.comp, i)) })

theorem State.bringUp_result (t : State) (imgs : List Img) :
    (t.bringUp imgs).boot.phase = 3 ∧ ((t.bringUp imgs).dom 0).st = 0
    ∧ (t.bringUp imgs).core 0 = { Core.reset with patch := ((t.bringUp imgs).core 0).patch }
    ∧ (t.bringUp imgs).boot.store = imgs.filter (fun i => i.comp != 5) := by
  have hboot : (t.bringUp imgs).boot = { t.boot with phase := 3, store := imgs.filter (fun i => i.comp != 5) } := by
    rw [State.bringUp, State.modDom_boot, State.setCore_boot]
    exact State.foldl_frame State.boot (f := State.morningUp (imgs.filter (fun i => i.comp != 5))) (fun _ _ => rfl)
  refine ⟨by rw [hboot], ?_, ?_, by rw [hboot]⟩
  · rw [State.bringUp, State.dom_modDom]
  · rw [State.bringUp, State.core_modDom, State.core_setCore]

section handover
variable {s : State}

theorem State.handover_result (hup : s.up = true) (hp : s.boot.phase = 3) (hf : s.boot.filled = true)
    (hh : s.boot.handed = false) : let w := s.walkClean 0
    s.handover.boot.handed = true ∧ s.handover.slcRam = []
    ∧ s.handover.dram = w.slcRam.filter (fun e => e.1 < 0x2000000) ++ w.dram.filter (fun e => 0x2000000 ≤ e.1)
    ∧ (w.keyOf 0 0 ≠ w.fillKey → ∀ l, l < 524288 → (l, w.keyOf 0 0) ∈ s.handover.lineKey) := by
  intro w
  rw [State.handover, if_neg (by simp [hup, hp, hf, hh])]
  refine ⟨rfl, rfl, rfl, fun hk l hl => ?_⟩
  rw [State.modRegion_lineKey]
  dsimp only
  rw [if_neg hk]
  exact List.mem_append_left _ (List.mem_map.mpr ⟨l, List.mem_range.mpr hl, rfl⟩)

end handover

/-! ### Phase 4 and the release (R353, R370, R373, R381) -/

/-- The microcode of a region comes into force, and its Cobalt function is ON. -/
def State.releaseFn (s : State) (r : Nat) : State :=
  match imgFind s.boot.store 3 with
  | some im =>
    (s.modRegion r (fun x => { x with
      fw := SMap.set x.fw 3 im, fn := { Fn.reset with ucode := im.build } })).modDom (384 + r)
      (fun d => { d with st := 0 })
  | none => s

/-- An application core is released with the patches of its region. -/
def State.releaseCore (s : State) (c : Nat) : State :=
  if c = 0 then s
  else
    (s.setCore c { Core.reset with patch := (SMap.get Img.reset (s.region (coreRegion c)).fw 4).build }).modDom c
      (fun d => { d with st := 0 })

/-- Every function is released and the start record is written. -/
def State.releaseFns (s : State) : State :=
  let u := (List.range 8).foldl State.releaseFn s
  u.vesper 1 0xFF (u.regionEntries 0)

/-- Every application core is released. -/
def State.releaseCores (s : State) : State := s.allCores.foldl State.releaseCore s

/-- Phase 5: the functions and the application cores are released. -/
def State.phaseFive (s : State) : State :=
  s.releaseFns.releaseCores.modBoot (fun b => { b with phase := 5, phase5 := s.releaseFns.releaseCores.noon.tick })

section release
variable {s : State} {c r : Nat}

@[simp] theorem State.releaseFn_boot (s : State) (r : Nat) : (s.releaseFn r).boot = s.boot := by
  unfold State.releaseFn
  split <;> rfl

@[simp] theorem State.releaseCore_boot (s : State) (c : Nat) : (s.releaseCore c).boot = s.boot := by
  unfold State.releaseCore
  split <;> rfl

theorem State.vesper_boot (s : State) (typ region : Nat) (entries : List (List Byte)) :
    (s.vesper typ region entries).boot.vesperN = s.boot.vesperN + 1
    ∧ (s.vesper typ region entries).boot.scanFlag = false := by
  rw [State.vesper, State.boot_modBoot]
  exact ⟨rfl, rfl⟩

theorem State.releaseFns_boot (s : State) :
    s.releaseFns.boot.vesperN = s.boot.vesperN + 1 ∧ s.releaseFns.boot.scanFlag = false := by
  have hboot : ((List.range 8).foldl State.releaseFn s).boot = s.boot := State.foldl_frame State.boot State.releaseFn_boot
  rw [← hboot]
  exact State.vesper_boot _ _ _ _

@[simp] theorem State.releaseCores_boot (s : State) : s.releaseCores.boot = s.boot :=
  State.foldl_frame State.boot State.releaseCore_boot

/-- The function of every region is ON where the start has microcode. -/
theorem State.dom_releaseFns {im : Img} (hi : imgFind s.boot.store 3 = some im) (hr : r < 8) :
    (s.releaseFns.dom (384 + r)).st = 0 := by
  rw [State.releaseFns, State.vesper, State.dom_modBoot]
  refine State.foldl_reach (P := fun t => (t.dom (384 + r)).st = 0) (Q := fun t => t.boot = s.boot)
    (List.mem_range.mpr hr) (fun t ht => ?_) (fun t b _ ht => ?_) (fun t b _ ht => (t.releaseFn_boot b).trans ht) rfl
  · rw [State.releaseFn, ht, hi, State.dom_modDom]
  · unfold State.releaseFn
    split
    · exact State.on_modDom _ ht
    · exact ht

theorem State.dom_releaseCores (h : (s.dom (384 + r)).st = 0) : (s.releaseCores.dom (384 + r)).st = 0 := by
  refine List.foldlRecOn (motive := fun (t : State) => (t.dom (384 + r)).st = 0) _ _ h (fun t ht c _ => ?_)
  unfold State.releaseCore
  split
  · exact ht
  · exact State.on_modDom _ ht

theorem State.corePresent_releaseFns : s.releaseFns.corePresent c = s.corePresent c := by
  have hfn : ∀ (t : State) r, (t.releaseFn r).fuses = t.fuses := fun t r => by
    unfold State.releaseFn
    split <;> rfl
  have hfuses : s.releaseFns.fuses = s.fuses := by
    rw [State.releaseFns, State.vesper, State.modBoot_fuses, State.foldl_frame State.fuses hfn]
  unfold State.corePresent State.perRegion State.part
  rw [hfuses]

/-- A released core is ON and at its reset values, its patches aside. -/
def State.Released (t : State) (c : Nat) : Prop :=
  (t.dom c).st = 0 ∧ t.core c = { Core.reset with patch := (t.core c).patch }

theorem State.released_releaseCore (t : State) (hc : c ≠ 0) : (t.releaseCore c).Released c := by
  rw [State.releaseCore, if_neg hc]
  simp only [State.Released, State.dom_modDom, State.core_modDom, State.core_setCore, and_self]

theorem State.Released.releaseCore {t : State} (h : t.Released c) (b : Nat) : (t.releaseCore b).Released c := by
  by_cases hbc : b = c
  · by_cases hb : b = 0
    · rw [State.releaseCore, if_pos hb]; exact h
    · exact hbc ▸ t.released_releaseCore hb
  · unfold State.releaseCore
    split
    · exact h
    · refine ⟨State.on_modDom _ h.1, ?_⟩
      simp only [State.core_modDom, State.core_setCore_ne _ _ (Ne.symm hbc)]
      exact h.2

theorem State.released_releaseCores (hc : c ≠ 0) (hp : s.corePresent c = true) : s.releaseCores.Released c := by
  have hlt : c < 256 := by
    rw [State.corePresent, Bool.and_eq_true, decide_eq_true_eq] at hp
    exact hp.1
  exact State.foldl_reach (P := fun t => t.Released c) (Q := fun _ => True)
    (List.mem_filter.mpr ⟨List.mem_range.mpr hlt, hp⟩) (fun t _ => t.released_releaseCore hc)
    (fun t b _ ht => ht.releaseCore b) (fun _ _ _ _ => trivial) trivial

theorem exec_releaseComplete (hup : s.up = true) (hp : s.boot.phase = 4) (hl : s.boot.lacks = false) :
    exec .releaseComplete s = .next s.phaseFive := by
  refine congrArg Host.Outcome.next ((if_neg (by simp [hup, hp, hl])).trans ?_)
  dsimp only
  rw [List.foldl_ext (g := State.releaseCore), List.foldl_ext (g := State.releaseFn) (l := List.range 8)]
  · rw [State.phaseFive, State.releaseCores, State.releaseFns]
  · exact fun _ _ _ => rfl
  · exact fun _ _ _ => rfl

theorem State.phaseFive_boot (s : State) :
    s.phaseFive.boot.phase = 5 ∧ s.phaseFive.boot.vesperN = s.boot.vesperN + 1
    ∧ s.phaseFive.boot.scanFlag = false := by
  obtain ⟨hvesper, hscan⟩ := s.releaseFns_boot
  rw [State.phaseFive, State.boot_modBoot, State.releaseCores_boot]
  exact ⟨rfl, hvesper, hscan⟩

end release

/-- Settles O53: each phase by its condition. -/
theorem bootResults : Obligations.BootResults := by
  intro s
  refine ⟨fun haon hr hw => ⟨fun hp hc => ?starts, fun hpc => ?waits⟩, s.begin_result,
    fun haon hreset href hstop hscan hrun hphase hrails => ?pll, fun hr hst hsc h5 h7 => ?overrun,
    fun hup hp hl => ⟨fun t ht => ?unusable, fun t slot imgs ht => ?usable⟩, State.bringUp_result,
    fun hup hp => ⟨?handover, ?noHandover, ?early, ?release⟩, fun hup hp => ⟨?lock, ?timeout, ?noTimeout⟩,
    fun hup hp => ⟨?lacks, ?complete⟩⟩
  case starts => exact congrArg Host.Outcome.next ((if_neg (by simp [haon, hr, hw])).trans (if_pos (by simp [hp, hc])))
  case waits =>
    refine congrArg Host.Outcome.next ((if_neg (by simp [haon, hr, hw])).trans (if_neg ?_))
    rcases hpc with h | h <;> simp [h]
  case pll =>
    exact ⟨s.phaseOne, exec_pllLock haon hreset href hstop hscan hrun hphase hrails, s.phaseOne_result⟩
  case overrun => exact congrArg Host.Outcome.next (if_neg (by simp [hr, hst, hsc, h5, h7]))
  case unusable => exact exec_slotSelection_unusable hup hp hl ht
  case usable =>
    intro v
    refine ⟨_, exec_slotSelection_usable hup hp hl ht, fun hd im off hdr hi hh => ?_, fun hd hi => ?_⟩
    · rw [State.noteFallback_alone hd, State.placeStartMonitor_some hi hh]
    · rw [State.noteFallback_alone hd, State.placeStartMonitor_none hi]
  case handover => exact fun hf hh => ⟨_, rfl, State.handover_result hup hp hf hh⟩
  case noHandover =>
    refine fun h => congrArg Host.Outcome.next (if_pos ?_)
    rcases h with h | h <;> simp [h]
  case early => exact fun hh => congrArg Host.Outcome.next (if_pos (by simp [hh]))
  case release => exact fun hh => congrArg Host.Outcome.next (if_neg (by simp [hup, hp, hh]))
  case lock => exact congrArg Host.Outcome.next (if_neg (by simp [hup, hp]))
  case timeout => exact fun h => congrArg Host.Outcome.next (if_neg (by simp [hup, hp, h]))
  case noTimeout => exact fun h => congrArg Host.Outcome.next (if_pos (by simp [h]))
  case lacks => exact fun h => congrArg Host.Outcome.next (if_pos (by simp [h]))
  case complete =>
    intro hl
    obtain ⟨hphase, hvesper, hscan⟩ := s.phaseFive_boot
    refine ⟨_, exec_releaseComplete hup hp hl, hphase, hvesper, hscan, fun c hc hcp => ?_, fun im hi r hr => ?_⟩
    · rw [State.phaseFive, State.dom_modBoot, State.core_modBoot]
      exact State.released_releaseCores hc (State.corePresent_releaseFns.trans hcp)
    · rw [State.phaseFive, State.dom_modBoot]
      exact State.dom_releaseCores (State.dom_releaseFns hi hr)

end Sys2Proof.Machine
end

section
/-! SUPPORT. The image of an accumulator (R158). -/

namespace Sys2Proof.Machine

/-- The bits of an image's value above bit 323: copies of the sign. -/
def signFill (v : BitVec 324) : Nat := if v.msb then 2 ^ 60 - 1 else 0

theorem signFill_lt (v : BitVec 324) : signFill v < 2 ^ 60 := by
  rw [signFill]; split <;> decide

theorem toTwos_lt (n : Nat) (i : Int) : toTwos n i < 2 ^ n := by
  have hpow : ((2 ^ n : Nat) : Int) = (2 : Int) ^ n := by norm_cast
  rw [toTwos, ← hpow]
  refine (Int.toNat_lt (Int.emod_nonneg _ ?_)).mpr (Int.emod_lt_of_pos _ ?_) <;> positivity

theorem toTwos_eq_toNat (n : Nat) (i : Int) : toTwos n i = (BitVec.ofInt n i).toNat := by
  rw [← ofNat_toTwos, BitVec.toNat_ofNat, Nat.mod_eq_of_lt (toTwos_lt n i)]

section value
variable (v : BitVec 324)

theorem toTwos_accValue : toTwos 384 v.toInt = 2 ^ 324 * signFill v + v.toNat := by
  have hsign : BitVec.ofInt 384 v.toInt = v.signExtend 384 := rfl
  rw [toTwos_eq_toNat, hsign, BitVec.toNat_signExtend, BitVec.toNat_setWidth_of_le (by decide), signFill, Nat.add_comm]
  split <;> rfl

theorem bits_accValue_high : bits (toTwos 384 v.toInt) 324 60 = signFill v := by
  rw [toTwos_accValue, bits, Nat.shiftRight_eq_div_pow, Nat.mul_add_div (Nat.two_pow_pos _), Nat.div_eq_of_lt v.isLt,
    Nat.add_zero, Nat.mod_eq_of_lt (signFill_lt v)]

theorem testBit_accValue_sign : (toTwos 384 v.toInt).testBit 323 = v.msb := by
  rw [toTwos_accValue, Nat.testBit_two_pow_mul_add _ v.isLt, if_pos (by decide), BitVec.testBit_toNat,
    BitVec.msb_eq_getLsbD_last]

theorem ofNat_accValue : BitVec.ofNat 324 (toTwos 384 v.toInt) = v := by
  apply BitVec.eq_of_toNat_eq
  rw [toTwos_accValue, BitVec.toNat_ofNat, Nat.mul_add_mod, Nat.mod_eq_of_lt v.isLt]

end value

/-- The flag byte of an image. -/
def flagByte (a : AmAcc) : Nat := bit a.ov + 2 * bit a.ix + 4 * bit a.ms

/-- The flag byte of an image holds each flag in its bit, and no other bit. -/
theorem flagByte_bits (a : AmAcc) :
    flagByte a < 8 ∧ (flagByte a).testBit 0 = a.ov ∧ (flagByte a).testBit 1 = a.ix ∧ (flagByte a).testBit 2 = a.ms := by
  rw [flagByte]
  generalize a.ov = ov, a.ix = ix, a.ms = ms
  revert ov ix ms
  decide

section image
variable (a : AmAcc) (n : Nat)

theorem accImage_length : (accImage a n).length = 64 := by
  simp [accImage]

theorem accImage_value : leNat ((accImage a n).take 48) = toTwos 384 a.val.toInt := by
  simp only [accImage, List.append_assoc]
  rw [List.take_left' (natLe_length ..), leNat_natLe, AmAcc.int]
  exact Nat.mod_eq_of_lt (toTwos_lt 384 _)

/-- Past the value: the scale, the flags, six bytes of zero and the merge count. -/
theorem accImage_drop_value : (accImage a n).drop 48 =
    BitVec.ofNat 8 a.scale.toNat :: BitVec.ofNat 8 (flagByte a) :: (List.replicate 6 0 ++ natLe 8 n) := by
  simp only [accImage, List.append_assoc]
  exact List.drop_left' (natLe_length ..)

theorem accImage_getD_past_value (i : Nat) : (accImage a n).getD (48 + i) 0 = ((accImage a n).drop 48).getD i 0 := by
  rw [List.getD_eq_getElem?_getD, List.getD_eq_getElem?_getD, List.getElem?_drop]

theorem accImage_scale : ((accImage a n).getD 0x30 0).toNat = a.scale.toNat := by
  have := a.scale.isLt
  rw [accImage_getD_past_value a n 0, accImage_drop_value, List.getD_cons_zero, BitVec.toNat_ofNat]
  omega

theorem accImage_flags : ((accImage a n).getD 0x31 0).toNat = flagByte a := by
  have := (flagByte_bits a).1
  rw [accImage_getD_past_value a n 1, accImage_drop_value, List.getD_cons_succ, List.getD_cons_zero, BitVec.toNat_ofNat]
  omega

theorem accImage_reserved : leNat (((accImage a n).drop 0x32).take 6) = 0 := by
  have hsplit : (accImage a n).drop 0x32 = ((accImage a n).drop 48).drop 2 := by rw [List.drop_drop]
  rw [hsplit, accImage_drop_value]
  rfl

end image

/-- Settles O28: each field of the image is read back as it was written, and passes its check. -/
theorem accumulatorImageRoundTrip : Obligations.AccumulatorImageRoundTrip := by
  intro a n hscale
  obtain ⟨hflags, hov, hix, hms⟩ := flagByte_bits a
  refine ⟨accImage_length a n, ?_⟩
  rw [imageAcc, accImage_value, accImage_scale, accImage_flags, accImage_reserved, bits_accValue_high,
    testBit_accValue_sign, ofNat_accValue, hov, hix, hms, if_pos ⟨rfl, hscale, hflags, rfl⟩, BitVec.ofNat_toNat,
    BitVec.setWidth_eq]

end Sys2Proof.Machine
end

section
/-! SUPPORT. The accumulating instructions: the checks of their operands, and the sum that enters an accumulator (R155,
R159 to R162). -/

namespace Sys2Proof.Machine

/-! ### Quantities (R155) -/

/-- The numbers that a quantity represents. -/
abbrev QuantityRange (w : Int) : Prop := -(2 : Int) ^ 125 ≤ w ∧ w < 2 ^ 125

/-- The numbers that a short operand represents (R161). -/
abbrev ShortRange (w : Int) : Prop := -(2 : Int) ^ 53 ≤ w ∧ w < 2 ^ 53

theorem not_quantityRange_iff (w : Int) : ¬ QuantityRange w ↔ w < -(2 : Int) ^ 125 ∨ 2 ^ 125 ≤ w := by
  rw [QuantityRange, not_and_or, Int.not_le, Int.not_lt]

theorem not_shortRange_iff (w : Int) : ¬ ShortRange w ↔ w < -(2 : Int) ^ 53 ∨ 2 ^ 53 ≤ w := by
  rw [ShortRange, not_and_or, Int.not_le, Int.not_lt]

theorem qCanonical_iff (q : W128) : qCanonical q = true ↔ QuantityRange q.toInt := by
  have := q.isLt
  simp only [qCanonical, Bool.and_eq_true, decide_eq_true_eq, ← BitVec.testBit_toNat, Nat.testBit_eq_decide_div_mod_eq,
    decide_eq_decide, QuantityRange, BitVec.toInt_eq_toNat_cond]
  omega

/-- A canonical quantity holds its number in its low 126 bits. -/
theorem qVal_of_canonical {q : W128} (h : qCanonical q = true) : qVal q = q.toInt := by
  obtain ⟨hlo, hhi⟩ := (qCanonical_iff q).mp h
  have := q.isLt
  rw [BitVec.toInt_eq_toNat_cond] at hlo hhi ⊢
  rw [qVal, sInt]
  omega

/-! ### The checks and the sum (R159 to R161) -/

section sum
variable {a : AmAcc} {v : Int} {sc : Nat} {tov : Bool}

theorem accumulate_mismatch (h : a.scale.toNat < sc) : accumulate a v sc tov = (a, some 3) := if_pos h

theorem accumulate_fits (h : sc ≤ a.scale.toNat)
    (hfits : -(2 : Int) ^ 323 ≤ a.val.toInt + v * 10 ^ (a.scale.toNat - sc)
      ∧ a.val.toInt + v * 10 ^ (a.scale.toNat - sc) < 2 ^ 323) :
    accumulate a v sc tov =
      ({ a with val := BitVec.ofInt 324 (a.val.toInt + v * 10 ^ (a.scale.toNat - sc)) }, none) := by
  refine (if_neg (Nat.not_lt.mpr h)).trans ((if_pos ((accFits_iff _).mpr hfits)).trans ?_)
  rw [AmAcc.put_eq]
  rfl

theorem accumulate_overflow (h : sc ≤ a.scale.toNat)
    (hfits : ¬ (-(2 : Int) ^ 323 ≤ a.val.toInt + v * 10 ^ (a.scale.toNat - sc)
      ∧ a.val.toInt + v * 10 ^ (a.scale.toNat - sc) < 2 ^ 323)) :
    accumulate a v sc tov = ({ a with ov := true }, if tov then some 4 else none) :=
  (if_neg (Nat.not_lt.mpr h)).trans (if_neg (mt (accFits_iff _).mp hfits))

end sum

/-- The checks of the operands `ws`, and the sum of the accumulator and `v` at scale `sc`, in the order of the codes. -/
def checkedSum (a : AmAcc) (short : Bool) (ws : List Int) (v : Int) (sc : Nat) (tov : Bool) : AmAcc × Option Nat :=
  if ∃ w ∈ ws, ¬ QuantityRange w then (a, some 1)
  else if short = true ∧ ∃ w ∈ ws, ¬ ShortRange w then (a, some 2)
  else accumulate a v sc tov

section checks
variable {a : AmAcc} {short tov : Bool} {ws : List Int} {v : Int} {sc : Nat}

theorem checkedSum_operand (h : ∃ w ∈ ws, w < -(2 : Int) ^ 125 ∨ 2 ^ 125 ≤ w) :
    checkedSum a short ws v sc tov = (a, some 1) := by
  simp only [← not_quantityRange_iff] at h
  exact if_pos h

theorem checkedSum_short (h : ∀ w ∈ ws, QuantityRange w) (hshort : short = true)
    (hout : ∃ w ∈ ws, w < -(2 : Int) ^ 53 ∨ 2 ^ 53 ≤ w) : checkedSum a short ws v sc tov = (a, some 2) := by
  simp only [← not_shortRange_iff] at hout
  exact (if_neg (fun ⟨w, hw, hn⟩ => hn (h w hw))).trans (if_pos ⟨hshort, hout⟩)

theorem checkedSum_of_ranges (h : ∀ w ∈ ws, QuantityRange w) (hshort : short = true → ∀ w ∈ ws, ShortRange w) :
    checkedSum a short ws v sc tov = accumulate a v sc tov :=
  (if_neg (fun ⟨w, hw, hn⟩ => hn (h w hw))).trans (if_neg (fun ⟨hs, w, hw, hn⟩ => hn (hshort hs w hw)))

end checks

theorem exists_mem_pair {P : Int → Prop} (v w : Int) : (∃ u ∈ [v, w], P u) ↔ P v ∨ P w := by simp

/-- AMAC and AMACS check two lanes and add their product at the sum of their scales. -/
theorem macResult_eq_checkedSum (k : Core) (l short : Bool) (x : Fin 8) (va vb : Reg) :
    macResult k l short x va vb = checkedSum k.acc[x] short [(laneOf k.v[va] l).toInt, (laneOf k.v[vb] l).toInt]
      ((laneOf k.v[va] l).toInt * (laneOf k.v[vb] l).toInt) (k.amSA + k.amSB) k.tov := by
  rw [macResult, checkedSum]
  generalize laneOf k.v[va] l = p, laneOf k.v[vb] l = q
  by_cases hc : qCanonical p = true ∧ qCanonical q = true
  · obtain ⟨hp, hq⟩ := hc
    have hshort : (short && !((decide (-(2 : Int) ^ 53 ≤ p.toInt) && decide (p.toInt ≤ 2 ^ 53 - 1))
          && (decide (-(2 : Int) ^ 53 ≤ q.toInt) && decide (q.toInt ≤ 2 ^ 53 - 1)))) = true
        ↔ short = true ∧ ∃ w ∈ [p.toInt, q.toInt], ¬ ShortRange w := by
      rw [exists_mem_pair, ← not_and_or]
      simp only [Bool.and_eq_true, Bool.not_eq_true', ← Bool.not_eq_true, decide_eq_true_eq, Int.le_sub_one_iff]
    have hrange : ¬ ∃ w ∈ [p.toInt, q.toInt], ¬ QuantityRange w := by
      rw [exists_mem_pair, ← qCanonical_iff, ← qCanonical_iff]
      simp [hp, hq]
    rw [if_neg (by simp [hp, hq]), qVal_of_canonical hp, qVal_of_canonical hq]
    exact (if_congr hshort rfl rfl).trans (if_neg hrange).symm
  · rw [not_and_or] at hc
    rw [if_pos (by simpa using hc)]
    rw [qCanonical_iff, qCanonical_iff] at hc
    rw [if_pos ((exists_mem_pair ..).mpr hc)]

/-! ### The instructions (R162) -/

section accumulating
variable {s : State} {c met n : Nat} {l : Bool} {x : Fin 8} {reads : List LDest} {i : Instr} {body : State → Done}
  {a : AmAcc}

theorem exec_accDone_ok (hr : s.Ready c false reads) (hi : exec i s = .next (s.issue c met false reads [.a x] body))
    (hb : body (s.begun c false reads [.a x]) = accDone (s.begun c false reads [.a x]) c x l (a, none)) :
    exec i s = .next ((s.begun c false reads [.a x]).after c met (fun k => k.setA x a)) :=
  hi.trans (congrArg Host.Outcome.next (State.issue_after hr hb rfl))

theorem exec_accDone_trap (hr : s.Ready c false reads) (hi : exec i s = .next (s.issue c met false reads [.a x] body))
    (hb : body (s.begun c false reads [.a x]) = accDone (s.begun c false reads [.a x]) c x l (a, some n)) :
    exec i s = .next (s.orWait (((s.begun c false reads [.a x]).modCore c (fun k => k.setA x a)).trapped c met
      (amberTrap n x l))) :=
  hi.trans (congrArg Host.Outcome.next (State.issue_exc hr hb))

/-- An accumulating instruction that leaves its accumulator leaves its core. -/
theorem State.begun_setA_self (s : State) (c : Nat) (reads writes : List LDest) (x : Fin 8) :
    (s.begun c false reads writes).modCore c (fun k => k.setA x ((s.begun c false reads writes).core c).acc[x]) =
      s.begun c false reads writes :=
  State.begun_modCore_self (congrArg (fun acc => { (s.begun c false reads writes).core c with acc })
    (Vector.set_getElem_self _))

/-- A code that changes no flag is an event of the state begun in. -/
theorem accDone_unchanged (s : State) (c : Nat) (reads writes : List LDest) (x : Fin 8) (l : Bool) (n : Nat) :
    accDone (s.begun c false reads writes) c x l (((s.begun c false reads writes).core c).acc[x], some n) =
      .exc (s.begun c false reads writes) (amberTrap n x l) :=
  congrArg (fun t => Done.exc t (amberTrap n x l)) (State.begun_setA_self ..)

/-- AADD and ASUB check their lane and add its number, or its negative, at scale SA. -/
theorem amAdd_work {va : Reg} {sg v : Int} (reads : List LDest)
    (hv : sg * (laneOf ((s.begun c false reads [.a x]).core c).v[va] l).toInt = v) :
    let b := s.begun c false reads [.a x]
    let k := b.core c
    let q := laneOf k.v[va] l
    (if !qCanonical q then Done.exc b (amberTrap 1 x l)
      else accDone b c x l (accumulate k.acc[x] (sg * qVal q) k.amSA k.tov)) =
    accDone b c x l (checkedSum k.acc[x] false [q.toInt] v k.amSA k.tov) := by
  intro b k q
  rw [← hv]
  by_cases hq : qCanonical q = true
  · have hrange : ∀ w ∈ [q.toInt], QuantityRange w := List.forall_mem_singleton.mpr ((qCanonical_iff q).mp hq)
    rw [if_neg (by simp [hq]), qVal_of_canonical hq, checkedSum_of_ranges hrange (fun h => absurd h Bool.false_ne_true)]
  · have hout : ∃ w ∈ [q.toInt], ¬ QuantityRange w := ⟨_, List.mem_singleton_self _, mt (qCanonical_iff q).mpr hq⟩
    rw [if_pos (by simpa using hq), checkedSum, if_pos hout]
    exact (accDone_unchanged ..).symm

/-- AMAC, attached, ends as AMACS does. -/
theorem amac_work {b : State} (hd : (b.core c).detached = false) (r : AmAcc × Option Nat) :
    (match r.2 with
      | none => longDone c (.a x) (.a r.1) 0 none b
      | some n => longDone c (.a x) .none 0 (some (amberTrap n x l))
        (b.modCore c (fun k => { k with acc := k.acc.set x r.1 }))) = accDone b c x l r := by
  obtain ⟨a, _ | n⟩ := r
  · refine (longDone_attached hd).trans (congrArg Done.ok (State.modCore_congr ?_))
    rw [Core.raises_zero]
    rfl
  · refine (longDone_attached_exc (by rw [State.core_modCore]; exact hd)).trans ?_
    rw [State.modCore_modCore]
    exact congrArg (fun t => Done.exc t (amberTrap n x l)) (State.modCore_congr (Core.raises_zero _))

end accumulating

/-- Settles O26: each instruction is the checked sum of its operands, whose cases are the codes in order. -/
theorem accumulateResults : Obligations.AccumulateResults := by
  intro s c l x va vb ops q sa sab
  have hops {i : Instr} {met : Nat} {reads : List LDest} {short : Bool} {sc : Core → Nat} {ws : Core → List Int}
      {v : Core → Int} {body : State → Done} (hi : exec i s = .next (s.issue c met false reads [.a x] body))
      (hb : let b := s.begun c false reads [.a x]
        let k := b.core c
        body b = accDone b c x l (checkedSum k.acc[x] short (ws k) (v k) (sc k) k.tov)) :
      ops i met reads short sc ws v := by
    intro hr b k a sum fits traps
    have htrap {n : Nat} (h : checkedSum a short (ws k) (v k) (sc k) k.tov = (a, some n)) : traps b n :=
      (exec_accDone_trap hr hi (hb.trans (congrArg _ h))).trans (by rw [State.begun_setA_self])
    refine ⟨fun hout => htrap (checkedSum_operand hout), fun hrange =>
      ⟨fun hs hout => htrap (checkedSum_short hrange hs hout), fun hshort => ?_⟩⟩
    have hsum := checkedSum_of_ranges (a := a) (v := v k) (sc := sc k) (tov := k.tov) hrange hshort
    refine ⟨fun hsc => htrap (hsum.trans (accumulate_mismatch hsc)),
      fun hsc hfits => exec_accDone_ok hr hi (hb.trans (congrArg _ (hsum.trans (accumulate_fits hsc hfits)))),
      fun hsc hfits htov => exec_accDone_ok hr hi (hb.trans (congrArg _ (hsum.trans ?_))),
      fun hsc hfits htov => exec_accDone_trap hr hi (hb.trans (congrArg _ (hsum.trans ?_)))⟩
    all_goals
      rw [accumulate_overflow hsc hfits, Core.tov, htov]
      rfl
  clear_value ops
  refine ⟨hops rfl ?add, hops rfl ?sub, hops rfl ?macs, fun hd => hops rfl ?mac⟩
  case add => exact amAdd_work _ (one_mul _)
  case sub => exact amAdd_work _ (neg_one_mul _)
  case macs => exact congrArg _ (macResult_eq_checkedSum ..)
  case mac => exact (amac_work hd _).trans (congrArg _ (macResult_eq_checkedSum ..))

end Sys2Proof.Machine
end

section
/-! SUPPORT. Ready reports, the root's sampling and the tick boundary (R174 to R177, R193, R196, R434). -/

namespace Sys2Proof.Machine

/-! ### Reports (R176, R434) -/

section reports
variable {s : State} {a : Nat} {rep : Bool}

theorem exec_readyEvaluation (hup : s.up = true) (ha : a ∈ s.allAgents) (ho : s.noon.ordered = false) :
    let f := s.failing a (212 + 30 * s.noon.k)
    exec (.readyEvaluation a) s =
      .next (if f = 0 then s.setReport a true (s.missedOf a) else s.setReport a false f) :=
  congrArg Host.Outcome.next (if_neg (by simp [hup, ha, ho]))

theorem State.setReport_block {missed : Nat} (h : a < 128) :
    s.setReport a rep missed = s.modBlock a (fun x => { x with reported := rep, missed := missed }) := if_pos h

theorem State.setReport_region {missed : Nat} (h : 128 ≤ a) :
    s.setReport a rep missed = s.modRegion (a - 128) (fun x => { x with iosReported := rep, iosMissed := missed }) :=
  if_neg (Nat.not_lt.mpr h)

theorem State.reportedOf_block (h : a < 128) : s.reportedOf a = (s.block a).reported := if_pos h

theorem State.reportedOf_region (h : 128 ≤ a) : s.reportedOf a = (s.region (a - 128)).iosReported :=
  if_neg (Nat.not_lt.mpr h)

/-- A report that leaves the failed conditions of the agent changes its flag alone. -/
theorem State.setReport_missedOf (s : State) (a : Nat) (rep : Bool) :
    (a < 128 → s.setReport a rep (s.missedOf a) = s.modBlock a (fun x => { x with reported := rep }))
    ∧ (128 ≤ a → s.setReport a rep (s.missedOf a) = s.modRegion (a - 128) (fun x => { x with iosReported := rep })) := by
  refine ⟨fun h => ?_, fun h => ?_⟩
  · rw [State.setReport_block h, State.missedOf, if_pos h]; rfl
  · rw [State.setReport_region h, State.missedOf, if_neg (Nat.not_lt.mpr h)]; rfl

theorem State.setReport_noon (s : State) (a : Nat) (rep : Bool) (missed : Nat) :
    (s.setReport a rep missed).noon = s.noon := by
  unfold State.setReport
  split <;> rfl

theorem State.reportedOf_setReport (s : State) (a : Nat) (rep : Bool) (missed : Nat) :
    (s.setReport a rep missed).reportedOf a = rep := by
  rcases Nat.lt_or_ge a 128 with h | h
  · rw [State.setReport_block h, State.reportedOf_block h, State.block_modBlock]
  · rw [State.setReport_region h, State.reportedOf_region h, State.region_modRegion]

theorem State.reportedOf_setReport_ne {x : Nat} (missed : Nat) (hne : x ≠ a) :
    (s.setReport a rep missed).reportedOf x = s.reportedOf x := by
  rcases Nat.lt_or_ge a 128 with h | h <;> rcases Nat.lt_or_ge x 128 with hx | hx
  · rw [State.setReport_block h, State.reportedOf_block hx, State.reportedOf_block hx, State.block_modBlock_ne _ _ hne]
  · rw [State.setReport_block h, State.reportedOf_region hx, State.reportedOf_region hx, State.region_modBlock]
  · rw [State.setReport_region h, State.reportedOf_block hx, State.reportedOf_block hx, State.block_modRegion]
  · rw [State.setReport_region h, State.reportedOf_region hx, State.reportedOf_region hx,
      State.region_modRegion_ne _ _ (by omega)]

end reports

/-! ### The root's sampling (R175, R434) -/

section sampling
variable {s : State}

theorem mem_insNat {l : List Nat} {x k : Nat} : x ∈ insNat l k ↔ x = k ∨ x ∈ l := by
  induction l with
  | nil => simp [insNat]
  | cons i l ih =>
    unfold insNat
    split_ifs with hi
    · simp [hi]
    · simp
    · simp [ih, or_left_comm]

theorem mem_foldl_insNat {l : List Nat} {x : Nat} {acc : List Nat} : x ∈ l.foldl insNat acc ↔ x ∈ acc ∨ x ∈ l := by
  induction l generalizing acc with
  | nil => simp
  | cons i l ih => simp [ih, mem_insNat, or_assoc, or_left_comm]

/-- The agents whose reports the root has. -/
def State.reporters (s : State) : List Nat := s.allAgents.filter s.reportedOf

/-- The reports of a list of agents are withdrawn. -/
def State.withdraw (s : State) (l : List Nat) : State := l.foldl (fun s a => s.setReport a false (s.missedOf a)) s

theorem State.withdraw_noon (s : State) (l : List Nat) : (s.withdraw l).noon = s.noon :=
  State.foldl_frame State.noon fun t a => t.setReport_noon a _ _

theorem State.setReport_keeps_unreported {x : Nat} (a missed : Nat) (h : s.reportedOf x = false) :
    (s.setReport a false missed).reportedOf x = false := by
  by_cases hx : x = a
  · rw [hx, State.reportedOf_setReport]
  · rwa [State.reportedOf_setReport_ne _ hx]

/-- With the reports of all that have sent one withdrawn, no agent has reported. -/
theorem State.withdraw_unreported {x : Nat} (hx : x ∈ s.allAgents) : (s.withdraw s.reporters).reportedOf x = false := by
  have hkeep : ∀ (t : State), ∀ a ∈ s.reporters, t.reportedOf x = false →
      (t.setReport a false (t.missedOf a)).reportedOf x = false := fun t a _ ht => t.setReport_keeps_unreported a _ ht
  cases hrep : s.reportedOf x with
  | false =>
    exact List.foldlRecOn (motive := fun t => t.reportedOf x = false) s.reporters _ hrep (fun t ht a ha => hkeep t a ha ht)
  | true =>
    exact State.foldl_reach (P := fun t => t.reportedOf x = false) (Q := fun _ => True)
      (List.mem_filter.mpr ⟨hx, hrep⟩) (fun t _ => t.reportedOf_setReport x _ _) hkeep
      (fun _ _ _ _ => trivial) trivial

theorem exec_rootSampling_orders (hup : s.up = true) (ho : s.noon.ordered = false)
    (hall : ∀ x ∈ s.allAgents, s.reportedOf x = true) :
    exec .rootSampling s = .next { s with noon := { s.noon with ordered := true } } :=
  congrArg Host.Outcome.next ((if_neg (by simp [hup, ho])).trans (if_pos (List.all_eq_true.mpr hall)))

theorem exec_rootSampling_stretches (hup : s.up = true) (ho : s.noon.ordered = false)
    (hlate : ∃ x ∈ s.allAgents, s.reportedOf x = false) :
    exec .rootSampling s = .next ((s.withdraw s.reporters).modNoon (fun n =>
      { n with k := n.k + 1, early := s.reporters.foldl insNat n.early })) := by
  obtain ⟨x, hx, hrep⟩ := hlate
  have hnot : ¬ s.allAgents.all s.reportedOf = true := fun h =>
    Bool.noConfusion ((List.all_eq_true.mp h x hx).symm.trans hrep)
  exact congrArg Host.Outcome.next ((if_neg (by simp [hup, ho])).trans (if_neg hnot))

end sampling

/-! ### The boundary (R174 to R177, R196) -/

section boundary
variable {s : State}

theorem State.countStretch_none (h : s.noon.k = 0) : s.countStretch = s := if_pos h

theorem State.countStretch_noon (h : s.noon.k ≠ 0) :
    s.countStretch.noon = { s.noon with
      strcnt := (s.noon.strcnt + 1) % 2 ^ 64, strq := (s.noon.strq + s.noon.k) % 2 ^ 64, strlast := s.stretchWord.1 } := by
  rw [State.countStretch, if_neg h]
  rfl

/-- The count of a stretch changes nothing but its registers and the free values. -/
theorem State.countStretch_frame (s : State) :
    s.countStretch.fuses = s.fuses ∧ s.countStretch.noon.tick = s.noon.tick ∧ s.countStretch.noon.k = s.noon.k
    ∧ s.countStretch.noon.rootT = s.noon.rootT := by
  by_cases h : s.noon.k = 0
  · rw [State.countStretch_none h]
    exact ⟨rfl, rfl, rfl, rfl⟩
  · rw [State.countStretch_noon h]
    refine ⟨?_, rfl, rfl, rfl⟩
    rw [State.countStretch, if_neg h]
    rfl

/-- A block's report and its counts of the tick that ends are cleared. -/
def Block.cleared (x : Block) : Block := { x with reported := false, missed := 0, pubCount := 0, applyEnd := 0 }

/-- A region's I/O stop agent begins a tick without a report. -/
def Region.cleared (x : Region) : Region := { x with iosReported := false, iosMissed := 0, iosEnd := 0 }

/-- The tick is counted, and nothing is stretched, ordered or early in it yet. -/
def Noon.nextTick (n : Noon) : Noon := { n with tick := n.tick + 1, k := 0, ordered := false, early := [] }

theorem State.newTick_noon (s : State) : s.newTick.noon = s.noon.nextTick :=
  (State.foldl_frame (f := fun t r => t.modRegion r Region.cleared) State.noon fun _ _ => rfl).trans
    (State.foldl_frame (f := fun t b => t.modBlock b Block.cleared) (s := s.modNoon Noon.nextTick) State.noon
      fun _ _ => rfl)

/-- The report and the counts of every block are cleared. -/
theorem State.newTick_block {b : Nat} (hb : b ∈ s.allBlocks) :
    (s.newTick.block b).reported = false ∧ (s.newTick.block b).missed = 0 ∧ (s.newTick.block b).pubCount = 0 := by
  have hregions : s.newTick.block b =
      ((s.allBlocks.foldl (fun t c => t.modBlock c Block.cleared) (s.modNoon Noon.nextTick)).block b) :=
    State.foldl_frame (f := fun t r => t.modRegion r Region.cleared) (fun t => t.block b) fun _ _ => rfl
  rw [hregions]
  refine State.foldl_reach (P := fun t => (t.block b).reported = false ∧ (t.block b).missed = 0 ∧ (t.block b).pubCount = 0)
    (Q := fun _ => True) hb (fun t _ => ?_) (fun t c _ ht => ?_) (fun _ _ _ _ => trivial) trivial
  · rw [State.block_modBlock]
    exact ⟨rfl, rfl, rfl⟩
  · by_cases hc : b = c
    · rw [hc, State.block_modBlock]
      exact ⟨rfl, rfl, rfl⟩
    · rwa [State.block_modBlock_ne _ _ hc]

/-- The tick that an ordered boundary begins, before anything is applied. -/
def State.begunTick (s : State) : State := s.countStretch.passTick.newTick

theorem State.begunTick_noon (s : State) : s.begunTick.noon = s.countStretch.passTick.noon.nextTick := State.newTick_noon _

theorem State.begunTick_time (s : State) :
    s.begunTick.noon.tick = s.noon.tick + 1 ∧ s.begunTick.noon.k = 0 ∧ s.begunTick.noon.ordered = false
    ∧ s.begunTick.noon.early = [] ∧ s.begunTick.noon.rootT = s.noon.rootT + 120 * (8 + s.noon.k) := by
  obtain ⟨-, htick, hk, hroot⟩ := s.countStretch_frame
  rw [State.begunTick_noon]
  refine ⟨congrArg (· + 1) htick, rfl, rfl, rfl, ?_⟩
  rw [← hk, ← hroot]
  rfl

theorem State.begunTick_stretch (s : State) :
    s.begunTick.noon.strcnt = s.countStretch.noon.strcnt ∧ s.begunTick.noon.strq = s.countStretch.noon.strq
    ∧ s.begunTick.noon.strlast = s.countStretch.noon.strlast := by
  rw [State.begunTick_noon]
  exact ⟨rfl, rfl, rfl⟩

theorem State.allBlocks_congr {t : State} (h : t.fuses = s.fuses) : t.allBlocks = s.allBlocks := by
  unfold State.allBlocks State.blockPresent State.perRegion State.part
  rw [h]

theorem State.begunTick_block {b : Nat} (hb : b ∈ s.allBlocks) :
    (s.begunTick.block b).reported = false ∧ (s.begunTick.block b).missed = 0 ∧ (s.begunTick.block b).pubCount = 0 :=
  State.newTick_block (by rwa [State.allBlocks_congr (t := s.countStretch.passTick) s.countStretch_frame.1])

theorem exec_tickBoundary (hup : s.up = true) (ho : s.noon.ordered = true) (hw : s.boundary.waits = false) :
    exec .tickBoundary s = .next s.boundary :=
  congrArg Host.Outcome.next ((congrArg s.orWait (if_neg (by simp [hup, ho]))).trans (s.orWait_of hw))

end boundary

end Sys2Proof.Machine
end

section
/-! SUPPORT. WALL: its count of REFCLK periods, its alignment to the second and its loss (R197, R198). -/

namespace Sys2Proof.Machine

/-! ### The count (R197) -/

/-- With no slew left, each REFCLK period adds 10 ns and TRIM to WALL with its hidden fraction. -/
theorem State.passRefs_wall {s : State} {n : Nat} (hslew : s.noon.slew = 0)
    (hadd : 0 ≤ (n : Int) * (10 * 2 ^ 32 + s.noon.trim)) :
    (((s.passRefs n).noon.wall : Int) * 2 ^ 32 + (s.passRefs n).noon.wfrac) =
      ((s.noon.wall : Int) * 2 ^ 32 + s.noon.wfrac + n * (10 * 2 ^ 32 + s.noon.trim)) % 2 ^ 96 := by
  obtain ⟨add, hadd⟩ := Int.eq_ofNat_of_zero_le hadd
  have hused : (if s.noon.slewN ≤ n then s.noon.slew else s.noon.slew * n / s.noon.slewN) = 0 := by simp [hslew]
  have htotal : (s.passRefs n).noon.wall = (s.noon.wall * 2 ^ 32 + s.noon.wfrac + add) / 2 ^ 32 % 2 ^ 64
      ∧ (s.passRefs n).noon.wfrac = (s.noon.wall * 2 ^ 32 + s.noon.wfrac + add) % 2 ^ 32 := by
    unfold State.passRefs
    dsimp only
    rw [hused, hadd, add_zero, Int.toNat_natCast]
    exact ⟨rfl, rfl⟩
  rw [htotal.1, htotal.2, hadd]
  omega

/-- The passing of REFCLK periods changes their count, WALL with its hidden fraction, and the slew that is left. -/
theorem State.passRefs_eq (s : State) (n : Nat) :
    ∃ wall wfrac slew slewN,
      s.passRefs n = s.modNoon (fun x => { x with wall, wfrac, slew, slewN, refs := x.refs + n }) :=
  ⟨_, _, _, _, rfl⟩

theorem State.passRefs_frame (s : State) (n : Nat) :
    (s.passRefs n).slate = s.slate ∧ (s.passRefs n).noon.refs = s.noon.refs + n ∧ (s.passRefs n).noon.trim = s.noon.trim
    ∧ (s.passRefs n).noon.ppsAny = s.noon.ppsAny ∧ (s.passRefs n).noon.ppsAt = s.noon.ppsAt := by
  obtain ⟨wall, wfrac, slew, slewN, h⟩ := s.passRefs_eq n
  rw [h]
  exact ⟨rfl, rfl, rfl, rfl, rfl⟩

/-! ### The alignment to the second (R198) -/

theorem nearestSec_near (v : Nat) :
    1000000000 ∣ nearestSec v ∧ -500000000 ≤ -((v : Int) - nearestSec v) ∧ -((v : Int) - nearestSec v) < 500000000 := by
  unfold nearestSec
  dsimp only
  split <;> omega

section align
variable {s : State} {refs : Nat}

/-- What every accepted edge captures. -/
theorem State.ppsAccept_captures (s : State) :
    s.ppsAccept.noon.cap = s.noon.wall ∧ s.ppsAccept.noon.e = (s.noon.wall : Int) - nearestSec s.noon.wall
    ∧ s.ppsAccept.noon.lost = false ∧ s.ppsAccept.noon.lostPosted = false ∧ s.ppsAccept.noon.ppsAt = s.noon.refs
    ∧ s.ppsAccept.noon.ppsAny = true := by
  unfold State.ppsAccept
  dsimp only
  split_ifs <;> exact ⟨rfl, rfl, rfl, rfl, rfl, rfl⟩

/-- An edge without alignment leaves WALL and its rate. -/
theorem State.ppsAccept_free (h : s.settingN 0x5100 2 0 = 0) :
    s.ppsAccept.noon.wall = s.noon.wall ∧ s.ppsAccept.noon.trim = s.noon.trim ∧ s.ppsAccept.noon.slew = s.noon.slew
    ∧ s.ppsAccept.noon.slewN = s.noon.slewN := by
  unfold State.ppsAccept
  dsimp only
  rw [if_pos h]
  exact ⟨rfl, rfl, rfl, rfl⟩

/-- An edge at which WALL is 1 ms or more behind sets it to the second. -/
theorem State.ppsAccept_steps (h : s.settingN 0x5100 2 0 ≠ 0)
    (he : (s.noon.wall : Int) - nearestSec s.noon.wall ≤ -1000000) :
    (s.ppsAccept.noon.wall : Int) = ((s.noon.wall : Int) - ((s.noon.wall : Int) - nearestSec s.noon.wall)) % 2 ^ 64
    ∧ s.ppsAccept.noon.trim = s.noon.trim := by
  unfold State.ppsAccept
  dsimp only
  rw [if_neg h, if_pos he]
  dsimp only
  exact ⟨by omega, rfl⟩

/-- An edge at which WALL is less behind, or ahead, slews it. -/
theorem State.ppsAccept_slews (h : s.settingN 0x5100 2 0 ≠ 0)
    (he : -1000000 < (s.noon.wall : Int) - nearestSec s.noon.wall) :
    s.ppsAccept.noon.wall = s.noon.wall
    ∧ s.ppsAccept.noon.slew = -((s.noon.wall : Int) - nearestSec s.noon.wall) * 2 ^ 32 := by
  unfold State.ppsAccept
  dsimp only
  rw [if_neg h, if_neg (not_le.mpr he)]
  split_ifs <;> exact ⟨rfl, rfl⟩

theorem State.settingN_congr {t : State} (h : t.slate = s.slate) (idx sub dflt : Nat) :
    t.settingN idx sub dflt = s.settingN idx sub dflt := by
  unfold State.settingN State.setting
  rw [h]

/-- An edge within half a second of the last accepted one. -/
def State.glitchy (s : State) : Prop := s.noon.ppsAny = true ∧ s.noon.refs - s.noon.ppsAt < 50000000

theorem exec_ppsEdge (haon : s.pins.aon = true) (h : s.noon.refs ≤ refs) :
    let p := s.passRefs (refs - s.noon.refs)
    (p.glitchy → exec (.ppsEdge refs) s = .next (p.modNoon (fun x => { x with glitch := (x.glitch + 1) % 2 ^ 32 })))
    ∧ (¬ p.glitchy → exec (.ppsEdge refs) s = .next p.ppsAccept) := by
  intro p
  have hopen : ¬ (!s.pins.aon || decide (refs < s.noon.refs)) = true := by simp [haon, h]
  have hcond : (p.noon.ppsAny && decide (p.noon.refs - p.noon.ppsAt < 50000000)) = true ↔ p.glitchy := by
    simp [State.glitchy]
  exact ⟨fun hg => congrArg Host.Outcome.next ((if_neg hopen).trans (if_pos (hcond.mpr hg))),
    fun hg => congrArg Host.Outcome.next ((if_neg hopen).trans (if_neg (mt hcond.mp hg)))⟩

end align

/-- Settles O41: the report by its agent's failed conditions; the sampling by the reports; the boundary by the tick that
it begins; an edge by its distance from the last accepted one. -/
theorem noonWallResults : Obligations.NoonWallResults := by
  refine ⟨fun s a hup => ⟨?report, ?sample, ?boundary⟩, fun s refs haon => ⟨?edge, ?lost⟩⟩
  case report =>
    intro ha ho f
    have heval := exec_readyEvaluation hup ha ho
    have hreport (h0 : f = 0) : exec (.readyEvaluation a) s = .next (s.setReport a true (s.missedOf a)) :=
      heval.trans (congrArg _ (if_pos h0))
    have hfail (h0 : f ≠ 0) : exec (.readyEvaluation a) s = .next (s.setReport a false f) :=
      heval.trans (congrArg _ (if_neg h0))
    obtain ⟨hblock, hregion⟩ := s.setReport_missedOf a true
    exact ⟨fun hlt h0 => (hreport h0).trans (congrArg _ (hblock hlt)),
      fun hlt h0 => (hfail h0).trans (congrArg _ (State.setReport_block hlt)),
      fun hge h0 => (hreport h0).trans (congrArg _ (hregion hge)),
      fun hge h0 => (hfail h0).trans (congrArg _ (State.setReport_region hge))⟩
  case sample =>
    intro ho
    refine ⟨exec_rootSampling_orders hup ho, fun hlate => ⟨_, exec_rootSampling_stretches hup ho hlate, ?_, ?_, ?_⟩⟩
    · rw [State.noon_modNoon, State.withdraw_noon]
    · intro x
      rw [State.noon_modNoon, State.withdraw_noon, mem_foldl_insNat, State.reporters, List.mem_filter]
    · exact fun x hx => State.withdraw_unreported hx
  case boundary =>
    intro ho u now
    obtain ⟨htick, hk, hord, hearly, hroot⟩ := s.begunTick_time
    obtain ⟨hcnt, hq, hlast⟩ := s.begunTick_stretch
    have hnow : u.noon.tick = now := htick
    clear_value now
    subst hnow
    intro due v w x y z
    have hz : s.boundary = z := rfl
    refine ⟨rfl, hk, hord, hearly, hroot, fun h0 => ?_, fun h0 => ?_, fun b hb => State.begunTick_block hb,
      fun hw => hz ▸ exec_tickBoundary hup ho (hz ▸ hw)⟩
    · rw [State.countStretch_none h0] at hcnt hq hlast
      exact ⟨hcnt, hq, hlast⟩
    · rw [State.countStretch_noon h0] at hcnt hq
      exact ⟨hcnt, hq⟩
  case edge =>
    intro hrefs w n p total
    obtain ⟨hslate, hpassed, htrim, hany, hat⟩ := s.passRefs_frame n
    have hp : p.noon.refs = refs := hpassed.trans (Nat.add_sub_of_le hrefs)
    have hglitchy : p.glitchy ↔ w.ppsAny = true ∧ refs - w.ppsAt < 50000000 := by rw [State.glitchy, hp, hany, hat]
    obtain ⟨hglitch, haccept⟩ := exec_ppsEdge haon hrefs
    refine ⟨hp, htrim, fun hslew hadd _ => State.passRefs_wall hslew hadd,
      fun hw hnear => hglitch (hglitchy.mpr ⟨hw, hnear⟩), fun hfar => ?_⟩
    have hclean : ¬ p.glitchy := by
      rw [hglitchy, not_and_or, Bool.not_eq_true, not_lt]
      exact hfar
    have hsetting : p.settingN 0x5100 2 0 = s.settingN 0x5100 2 0 := State.settingN_congr hslate ..
    obtain ⟨hcap, he, hlost, hposted, hedge, hset⟩ := p.ppsAccept_captures
    obtain ⟨hdvd, hlow, hhigh⟩ := nearestSec_near p.noon.wall
    refine ⟨p.ppsAccept, haccept hclean, hcap, he, hdvd, ?_, ?_, hlost, hposted, hedge.trans hp, hset,
      ?_, ?_, ?_⟩
    · rw [he]; exact hlow
    · rw [he]; exact hhigh
    all_goals rw [← hsetting]
    · exact State.ppsAccept_free
    · rw [he]; exact State.ppsAccept_steps
    · rw [he]; exact State.ppsAccept_slews
  case lost => exact fun h => congrArg Host.Outcome.next (if_neg (by simp [haon, h]))

end Sys2Proof.Machine
end

section
/-! SUPPORT. The agents during a tick: staging, acknowledgement, registration, re-send rounds, timers and the hold limit
(R178, R186, R194, R195, R201, R202). -/

namespace Sys2Proof.Machine

/-! ### The first of a list -/

section first
variable {α : Type} {p : α → Bool} {pre post : List α} {x : α}

theorem find?_first (hpre : ∀ y ∈ pre, p y = false) (hx : p x = true) : (pre ++ x :: post).find? p = some x :=
  List.find?_eq_some_iff_append.mpr ⟨hx, pre, post, rfl, fun y hy => by rw [hpre y hy]; rfl⟩

theorem findIdx_first (hpre : ∀ y ∈ pre, p y = false) (hx : p x = true) :
    (pre ++ x :: post).findIdx p = pre.length := by
  rw [List.findIdx_append, List.findIdx_eq_length.mpr hpre, if_neg (lt_irrefl _), List.findIdx_cons, hx, cond_true,
    zero_add]

end first

theorem State.modBlock_congr {s : State} {b : Nat} {f f' : Block → Block} (h : f (s.block b) = f' (s.block b)) :
    s.modBlock b f = s.modBlock b f' := congrArg (s.setBlock b) h

/-! ### TO stores (R178, R201, R202) -/

section stores
variable {s : State} {b : Nat}

/-- A home in service stages the first published store that waits for it. -/
theorem exec_toStoreStage {q : Nat} {pre post : List Nat} {ps qs : List PubEnt} {p : PubEnt} (hup : s.up = true)
    (hb : s.blockPresent b = true) (hr : s.replacing b = false) (hf : (s.block b).fenced = false)
    (hblocks : s.allBlocks = pre ++ q :: post) (hpub : (s.block q).pub = ps ++ p :: qs) :
    let waiting := fun (y : PubEnt) => !y.staged && decide (s.home (y.gran / 2) = b)
    (∀ x ∈ pre, ∀ y ∈ (s.block x).pub, waiting y = false) → (∀ y ∈ ps, waiting y = false) → waiting p = true →
      exec (.toStoreStage b) s = .next ((s.stageEnt b p).modBlock q (fun x =>
        { x with pub := x.pub.modify ps.length (fun y => { y with staged := true }) })) := by
  intro waiting hpre hps hp
  have hblock : s.allBlocks.find? (fun q => (s.block q).pub.any waiting) = some q := by
    rw [hblocks]
    refine find?_first (fun x hx => List.any_eq_false.mpr fun y hy => Bool.eq_false_iff.mp (hpre x hx y hy)) ?_
    exact List.any_eq_true.mpr ⟨p, by rw [hpub]; exact List.mem_append_cons_self, hp⟩
  refine congrArg Host.Outcome.next ((if_neg (by simp [hup, hb, hr, hf])).trans ?_)
  rw [hblock]
  dsimp only
  rw [hpub, find?_first hps hp]
  dsimp only
  rw [findIdx_first hps hp]

theorem State.stageEnt_kept {p : PubEnt} (h : s.homeLost (p.gran / 2) = false) :
    s.stageEnt b p =
      (s.preChange (p.gran / 2)).modBlock b (fun x => { x with staging := x.staging ++ [{ p with staged := true }] }) :=
  if_neg (Bool.eq_false_iff.mp h)

/-- A block frees the first of its entries that its home has acknowledged. -/
theorem exec_publishAcknowledgement {ps qs : List PubEnt} {p : PubEnt} (hup : s.up = true)
    (hb : s.blockPresent b = true) (hpub : (s.block b).pub = ps ++ p :: qs) (hps : ∀ y ∈ ps, y.staged = false)
    (hp : p.staged = true) :
    exec (.publishAcknowledgement b) s = .next (s.modBlock b (fun x => { x with pub := ps ++ qs })) := by
  refine congrArg Host.Outcome.next ((if_neg (by simp [hup, hb])).trans (State.modBlock_congr ?_))
  rw [hpub, eraseIdx_findIdx_append hps hp]

end stores

/-! ### Actions (R178, R186) -/

section actions
variable {s : State} {b : Nat} {x : NAct}

/-- The first action of a block that has not arrived yet is the one that is registered. -/
theorem exec_actionRegister {pre post : List NAct} (hup : s.up = true) (hb : s.blockPresent b = true)
    (hacts : (s.block b).acts = pre ++ x :: post) (hpre : ∀ y ∈ pre, y.reg = true) (hx : x.reg = false) :
    exec (.actionRegister b) s = .next (s.registerAct b x) := by
  refine congrArg Host.Outcome.next ((if_neg (by simp [hup, hb])).trans ?_)
  rw [hacts, find?_first (fun y hy => by rw [hpre y hy]; rfl) (by rw [hx]; rfl)]

/-- The state with an action registered and kept by its apply buffer. -/
def State.registered (s : State) (b : Nat) (x : NAct) : State :=
  s.modAct b x.key (fun y => { y with reg := true, kept := true })

/-- The actions that stand above the 64 lowest of an apply buffer. -/
def State.excess (s : State) (x : NAct) : List (Nat × NAct) := (s.buffer (s.applier x.body)).drop 64

/-- The line of an action that is due at the next boundary loses its copies in the cores. -/
def State.preChangeDue (s : State) (x : NAct) : State :=
  match actLine x.body with
  | some la => if x.due = s.noon.tick + 1 then s.preChange la else s
  | none => s

theorem State.preChangeDue_idle (h : actLine x.body = none ∨ x.due ≠ s.noon.tick + 1) : s.preChangeDue x = s := by
  unfold State.preChangeDue
  rcases h with h | h
  · rw [h]
  · split
    · exact if_neg h
    · rfl

theorem State.preChangeDue_line {la : Nat} (hl : actLine x.body = some la) (hd : x.due = s.noon.tick + 1) :
    s.preChangeDue x = s.preChange la := by
  unfold State.preChangeDue
  rw [hl]
  exact if_pos hd

/-- An apply buffer with more than its 64 lowest actions returns the first of the others. -/
def State.returnExcess (s : State) (x : NAct) : State :=
  match s.excess x with
  | (b', z) :: _ => s.modAct b' z.key (fun y => { y with kept := false })
  | [] => s

theorem State.registerAct_eq (s : State) (b : Nat) (x : NAct) :
    s.registerAct b x = ((s.registered b x).returnExcess x).preChangeDue x := rfl

theorem State.returnExcess_fits (h : s.excess x = []) : s.returnExcess x = s := by rw [State.returnExcess, h]

theorem State.returnExcess_returns {b' : Nat} {z : NAct} {rest : List (Nat × NAct)} (h : s.excess x = (b', z) :: rest) :
    s.returnExcess x = s.modAct b' z.key (fun y => { y with kept := false }) := by rw [State.returnExcess, h]

end actions

/-! ### The hold limit (R194) -/

section slip
variable {s : State} {c td why : Nat}

/-- A core that holds the boundary is bound (R193). -/
theorem State.bind_of_holds (h : s.holds c = true) : (s.core c).bind = true := (Bool.and_eq_true_iff.mp h).1

/-- Where a core keeps its registers, it keeps its binding and SLIP. -/
theorem State.Spares.slipBits {X : Nat → Prop} {t : State} (h : s.Spares X t) (hc : X c) :
    (t.core c).bind = (s.core c).bind ∧ (t.core c).slip = (s.core c).slip :=
  ⟨congrArg (fun k => k.bind) (h.core c hc), congrArg (fun k => k.slip) (h.core c hc)⟩

/-- A core is unbound with SLIP = 1. -/
def State.slipped (s : State) (c : Nat) : Prop := (s.core c).bind = false ∧ (s.core c).slip = true

theorem State.Spares.slipped {X : Nat → Prop} {t : State} (h : s.Spares X t) (hc : X c) (hs : s.slipped c) :
    t.slipped c := by
  obtain ⟨hb, hl⟩ := h.slipBits hc
  exact ⟨hb.trans hs.1, hl.trans hs.2⟩

/-- A bound core slips; the post and the record change no register. -/
theorem State.slipCore_slipped (h : (s.core c).bind = true) : (s.slipCore c why).slipped c := by
  rw [State.slipCore, if_neg (by simp [h])]
  refine (State.record_spares (State.post_spares (State.Spares.refl (fun _ => True) _) _) _).slipped trivial ?_
  rw [State.slipped, State.core_modCore]
  exact ⟨rfl, rfl⟩

/-- A slip of another core leaves this one's registers. -/
theorem State.slipCore_other {d : Nat} (h : d ≠ c) : s.Spares (· = c) (s.slipCore d why) :=
  State.slipCore_spares (State.Spares.refl _ s) d why h

theorem State.slipCore_keeps_slipped {d : Nat} (h : s.slipped c) : (s.slipCore d why).slipped c := by
  by_cases hd : d = c
  · rwa [hd, State.slipCore_unbound h.1]
  · exact (State.slipCore_other hd).slipped rfl h

/-- Every core of the domain that holds the boundary slips. -/
def State.slipCores (s : State) (td : Nat) : State :=
  (s.allCores.filter (fun c => decide ((s.core c).tdid = td) && s.holds c)).foldl (fun s c => s.slipCore c 1) s

/-- The engines of the domain that hold the boundary lose their holds, each with a record. -/
def State.slipEngines (s : State) (td : Nat) : State :=
  (List.range 8).foldl (fun s r =>
    (((s.fn r).insts.filter (fun e => decide (e.2.td = td) && s.instHolds e.2))).foldl (fun s e =>
      match e.2.hold with
      | some (tail, _) =>
        (s.modInst r e.1 (fun x => { x with hold := none })).record
          (recAt (srcAgent (128 + r)) 2 0 0x0202 (some td) none
            ([e.1, 0, tail % 256, tail / 256 % 256, 0, 0, 0, 0] ++ (natLe 8 (s.noon.tick + 1)).map (·.toNat)) 0)
      | none => s) s) s

theorem exec_holdLimitSlip (hup : s.up = true) (htd : td < 64) (ho : s.noon.ordered = false)
    (hlimit : 240 * s.quotaHold td < 30 * s.noon.k) :
    exec (.holdLimitSlip td) s = .next ((s.slipCores td).slipEngines td) :=
  congrArg Host.Outcome.next (if_neg (by simp [hup, htd, ho, hlimit]))

theorem mem_slipping {d : Nat} (hd : d ∈ s.allCores) :
    d ∈ s.allCores.filter (fun c => decide ((s.core c).tdid = td) && s.holds c) ↔
      (s.core d).tdid = td ∧ s.holds d = true := by
  simp [hd]

/-- A slip of engines changes no register of a core. -/
theorem State.slipEngines_spares (s : State) (td : Nat) : s.Spares (fun _ => True) (s.slipEngines td) := by
  refine State.Spares.foldl (State.Spares.refl _ s) fun t r ht => State.Spares.foldl ht fun u e hu => ?_
  split
  · exact State.record_spares (State.modInst_spares hu ..) _
  · exact hu

theorem State.slipCores_slipped {d : Nat} (hd : d ∈ s.allCores) (htd : (s.core d).tdid = td) (hh : s.holds d = true) :
    (s.slipCores td).slipped d := by
  refine State.foldl_reach (P := (·.slipped d)) (Q := fun t => (t.core d).bind = true ∨ t.slipped d)
    ((mem_slipping hd).mpr ⟨htd, hh⟩) (fun t ht => ?_) (fun t c _ ht => t.slipCore_keeps_slipped ht) (fun t c _ ht => ?_)
    (Or.inl (State.bind_of_holds hh))
  · exact ht.elim State.slipCore_slipped State.slipCore_keeps_slipped
  · by_cases hc : c = d
    · exact Or.inr (hc ▸ (hc ▸ ht).elim State.slipCore_slipped State.slipCore_keeps_slipped)
    · obtain ⟨hb, -⟩ := (State.slipCore_other (s := t) (why := 1) hc).slipBits rfl
      exact ht.imp hb.trans State.slipCore_keeps_slipped

theorem State.slipCores_other {d : Nat} (hd : d ∈ s.allCores) (h : (s.core d).tdid ≠ td ∨ s.holds d = false) :
    s.Spares (· = d) (s.slipCores td) := by
  refine List.foldlRecOn _ _ (State.Spares.refl _ s) fun t ht c hc => ht.trans (State.slipCore_other ?_)
  rintro rfl
  obtain ⟨htd, hh⟩ := (mem_slipping hd).mp hc
  exact h.elim (· htd) (fun hn => Bool.noConfusion (hh.symm.trans hn))

end slip

/-- Settles O42: each command by the first entry that it takes; a slip by the registers that the other changes of the
hold limit leave. -/
theorem noonAgentResults : Obligations.NoonAgentResults := by
  intro s a b c td hup
  refine ⟨?stage, ?acknowledge, ?register, ?resend, ?timer, ?slip⟩
  case stage =>
    intro hb hr hf q pre post ps p qs hblocks hpub waiting hpre hps hp hlost
    rw [← State.stageEnt_kept hlost]
    exact exec_toStoreStage hup hb hr hf hblocks hpub hpre hps hp
  case acknowledge => exact fun hb ps p qs hpub hps hp => exec_publishAcknowledgement hup hb hpub hps hp
  case register =>
    intro hb pre x post hacts hpre hx r full
    have hreg : exec (.actionRegister b) s = .next ((r.returnExcess x).preChangeDue x) :=
      (exec_actionRegister hup hb hacts hpre hx).trans (congrArg _ (s.registerAct_eq b x))
    refine ⟨fun hfull hidle => ?_, fun hfull la hl hd => ?_, fun b' z rest hfull hidle => ?_⟩
    · rw [hreg, State.returnExcess_fits hfull]
      exact congrArg _ (State.preChangeDue_idle hidle)
    · rw [hreg, State.returnExcess_fits hfull]
      exact congrArg _ (State.preChangeDue_line hl hd)
    · rw [hreg, State.returnExcess_returns hfull]
      exact congrArg _ (State.preChangeDue_idle hidle)
  case resend =>
    intro ha hdue hopen hw
    have hgo : ¬ (!s.up || !s.allAgents.contains a || !s.returnedDue a
        || (decide (a < 128) && (s.block a).fenced)) = true := by
      simpa [hup, ha, hdue] using hopen
    exact congrArg Host.Outcome.next ((congrArg s.orWait (if_neg hgo)).trans (s.orWait_of hw))
  case timer => exact fun hc hd => congrArg Host.Outcome.next (if_neg (by simp [hup, hc, hd]))
  case slip =>
    intro htd ho hlimit
    refine ⟨_, exec_holdLimitSlip hup htd ho hlimit, fun d hd => ⟨fun hdom hh => ?_, fun h => ?_⟩⟩
    · exact (State.slipEngines_spares _ td).slipped trivial (State.slipCores_slipped hd hdom hh)
    · exact ((State.slipCores_other hd h).trans ⟨fun c _ => (State.slipEngines_spares _ td).core c trivial⟩).slipBits rfl

end Sys2Proof.Machine
end

section
/-! SUPPORT. Supplies, RESET_N, the thermal trip and the chip-fatal stop that they bring (R197, R425 to R430). -/

namespace Sys2Proof.Machine

section electrical
variable {s : State}

/-- A rail group in range or out of it is one bit of object 0x2320, and no more while a rail group is out of range or
PWRGOOD is already high. -/
theorem exec_railRangeChange_kept {b : Nat} {inRange : Bool} (haon : s.pins.aon = true) (hb : b < 7) :
    let t : State := { s with pins := { s.pins with rails := setBits s.pins.rails b 1 (bit inRange) } }
    t.pins.rails ≠ 127 ∨ s.pins.pwrgood = true → exec (.railRangeChange b inRange) s = .next t := by
  intro t h
  have hopen : ¬ (!s.pins.aon || decide (7 ≤ b)) = true := by simp [haon, hb]
  refine congrArg Host.Outcome.next ((if_neg hopen).trans (if_neg fun hup => ?_))
  rcases h with hr | hp
  · exact hr hup.1
  · exact Bool.noConfusion (hp.symm.trans hup.2)

/-- The last rail group that comes in range raises PWRGOOD. -/
theorem exec_railRangeChange_raised {b : Nat} {inRange : Bool} (haon : s.pins.aon = true) (hb : b < 7) :
    let t : State := { s with pins := { s.pins with rails := setBits s.pins.rails b 1 (bit inRange) } }
    t.pins.rails = 127 → s.pins.pwrgood = false → exec (.railRangeChange b inRange) s = .next t.pwrgoodUp := by
  intro t hr hp
  have hopen : ¬ (!s.pins.aon || decide (7 ≤ b)) = true := by simp [haon, hb]
  exact congrArg Host.Outcome.next ((if_neg hopen).trans (if_pos ⟨hr, hp⟩))

/-- PWRGOOD high begins the start that waited for it, where REFCLK runs. -/
theorem State.pwrgoodUp_result (s : State) :
    let u : State := { s with pins := { s.pins with pwrgood := true } }
    (s.boot.waitRel = true → s.pins.refclk = true → s.pwrgoodUp = u.begin)
    ∧ (s.boot.waitRel = false ∨ s.pins.refclk = false → s.pwrgoodUp = u) := by
  refine ⟨fun hw hc => if_pos (Bool.and_eq_true_iff.mpr ⟨hw, hc⟩), fun h => if_neg fun hup => ?_⟩
  obtain ⟨hw, hc⟩ := Bool.and_eq_true_iff.mp hup
  exact h.elim (fun hn => Bool.noConfusion (hw.symm.trans hn)) (fun hn => Bool.noConfusion (hc.symm.trans hn))

theorem exec_thermalTrip_cool {die : Int} (h : die < 115000) : exec (.thermalTrip die) s = .next s :=
  congrArg Host.Outcome.next (if_pos (by simp [h]))

theorem exec_thermalTrip_hot {die : Int} (haon : s.pins.aon = true) (h : 115000 ≤ die) :
    exec (.thermalTrip die) s =
      .next (({ s with pins := { s.pins with trip := true } } : State).chipFatal (srcId 12 0 0 0 0) 0x0C0A []) :=
  congrArg Host.Outcome.next (if_neg (by simp [haon, h]))

/-- The loss of PWRGOOD is the chip-fatal stop where RESET_N is high. -/
theorem exec_pwrgoodLoss (haon : s.pins.aon = true) (hp : s.pins.pwrgood = true) :
    let t : State := { s with pins := { s.pins with pwrgood := false } }
    exec .pwrgoodLoss s = .next (if s.pins.resetN then t.chipFatal (srcId 12 0 0 0 0) 0x0C0B [] else t) :=
  congrArg Host.Outcome.next (if_neg (by simp [haon, hp]))

end electrical

/-- Settles O52: the commands that leave a reset state differ only in Noon and the pins; each other command by the pin
or the rail that it changes. -/
theorem electricalResults : Obligations.ElectricalResults := by
  intro s kept
  refine ⟨fun haon => ⟨?reset, ?removed, ?rails, ?cool, ?hot, ?loss⟩, ?powerOn, ?fatal⟩
  case reset =>
    exact ⟨s.resetKeep, congrArg Host.Outcome.next (if_neg (by simp [haon])),
      ⟨rfl, rfl, rfl, rfl, rfl, rfl, rfl, rfl⟩, rfl, rfl, haon⟩
  case removed =>
    exact ⟨_, congrArg Host.Outcome.next (if_neg (by simp [haon])),
      ⟨rfl, rfl, rfl, rfl, rfl, rfl, rfl, rfl⟩, rfl, rfl, rfl⟩
  case rails =>
    intro b inRange hb t
    refine ⟨exec_railRangeChange_kept haon hb, ?_⟩
    intro hr hp u
    obtain ⟨hbegin, hhigh⟩ := t.pwrgoodUp_result
    have hraised := exec_railRangeChange_raised (inRange := inRange) haon hb hr hp
    exact ⟨fun hw hc => hraised.trans (congrArg _ (hbegin hw hc)), fun h => hraised.trans (congrArg _ (hhigh h))⟩
  case cool => exact fun die h => exec_thermalTrip_cool h
  case hot => exact fun die h => exec_thermalTrip_hot haon h
  case loss =>
    intro hp t
    exact ⟨fun hr => (exec_pwrgoodLoss haon hp).trans (congrArg _ (if_pos hr)),
      fun hr => (exec_pwrgoodLoss haon hp).trans (congrArg _ (if_neg (Bool.eq_false_iff.mp hr)))⟩
  case powerOn =>
    exact fun haon => ⟨_, congrArg Host.Outcome.next (if_neg (by simp [haon])),
      ⟨rfl, rfl, rfl, rfl, rfl, rfl, rfl, rfl⟩, rfl, rfl, rfl⟩
  case fatal => exact fun src typ synd h => State.chipFatal_recorded src typ synd h

end Sys2Proof.Machine
end

section
/-! SUPPORT. Reads, writes, merges and scrubs at a memory channel (R223, R230, R244 to R249, R257, R262 to R266, R274,
R276). -/

namespace Sys2Proof.Machine

/-- A channel as it is changed depends on the channel that stands there alone. -/
theorem State.modChan_congr {s : State} {ch : Nat} {f g : Chan → Chan} (h : f (s.chan ch) = g (s.chan ch)) :
    s.modChan ch f = s.modChan ch g :=
  congrArg (fun c : Chan => ({ s with chans := SMap.set s.chans ch c } : State)) h

/-- A region as it is changed depends on the region that stands there alone. -/
theorem State.modRegion_congr {s : State} {r : Nat} {f g : Region → Region} (h : f (s.region r) = g (s.region r)) :
    s.modRegion r f = s.modRegion r g :=
  congrArg (fun x : Region => ({ s with regions := SMap.set s.regions r x } : State)) h

/-! ### A request reaches its channel (R25, R239, R257) -/

section touch
variable {s : State} {ch : Nat}

theorem State.chanTouch_awake (h : (s.chan ch).st ≠ 7) :
    s.chanTouch ch = s.modChan ch (fun c => { c with idle := 0 }) :=
  (if_neg h).trans (State.modChan_congr (by rw [if_neg h]))

theorem State.chanTouch_wakes (h : (s.chan ch).st = 7) :
    s.chanTouch ch = (s.modChan ch (fun c => { c with idle := 0, st := 4 })).modDom (392 + ch)
      (fun d => { d with st := 0, wake := 4 }) :=
  (if_pos h).trans (congrArg (fun t => State.modDom t (392 + ch) _) (State.modChan_congr (by rw [if_pos h])))

theorem State.chanTouch_keyOf (s : State) (ch td ks : Nat) : (s.chanTouch ch).keyOf td ks = s.keyOf td ks := by
  by_cases h : (s.chan ch).st = 7
  · rw [State.chanTouch_wakes h]; rfl
  · rw [State.chanTouch_awake h]; rfl

theorem State.chanTouch_unfenced (h : (s.chan ch).st ≠ 8) : ((s.chanTouch ch).chan ch).st ≠ 8 := by
  by_cases h7 : (s.chan ch).st = 7
  · simp [State.chanTouch_wakes h7]
  · simpa [State.chanTouch_awake h7] using h

/-- The channel serves a line. -/
def State.ServesLine (s : State) (ch la : Nat) : Prop :=
  s.boot.handed = true ∧ inDram (64 * la) = true ∧ s.dramOk (64 * la) = true ∧ s.chanOf (64 * la) = ch

/-- A request for a line that the channel serves is taken. -/
theorem State.ServesLine.taken {la : Nat} (h : s.ServesLine ch la) (hup : s.up = true) :
    (!s.up || !s.boot.handed || !inDram (64 * la) || !s.dramOk (64 * la) || decide (s.chanOf (64 * la) ≠ ch)) =
      false := by
  obtain ⟨hh, hd, hok, hc⟩ := h
  simp [hup, hh, hd, hok, hc]

/-- A write is taken unless the channel is fenced. -/
theorem State.ServesLine.takes_write {la : Nat} (h : s.ServesLine ch la) (hup : s.up = true)
    (hst : (s.chan ch).st ≠ 8) :
    ¬ (!s.up || !s.boot.handed || !inDram (64 * la) || !s.dramOk (64 * la) || decide (s.chanOf (64 * la) ≠ ch)
      || decide ((s.chan ch).st = 8)) = true := by
  rw [h.taken hup, decide_eq_false hst]
  exact Bool.false_ne_true

end touch

/-! ### Reads (R246, R262 to R266) -/

section demand
variable {u : State} {ch : Nat} {q : MReq} {errs : List (Nat × Nat)} {again : Bool}

theorem State.demandRead_queued {x : MReq} (h : (u.chan ch).wrq.find? (fun w => w.la == q.la) = some x) :
    u.demandRead ch q errs again = u.deliverRead q (xtsCross x.key (u.keyOf q.td q.ks) q.la x.data) x.poison := by
  simp only [State.demandRead, h]

section cells
variable (hq : (u.chan ch).wrq.find? (fun w => w.la == q.la) = none)
include hq

theorem State.demandRead_clean {ct : Line} (h : u.cellRead ch q.la errs = .ok ct []) :
    u.demandRead ch q errs again = u.deliverRead q (xtsDecrypt (u.keyOf q.td q.ks) q.la ct) false := by
  simp only [State.demandRead, hq, h, List.isEmpty_nil, if_true]

theorem State.demandRead_corrected {ct : Line} {p : Nat} {ps : List Nat}
    (h : u.cellRead ch q.la errs = .ok ct (p :: ps)) :
    let v := u.countCorrected ch (u.locOf q.la) (p :: ps)
    u.demandRead ch q errs again = v.deliverRead q (xtsDecrypt (v.keyOf q.td q.ks) q.la ct) false := by
  simp only [State.demandRead, hq, h, List.isEmpty_cons, Bool.false_eq_true, if_false]

theorem State.demandRead_poison (h : u.cellRead ch q.la errs = .poison) :
    u.demandRead ch q errs again = u.deliverRead q 0 true := by
  simp only [State.demandRead, hq, h]

theorem State.demandRead_failed (h : u.cellRead ch q.la errs = .bad) :
    u.demandRead ch q errs false = u.modChan ch (fun c => { c with reread := some (q, errs) }) := by
  simp only [State.demandRead, hq, h, Bool.false_eq_true, if_false]

theorem State.demandRead_uncorrectable (h : u.cellRead ch q.la errs = .bad) :
    u.demandRead ch q errs true = (u.declareBad ch q.la (some q.td)).deliverRead q 0 true := by
  simp only [State.demandRead, hq, h, if_true]

end cells

/-- The answers of a demand read, for the command `i` that makes it. -/
theorem demandRead_answers {i : Instr} {s : State} (hi : exec i s = .next (u.demandRead ch q errs again)) :
    let w := (u.chan ch).wrq.find? (fun w => w.la == q.la)
    let key := u.keyOf q.td q.ks
    (∀ x, w = some x → exec i s = .next (u.deliverRead q (xtsCross x.key key q.la x.data) x.poison))
    ∧ (w = none →
      (∀ ct, u.cellRead ch q.la errs = .ok ct [] → exec i s = .next (u.deliverRead q (xtsDecrypt key q.la ct) false))
      ∧ (∀ ct p ps, u.cellRead ch q.la errs = .ok ct (p :: ps) → exec i s =
        .next (let v := u.countCorrected ch (u.locOf q.la) (p :: ps)
          v.deliverRead q (xtsDecrypt (v.keyOf q.td q.ks) q.la ct) false))
      ∧ (u.cellRead ch q.la errs = .poison → exec i s = .next (u.deliverRead q 0 true))
      ∧ (u.cellRead ch q.la errs = .bad →
        (again = false → exec i s = .next (u.modChan ch (fun c => { c with reread := some (q, errs) })))
        ∧ (again = true → exec i s = .next ((u.declareBad ch q.la (some q.td)).deliverRead q 0 true)))) := by
  refine ⟨fun x hx => hi.trans (congrArg _ (State.demandRead_queued hx)), fun hq => ⟨fun ct h => ?_,
    fun ct p ps h => ?_, fun h => ?_, fun h => ⟨?_, ?_⟩⟩⟩
  · exact hi.trans (congrArg _ (State.demandRead_clean hq h))
  · exact hi.trans (congrArg _ (State.demandRead_corrected hq h))
  · exact hi.trans (congrArg _ (State.demandRead_poison hq h))
  · rintro rfl
    exact hi.trans (congrArg _ (State.demandRead_failed hq h))
  · rintro rfl
    exact hi.trans (congrArg _ (State.demandRead_uncorrectable hq h))

end demand

section memRead
variable {s u : State} {ch la td ks : Nat} {errs : List (Nat × Nat)}

theorem exec_memRead_fenced (hup : s.up = true) (h : s.ServesLine ch la) (hst : (s.chan ch).st = 8) :
    exec (.memRead ch la td ks errs) s = .next (s.deliverRead { MReq.reset with la, td, ks } 0 true) :=
  congrArg Host.Outcome.next ((if_neg (Bool.eq_false_iff.mp (h.taken hup))).trans (if_pos hst))

section unfenced
variable (hup : s.up = true) (h : s.ServesLine ch la) (hst : (s.chan ch).st ≠ 8)
  (hu : (s.chanTouch ch).mergeClose ch la = u)
include hup h hst hu

theorem exec_memRead_issued (hfree : (u.chan ch).bankFree (u.locOf la).bankNo = true)
    (hre : (u.chan ch).reread = none) :
    exec (.memRead ch la td ks errs) s = .next (u.demandRead ch { MReq.reset with la, td, ks } errs false) := by
  subst hu
  exact congrArg Host.Outcome.next (((if_neg (Bool.eq_false_iff.mp (h.taken hup))).trans (if_neg hst)).trans
    (if_pos (by rw [hfree, hre]; rfl)))

theorem exec_memRead_queued (hbusy : (u.chan ch).bankFree (u.locOf la).bankNo = false ∨ (u.chan ch).reread ≠ none)
    (hacc : (u.chan ch).accepts = true)
    (hroom : ((u.chan ch).rdq.filter (fun r => u.subOf r.la == u.subOf la)).length < 64) :
    exec (.memRead ch la td ks errs) s = .next
      ((u.modChan ch (fun c => { c with rdq := c.rdq ++ [{ MReq.reset with la, td, ks }] })).setDrains ch) := by
  subst hu
  refine congrArg Host.Outcome.next (((if_neg (Bool.eq_false_iff.mp (h.taken hup))).trans (if_neg hst)).trans
    ((if_neg fun hissue => ?_).trans (if_neg (by simp [hacc, hroom]))))
  obtain ⟨hfree, hre⟩ := Bool.and_eq_true_iff.mp hissue
  exact hbusy.elim (fun hb => Bool.noConfusion (hfree.symm.trans hb)) (fun hn => hn (Option.isNone_iff_eq_none.mp hre))

end unfenced
end memRead

section dramReread
variable {s : State} {ch : Nat} {q : MReq} {e0 errs : List (Nat × Nat)} (hup : s.up = true)
  (hre : (s.chan ch).reread = some (q, e0)) (hst : (s.chan ch).st = 4)
include hup hre hst

theorem exec_dramReread :
    let u := s.modChan ch (fun c => { c with reread := none })
    exec (.dramReread ch errs) s =
      .next (if q.scrub then u.scrubCell ch q.la errs true else u.demandRead ch q errs true) := by
  refine congrArg Host.Outcome.next ?_
  simp only [hre, hup, hst, ne_eq, not_true_eq_false, decide_false, Bool.not_true, Bool.or_false, Bool.false_eq_true,
    if_false]

theorem exec_dramReread_demand (hq : q.scrub = false) : exec (.dramReread ch errs) s =
    .next ((s.modChan ch (fun c => { c with reread := none })).demandRead ch q errs true) :=
  (exec_dramReread hup hre hst).trans (congrArg _ (if_neg (Bool.eq_false_iff.mp hq)))

theorem exec_dramReread_scrub (hq : q.scrub = true) : exec (.dramReread ch errs) s =
    .next ((s.modChan ch (fun c => { c with reread := none })).scrubCell ch q.la errs true) :=
  (exec_dramReread hup hre hst).trans (congrArg _ (if_pos hq))

end dramReread

/-! ### Writes (R245, R246, R248) -/

/-- A full-line write as it stands in its queue. -/
def State.lineWrite (s : State) (la td ks : Nat) (data : Line) (poison : Bool) : MReq :=
  { MReq.reset with wr := true, la, td, ks, data, poison, key := s.keyOf td ks }

theorem State.lineWrite_chanTouch (s : State) (ch la td ks : Nat) (data : Line) (poison : Bool) :
    (s.chanTouch ch).lineWrite la td ks data poison = s.lineWrite la td ks data poison := by
  rw [State.lineWrite, State.chanTouch_keyOf]; rfl

section memWrite
variable {s u : State} {ch la td ks : Nat} {data : Line} {poison : Bool} (hup : s.up = true) (h : s.ServesLine ch la)
  (hst : (s.chan ch).st ≠ 8) (hu : s.chanTouch ch = u) (hacc : (u.chan ch).accepts = true)
include hup h hst hu hacc

theorem exec_memWrite_replaces (hw : ∃ w ∈ (u.chan ch).wrq, w.la = la) :
    exec (.memWrite ch la td ks data poison) s = .next (u.modChan ch (fun c => { c with
      merge := c.merge.filter (fun m => m.la != la)
      wrq := c.wrq.map (fun w =>
        if w.la == la then { u.lineWrite la td ks data poison with passed := w.passed } else w) })) := by
  subst hu
  rw [State.lineWrite_chanTouch]
  exact congrArg Host.Outcome.next ((if_neg (h.takes_write hup hst)).trans ((if_neg (by simp [hacc])).trans
    (if_pos (by simpa using hw))))

theorem exec_memWrite_enters (hw : ∀ w ∈ (u.chan ch).wrq, w.la ≠ la)
    (hroom : ((u.chan ch).wrq.filter (fun w => s.subOf w.la == s.subOf la)).length < 64) :
    exec (.memWrite ch la td ks data poison) s = .next ((u.modChan ch (fun c => { c with
      merge := c.merge.filter (fun m => m.la != la)
      wrq := c.wrq ++ [u.lineWrite la td ks data poison] })).setDrains ch) := by
  subst hu
  rw [State.lineWrite_chanTouch]
  exact congrArg Host.Outcome.next ((if_neg (h.takes_write hup hst)).trans ((if_neg (by simp [hacc])).trans
    ((if_neg (by simpa using hw)).trans (if_neg (Nat.not_le.mpr hroom)))))

end memWrite

/-! ### Partial writes gather (R248) -/

/-- The merge-buffer entry that a partial write opens. -/
def mergeOpen (la td ks off : Nat) (bs : List Byte) : MergeEnt :=
  { la, mask := BitVec.ofNat 64 (maskOf off bs.length), data := linePut 0 off bs, td, ks }

/-- A merge-buffer entry with the bytes of a further partial write. -/
def MergeEnt.gather (m : MergeEnt) (off : Nat) (bs : List Byte) : MergeEnt :=
  { m with mask := BitVec.ofNat 64 (m.mask.toNat ||| maskOf off bs.length), data := linePut m.data off bs }

section memPartial
variable {s u : State} {ch la td ks off : Nat} {bs : List Byte} (hch : s.chanOf (64 * la) = ch)
  (hst : (s.chan ch).st ≠ 8) (hu : s.chanTouch ch = u)
include hch hst hu

theorem State.memPartial_opens (hnew : ∀ x ∈ (u.chan ch).merge, x.la ≠ la) (hroom : (u.chan ch).merge.length < 32) :
    s.memPartial la td ks off bs =
      u.modChan ch (fun c => { c with merge := c.merge ++ [mergeOpen la td ks off bs] }) := by
  have hnone : (u.chan ch).merge.find? (fun m => m.la == la) = none := by simpa [List.find?_eq_none] using hnew
  subst hu
  simp only [State.memPartial, hch, if_neg (State.chanTouch_unfenced hst), hnone]
  split
  · rw [if_neg (Nat.not_le.mpr hroom)]; rfl
  · rfl

theorem State.memPartial_displaces (hnew : ∀ x ∈ (u.chan ch).merge, x.la ≠ la) {o : MergeEnt} {rest : List MergeEnt}
    (hold : (u.chan ch).merge = o :: rest) (hfull : 32 ≤ (u.chan ch).merge.length) :
    s.memPartial la td ks off bs =
      (u.mergeClose ch o.la).modChan ch (fun c => { c with merge := c.merge ++ [mergeOpen la td ks off bs] }) := by
  have hnone : (u.chan ch).merge.find? (fun m => m.la == la) = none := by simpa [List.find?_eq_none] using hnew
  subst hu
  rw [hold] at hnone hfull
  simp only [State.memPartial, hch, if_neg (State.chanTouch_unfenced hst), hold, hnone, if_pos hfull]
  rfl

section held
variable {x : MergeEnt} (hx : (u.chan ch).merge.find? (fun m => m.la == la) = some x)
include hx

theorem State.memPartial_rekeys (hkey : x.td ≠ td ∨ x.ks ≠ ks) :
    s.memPartial la td ks off bs =
      (u.mergeClose ch la).modChan ch (fun c => { c with merge := c.merge ++ [mergeOpen la td ks off bs] }) := by
  have hother : ¬ (x.td = td ∧ x.ks = ks) := fun ⟨htd, hks⟩ => hkey.elim (· htd) (· hks)
  subst hu
  simp only [State.memPartial, hch, if_neg (State.chanTouch_unfenced hst), hx, if_neg hother]
  rfl

theorem State.memPartial_gathers (htd : x.td = td) (hks : x.ks = ks) :
    let y := x.gather off bs
    let v := u.modChan ch (fun c => { c with merge := c.merge.map (fun z => if z.la == la then y else z) })
    s.memPartial la td ks off bs = if y.mask.toNat = 2 ^ 64 - 1 then v.mergeClose ch la else v := by
  subst hu
  simp only [State.memPartial, hch, if_neg (State.chanTouch_unfenced hst), hx, if_pos (And.intro htd hks)]
  rfl

end held
end memPartial

theorem exec_partialWrite {s : State} {ch pa td ks : Nat} {bytes : List Byte} (hup : s.up = true)
    (hh : s.boot.handed = true) (hd : inDram pa = true) (hok : s.dramOk pa = true) (hch : s.chanOf pa = ch)
    (hne : bytes ≠ []) (hfit : pa % 64 + bytes.length ≤ 64) :
    exec (.partialWrite ch pa td ks bytes) s = .next (s.memPartial (pa / 64) td ks (pa % 64) bytes) :=
  congrArg Host.Outcome.next (if_neg (by simp [hup, hh, hd, hok, hch, hne, hfit]))

/-- An entry that is not full, with a read in error of a line that no queued write holds, reads its line. -/
theorem mergeReads {c : Chan} {m : MergeEnt} {la : Nat} {errs : List (Nat × Nat)} (hmask : m.mask.toNat ≠ 2 ^ 64 - 1)
    (he : errs ≠ []) (hw : ∀ w ∈ c.wrq, w.la ≠ la) :
    ¬ (m.mask.toNat = 2 ^ 64 - 1 ∨ errs = [] ∨ c.wrq.any (fun w => w.la == la) = true) := by
  rintro (h | h | h)
  · exact hmask h
  · exact he h
  · obtain ⟨w, hmem, hla⟩ := List.any_eq_true.mp h
    exact hw w hmem (eq_of_beq hla)

section mergeEntryClose
variable {s : State} {ch la : Nat} {errs : List (Nat × Nat)} {m : MergeEnt} (hup : s.up = true)
  (hm : (s.chan ch).merge.find? (fun m => m.la == la) = some m)
include hup hm

/-- An entry closes at once where its line need not be read with errors. -/
theorem exec_mergeEntryClose_unread (h : m.mask.toNat = 2 ^ 64 - 1 ∨ errs = [] ∨ ∃ w ∈ (s.chan ch).wrq, w.la = la) :
    exec (.mergeEntryClose ch la errs) s = .next (s.mergeClose ch la) := by
  refine congrArg Host.Outcome.next ?_
  simp only [hup, Bool.not_true, Bool.false_eq_true, if_false, hm]
  exact if_pos (by simpa using h)

/-- Over a poisoned line the entry closes at once too. -/
theorem exec_mergeEntryClose_poison (h : s.cellRead ch la errs = .poison) :
    exec (.mergeEntryClose ch la errs) s = .next (s.mergeClose ch la) := by
  refine congrArg Host.Outcome.next ?_
  simp only [hup, Bool.not_true, Bool.false_eq_true, if_false, hm, h, ite_self]

section read
variable (hmask : m.mask.toNat ≠ 2 ^ 64 - 1) (he : errs ≠ []) (hw : ∀ w ∈ (s.chan ch).wrq, w.la ≠ la)
include hmask he hw

/-- An entry that is not full reads its line, and is merged with what the cells give. -/
theorem exec_mergeEntryClose_merges {ct : Line} {ps : List Nat} (h : s.cellRead ch la errs = .ok ct ps) :
    let u := if ps = [] then s else s.countCorrected ch (s.locOf la) ps
    exec (.mergeEntryClose ch la errs) s =
      .next ((u.modChan ch (fun c => { c with merge := c.merge.filter (fun m => m.la != la) })).memWrite la m.td m.ks
        (lineMask (xtsDecrypt (u.keyOf m.td m.ks) la ct) m.data m.mask.toNat) false) := by
  refine congrArg Host.Outcome.next ?_
  simp only [hup, Bool.not_true, Bool.false_eq_true, if_false, hm, h, List.isEmpty_iff, if_neg (mergeReads hmask he hw)]

theorem exec_mergeEntryClose_uncorrectable (h : s.cellRead ch la errs = .bad) :
    exec (.mergeEntryClose ch la errs) s = .next ((s.declareBad ch la (some m.td)).mergeClose ch la) := by
  refine congrArg Host.Outcome.next ?_
  simp only [hup, Bool.not_true, Bool.false_eq_true, if_false, hm, h, List.isEmpty_iff, if_neg (mergeReads hmask he hw)]

end read
end mergeEntryClose

/-! ### Slots and the scrub (R223, R274, R276) -/

section scrub
variable {s : State} {ch : Nat} {errs : List (Nat × Nat)}

theorem exec_commandSlot (hup : s.up = true) (hp : s.chanPresent ch = true) :
    exec (.commandSlot ch) s = .next (s.slot ch) :=
  congrArg Host.Outcome.next (if_neg (by simp [hup, hp]))

theorem State.slot_idle (h : (s.chan ch).st ≠ 4) : s.slot ch = s := if_pos h

/-- A slot that nothing asks for is counted and no more. -/
theorem State.slot_unused (hst : (s.chan ch).st = 4) (hr : (s.chan ch).rdq = []) (hw : (s.chan ch).wrq = [])
    (hrun : (s.chan ch).scrubRun = false) :
    s.slot ch = s.modChan ch (fun c => { c with slots := (c.slots + 1) % 64 }) := by
  have hlag : s.scrubLags ch = false := by rw [State.scrubLags, hrun, Bool.false_and]
  have hnone : ∀ p, grantDomain p [] = none := fun p => by simp [grantDomain]
  unfold State.slot
  simp [hst, hlag, hrun, State.eligible, hr, hw, hnone]

theorem exec_scrubRead (hup : s.up = true) (hp : s.chanPresent ch = true) :
    exec (.scrubRead ch errs) s = .next (s.scrubNext ch errs) :=
  congrArg Host.Outcome.next (if_neg (by simp [hup, hp]))

theorem State.scrubNext_reads (hrun : (s.chan ch).scrubRun = true) (hst : (s.chan ch).st = 4)
    (hre : (s.chan ch).reread = none) :
    s.scrubNext ch errs = (s.modChan ch (fun c =>
        if s.usedLines ≤ c.done + 1 then
          { c with scrubRun := false, done := c.done + 1, passes := satAdd 32 c.passes }
        else { c with done := c.done + 1 })).scrubCell ch (s.lineAt ch (s.chan ch).done) errs false :=
  if_neg (by simp [hrun, hst, hre])

theorem exec_scrubPassStart (hup : s.up = true) (hh : s.boot.handed = true) (hst : (s.chan ch).st = 4)
    (hrun : (s.chan ch).scrubRun = false) (hl : s.usedLines ≠ 0)
    (hdue : (s.chan ch).scrubbed = false ∨ (s.chan ch).scrubStart + (s.chan ch).scrubP ≤ s.noon.tick) :
    exec (.scrubPassStart ch) s = .next (s.modChan ch (fun c => { c with
      scrubRun := true, scrubbed := true, done := 0, scrubStart := s.noon.tick, scrubSkip := 0
      scrubP := s.settingN 0x3200 1 864000000000 })) := by
  have hwait : ((s.chan ch).scrubbed
      && decide (s.noon.tick < (s.chan ch).scrubStart + (s.chan ch).scrubP)) = false := by
    rcases hdue with h | h
    · rw [h, Bool.false_and]
    · rw [decide_eq_false (Nat.not_lt.mpr h), Bool.and_false]
  exact congrArg Host.Outcome.next (if_neg (by simp [hup, hh, hst, hrun, hl, hwait]))

end scrub

end Sys2Proof.Machine
end

section
/-! SUPPORT. What else happens at a memory channel: its states, training, the fill, refresh, marks and row repair
(R237 to R239, R243, R244, R253 to R257, R268, R270 to R273, R278, R279). -/

namespace Sys2Proof.Machine

/-! ### Rows, refresh, calibration and retrains (R229, R244, R246, R256, R379) -/

section present
variable {s : State} {ch bank : Nat} (hup : s.up = true) (hp : s.chanPresent ch = true)
include hup hp

theorem exec_rowIdleClose :
    exec (.rowIdleClose ch bank) s = .next (s.modChan ch (fun c => { c with rows := SMap.del c.rows bank })) :=
  congrArg Host.Outcome.next (if_neg (by simp [hup, hp]))

theorem exec_refreshBank (hst : (s.chan ch).st = 4) : exec (.refreshBank ch bank) s =
    .next (s.modChan ch (fun c => { c with rows := SMap.del c.rows bank, refresh := insNat c.refresh bank })) :=
  congrArg Host.Outcome.next (if_neg (by simp [hup, hp, hst]))

theorem exec_calibrationWindowOpen (hst : (s.chan ch).st = 4) (hphase : s.calPhase ch = 0) :
    exec (.calibrationWindowOpen ch) s = .next (s.modChan ch (fun c => { c with st := 5 })) :=
  congrArg Host.Outcome.next (if_neg (by simp [hup, hp, hst, hphase]))

theorem exec_retrainChan : exec (.retrainChan ch) s = .next (s.startRetrain ch) :=
  congrArg Host.Outcome.next (if_neg (by simp [hup, hp]))

theorem exec_channelWake : exec (.channelWake ch) s = .next (s.chanTouch ch) :=
  congrArg Host.Outcome.next (if_neg (by simp [hup, hp]))

theorem exec_deviceBankBucketLeak :
    let drop := fun (m : List (Nat × Nat)) => (m.map (fun e => (e.1, e.2 - 1))).filter (fun e => e.2 != 0)
    exec (.deviceBankBucketLeak ch) s = .next (s.modChan ch (fun c => { c with
      devBkt := if s.noon.tick % s.settingN 0x3100 2 10000000 = 0 then drop c.devBkt else c.devBkt
      bankBkt := if s.noon.tick % s.settingN 0x3101 2 10000000 = 0 then drop c.bankBkt else c.bankBkt })) :=
  congrArg Host.Outcome.next (if_neg (by simp [hup, hp]))

theorem exec_proposalReject :
    exec (.proposalReject ch) s = .next (s.modChan ch (fun c => { c with prop := setFld c.prop 0 1 0 })) :=
  congrArg Host.Outcome.next (if_neg (by simp [hup, hp]))

end present

theorem exec_calibrationWindowClose {s : State} {ch : Nat} (hup : s.up = true) (hst : (s.chan ch).st = 5)
    (hphase : 8 ≤ s.calPhase ch) :
    exec (.calibrationWindowClose ch) s = .next (s.modChan ch (fun c => { c with st := 4 })) :=
  congrArg Host.Outcome.next (if_neg (by simp [hup, hst, hphase]))

section retrain
variable {s : State} {ch : Nat}

theorem State.startRetrain_starts (hm : (s.region (ch / 2)).morning = true)
    (hst : (s.chan ch).st = 4 ∨ (s.chan ch).st = 5) :
    s.startRetrain ch = s.modChan ch (fun c => { c with st := 6, retry := false, rows := [] }) :=
  (if_neg (by simp [hm])).trans (if_pos hst)

/-- Without its Morning controller the request is held. -/
theorem State.startRetrain_held (hm : (s.region (ch / 2)).morning = false) (hw : (1, ch) ∉ (s.region (ch / 2)).mwork) :
    s.startRetrain ch = s.modRegion (ch / 2) (fun x => { x with mwork := x.mwork ++ [(1, ch)] }) := by
  have hnew : ¬ (s.region (ch / 2)).mwork.contains (1, ch) = true := by simpa using hw
  exact (if_pos (by simp [hm])).trans (State.modRegion_congr (by rw [if_neg hnew]))

theorem exec_retrainComplete_trained (hup : s.up = true) (hst : (s.chan ch).st = 6) :
    exec (.retrainComplete ch true) s =
      .next ((s.modChan ch (fun c => { c with st := 4, retry := false })).linkRecord ch 1 0x0502 0 0 none) :=
  congrArg Host.Outcome.next ((if_neg (by simp [hup, hst])).trans (if_pos rfl))

theorem exec_retrainComplete_repeats (hup : s.up = true) (hst : (s.chan ch).st = 6) (hr : (s.chan ch).retry = false)
    (hv : (s.chan ch).speed < 2) :
    exec (.retrainComplete ch false) s =
      .next (s.modChan ch (fun c => { c with retry := true, speed := c.speed + 1 })) :=
  congrArg Host.Outcome.next ((if_neg (by simp [hup, hst])).trans ((if_neg Bool.false_ne_true).trans
    (if_neg (by simp [hr, hv]))))

theorem exec_retrainComplete_fences (hup : s.up = true) (hst : (s.chan ch).st = 6)
    (h : (s.chan ch).retry = true ∨ 2 ≤ (s.chan ch).speed) :
    exec (.retrainComplete ch false) s = .next ((s.fenceChan ch).linkRecord ch 3 0x0503 0 0 none) :=
  congrArg Host.Outcome.next ((if_neg (by simp [hup, hst])).trans ((if_neg Bool.false_ne_true).trans
    (if_pos (by simpa using h))))

end retrain

/-! ### RET (R257) -/

theorem exec_channelIdleRet {s : State} {ch : Nat} (hup : s.up = true) (hst : (s.chan ch).st = 4)
    (hempty : (s.chan ch).empty = true)
    (hret : (s.chan ch).retReq = true ∨ 0 < s.settingN 0x3010 7 0 ∧ s.settingN 0x3010 7 0 ≤ (s.chan ch).idle) :
    exec (.channelIdleRet ch) s = .next
      ((s.modChan ch (fun c => { c with st := 7, retReq := false, rows := [] })).modDom (392 + ch)
        (fun d => { d with st := 1 })) := by
  have hdue : ((s.chan ch).retReq || (decide (0 < s.settingN 0x3010 7 0)
      && decide (s.settingN 0x3010 7 0 ≤ (s.chan ch).idle))) = true := by simpa using hret
  exact congrArg Host.Outcome.next (if_neg (by simp [hup, hst, hempty, hdue]))

/-! ### Marks and row repair (R270 to R272, R278, R279) -/

section mark
variable {s : State} {ch : Nat}

theorem State.markRefused_iff {sub rank dev : Nat} : s.markRefused ch sub rank dev = true ↔
    s.devcorr = false ∨ 2 ≤ (s.chan ch).marks.length ∨ mkMark sub rank dev ∈ (s.chan ch).marks
      ∨ (s.chan ch).ranks < rank ∨ 9 < dev := by
  simp [State.markRefused, devCorr, or_assoc]

section confirm
variable (hup : s.up = true) (hp : s.chanPresent ch = true) (hm : (s.region (ch / 2)).morning = true)
  (hset : s.settingN 0x3110 1 1 = 1) (hheld : (s.chan ch).prop.getLsbD 0 = true)
  (hkind : (s.chan ch).prop.getLsbD 1 = false)
include hup hp hm hset hheld hkind

theorem exec_markConfirm :
    let p := (s.chan ch).prop
    let sub := fld p 2 1
    let rank := fld p 3 3
    let dev := fld p 6 4
    exec (.markConfirm ch) s = .next (
      if s.markRefused ch sub rank dev then
        s.chanRecord ch 1 0x0513 none none { sub, rank, bg := 0, col := 0, bank := 0, row := 0 } dev 0 0
      else (s.addMark ch sub rank dev).modChan ch (fun c => { c with prop := setFld c.prop 0 1 0 })) :=
  congrArg Host.Outcome.next (if_neg (by rw [hup, hp, hm, hset, hheld, hkind]; decide))

end confirm

/-- The columns of `bad` in the row at `l` are poisoned where the channel uses them. -/
def State.poisonCols (s : State) (ch : Nat) (l : DLoc) (bad : List Nat) : State :=
  (bad.filter (· < 128)).foldl (fun s i =>
    let cla := (s.chan ch).claOf { l with col := i }
    if cla < s.usedLines then s.dramStore (s.lineAt ch cla) (s.lineKeyOf (s.lineAt ch cla)) 0 true else s) s

theorem exec_rowRepairLive {e : W64} {ok : Bool} {bad : List Nat} (hup : s.up = true) (he : (s.chan ch).sppr = some e)
    (hm : (s.region (ch / 2)).morning = true) :
    let l := rowLoc e
    let u := s.modChan ch (fun c => { c with sppr := none, held := c.held.filter (· != l.bankNo) })
    let v := u.poisonCols ch l bad
    let rows := (SMap.get [] v.mram.rows ch).map (fun x =>
      if rowLoc x = l ∧ x.getLsbD 0 = true then (if ok then setFld x 37 1 1 else setFld x 38 1 1) else x)
    exec (.rowRepairLive ch ok bad) s =
      .next (({ v with mram := { v.mram with rows := SMap.set v.mram.rows ch rows } } : State).chanRecord ch 1 0x0518
        none none l 0xFF 0 0) := by
  refine congrArg Host.Outcome.next ?_
  simp only [he, hup, hm, Bool.not_true, Bool.or_false, Bool.false_eq_true, if_false]
  rfl

end mark

/-! ### Errors of writes on the link (R243, R254) -/

section crc
variable {s : State} {ch la : Nat} (hrun : s.noon.run = true) (hstop : s.stopped = false) (hp : s.chanPresent ch = true)
include hrun hstop hp

theorem exec_writeCrcError_fill_repeats (hst : (s.chan ch).st = 3) (ht : (s.chan ch).crcTries < 4) :
    exec (.writeCrcError ch la) s = .next (s.modChan ch (fun c => { c with crcTries := c.crcTries + 1 })) :=
  congrArg Host.Outcome.next ((if_neg (by simp [hrun, hstop, hp])).trans ((if_pos hst).trans (if_pos ht)))

/-- A write of the fill that fails after four repeats is stored poisoned. -/
theorem exec_writeCrcError_fill_poisons (hst : (s.chan ch).st = 3) (ht : 4 ≤ (s.chan ch).crcTries) :
    exec (.writeCrcError ch la) s = .next
      ((((s.modChan ch (fun c => { c with crcTries := 0 })).dramStore la s.keys.null 0 true).linkRecord ch 2 0x0506 0
        (s.subOf la) (some (64 * la))).post (srcClass2 ch)) :=
  congrArg Host.Outcome.next ((if_neg (by simp [hrun, hstop, hp])).trans ((if_pos hst).trans
    (if_neg (Nat.not_lt.mpr ht))))

/-- The link bucket counts a write that is repeated; its overflow starts a retrain. -/
theorem exec_writeCrcError_counts {b : Bucket} {ovf : Bool} (hacc : (s.chan ch).accepts = true)
    (hb : (s.chan ch).link.add s.noon.tick (s.settingN 0x3050 1 16) (s.settingN 0x3050 3 864000000000) = (b, ovf)) :
    let u := s.modChan ch (fun c => { c with link := b })
    exec (.writeCrcError ch la) s =
      .next (if ovf then (u.linkRecord ch 1 0x0501 0 (u.subOf la) none).startRetrain ch else u) := by
  have hst : ¬ (s.chan ch).st = 3 := fun h => by simp [Chan.accepts, h] at hacc
  refine congrArg Host.Outcome.next ((if_neg (by simp [hrun, hstop, hp])).trans ((if_neg hst).trans
    ((if_pos hacc).trans ?_)))
  rw [hb]

end crc

/-! ### Training (R237, R238, R273, R278) -/

section train
variable {s : State} {ch speed : Nat} (hrun : s.noon.run = true) (hstop : s.stopped = false)
  (hp : s.chanPresent ch = true) (hphase : s.boot.phase = 3) (hst : (s.chan ch).st = 0 ∨ (s.chan ch).st = 2)
include hrun hstop hp hphase hst

/-- A channel trains in phase 3, from either of its states before the training. -/
theorem State.trains : ¬ (!s.noon.run || s.stopped || !s.chanPresent ch || decide (s.boot.phase ≠ 3)
    || !(decide ((s.chan ch).st = 0) || decide ((s.chan ch).st = 2))) = true := by
  simpa [hrun, hstop, hp, hphase] using or_iff_not_imp_left.mp hst

theorem exec_trainChan_unused (hused : (s.chan ch).used = none) :
    exec (.trainChan ch speed) s = .next ((s.dimmRecords ch).modChan ch (fun c => { c with st := 1 })) := by
  refine congrArg Host.Outcome.next ((if_neg (State.trains hrun hstop hp hphase hst)).trans ?_)
  simp only [hused]

theorem exec_trainChan_used {d : Dimm} {two : Bool} (hused : (s.chan ch).used = some (d, two)) :
    let u := s.dimmRecords ch
    let first := max (u.settingN 0x3010 1 0) d.speed
    let got := max first speed
    let v := u.fallbacks ch (min got 3 - first) first
    let n := if two then 2 else 1
    exec (.trainChan ch speed) s = .next (if 3 ≤ got then v.modChan ch (fun c => { c with st := 1, speed := 2 })
      else (((v.modChan ch (fun c => { c with
        st := 3, speed := got, dpc2 := two, ranks := n * d.ranks - 1, dens := d.dens, cap := n * d.cap })).restoreMarks
          ch).applyRows ch).layOut) := by
  refine congrArg Host.Outcome.next ((if_neg (State.trains hrun hstop hp hphase hst)).trans ?_)
  simp only [hused]

end train

/-! ### The fill (R253, R254) -/

section fill
variable {s : State}

/-- A channel that the fill has written. -/
def Chan.fill (lines : Nat) (c : Chan) : Chan :=
  if c.st = 3 then { c with st := 4, filled := lines, crcTries := 0 } else c

/-- A change made once to each channel of a list. -/
theorem State.chan_foldl_modChan (f : Chan → Chan) {l : List Nat} (hl : l.Nodup) (c : Nat) (s : State) :
    (l.foldl (fun s ch => s.modChan ch f) s).chan c = if c ∈ l then f (s.chan c) else s.chan c := by
  induction l generalizing s with
  | nil => rfl
  | cons ch l ih =>
    obtain ⟨hch, hl⟩ := List.nodup_cons.mp hl
    rw [List.foldl_cons, ih hl]
    by_cases h : c = ch
    · subst h
      simp [hch]
    · simp [h, State.chan_modChan_ne]

/-- The state after the fill. -/
def State.fillEnd (s : State) : State :=
  let t := ((List.range 16).filter s.chanPresent).foldl (fun t c => t.modChan c (Chan.fill s.usedLines)) s
  { t with boot := { t.boot with filled := true }, dram := [], fillKey := t.keys.null
           lineKey := t.lineKey.filter (fun e => t.poison.contains e.1) }

theorem exec_fillComplete (hrun : s.noon.run = true) (hstop : s.stopped = false) (hfill : s.boot.filled = false)
    (hphase : s.boot.phase = 3) (hused : s.chansUsed ≠ [])
    (htrained : ∀ c, s.chanPresent c = true → (s.chan c).st ≠ 0 ∧ (s.chan c).st ≠ 2) :
    exec .fillComplete s = .next s.fillEnd := by
  have hall : ((List.range 16).filter s.chanPresent).any
      (fun c => (s.chan c).st == 0 || (s.chan c).st == 2) = false := by
    refine List.any_eq_false.mpr fun c hc => ?_
    obtain ⟨h0, h2⟩ := htrained c (List.mem_filter.mp hc).2
    simp [h0, h2]
  exact congrArg Host.Outcome.next (if_neg (by simp only [hall]; simp [hrun, hstop, hfill, hphase, hused]))

theorem State.fillEnd_result (s : State) :
    s.fillEnd.boot = { s.boot with filled := true } ∧ s.fillEnd.dram = [] ∧ s.fillEnd.fillKey = s.keys.null
    ∧ s.fillEnd.lineKey = s.lineKey.filter (fun e => s.poison.contains e.1) ∧ s.fillEnd.poison = s.poison := by
  have frame : ∀ {β : Type} (proj : State → β), (∀ t c, proj (t.modChan c (Chan.fill s.usedLines)) = proj t) →
      proj (((List.range 16).filter s.chanPresent).foldl (fun t c => t.modChan c (Chan.fill s.usedLines)) s) = proj s :=
    fun proj h => State.foldl_frame proj h
  refine ⟨?_, rfl, ?_, ?_, ?_⟩
  · exact congrArg (fun b : Boot => { b with filled := true }) (frame State.boot fun _ _ => rfl)
  · exact congrArg Keys.null (frame State.keys fun _ _ => rfl)
  · exact congrArg₂ (fun (k : List (Nat × W512)) (p : List Nat) => k.filter (fun e => p.contains e.1))
      (frame State.lineKey fun _ _ => rfl) (frame State.poison fun _ _ => rfl)
  · exact frame State.poison fun _ _ => rfl

theorem State.fillEnd_chan {c : Nat} (hp : s.chanPresent c = true) (hc : c < 16) :
    s.fillEnd.chan c = (s.chan c).fill s.usedLines :=
  (State.chan_foldl_modChan _ (List.nodup_range.filter _) c s).trans
    (if_pos (List.mem_filter.mpr ⟨List.mem_range.mpr hc, hp⟩))

end fill

end Sys2Proof.Machine
end

section
/-! The results of reads, writes and merges at a memory channel, and of what else happens there (R223 to R279). -/

namespace Sys2Proof.Machine

/-- Settles O45: each command at a channel passes its guard and is then a function of the model, whose cases the laws
above give. -/
theorem channelResults : Obligations.ChannelResults := by
  refine ⟨?requests, ?states⟩
  case requests =>
    intro s ch la td ks errs hup demand here
    refine ⟨?memRead, ?dramReread, ?memWrite, ?partialWrite, ?mergeEntryClose, ?commandSlot, ?scrubRead,
      ?scrubPassStart⟩
    case memRead =>
      intro (h : s.ServesLine ch la) q u
      exact ⟨exec_memRead_fenced hup h,
        fun hst hfree hre => demandRead_answers (exec_memRead_issued hup h hst rfl hfree hre),
        fun hst hbusy hacc hroom => exec_memRead_queued hup h hst rfl hbusy hacc hroom⟩
    case dramReread =>
      intro q e0 hre hst u
      exact ⟨fun hq => demandRead_answers (exec_dramReread_demand hup hre hst hq), exec_dramReread_scrub hup hre hst⟩
    case memWrite =>
      intro data poison (h : s.ServesLine ch la) hst u q c hacc
      exact ⟨exec_memWrite_replaces hup h hst rfl hacc, exec_memWrite_enters hup h hst rfl hacc⟩
    case partialWrite =>
      intro pa bytes hh hd hok hpa hline hne hfit hst u m fresh
      have hexec := exec_partialWrite (td := td) (ks := ks) hup hh hd hok hpa hne hfit
      refine ⟨fun hnew hroom => ?_, fun hnew o rest hold hfull => ?_, fun x hx => ⟨fun hkey => ?_, fun htd hks => ?_⟩⟩
      · exact hexec.trans (congrArg _ (State.memPartial_opens hline hst rfl hnew hroom))
      · exact hexec.trans (congrArg _ (State.memPartial_displaces hline hst rfl hnew hold hfull))
      · exact hexec.trans (congrArg _ (State.memPartial_rekeys hline hst rfl hx hkey))
      · exact hexec.trans (congrArg _ (State.memPartial_gathers hline hst rfl hx htd hks))
    case mergeEntryClose =>
      intro m hm
      refine ⟨?_, fun hmask he hw => ⟨fun ct ps => exec_mergeEntryClose_merges hup hm hmask he hw,
        exec_mergeEntryClose_uncorrectable hup hm hmask he hw⟩⟩
      rintro (h | h | h | h)
      · exact exec_mergeEntryClose_unread hup hm (.inl h)
      · exact exec_mergeEntryClose_unread hup hm (.inr (.inl h))
      · exact exec_mergeEntryClose_unread hup hm (.inr (.inr h))
      · exact exec_mergeEntryClose_poison hup hm h
    case commandSlot => exact fun hp => ⟨exec_commandSlot hup hp, State.slot_idle, State.slot_unused⟩
    case scrubRead => exact fun hp => ⟨exec_scrubRead hup hp, State.scrubNext_reads⟩
    case scrubPassStart => exact exec_scrubPassStart hup
  case states =>
    intro s ch bank goes none0
    refine ⟨?present, ?rowRepairLive, ?retrainComplete, ?channelIdleRet, ?writeCrcError, ?trainChan, ?fillComplete⟩
    case present =>
      intro hup hp
      refine ⟨exec_rowIdleClose hup hp, exec_refreshBank hup hp, exec_calibrationWindowOpen hup hp,
        exec_calibrationWindowClose hup, ?starts, ?held, ?wakes, ?awake, exec_deviceBankBucketLeak hup hp, ?mark,
        exec_proposalReject hup hp⟩
      case starts => exact fun hm hst => (exec_retrainChan hup hp).trans (congrArg _ (State.startRetrain_starts hm hst))
      case held => exact fun hm hw => (exec_retrainChan hup hp).trans (congrArg _ (State.startRetrain_held hm hw))
      case wakes => exact fun hst => (exec_channelWake hup hp).trans (congrArg _ (State.chanTouch_wakes hst))
      case awake => exact fun hst => (exec_channelWake hup hp).trans (congrArg _ (State.chanTouch_awake hst))
      case mark =>
        intro hm hset hheld hkind p sub rank dev m refused
        have hexec := exec_markConfirm hup hp hm hset hheld hkind
        exact ⟨fun h => hexec.trans (congrArg _ (if_pos (State.markRefused_iff.mpr h))),
          fun h => hexec.trans (congrArg _ (if_neg (mt State.markRefused_iff.mp h)))⟩
    case rowRepairLive => exact fun e bad ok hup he hm => exec_rowRepairLive hup he hm
    case retrainComplete =>
      exact fun hup hst => ⟨exec_retrainComplete_trained hup hst, exec_retrainComplete_repeats hup hst,
        exec_retrainComplete_fences hup hst⟩
    case channelIdleRet =>
      intro hup hst hr hw hmerge hre
      exact exec_channelIdleRet hup hst (by simp [Chan.empty, hr, hw, hmerge, hre])
    case writeCrcError =>
      intro la hrun hstop hp
      refine ⟨exec_writeCrcError_fill_repeats hrun hstop hp, exec_writeCrcError_fill_poisons hrun hstop hp,
        fun hacc hroom => ?_, fun hacc hfull => ?_⟩
      · exact exec_writeCrcError_counts hrun hstop hp hacc (Bucket.add_within hroom)
      · obtain ⟨stamps, hadd⟩ := Bucket.add_overflow hfull
        exact ⟨stamps, exec_writeCrcError_counts hrun hstop hp hacc hadd⟩
    case trainChan =>
      intro speed hrun hstop hp hphase hst u
      refine ⟨exec_trainChan_unused hrun hstop hp hphase hst, fun d two hused => ?_⟩
      have hexec := exec_trainChan_used (speed := speed) hrun hstop hp hphase hst hused
      exact ⟨fun hslow => hexec.trans (congrArg _ (if_pos hslow)),
        fun hfast => hexec.trans (congrArg _ (if_neg (Nat.not_le.mpr hfast)))⟩
    case fillComplete =>
      intro hrun hstop hfill hphase hused htrained
      obtain ⟨hboot, hdram, hkey, hlines, hpoison⟩ := s.fillEnd_result
      exact ⟨s.fillEnd, exec_fillComplete hrun hstop hfill hphase hused htrained, hboot, hdram, hkey, hlines, hpoison,
        fun c hp hc => State.fillEnd_chan hp hc⟩

end Sys2Proof.Machine
end

section
/-! The key engine: what a key command begins and what its completion leaves (R250 to R252). -/

namespace Sys2Proof.Machine

section keyCommand
variable {s : State}

/-- A key command is outstanding: KEY_DATA is cleared, and `key` goes to the slot of KEY_CMD (R252). -/
def State.keyBegin (s : State) (op : Nat) (key : W512) : State :=
  { s with keys := { s.keys with
      data := [], op := op, busy := true, next := some (4 * s.keys.td + s.keys.sel, key) } }

/-- A key command meanwhile is ignored. -/
theorem State.keyCommand_busy (hb : s.keys.busy = true) (op : Nat) : s.keyCommand op = s := if_pos hb

section idle
variable (hb : s.keys.busy = false)
include hb

theorem State.keyCommand_load_refused (hp : fld s.keys.pair 0 256 = fld s.keys.pair 256 256) :
    s.keyCommand 1 = { s with keys := { s.keys with data := [], op := 1, err := true } } :=
  (if_neg (Bool.eq_false_iff.mp hb)).trans (if_pos hp)

theorem State.keyCommand_load_begins (hp : fld s.keys.pair 0 256 ≠ fld s.keys.pair 256 256) :
    s.keyCommand 1 = s.keyBegin 1 s.keys.pair :=
  (if_neg (Bool.eq_false_iff.mp hb)).trans (if_neg hp)

theorem State.keyCommand_generate_begins :
    s.keyCommand 2 = { s with free := s.free + 1 }.keyBegin 2 (Config.randomKey s.free) :=
  if_neg (Bool.eq_false_iff.mp hb)

theorem State.keyCommand_null_begins : s.keyCommand 3 = s.keyBegin 3 s.keys.null :=
  if_neg (Bool.eq_false_iff.mp hb)

end idle

section up
variable (hup : s.up = true)
include hup

theorem exec_keyLoad : exec .keyLoad s = .next (s.keyCommand 1) := congrArg Host.Outcome.next (if_pos hup)

theorem exec_keyGenerate : exec .keyGenerate s = .next (s.keyCommand 2) := congrArg Host.Outcome.next (if_pos hup)

theorem exec_keyNull : exec .keyNull s = .next (s.keyCommand 3) := congrArg Host.Outcome.next (if_pos hup)

end up

end keyCommand

section completion
variable {s : State}

/-- The lines of a channel whose merge entries are of a key slot. -/
def Chan.slotLines (c : Chan) (slot : Nat) : List Nat :=
  (c.merge.filter (fun m => 4 * m.td + m.ks == slot)).map (·.la)

/-- Every merge entry of a key slot closes, under the key the slot still holds. -/
def State.closeSlot (s : State) (slot : Nat) : State :=
  (List.range 16).foldl (fun s ch => ((s.chan ch).slotLines slot).foldl (fun s la => s.mergeClose ch la) s) s

/-- The key engine is idle again, and the slot holds its new key. -/
def State.keyEnd (s : State) (slot : Nat) (key : W512) : State :=
  { s with keys := { s.keys with busy := false, next := none, slots := SMap.set s.keys.slots slot key } }

/-- The merge entries are written first, and only then does the slot change its key. -/
theorem exec_keyCommandComplete {slot : Nat} {key : W512} (hup : s.up = true) (hn : s.keys.next = some (slot, key)) :
    exec .keyCommandComplete s = .next ((s.closeSlot slot).keyEnd slot key) := by
  have hdef : exec .keyCommandComplete s = execKeyCommandComplete s := rfl
  simp only [hdef, execKeyCommandComplete, hn, hup, Bool.not_true, Bool.false_eq_true, if_false, State.keyEnd,
    State.closeSlot, Chan.slotLines]

end completion

/-- Settles O46: each key command is the key engine's own, whose cases the laws above give, and the completion closes the
slot's merge entries before it sets the key. -/
theorem keyResults : Obligations.KeyResults := by
  intro s hup slot begins
  refine ⟨fun hidle => ⟨?refused, ?load, ?generate, ?null⟩, fun hbusy => ?outstanding, ?completes⟩
  case refused => exact fun hp => (exec_keyLoad hup).trans (congrArg _ (State.keyCommand_load_refused hidle hp))
  case load => exact fun hp => (exec_keyLoad hup).trans (congrArg _ (State.keyCommand_load_begins hidle hp))
  case generate => exact (exec_keyGenerate hup).trans (congrArg _ (State.keyCommand_generate_begins hidle))
  case null => exact (exec_keyNull hup).trans (congrArg _ (State.keyCommand_null_begins hidle))
  case outstanding =>
    have ignored := State.keyCommand_busy hbusy
    exact ⟨(exec_keyLoad hup).trans (congrArg _ (ignored 1)), (exec_keyGenerate hup).trans (congrArg _ (ignored 2)),
      (exec_keyNull hup).trans (congrArg _ (ignored 3))⟩
  case completes =>
    intro n key hn t
    have ht : s.closeSlot n = t := rfl
    rw [exec_keyCommandComplete hup hn, ht, State.keyEnd]

end Sys2Proof.Machine
end

section
/-! SUPPORT. The TLB shootdown with the invalidations that it sends, and what software writes to a translation unit
(R293 to R295, R299, R301). -/

namespace Sys2Proof.Machine

/-! ### The start of a shootdown (R293 to R295, R299) -/

/-- What each member of a list brings about at the unit it names, and at no other, the fold brings about at the units that
the list names. -/
theorem State.foldl_units {β : Type} {g : State → Nat → State} (unit : State → Nat → β) (f : β → β)
    (hself : ∀ t c, unit (g t c) c = f (unit t c)) (hother : ∀ t a c, c ≠ a → unit (g t a) c = unit t c)
    {l : List Nat} (hl : l.Nodup) (c : Nat) (s : State) :
    unit (l.foldl g s) c = if c ∈ l then f (unit s c) else unit s c := by
  induction l generalizing s with
  | nil => rfl
  | cons a l ih =>
    obtain ⟨ha, hl⟩ := List.nodup_cons.mp hl
    rw [List.foldl_cons, ih hl]
    by_cases h : c = a
    · subst h
      simp [ha, hself]
    · simp [h, hother]

/-- A shootdown at a core: translations go, and the stores held now are older than the command. -/
def Sd.atCore (d : Sd) (k : Core) : Core :=
  { k with tlb := d.dropTlb k.tlb, wcache := d.dropWc k.wcache, sq := k.sq.map (fun e => { e with old := true }) }

/-- A shootdown at a translation unit. -/
def Sd.atUnit (d : Sd) (u : Iotu) : Iotu := { u with tlb := d.dropTlb u.tlb, wcache := d.dropWc u.wcache, ctx := [] }

/-- A shootdown reaches the unit of a region, and the functions behind it are asked to invalidate. -/
def State.sdUnit (d : Sd) (s : State) (r : Nat) : State :=
  (s.atsTargets r).foldl (fun s rid =>
    ({ s with sd := { s.sd with wait := s.sd.wait ++ [(r, rid)] } }).emit (.atsInval r rid d.va.toNat))
    (s.modIotu r d.atUnit)

/-- A shootdown is in progress and has reached every core. -/
def State.sdCores (s : State) : State :=
  s.allCores.foldl (fun t c => t.modCore c s.sd.atCore) { s with sd := { s.sd with busy := true } }

section go
variable {s : State}

theorem State.sdGo_busy (hb : s.sd.busy = true) : s.sdGo = s := if_pos hb

theorem State.sdGo_cores (hb : s.sd.busy = false) (hio : s.sd.io = false) : s.sdGo = s.sdCores :=
  (if_neg (Bool.eq_false_iff.mp hb)).trans (if_pos (by simp [hio]))

theorem State.sdGo_units (hb : s.sd.busy = false) (hio : s.sd.io = true) :
    s.sdGo = (List.range 8).foldl (State.sdUnit s.sd) s.sdCores :=
  (if_neg (Bool.eq_false_iff.mp hb)).trans (if_neg (by simp [hio]))

/-! #### At the cores -/

theorem State.nodup_allCores (s : State) : s.allCores.Nodup := List.nodup_range.filter _

theorem State.sdCores_core (s : State) (c : Nat) :
    s.sdCores.core c = if c ∈ s.allCores then s.sd.atCore (s.core c) else s.core c :=
  State.foldl_units State.core s.sd.atCore (fun t c => t.core_modCore c _) (fun t _ _ h => State.core_modCore_ne t _ h)
    s.nodup_allCores c _

theorem State.sdCores_sd (s : State) : s.sdCores.sd = { s.sd with busy := true } :=
  State.foldl_frame State.sd fun _ _ => rfl

theorem State.sdCores_regions (s : State) : s.sdCores.regions = s.regions := State.foldl_frame State.regions fun _ _ => rfl

theorem State.sdCores_out (s : State) : s.sdCores.out = s.out := State.foldl_frame State.out fun _ _ => rfl

theorem State.sdCores_iotu (s : State) (r : Nat) : s.sdCores.iotu r = s.iotu r :=
  State.foldl_frame (State.iotu · r) fun _ _ => rfl

/-! #### At the units -/

theorem State.sdUnit_core (d : Sd) (s : State) (r c : Nat) : (State.sdUnit d s r).core c = s.core c :=
  State.foldl_frame (State.core · c) fun _ _ => rfl

theorem State.sdUnit_busy (d : Sd) (s : State) (r : Nat) : (State.sdUnit d s r).sd.busy = s.sd.busy :=
  State.foldl_frame (fun t => t.sd.busy) fun _ _ => rfl

theorem State.sdUnit_regions (d : Sd) (s : State) (r : Nat) :
    (State.sdUnit d s r).regions = (s.modIotu r d.atUnit).regions :=
  State.foldl_frame State.regions fun _ _ => rfl

theorem State.sdUnit_iotu (d : Sd) (s : State) (r : Nat) : (State.sdUnit d s r).iotu r = d.atUnit (s.iotu r) := by
  rw [State.iotu, State.region, State.sdUnit_regions]
  exact congrArg Region.iotu (State.region_modRegion ..)

theorem State.sdUnit_iotu_ne (d : Sd) (s : State) {r q : Nat} (h : q ≠ r) : (State.sdUnit d s r).iotu q = s.iotu q := by
  rw [State.iotu, State.region, State.sdUnit_regions]
  exact congrArg Region.iotu (State.region_modRegion_ne _ _ h)

theorem State.sdUnits_iotu (d : Sd) (s : State) {r : Nat} (hr : r < 8) :
    ((List.range 8).foldl (State.sdUnit d) s).iotu r = d.atUnit (s.iotu r) :=
  (State.foldl_units State.iotu d.atUnit (State.sdUnit_iotu d) (fun t _ _ h => State.sdUnit_iotu_ne d t h)
    List.nodup_range r s).trans (if_pos (List.mem_range.mpr hr))

/-! #### With or without the units -/

theorem State.sdGo_core (hb : s.sd.busy = false) (c : Nat) :
    s.sdGo.core c = if c ∈ s.allCores then s.sd.atCore (s.core c) else s.core c := by
  cases hio : s.sd.io with
  | false => rw [State.sdGo_cores hb hio, State.sdCores_core]
  | true =>
    rw [State.sdGo_units hb hio, State.foldl_frame (State.core · c) fun t r => State.sdUnit_core _ t r c]
    exact s.sdCores_core c

theorem State.sdGo_inProgress (hb : s.sd.busy = false) : s.sdGo.sd.busy = true := by
  cases hio : s.sd.io with
  | false => rw [State.sdGo_cores hb hio, State.sdCores_sd]
  | true =>
    rw [State.sdGo_units hb hio, State.foldl_frame (fun t => t.sd.busy) fun t r => State.sdUnit_busy _ t r,
      State.sdCores_sd]

end go

/-! ### The end of a shootdown (R295) -/

section complete
variable {s : State}

/-- What keeps a shootdown busy: an ordinary store older than it, a read that a unit translated, a function that has not
answered. -/
def State.sdHeld (s : State) : Prop :=
  (∃ c ∈ s.allCores, ∃ e ∈ (s.core c).sq, e.old = true ∧ e.tord = none)
    ∨ (s.sd.io = true ∧ ∃ r, r < 8 ∧ ∃ e ∈ (s.region r).fn.insts, e.2.pipe = true ∧ e.2.peer ≠ [])
    ∨ s.sd.wait ≠ []

theorem exec_shootdownComplete (hup : s.up = true) (hb : s.sd.busy = true) :
    (s.sdHeld → exec .shootdownComplete s = .next s)
    ∧ (¬ s.sdHeld → exec .shootdownComplete s = .next { s with sd := { s.sd with busy := false } }) := by
  have hbegun : ¬ (!s.up || !s.sd.busy) = true := by simp [hup, hb]
  have held : (s.allCores.any (fun c => (s.core c).sq.any (fun e => e.old && e.tord.isNone))
      || (s.sd.io && (List.range 8).any (fun r => (s.region r).fn.insts.any (fun e => e.2.pipe && !e.2.peer.isEmpty)))
      || !s.sd.wait.isEmpty) = true ↔ s.sdHeld := by
    simp [State.sdHeld, or_assoc]
  exact ⟨fun h => congrArg Host.Outcome.next ((if_neg hbegun).trans (if_pos (held.mpr h))),
    fun h => congrArg Host.Outcome.next ((if_neg hbegun).trans (if_neg (h ∘ held.mp)))⟩

end complete

/-! ### Invalidations (R299), and what software writes to a unit (R301) -/

section answers
variable {s : State} (hup : s.up = true)
include hup

theorem exec_tlbShootdown : exec .tlbShootdown s = .next s.sdGo := congrArg Host.Outcome.next (if_neg (by simp [hup]))

theorem exec_atsInvalidateCompletion (r rid : Nat) :
    exec (.atsInvalidateCompletion r rid) s =
      .next { s with sd := { s.sd with wait := s.sd.wait.filter (fun e => e != (r, rid)) } } :=
  congrArg Host.Outcome.next (if_neg (by simp [hup]))

/-- A function that has not answered is blocked with the context entry it has now, and the event queue says so. -/
theorem exec_atsInvalidationTimeout {r rid : Nat} (hm : (r, rid) ∈ s.sd.wait) :
    let c := wordsOf (s.readPa (s.ctxAddr r rid) 32 0 0).1.1
    let u := { s with sd := { s.sd with wait := s.sd.wait.filter (fun e => e != (r, rid)), atsto := true } }
    let t := ((u.modIotu r (fun x => { x with blocked := (rid, c) :: x.blocked.filter (fun e => e.1 != rid) })).iotEvent
      r 4 0 rid 0 0).2
    t.waits = false → exec (.atsInvalidationTimeout r rid) s = .next t := by
  intro c u t hw
  exact congrArg Host.Outcome.next ((congrArg s.orWait (if_neg (by simp [hup, hm]))).trans (State.orWait_of s hw))

variable {r : Nat} (hr : r < 8) (v : W64)
include hr

theorem exec_iotEqbWrite : exec (.iotEqbWrite r v) s = .next (s.eqbWrite r v) :=
  congrArg Host.Outcome.next (if_neg (by simp [hup, hr]))

theorem exec_pageRequestGroupResponse : exec (.pageRequestGroupResponse r v) s = .next (s.prgrWrite r v) :=
  congrArg Host.Outcome.next (if_neg (by simp [hup, hr]))

end answers

end Sys2Proof.Machine
end

section
/-! SUPPORT. Requests of devices at an I/O translation unit: untranslated, translated, for a translation, and for a page
(R296 to R300, R338). -/

namespace Sys2Proof.Machine

/-! ### The answer of a request -/

theorem dmaOpOf_acc_w (wr : Option (List Byte)) : (dmaOpOf wr).acc.w = wr.isSome := by cases wr <;> rfl

/-- A write is posted; a read is answered by a completion. -/
def State.dmaReplied (t : State) (r rid : Nat) (wr : Option (List Byte)) (o : CplKind) (bs : List Byte) : State :=
  if wr.isSome then t else t.emit (.completion r rid o bs)

theorem State.dmaReplied_waits (t : State) (r rid : Nat) (wr : Option (List Byte)) (o : CplKind) (bs : List Byte) :
    (t.dmaReplied r rid wr o bs).waits = t.waits := by
  cases wr <;> rfl

section answer
variable (s t : State) (r f rid : Nat) (wr : Option (List Byte)) (hdr : List Nat)

theorem State.dmaAnswer_done (b : List Byte) (p : Bool) :
    s.dmaAnswer r f rid (dmaOpOf wr) hdr (.done b p, t) = t.dmaReplied r rid wr (if p then .poisoned else .ok) b := by
  cases wr <;> rfl

theorem State.dmaAnswer_ur : s.dmaAnswer r f rid (dmaOpOf wr) hdr (.ur, t) = t.dmaReplied r rid wr .ur [] := by
  cases wr <;> rfl

theorem State.dmaAnswer_urRec :
    s.dmaAnswer r f rid (dmaOpOf wr) hdr (.urRec, t) = (t.portRecord r f 0 0x0603 none hdr).dmaReplied r rid wr .ur [] := by
  cases wr <;> rfl

end answer

/-! ### Untranslated requests (R297, R298, R300) -/

section untranslated
variable {s s1 s2 s3 s4 : State} {r rid addr len : Nat} {pasid : Option Nat} {op : DmaOp} {hdr : List Nat}

theorem State.dmaUntranslated_refused {k : Nat} (hc : s.dmaContext r rid = (.error k, s1)) :
    s.dmaUntranslated r rid pasid addr len op hdr = (.ur, s1.dmaFault r rid pasid addr k 0 op.acc.w) := by
  simp only [State.dmaUntranslated, hc]

variable {c : List W64} (hc : s.dmaContext r rid = (.ok c, s1))
include hc

theorem State.dmaUntranslated_noRegime {f : XFault} (hg : s1.ioRegime r c pasid = (.error f, s2)) :
    s.dmaUntranslated r rid pasid addr len op hdr = (.ur, s2.dmaFault r rid pasid addr f.kind f.stage op.acc.w) := by
  simp only [State.dmaUntranslated, hc, hg]

variable {g : Regime} (hg : s1.ioRegime r c pasid = (.ok g, s2))
include hg

theorem State.dmaUntranslated_fault {f : XFault} {va : Nat}
    (hx : s2.ioXlats r g op.acc (piecesOf addr (op.size len)) = (.error (f, va), s3)) :
    s.dmaUntranslated r rid pasid addr len op hdr = (.ur, s3.dmaFault r rid pasid va f.kind f.stage op.acc.w) := by
  simp only [State.dmaUntranslated, hc, hg, hx]

variable {l : List (Nat × Nat × Xlat)} (hx : s2.ioXlats r g op.acc (piecesOf addr (op.size len)) = (.ok l, s3))
include hx

theorem State.dmaUntranslated_done {b : List Byte} {p : Bool}
    (ho : s3.dmaRoute (ctxTd c) rid addr op hdr (l.map (fun e => (e.1, e.2.1, e.2.2.pa, e.2.2.ks))) = (.done b p, s4)) :
    s.dmaUntranslated r rid pasid addr len op hdr = (.done b p, s4.ioCommit r g op.acc l) := by
  simp only [State.dmaUntranslated, hc, hg, hx, ho]

theorem State.dmaUntranslated_noTarget
    (ho : s3.dmaRoute (ctxTd c) rid addr op hdr (l.map (fun e => (e.1, e.2.1, e.2.2.pa, e.2.2.ks))) = (.urRec, s4)) :
    s.dmaUntranslated r rid pasid addr len op hdr = (.urRec, s4) := by
  simp only [State.dmaUntranslated, hc, hg, hx, ho]

end untranslated

/-! ### Translated requests (R299) -/

/-- A translated request may be performed: the context has ATS = 1, the function is not blocked under it, and the address
lies in a space that a function may reach by itself. -/
def State.atsAllows (s : State) (r rid : Nat) (c : List W64) (addr : Nat) : Prop :=
  ctxAts c = true ∧ (¬ ∃ e ∈ (s.iotu r).blocked, e.1 = rid ∧ e.2 = c)
    ∧ (inDram addr = true ∨ inEndpoint addr = true ∨ inPcie addr = true)

section translated
variable {s s1 : State} {r rid addr len : Nat} {pasid : Option Nat} {op : DmaOp} {hdr : List Nat}

theorem State.dmaTranslated_refused {k : Nat} (hc : s.dmaContext r rid = (.error k, s1)) :
    s.dmaTranslated r rid pasid addr len op hdr = (.ur, s1.dmaFault r rid pasid addr k 0 op.acc.w) := by
  simp only [State.dmaTranslated, hc]

/-- The checks of a translated request, as the unit makes them. -/
theorem State.not_atsAllows_iff (s : State) (r rid : Nat) (c : List W64) (addr : Nat) :
    (!ctxAts c || (s.iotu r).blocked.any (fun e => e.1 == rid && e.2 == c)
      || !(inDram addr || inEndpoint addr || inPcie addr)) = true ↔ ¬ s.atsAllows r rid c addr := by
  rw [State.atsAllows, not_and_or, not_and_or, not_not]
  simp [or_assoc, and_assoc]

variable {c : List W64} (hc : s.dmaContext r rid = (.ok c, s1))
include hc

theorem State.dmaTranslated_allowed (h : s1.atsAllows r rid c addr) :
    s.dmaTranslated r rid pasid addr len op hdr =
      s1.dmaRoute (ctxTd c) rid addr op hdr ((piecesOf addr (op.size len)).map (fun e => (e.1, e.2, e.1, 0))) := by
  simp only [State.dmaTranslated, hc]
  exact if_neg (fun hn => (s1.not_atsAllows_iff r rid c addr).mp hn h)

theorem State.dmaTranslated_barred (h : ¬ s1.atsAllows r rid c addr) :
    s.dmaTranslated r rid pasid addr len op hdr = (.urRec, s1) := by
  simp only [State.dmaTranslated, hc]
  exact if_pos ((s1.not_atsAllows_iff r rid c addr).mpr h)

end translated

/-! ### The commands at a unit that serves requests -/

/-- The answer to a translation request, by the translation found for it; a page of another key must be reached
untranslated (R299, log 39). -/
def atsAnswer (r rid : Nat) : Except XFault Xlat → Out
  | .error _ => .atsReply r rid 0 12 false false
  | .ok x =>
    if x.ks ≠ 0 then .atsReply r rid 0 x.size false false
    else .atsReply r rid (x.pa / 2 ^ x.size * 2 ^ x.size) x.size x.r x.w

section unit
variable {s t : State} {r rid addr len : Nat} {pasid : Option Nat} {wr : Option (List Byte)} {o : CplKind} {bs : List Byte}

/-- The unit of a region takes requests: it is present, and not fenced. -/
def State.iotuServes (s : State) (r : Nat) : Prop := s.up = true ∧ r < 8 ∧ (s.iotu r).fenced = false

theorem State.iotuServes.guard (h : s.iotuServes r) : ¬ (!s.up || decide (8 ≤ r) || (s.iotu r).fenced) = true := by
  obtain ⟨hup, hr, hf⟩ := h
  simp [hup, hr, hf]

variable (h : s.iotuServes r)
include h

theorem exec_dmaRequest
    (ha : s.dmaAnswer r (s.portOfRid r rid) rid (dmaOpOf wr) [] (s.dmaUntranslated r rid pasid addr len (dmaOpOf wr) [])
      = t.dmaReplied r rid wr o bs) (hw : t.waits = false) :
    exec (.dmaRequest r rid pasid addr wr len) s = .next (t.dmaReplied r rid wr o bs) :=
  congrArg Host.Outcome.next ((congrArg s.orWait ((if_neg h.guard).trans ha)).trans
    (State.orWait_of s ((t.dmaReplied_waits ..).trans hw)))

theorem exec_translatedRequest
    (ha : s.dmaAnswer r (s.portOfRid r rid) rid (dmaOpOf wr) [] (s.dmaTranslated r rid pasid addr len (dmaOpOf wr) [])
      = t.dmaReplied r rid wr o bs) (hw : t.waits = false) :
    exec (.translatedRequest r rid pasid addr wr len) s = .next (t.dmaReplied r rid wr o bs) :=
  congrArg Host.Outcome.next ((congrArg s.orWait ((if_neg h.guard).trans ha)).trans
    (State.orWait_of s ((t.dmaReplied_waits ..).trans hw)))

variable {s1 s2 s3 : State} {c : List W64} (hc : s.dmaContext r rid = (.ok c, s1))
include hc

theorem exec_atsTranslationRequest (hats : ctxAts c = true) {g : Regime} (hg : s1.ioRegime r c pasid = (.ok g, s2))
    {x : Except XFault Xlat} (hx : s2.ioLookup r g accProbe addr = (x, s3)) (hw : s3.waits = false) :
    exec (.atsTranslationRequest r rid pasid addr) s = .next (s3.emit (atsAnswer r rid x)) := by
  refine congrArg Host.Outcome.next (.trans (congrArg s.orWait ((if_neg h.guard).trans ?_)) (State.orWait_of s hw))
  simp only [hc, hats, hg, hx, Bool.not_true, Bool.false_eq_true, if_false]
  cases x with
  | error f => rfl
  | ok x => exact (apply_ite s3.emit ..).symm

section page
variable {group : Nat} {write last : Bool}

/-- An entry of type 2; the last request of a group that finds no place is answered with Response Failure (15). -/
theorem exec_pageRequest_entered (hpri : ctxPri c = true) {placed : Bool}
    (he : s1.iotEvent r 2 (eqFlags 0 0 write pasid.isSome last) rid (pasid.getD 0 % 2 ^ 20 + 2 ^ 20 * (group % 512)) addr
      = (placed, s2)) (hw : s2.waits = false) :
    exec (.pageRequest r rid pasid addr group write last) s =
      .next (if placed = false ∧ last = true then s2.emit (.prg r rid (group % 512) 15) else s2) := by
  refine congrArg Host.Outcome.next (.trans (congrArg s.orWait ((if_neg h.guard).trans ?_)) (State.orWait_of s ?_))
  · simp only [hc, hpri, he, Bool.not_true, Bool.false_eq_true, if_false]
    cases placed <;> simp
  · split
    · exact hw
    · exact hw

/-- A context without PRI discards the request, counts it and records it. -/
theorem exec_pageRequest_discarded (hpri : ctxPri c = false) :
    let t := (s1.modPort r (s1.portOfRid r rid) (fun p => { p with cnt3 := satAdd 32 p.cnt3 })).portRecord r
      (s1.portOfRid r rid) 0 0x0609 none []
    t.waits = false → exec (.pageRequest r rid pasid addr group write last) s = .next t := by
  intro t hw
  refine congrArg Host.Outcome.next (.trans (congrArg s.orWait ((if_neg h.guard).trans ?_)) (State.orWait_of s hw))
  simp only [hc, hpri, Bool.not_false, if_true]
  rfl

end page

end unit

/-- Settles O47: a shootdown by what it reaches and by what holds it; a request by the first check that it fails. -/
theorem deviceAccessResults : Obligations.DeviceAccessResults := by
  refine ⟨fun s hup => ⟨?ignored, ?begins, ?ends, ?answered, ?timeout, ?written⟩,
    fun s r rid pasid addr len wr hup hr hf => ?requests⟩
  case ignored => exact fun hb => (exec_tlbShootdown hup).trans (congrArg _ (State.sdGo_busy hb))
  case begins =>
    refine fun hb => ⟨s.sdGo, exec_tlbShootdown hup, State.sdGo_inProgress hb, State.sdGo_core hb, fun hio => ?_,
      fun hio r hr => ?_⟩
    · rw [State.sdGo_cores hb hio, State.sdCores_sd]
      exact ⟨s.sdCores_regions, rfl, s.sdCores_out⟩
    · have hu : s.sdGo.iotu r = s.sd.atUnit (s.iotu r) := by
        rw [State.sdGo_units hb hio, State.sdUnits_iotu _ _ hr, State.sdCores_iotu]
      rw [hu]
      exact ⟨rfl, rfl, rfl⟩
  case ends =>
    intro stores reads hb
    obtain ⟨hheld, hdone⟩ := exec_shootdownComplete hup hb
    exact ⟨fun hs hr hw => hdone (fun h => h.elim hs (Or.rec hr (· hw))), hheld⟩
  case answered => exact exec_atsInvalidateCompletion hup
  case timeout => exact fun r rid hm => exec_atsInvalidationTimeout hup hm
  case written =>
    refine fun r v hr => ⟨exec_iotEqbWrite hup hr v, fun hcode => ?_, fun h0 h1 h15 => ?_⟩
    · exact (exec_pageRequestGroupResponse hup hr v).trans (congrArg _ (if_pos hcode))
    · exact (exec_pageRequestGroupResponse hup hr v).trans (congrArg _ (if_neg (by simp [h0, h1, h15])))
  case requests =>
    intro op n answers
    have h : s.iotuServes r := ⟨hup, hr, hf⟩
    have hn : op.size len = n := by cases wr <;> rfl
    have hw : op.acc.w = wr.isSome := dmaOpOf_acc_w wr
    -- What a request of either kind comes to, and the reply to that.
    have untranslated {a : DmaAns × State} {t : State} {o : CplKind} {bs : List Byte}
        (ha : s.dmaUntranslated r rid pasid addr len op [] = a)
        (ht : s.dmaAnswer r (s.portOfRid r rid) rid op [] a = t.dmaReplied r rid wr o bs) :
        answers (.dmaRequest r rid pasid addr wr len) t o bs := exec_dmaRequest h (ha ▸ ht)
    have translated {a : DmaAns × State} {t : State} {o : CplKind} {bs : List Byte}
        (ha : s.dmaTranslated r rid pasid addr len op [] = a)
        (ht : s.dmaAnswer r (s.portOfRid r rid) rid op [] a = t.dmaReplied r rid wr o bs) :
        answers (.translatedRequest r rid pasid addr wr len) t o bs := exec_translatedRequest h (ha ▸ ht)
    rw [← hw, ← hn]
    refine ⟨fun c s1 hc => ⟨?noRegime, ?regime, ⟨?allowed, ?barred⟩, ?translation, ?entered, ?discarded⟩,
      fun k s1 hc => ?noContext⟩
    case noContext =>
      exact ⟨untranslated (State.dmaUntranslated_refused hc) (State.dmaAnswer_ur ..),
        translated (State.dmaTranslated_refused hc) (State.dmaAnswer_ur ..)⟩
    case noRegime =>
      exact fun f s2 hg => untranslated (State.dmaUntranslated_noRegime hc hg) (State.dmaAnswer_ur ..)
    case regime =>
      refine fun g s2 hg => ⟨fun f va s3 hx => ?_, fun l s3 hx => ⟨fun b p s4 ho => ?_, fun s4 ho => ?_⟩⟩
      · exact untranslated (State.dmaUntranslated_fault hc hg hx) (State.dmaAnswer_ur ..)
      · exact untranslated (State.dmaUntranslated_done hc hg hx ho) (State.dmaAnswer_done ..)
      · exact untranslated (State.dmaUntranslated_noTarget hc hg hx ho) (State.dmaAnswer_urRec ..)
    case allowed =>
      intro hats hblocked hspace b p s4 ho
      exact translated ((State.dmaTranslated_allowed hc ⟨hats, hblocked, hspace⟩).trans ho) (State.dmaAnswer_done ..)
    case barred =>
      intro hbar
      refine translated (State.dmaTranslated_barred hc ?_) (State.dmaAnswer_urRec ..)
      rintro ⟨hats, hblocked, hspace⟩
      exact hbar.elim (fun hn => Bool.noConfusion (hats.symm.trans hn)) (Or.rec hblocked (· hspace))
    case translation =>
      refine fun hats g s2 hg => ⟨fun x s3 hx hw => ?_, fun f s3 hx hw => exec_atsTranslationRequest h hc hats hg hx hw⟩
      rw [exec_atsTranslationRequest h hc hats hg hx hw]
      exact ⟨fun hks => congrArg (fun o => Host.Outcome.next (s3.emit o)) (if_neg (not_not.mpr hks)),
        fun hks => congrArg (fun o => Host.Outcome.next (s3.emit o)) (if_pos hks)⟩
    case entered => exact fun group write last hpri placed s2 he hw => exec_pageRequest_entered h hc hpri he hw
    case discarded => exact fun group write last hpri => exec_pageRequest_discarded h hc hpri

end Sys2Proof.Machine
end

section
/-! SUPPORT. The doorbells and the commands of a Cobalt engine (R309, R314, R316, R318, R320). -/

namespace Sys2Proof.Machine

variable {s t : State} {r i : Nat}

/-- An engine as it is changed depends on the engine that stands there alone. -/
theorem State.modInst_congr {f g : Inst → Inst} (h : f (s.inst r i) = g (s.inst r i)) :
    s.modInst r i f = s.modInst r i g := by
  have h' : f (SMap.get Inst.reset (s.region r).fn.insts i) = g (SMap.get Inst.reset (s.region r).fn.insts i) := h
  unfold State.modInst State.modFn
  exact State.modRegion_congr (by simp only [h'])

/-! ### Doorbells (R314, R316, R318) -/

section judge
variable {x : Inst} {tail : Nat}

theorem Inst.judge_notReady (hst : x.st = 0) : x.judge tail = 3 := if_pos hst

variable (hst : x.st ≠ 0)
include hst

theorem Inst.judge_badTail (hb : (tail + 65536 - x.head) % 65536 < x.occupancy) : x.judge tail = 2 :=
  (if_neg hst).trans (if_pos hb)

variable (hb : x.occupancy ≤ (tail + 65536 - x.head) % 65536)
include hb

theorem Inst.judge_full (hf : x.qlim < (tail + 65536 - x.head) % 65536 ∨ x.depth < (tail + 65536 - x.head) % 65536) :
    x.judge tail = 1 :=
  (if_neg hst).trans ((if_neg (Nat.not_lt.mpr hb)).trans (if_pos hf))

theorem Inst.judge_accepted (hq : (tail + 65536 - x.head) % 65536 ≤ x.qlim)
    (hd : (tail + 65536 - x.head) % 65536 ≤ x.depth) :
    x.judge tail = 0 :=
  (if_neg hst).trans ((if_neg (Nat.not_lt.mpr hb)).trans (if_neg (by omega)))

end judge

theorem State.tailWrite_accepted {tail : Nat} (h : (s.inst r i).judge tail = 0) :
    s.tailWrite r i tail 0 = s.modInst r i (fun x => { x with tail := tail, dbres := 0, lastp := 0 }) :=
  State.modInst_congr (if_pos h)

theorem State.tailWrite_refused {tail n : Nat} (h : (s.inst r i).judge tail = n) (hn : n ≠ 0) :
    s.tailWrite r i tail 0 = s.modInst r i (fun x => { x with dbres := n }) := by
  subst h
  exact State.modInst_congr (if_neg hn)

/-- RESUME is for an engine in STOPPED (2) or ERROR (3). -/
theorem State.opResume_refused (h2 : (s.inst r i).st ≠ 2) (h3 : (s.inst r i).st ≠ 3) :
    s.opResume r i = s.modInst r i (fun x => { x with dbres := 4 }) :=
  (if_neg h2).trans (if_neg h3)

theorem State.opResume_error (h : (s.inst r i).st = 3) : s.opResume r i = s.modInst r i (fun x => { x with st := 1 }) :=
  (if_neg (by rw [h]; decide)).trans (if_pos h)

/-- SKIP differs from RESUME in STOPPED alone, where a descriptor is there to skip. -/
theorem State.opSkip_eq_opResume (h : (s.inst r i).st ≠ 2) : s.opSkip r i = s.opResume r i := if_neg h

section doorbell
variable (ho : s.instOpen r i = true) {td : Nat}
include ho

section own
variable (h : td = 0 ∨ td = (s.inst r i).td)
include h

theorem exec_dbTailWrite_own (tail : Nat) :
    exec (.dbTailWrite r i td tail) s = .next (s.tailWrite r i (tail % 65536) 0) := by
  refine congrArg Host.Outcome.next ((if_pos ho).trans ?_)
  simp only [State.dbTail, State.foreign, if_pos h]

theorem exec_resumeDesc_own : exec (.resumeDesc r i td) s = .next (s.opResume r i) := by
  refine congrArg Host.Outcome.next ((if_pos ho).trans ?_)
  simp only [State.dbCtl, State.foreign, if_pos h, Bool.and_false, Bool.false_eq_true, if_false, if_true]

theorem exec_skipDesc_own : exec (.skipDesc r i td) s = .next (s.opSkip r i) := by
  refine congrArg Host.Outcome.next ((if_pos ho).trans ?_)
  simp only [State.dbCtl, State.foreign, if_pos h, Bool.false_and, Bool.false_eq_true, if_false, if_true]

end own

section other
variable (h : ¬ (td = 0 ∨ td = (s.inst r i).td))
include h

/-- A tail of a foreign domain is recorded and changes no engine. -/
theorem exec_dbTailWrite_foreign (tail : Nat) :
    exec (.dbTailWrite r i td tail) s =
      .next (s.cobRecord r i 0 0x0706 (some td) [tail % 65536 % 256, tail % 65536 / 256 % 256, td] 0) := by
  refine congrArg Host.Outcome.next ((if_pos ho).trans ?_)
  simp only [State.dbTail, State.foreign, if_neg h]

theorem exec_dbCtl_foreign :
    exec (.resumeDesc r i td) s = .next (s.cobRecord r i 0 0x0706 (some td) [255, 255, td] 0)
    ∧ exec (.skipDesc r i td) s = .next (s.cobRecord r i 0 0x0706 (some td) [255, 255, td] 0) := by
  have hctl (resume skip : Bool) :
      s.dbCtl r i td resume skip = s.cobRecord r i 0 0x0706 (some td) [255, 255, td] 0 := by
    simp only [State.dbCtl, State.foreign, if_neg h]
  exact ⟨congrArg Host.Outcome.next ((if_pos ho).trans (hctl true false)),
    congrArg Host.Outcome.next ((if_pos ho).trans (hctl false true))⟩

end other
end doorbell

/-! ### Commands (R309, R318) -/

theorem State.instCmd_busy (hb : (s.inst r i).busy = true) (op : Nat) (desc : Bool) : s.instCmd r i op desc = s := if_pos hb

section idle
variable (hb : (s.inst r i).busy = false) (desc : Bool)
include hb

theorem State.instCmd_enable : s.instCmd r i 1 desc = s.opEnable r i := if_neg (Bool.eq_false_iff.mp hb)
theorem State.instCmd_quiesce : s.instCmd r i 2 desc = s.opQuiesce r i desc := if_neg (Bool.eq_false_iff.mp hb)
theorem State.instCmd_run : s.instCmd r i 3 desc = s.opRun r i := if_neg (Bool.eq_false_iff.mp hb)
theorem State.instCmd_reset : s.instCmd r i 4 desc = s.opReset r i := if_neg (Bool.eq_false_iff.mp hb)
theorem State.instCmd_save : s.instCmd r i 5 desc = s.opSave r i := if_neg (Bool.eq_false_iff.mp hb)
theorem State.instCmd_restore : s.instCmd r i 6 desc = s.opRestore r i := if_neg (Bool.eq_false_iff.mp hb)

theorem State.instCmd_undefined {op : Nat} (h : 7 ≤ op) : s.instCmd r i op desc = s.instRes r i 6 := by
  obtain ⟨k, rfl⟩ := Nat.exists_eq_add_of_le' h
  exact if_neg (Bool.eq_false_iff.mp hb)

end idle

/-- No code of INST_CMD acts while a command is outstanding. -/
theorem exec_instCmdUndefined_busy (hb : (s.inst r i).busy = true) (op : Nat) :
    exec (.instCmdUndefined r i op) s = .next s :=
  congrArg Host.Outcome.next ((congrArg (ite _ · s) (State.instCmd_busy hb op false)).trans (ite_self s))

section commands
variable (ho : s.instOpen r i = true)
include ho

theorem exec_enableInst : exec (.enableInst r i) s = .next (s.instCmd r i 1 false) := congrArg Host.Outcome.next (if_pos ho)

theorem exec_quiesceInst (desc : Bool) : exec (.quiesceInst r i desc) s = .next (s.instCmd r i 2 desc) :=
  congrArg Host.Outcome.next (if_pos ho)

theorem exec_runInst : exec (.runInst r i) s = .next (s.instCmd r i 3 false) := congrArg Host.Outcome.next (if_pos ho)

theorem exec_resetInst : exec (.resetInst r i) s = .next (s.instCmd r i 4 false) := congrArg Host.Outcome.next (if_pos ho)

theorem exec_instCmdUndefined {op : Nat} (h7 : 7 ≤ op) (h15 : op ≤ 15) :
    exec (.instCmdUndefined r i op) s = .next (s.instCmd r i op false) :=
  congrArg Host.Outcome.next (if_pos (by simp [ho, h7, h15]))

theorem exec_saveInst (hcmd : s.instCmd r i 5 false = t) (hw : t.waits = false) : exec (.saveInst r i) s = .next t :=
  congrArg Host.Outcome.next ((congrArg s.orWait ((if_pos ho).trans hcmd)).trans (State.orWait_of s hw))

theorem exec_restoreInst (hcmd : s.instCmd r i 6 false = t) (hw : t.waits = false) : exec (.restoreInst r i) s = .next t :=
  congrArg Host.Outcome.next ((congrArg s.orWait ((if_pos ho).trans hcmd)).trans (State.orWait_of s hw))

/-- An engine with nothing in a pipe and nothing to write is quiesced, with DESC = 1 once its descriptor has ended. -/
theorem exec_quiesceComplete (hst : (s.inst r i).st = 4) (hp : (s.inst r i).pipe = false) (hf : (s.inst r i).fin = none)
    (hq : (s.inst r i).qdesc = false ∨ (s.inst r i).prev ≠ 1 ∨ (s.inst r i).desc = none) :
    exec (.quiesceComplete r i) s = .next (s.modInst r i (fun x => { x with st := 5, qdesc := false })) := by
  have hended : ((s.inst r i).qdesc && decide ((s.inst r i).prev = 1) && (s.inst r i).desc.isSome) = false := by
    rcases hq with h | h | h <;> simp [h]
  exact congrArg Host.Outcome.next (if_neg (by simp [ho, hst, hp, hf, hended]))

end commands

/-! ### SAVE and RESTORE (R320) -/

/-- The address of an engine's save area. -/
def Inst.savePa (x : Inst) : Nat := fld x.ctxa 6 46 * 64

/-- A save area lies in installed DRAM. -/
def State.saveThere (s : State) (pa : Nat) : Prop := inDram pa = true ∧ s.dramOk pa = true ∧ s.dramOk (pa + 511) = true

/-- The check of SAVE and RESTORE that answers FAULT. -/
theorem State.not_saveThere_iff (s : State) (pa : Nat) :
    (!(inDram pa && s.dramOk pa && s.dramOk (pa + 511))) = true ↔ ¬ s.saveThere pa := by
  rw [Bool.not_eq_true', ← Bool.not_eq_true, State.saveThere]
  simp only [Bool.and_eq_true, and_assoc]

section save

theorem State.opSave_refused (h : (s.inst r i).st ≠ 5) : s.opSave r i = s.instRes r i 2 := if_pos h

variable (hst : (s.inst r i).st = 5)
include hst

theorem State.opSave_held (hb : (s.fn r).bme = false) :
    s.opSave r i = s.modInst r i (fun x => { x with busy := true }) :=
  (if_neg (not_not.mpr hst)).trans (if_pos (by simp [hb]))

variable (hb : (s.fn r).bme = true)
include hb

theorem State.opSave_fault (h : ¬ s.saveThere (s.inst r i).savePa) :
    s.opSave r i = s.modInst r i (fun x => { x with res := 4, busy := false }) :=
  (if_neg (not_not.mpr hst)).trans ((if_neg (by simp [hb])).trans
    (if_pos ((s.not_saveThere_iff _).mpr h)))

theorem State.opSave_written (h : s.saveThere (s.inst r i).savePa) :
    s.opSave r i = (s.memStore (s.inst r i).savePa 0 0
      ((s.inst r i).saveBody ++ (sha384 (s.inst r i).saveBody).take 16) false).modInst r i
        (fun x => { x with res := 0, busy := false }) :=
  (if_neg (not_not.mpr hst)).trans ((if_neg (by simp [hb])).trans
    (if_neg (fun hn => (s.not_saveThere_iff _).mp hn h)))

end save

/-- An engine as a save area gives it (R320, log 35). -/
def Inst.restored (b : List Byte) (x : Inst) : Inst :=
  let fl := (b.getD 0x20 0).toNat
  let d := parseDesc ((b.drop 0x30).take 64)
  let prog := nat8 b 0x28 % 2 ^ 62
  { x with
    st := 5, prev := (b.getD 2 0).toNat, status := (b.getD 3 0).toNat, head := leNat ((b.drop 4).take 2)
    tail := leNat ((b.drop 6).take 2), lastp := BitVec.ofNat 64 (nat8 b 0x18), cwf := fl.testBit 0, drf := fl.testBit 1
    desc := if fl.testBit 2 then some d else none, prog
    op := if fl.testBit 2 then imageOp d prog ((b.drop 0x70).take 336) else OpSt.reset
    fin := if fl.testBit 0 then some (byteFin (b.getD 0x1BF 0)) else none, res := 0, busy := false }

section restore

theorem State.opRestore_refused (h : (s.inst r i).st ≠ 0) : s.opRestore r i = s.instRes r i 2 := if_pos h

variable (hst : (s.inst r i).st = 0)
include hst

theorem State.opRestore_held (hb : (s.fn r).bme = false) :
    s.opRestore r i = s.modInst r i (fun x => { x with busy := true }) :=
  (if_neg (not_not.mpr hst)).trans (if_pos (by simp [hb]))

variable (hb : (s.fn r).bme = true)
include hb

theorem State.opRestore_fault (h : ¬ s.saveThere (s.inst r i).savePa) :
    s.opRestore r i = s.modInst r i (fun x => { x with res := 4, busy := false }) :=
  (if_neg (not_not.mpr hst)).trans ((if_neg (by simp [hb])).trans
    (if_pos ((s.not_saveThere_iff _).mpr h)))

variable (hthere : s.saveThere (s.inst r i).savePa) {b : List Byte} {bad : Bool} {u : State}
  (hm : s.memRange (s.inst r i).savePa 512 0 0 = ((b, bad), u))
include hthere hm

/-- RESTORE by what it has read. -/
theorem State.opRestore_read : s.opRestore r i =
    if bad then u.modInst r i (fun x => { x with res := 4, busy := false })
    else if !saveOk b (s.inst r i) then u.modInst r i (fun x => { x with res := 5, busy := false })
    else u.modInst r i (Inst.restored b) := by
  refine (if_neg (not_not.mpr hst)).trans ((if_neg (by simp [hb])).trans
    ((if_neg (fun hn => (s.not_saveThere_iff _).mp hn hthere)).trans ?_))
  rw [← Inst.savePa, hm]
  rfl

end restore

end Sys2Proof.Machine
end

section
/-! SUPPORT. The work of a Cobalt engine: its descriptors, its chunks and its completions (R302, R305, R307, R310 to R313,
R318, R319), and the obligation over its life and its work. -/

namespace Sys2Proof.Machine

section work
variable {s t u : State} {r i : Nat}

/-! ### The start of a descriptor (R310 to R312, R318) -/

/-- The checks of R312 for a descriptor that has no parameter block to read. -/
theorem Desc.refused_true (d : Desc) : d.refused true =
    if d.invalid then some (0x20, 0)
    else if d.overlaps then some (0x21, 0)
    else if d.op = 8 ∧ bits d.param 8 6 < bits d.param 0 6 then some (0x25, 3) else none := by
  simp [Desc.refused]

theorem State.descBegin_checked (s : State) (r i : Nat) {d : Desc} (h5 : d.op ≠ 5) (h6 : d.op ≠ 6) :
    s.descBegin r i d = s.modInst r i (fun x =>
      let y := { x with desc := some d, prog := 0, needParam := false }
      if d.invalid then { y with fin := some (0x20, 0) }
      else if d.overlaps then { y with fin := some (0x21, 0) }
      else if d.op = 8 ∧ bits d.param 8 6 < bits d.param 0 6 then { y with fin := some (0x25, 3) }
      else if d.op = 9 then { y with fin := some (if d.aux1 ≠ 0 ∧ d.aux1 = x.lastp.toNat then (1, 0) else (0x26, 0)) }
      else { y with op := d.start }) := by
  refine (if_neg (not_or.mpr ⟨h5, h6⟩)).trans (State.modInst_congr ?_)
  rw [Option.isSome_some, Desc.refused_true]
  by_cases hinvalid : d.invalid = true
  · simp only [if_pos hinvalid]
  by_cases hoverlaps : d.overlaps = true
  · simp only [if_neg hinvalid, if_pos hoverlaps]
  by_cases hscale : d.op = 8 ∧ bits d.param 8 6 < bits d.param 0 6
  · simp only [if_neg hinvalid, if_neg hoverlaps, if_pos hscale]
  · simp only [if_neg hinvalid, if_neg hoverlaps, if_neg hscale, Option.getD_some]

/-- An active engine of a function that makes accesses starts descriptors. -/
def State.starts (s : State) (r i : Nat) : Prop :=
  s.fnRuns r = true ∧ i < 64 ∧ (s.fn r).holdUcode = false ∧ (s.inst r i).st = 1 ∧ (s.inst r i).fin = none

theorem State.starts.guard (h : s.starts r i) :
    ¬ (!s.fnRuns r || decide (64 ≤ i) || (s.fn r).holdUcode || decide ((s.inst r i).st ≠ 1) || (s.inst r i).fin.isSome)
      = true := by
  obtain ⟨hrun, hi, hucode, hst, hfin⟩ := h
  simp [hrun, hi, hucode, hst, hfin]

section start
variable (h : s.starts r i)
include h

/-- A descriptor whose parameter block could not be read is begun again. -/
theorem exec_descriptorStart_again {d : Desc} (hd : (s.inst r i).desc = some d) (hp : (s.inst r i).needParam = true)
    (hw : (s.descBegin r i d).waits = false) : exec (.descriptorStart r i) s = .next (s.descBegin r i d) := by
  refine congrArg Host.Outcome.next (.trans (congrArg s.orWait ((if_neg h.guard).trans ?_)) (State.orWait_of s hw))
  simp only [hd, hp, if_true]

variable (hd : (s.inst r i).desc = none) (hq : (s.inst r i).occupancy ≠ 0)
include hd hq

theorem exec_descriptorStart_read {bs : List Byte}
    (hr : s.instRead r (s.inst r i) ((s.inst r i).slot (s.inst r i).head) 64 = (.ok bs, u))
    (hw : (u.descBegin r i (parseDesc bs)).waits = false) :
    exec (.descriptorStart r i) s = .next (u.descBegin r i (parseDesc bs)) := by
  refine congrArg Host.Outcome.next (.trans (congrArg s.orWait ((if_neg h.guard).trans ?_)) (State.orWait_of s hw))
  simp only [hd, hr, if_neg hq]

/-- A slot that cannot be read stops the engine with DRF. -/
theorem exec_descriptorStart_fault {f : IoFail}
    (hr : s.instRead r (s.inst r i) ((s.inst r i).slot (s.inst r i).head) 64 = (.error f, u)) :
    let t := ((u.stopFault r i f 0).modInst r i (fun x => { (x.goTo 2) with status := 0x10, drf := true })).postVec r i
      0x10 false
    t.waits = false → exec (.descriptorStart r i) s = .next t := by
  intro t hw
  refine congrArg Host.Outcome.next (.trans (congrArg s.orWait ((if_neg h.guard).trans ?_)) (State.orWait_of s hw))
  simp only [hd, hr, if_neg hq]
  rfl

end start

/-! ### The dispatch of a chunk (R305, R307) -/

/-- A function that makes accesses has a free pipe. -/
def State.pipeFree (s : State) (r : Nat) : Prop :=
  s.fnRuns r = true ∧ (s.fn r).holdUcode = false ∧ ((s.fn r).insts.filter (fun e => e.2.pipe)).length < 4

theorem State.pipeFree.guard (h : s.pipeFree r) :
    ¬ (!s.fnRuns r || (s.fn r).holdUcode || decide (4 ≤ ((s.fn r).insts.filter (fun e => e.2.pipe)).length)) = true := by
  obtain ⟨hrun, hucode, hfree⟩ := h
  simp [hrun, hucode, hfree]

section dispatch
variable (h : s.pipeFree r)
include h

theorem exec_chunkDispatch_none (hc : (s.fn r).candidates = []) (hw : s.waits = false) :
    exec (.chunkDispatch r) s = .next s := by
  refine congrArg Host.Outcome.next (.trans (congrArg s.orWait ((if_neg h.guard).trans ?_)) (State.orWait_of s hw))
  simp only [hc]

/-- The first candidate takes the pipe once every read of its chunk toward a port is sent. -/
theorem exec_chunkDispatch_first {j : Nat} {rest : List Nat} {d : Desc} (hc : (s.fn r).candidates = j :: rest)
    (hd : (s.inst r j).desc = some d)
    (hs : (s.modInst r j (fun x => { x with peer := [] })).sendPeers r j (s.peerReads r (s.inst r j) d) = (u, true))
    (hw : u.waits = false) : exec (.chunkDispatch r) s = .next (u.modFn r (fun f => f.count j)) := by
  refine congrArg Host.Outcome.next (.trans (congrArg s.orWait ((if_neg h.guard).trans ?_)) (State.orWait_of s hw))
  simp only [hc, hd, hs]

end dispatch

/-! ### The end of a chunk (R302, R313, R319) -/

/-- The chunk of an engine is in a pipe, and every read of it toward a port is answered. -/
def State.chunkAnswered (s : State) (r i : Nat) : Prop :=
  s.up = true ∧ s.fnOn r = true ∧ i < 64 ∧ (s.inst r i).pipe = true ∧ ∀ p ∈ (s.inst r i).peer, p.st ≠ 0

theorem State.chunkAnswered.guard (h : s.chunkAnswered r i) :
    ¬ (!s.up || !s.fnOn r || decide (64 ≤ i) || !(s.inst r i).pipe || (s.inst r i).peer.any (fun p => p.st == 0))
      = true := by
  obtain ⟨hup, hon, hi, hpipe, hpeer⟩ := h
  simpa [hup, hon, hi, hpipe] using hpeer

/-- What the failure of a chunk records, and the status and DETAIL with which its descriptor ends (R313, R318). -/
def State.chunkFail (s : State) (r i : Nat) (x : Inst) (op : Nat) : IoFail → State × (Nat × Nat)
  | .xlat k st w va => (s.stopFault r i (.xlat k st w va) op, (0x10, k + 8 * st))
  | .addr _ => (s, (0x22, 0))
  | .poison _ => (s.cobPoison r i x op, (0x23, 0))
  | .cto => (s, (0x24, 0))

section chunk
variable (h : s.chunkAnswered r i) {d : Desc} (hd : (s.inst r i).desc = some d)
include h hd

/-- A chunk that fails writes nothing. -/
theorem exec_chunkComplete_fails {e : IoFail} (hp : s.chunkPlan r (s.inst r i) d = (.error e, u)) {f : Nat × Nat}
    (hf : u.chunkFail r i (s.inst r i) d.op e = (t, f)) (hw : t.waits = false) :
    exec (.chunkComplete r i) s = .next (t.modInst r i (fun x => { x with pipe := false, peer := [], fin := some f })) := by
  refine congrArg Host.Outcome.next (.trans (congrArg s.orWait ((if_neg h.guard).trans ?_)) (State.orWait_of s hw))
  simp only [hd, hp]
  cases e <;> cases hf <;> rfl

/-- A chunk that is read and computed whole writes all its pieces. -/
theorem exec_chunkComplete_writes {p : ChunkPlan} (hp : s.chunkPlan r (s.inst r i) d = (.ok p, u))
    (hc : u.canWrite p = true) :
    let t := p.pieces.foldl (fun v e => v.writePiece (s.inst r i).td (decide (d.op = 3)) e) u
    t.waits = false → exec (.chunkComplete r i) s = .next (t.modInst r i (fun x => { x with
      pipe := false, peer := [], op := p.out.op, prog := x.prog + p.out.adv, fin := p.out.fin })) := by
  intro t hw
  refine congrArg Host.Outcome.next (.trans (congrArg s.orWait ((if_neg h.guard).trans ?_)) (State.orWait_of s hw))
  simp only [hd, hp, hc, Bool.not_true, Bool.false_eq_true, if_false]
  rfl

end chunk

/-! ### Completions (R302, R313, R318) -/

/-- An engine whose descriptor has ended has its completion to write. -/
def State.completes (s : State) (r i : Nat) (fin : Nat × Nat) : Prop :=
  s.fnRuns r = true ∧ i < 64 ∧ ((s.inst r i).st = 1 ∨ (s.inst r i).st = 4) ∧ (s.inst r i).cwf = false
    ∧ (s.inst r i).fin = some fin

theorem State.completes.guard {fin : Nat × Nat} (h : s.completes r i fin) :
    ¬ (!s.fnRuns r || decide (64 ≤ i) || (decide ((s.inst r i).st ≠ 1) && decide ((s.inst r i).st ≠ 4))
      || (s.inst r i).cwf) = true := by
  obtain ⟨hrun, hi, hst, hcwf, -⟩ := h
  rcases hst with hst | hst <;> simp [hrun, hi, hst, hcwf]

/-- The word of CMPL and the word of PROG (R310, R313). -/
def Inst.cmplBytes (x : Inst) (status detail : Nat) : List Byte :=
  natLe 8 (status + 256 * detail) ++ natLe 8 (progWord (x.desc.getD Desc.reset).op x.prog)

/-- An engine after a completion: a stop keeps the descriptor, every other final status advances HEAD. -/
def Inst.completed (status : Nat) (x : Inst) : Inst :=
  let y := { x with fin := none, status := if 16 ≤ status then status else x.status }
  if status = 0x10 ∨ status = 0x11 then y.goTo 2
  else
    let z := { y with head := (y.head + 1) % 65536, desc := none, prog := 0, op := OpSt.reset, needParam := false }
    if 0x20 ≤ status then z.goTo 3 else z.goTo 1

section completion
variable {status detail : Nat} (h : s.completes r i (status, detail))
include h

/-- A completion that cannot be written stops the engine with CWF. -/
theorem exec_descriptorCompletion_fault {f : IoFail}
    (hx : s.instWrite r (s.inst r i) ((s.inst r i).slot (s.inst r i).head + 0x30) ((s.inst r i).cmplBytes status detail)
      = (.error f, u)) :
    let d := (s.inst r i).desc.getD Desc.reset
    let t := ((u.stopFault r i f d.op).modInst r i (fun x => { (x.goTo 2) with status := 0x10, cwf := true })).postVec r i
      0x10 d.irq
    t.waits = false → exec (.descriptorCompletion r i) s = .next t := by
  intro d t hw
  have hguard := h.guard
  obtain ⟨-, -, -, -, hfin⟩ := h
  rw [Inst.cmplBytes] at hx
  refine congrArg Host.Outcome.next (.trans (congrArg s.orWait ((if_neg hguard).trans ?_)) (State.orWait_of s hw))
  simp only [hfin, hx]
  rfl

theorem exec_descriptorCompletion_written
    (hx : s.instWrite r (s.inst r i) ((s.inst r i).slot (s.inst r i).head + 0x30) ((s.inst r i).cmplBytes status detail)
      = (.ok (), u)) :
    let t := (u.modInst r i (Inst.completed status)).postVec r i status ((s.inst r i).desc.getD Desc.reset).irq
    t.waits = false → exec (.descriptorCompletion r i) s = .next t := by
  intro t hw
  have hguard := h.guard
  obtain ⟨-, -, -, -, hfin⟩ := h
  rw [Inst.cmplBytes] at hx
  refine congrArg Host.Outcome.next (.trans (congrArg s.orWait ((if_neg hguard).trans ?_)) (State.orWait_of s hw))
  simp only [hfin, hx]
  rfl

end completion

end work

/-- Settles O48: a doorbell by its domain and its judgement, a command by its engine's state; each step of the work
by what it reads and by the first failure. -/
theorem instanceResults : Obligations.InstanceResults := by
  refine ⟨fun s r i td tail ho => ?life, fun s r i => ⟨?starts, ?begins, ?dispatch, ?chunk, ?completion⟩⟩
  case life =>
    intro x goes own tail used next
    refine ⟨fun h => ⟨?accepted, ?full, ?badTail, ?notReady, ?stopped, ?error, ?running⟩, ?foreign, ?busy,
      fun hb => ?command, exec_quiesceComplete ho⟩
    case accepted =>
      exact fun hst hu hq hd => (exec_dbTailWrite_own ho h _).trans
        (congrArg _ (State.tailWrite_accepted (Inst.judge_accepted hst hu hq hd)))
    case full =>
      exact fun hst hu hf => (exec_dbTailWrite_own ho h _).trans
        (congrArg _ (State.tailWrite_refused (Inst.judge_full hst hu hf) (by decide)))
    case badTail =>
      exact fun hst hu => (exec_dbTailWrite_own ho h _).trans
        (congrArg _ (State.tailWrite_refused (Inst.judge_badTail hst hu) (by decide)))
    case notReady =>
      exact fun hst => (exec_dbTailWrite_own ho h _).trans
        (congrArg _ (State.tailWrite_refused (Inst.judge_notReady hst) (by decide)))
    case stopped =>
      exact fun hst => ⟨(exec_resumeDesc_own ho h).trans (congrArg _ (if_pos hst)),
        (exec_skipDesc_own ho h).trans (congrArg _ (if_pos hst))⟩
    case error =>
      intro hst
      have hresume := State.opResume_error (s := s) hst
      exact ⟨(exec_resumeDesc_own ho h).trans (congrArg _ hresume), (exec_skipDesc_own ho h).trans
        (congrArg _ ((State.opSkip_eq_opResume (by rw [hst]; decide)).trans hresume))⟩
    case running =>
      intro h2 h3
      have hresume := State.opResume_refused (s := s) h2 h3
      exact ⟨(exec_resumeDesc_own ho h).trans (congrArg _ hresume),
        (exec_skipDesc_own ho h).trans (congrArg _ ((State.opSkip_eq_opResume h2).trans hresume))⟩
    case foreign => exact fun h => ⟨exec_dbTailWrite_foreign ho h _, exec_dbCtl_foreign ho h⟩
    case busy =>
      intro hb desc op
      have ignored := State.instCmd_busy hb
      exact ⟨(exec_enableInst ho).trans (congrArg _ (ignored 1 false)),
        (exec_quiesceInst ho desc).trans (congrArg _ (ignored 2 desc)),
        (exec_runInst ho).trans (congrArg _ (ignored 3 false)), (exec_resetInst ho).trans (congrArg _ (ignored 4 false)),
        exec_instCmdUndefined_busy hb op,
        fun hw => ⟨exec_saveInst ho (ignored 5 false) hw, exec_restoreInst ho (ignored 6 false) hw⟩⟩
    case command =>
      have enable := (exec_enableInst ho).trans (congrArg _ (State.instCmd_enable hb false))
      have quiesce := fun desc => (exec_quiesceInst ho desc).trans (congrArg _ (State.instCmd_quiesce hb desc))
      have run := (exec_runInst ho).trans (congrArg _ (State.instCmd_run hb false))
      have reset := (exec_resetInst ho).trans (congrArg _ (State.instCmd_reset hb false))
      refine ⟨?enabled, ?misconfigured, ?notFree, fun desc => ⟨?quiesces, ?idle⟩, ?runs, ?notQuiesced, ?resets, ?kept,
        ?undefined, fun hw => ?saveArea⟩
      case enabled => exact fun h0 hc => enable.trans (congrArg _ ((if_neg (not_not.mpr h0)).trans (if_pos hc)))
      case misconfigured =>
        exact fun h0 hc => enable.trans (congrArg _ ((if_neg (not_not.mpr h0)).trans (if_neg (Bool.eq_false_iff.mp hc))))
      case notFree => exact fun h0 => enable.trans (congrArg _ (if_pos h0))
      case quiesces => exact fun h => (quiesce desc).trans (congrArg _ (if_pos h))
      case idle =>
        exact fun h1 h2 h3 => (quiesce desc).trans (congrArg _ (if_neg (not_or.mpr ⟨h1, not_or.mpr ⟨h2, h3⟩⟩)))
      case runs => exact fun h5 => run.trans (congrArg _ (if_pos h5))
      case notQuiesced => exact fun h5 => run.trans (congrArg _ (if_neg h5))
      case resets => exact fun h => reset.trans (congrArg _ (if_pos h))
      case kept => exact fun h0 h5 => reset.trans (congrArg _ (if_neg (not_or.mpr ⟨h0, h5⟩)))
      case undefined =>
        exact fun op h7 h15 => (exec_instCmdUndefined ho h7 h15).trans (congrArg _ (State.instCmd_undefined hb false h7))
      case saveArea =>
        intro pa there bme
        have save {t : State} (h : s.opSave r i = t) := exec_saveInst ho ((State.instCmd_save hb false).trans h)
        have restore {t : State} (h : s.opRestore r i = t) := exec_restoreInst ho ((State.instCmd_restore hb false).trans h)
        refine ⟨fun h5 => save (State.opSave_refused h5) hw, fun h0 => restore (State.opRestore_refused h0) hw,
          fun hbme => ⟨fun h5 => save (State.opSave_held h5 hbme) hw, fun h0 => restore (State.opRestore_held h0 hbme) hw⟩,
          fun hbme ht => ⟨fun h5 => save (State.opSave_fault h5 hbme ht) hw,
            fun h0 => restore (State.opRestore_fault h0 hbme ht) hw⟩,
          fun hbme ht h5 hu => save (State.opSave_written h5 hbme ht) ((State.modInst_waits ..).trans hu),
          fun hbme ht h0 b bad u hm hu => ?read⟩
        case read =>
          have hread := State.opRestore_read h0 hbme ht hm
          refine ⟨fun hbad => ?poisoned, fun hbad hok => ?rejected,
            fun hbad hok => ⟨u.modInst r i (Inst.restored b), ?restored, ?fields⟩⟩
          case poisoned => exact restore (hread.trans (if_pos hbad)) hu
          case rejected =>
            exact restore (hread.trans ((if_neg (Bool.eq_false_iff.mp hbad)).trans (if_pos (congrArg Bool.not hok)))) hu
          case restored =>
            exact restore (hread.trans ((if_neg (Bool.eq_false_iff.mp hbad)).trans
              (if_neg (Bool.not_eq_true _ ▸ congrArg Bool.not hok)))) hu
          case fields =>
            rw [State.inst_modInst]
            exact ⟨rfl, rfl, rfl, rfl, rfl, rfl, rfl, rfl, rfl, rfl, rfl⟩
  case starts =>
    intro hrun hi hucode hst hfin
    have h : s.starts r i := ⟨hrun, hi, hucode, hst, hfin⟩
    exact ⟨fun d hd hp hw => exec_descriptorStart_again h hd hp hw,
      fun hd hq => ⟨fun bs u hr hw => exec_descriptorStart_read h hd hq hr hw,
        fun f u hr => exec_descriptorStart_fault h hd hq hr⟩⟩
  case begins => exact fun d u h5 h6 => u.descBegin_checked r i h5 h6
  case dispatch =>
    intro hrun hucode hfree hw
    have h : s.pipeFree r := ⟨hrun, hucode, hfree⟩
    exact ⟨fun hc => exec_chunkDispatch_none h hc hw,
      fun j rest d hc hd u hs hu => exec_chunkDispatch_first h hc hd hs hu⟩
  case chunk =>
    intro hup hon hi hpipe hpeer d hd ends
    have h : s.chunkAnswered r i := ⟨hup, hon, hi, hpipe, hpeer⟩
    exact ⟨fun k st w va u hp => exec_chunkComplete_fails h hd hp rfl, fun va u hp => exec_chunkComplete_fails h hd hp rfl,
      fun va u hp => exec_chunkComplete_fails h hd hp rfl, fun u hp => exec_chunkComplete_fails h hd hp rfl,
      fun p u hp hc => exec_chunkComplete_writes h hd hp hc⟩
  case completion =>
    intro hrun hi hst hcwf status detail hfin d bs va
    have h : s.completes r i (status, detail) := ⟨hrun, hi, hst, hcwf, hfin⟩
    have hbs : (s.inst r i).cmplBytes status detail = bs := by rw [Inst.cmplBytes, progWord, Nat.shiftLeft_eq]
    exact ⟨fun f u hx => exec_descriptorCompletion_fault h (hbs ▸ hx),
      fun u hx => exec_descriptorCompletion_written h (hbs ▸ hx)⟩

end Sys2Proof.Machine
end

section
/-! SUPPORT. The Cobalt function: its windows, containment, power state, Command register and messages (R318, R321 to R323,
R341 to R347), and the doorbells of a foreign domain (R316). -/

namespace Sys2Proof.Machine

/-- Settles O60: the foreign doorbell writes, each with the bytes of the tail that its record carries. -/
theorem doorbellDomain : Obligations.DoorbellDomain := by
  intro s r i td ho h0 htd ignored
  have h : ¬ (td = 0 ∨ td = (s.inst r i).td) := not_or.mpr ⟨h0, htd⟩
  exact ⟨exec_dbTailWrite_foreign ho h, exec_dbCtl_foreign ho h⟩

/-! ### What leaves the power state of a function (R344) -/

theorem routeCore_lt (e : W64) : routeCore e < 256 := Nat.mod_lt _ (by decide)

section fnOn
variable (s : State) (r : Nat)

/-- The power state of a function is its own and its complex's: no other field of a region, and no domain of a core,
is part of it. -/
theorem State.fnOn_modRegion {d : Nat} {f : Region → Region} (hf : (f (s.region d)).fn = (s.region d).fn) :
    (s.modRegion d f).fnOn r = s.fnOn r := by
  have hfn : (s.modRegion d f).fn r = s.fn r := by
    by_cases h : r = d
    · rw [h, State.fn, State.region_modRegion, hf, State.fn]
    · rw [State.fn, State.region_modRegion_ne _ _ h, State.fn]
  rw [State.fnOn, hfn]
  rfl

theorem State.fnOn_modDom {c : Nat} (f : Pwr → Pwr) (hc : c < 256) : (s.modDom c f).fnOn r = s.fnOn r := by
  rw [State.fnOn, State.on, State.dom_modDom_ne _ _ (by omega : 384 + r ≠ c)]
  rfl

@[simp] theorem State.fnOn_modCore (c : Nat) (f : Core → Core) : (s.modCore c f).fnOn r = s.fnOn r := rfl

@[simp] theorem State.fnOn_modLog (l : Nat) (f : Log → Log) : (s.modLog l f).fnOn r = s.fnOn r := by
  unfold State.modLog
  split
  · rfl
  · exact s.fnOn_modRegion r rfl

@[simp] theorem State.fnOn_setRoute (msg : Bool) (i : Nat) (v : W64) : (s.setRoute msg i v).fnOn r = s.fnOn r := by
  unfold State.setRoute
  split <;> rfl

@[simp] theorem State.fnOn_countDrop (rt : Nat) : (s.countDrop rt).fnOn r = s.fnOn r := by
  unfold State.countDrop
  split
  · rfl
  · exact s.fnOn_modRegion r rfl

theorem State.fnOn_wakeCore {c : Nat} (cause : Nat) (hc : c < 256) : (s.wakeCore c cause).fnOn r = s.fnOn r := by
  unfold State.wakeCore
  dsimp only
  split_ifs
  · exact s.fnOn_modDom r _ hc
  · exact s.fnOn_modDom r _ hc
  · rfl

@[simp] theorem State.fnOn_deliverPost (msg : Bool) (i : Nat) : (s.deliverPost msg i).fnOn r = s.fnOn r := by
  unfold State.deliverPost
  dsimp only
  split_ifs
  · rfl
  · rw [State.fnOn_wakeCore _ _ _ (routeCore_lt _), State.fnOn_setRoute]
  · rw [State.fnOn_modCore, State.fnOn_setRoute]
  · rw [State.fnOn_wakeCore _ _ _ (routeCore_lt _), State.fnOn_modCore]

@[simp] theorem State.fnOn_post (src : Nat) : (s.post src).fnOn r = s.fnOn r := by
  unfold State.post
  split
  · exact s.fnOn_deliverPost r _ _
  · exact s.fnOn_countDrop r _

theorem State.fnOn_postIf (p : Prop) [Decidable p] (src : Nat) : (if p then s.post src else s).fnOn r = s.fnOn r := by
  split
  · exact s.fnOn_post r src
  · rfl

@[simp] theorem State.fnOn_logRecord (l : Nat) (e : Rec) : (s.logRecord l e).fnOn r = s.fnOn r := by
  unfold State.logRecord
  dsimp only
  split
  · cases e.td <;> simp only [State.fnOn_postIf, State.fnOn_modLog]
  · exact s.fnOn_modLog r _ _

/-- A record and its notifications leave the power state of every function. -/
@[simp] theorem State.fnOn_record (e : RecIn) : (s.record e).fnOn r = s.fnOn r := by
  unfold State.record
  dsimp only
  split_ifs <;> simp only [State.fnOn_logRecord]

end fnOn

/-! ### Inbound windows (R321 to R323) -/

section windows
variable {s u : State} {r w td rid off : Nat} {rd : Bool} {bytes : List Byte} {hdr : List Nat}

/-- A transaction that R321 and R322 refuse is recorded; a function that is on asks for no wake. -/
theorem State.aperture_refused (hon : s.fnOn r = true)
    (h : let v := SMap.get 0 (s.fn r).live w
      let q := s.inst r (ibwInst v)
      rd = true ∨ ibwEn v = false ∨ ibwSlots v * 64 < off + bytes.length ∨ q.st = 0 ∨ (s.fn r).bme = false
        ∨ (td ≠ 0 ∧ td ≠ q.td) ∨ (s.fn r).frozen = true) :
    s.aperture r w td off rd bytes hdr =
      (true, s.cobRecord r (ibwInst (SMap.get 0 (s.fn r).live w)) 0 0x0703 (some td) (hdr.take 16) 0) := by
  unfold State.aperture
  dsimp only at h ⊢
  rw [if_pos (by simpa [hon, or_assoc] using h), if_pos (by simp [State.cobRecord, hon])]

section port
variable (hup : s.up = true) (hr : r < 8) (hw : w < 16)
include hup hr hw

/-- With Memory Space Enable off a transaction reaches no window. -/
theorem exec_apertureWrite_disabled (hmse : (s.fn r).mse = false) :
    exec (.apertureWrite r w td rid off rd bytes hdr) s =
      .next (if rd then s.emit (.completion r rid .ur []) else s) :=
  congrArg Host.Outcome.next ((if_neg (by simp [hup, hr, hw])).trans (if_pos (by simp [hmse])))

theorem exec_apertureWrite_enabled (hmse : (s.fn r).mse = true) {refused : Bool}
    (h : s.aperture r w td off rd bytes hdr = (refused, u)) :
    exec (.apertureWrite r w td rid off rd bytes hdr) s =
      .next (if refused = true ∧ rd = true then u.emit (.completion r rid .ur []) else u) := by
  refine congrArg Host.Outcome.next ((if_neg (by simp [hup, hr, hw])).trans ((if_neg (by simp [hmse])).trans ?_))
  simp only [h, Bool.and_eq_true]

end port

/-- The live values once those of the mask are taken from the shadow registers. -/
def Fn.committed (x : Fn) : List (Nat × W64) :=
  (List.range 16).foldl (fun l w => if x.cmask.testBit w then SMap.set l w (SMap.get 0 x.shd w) else l) x.live

/-- Entries set one after another, where a condition holds. -/
theorem SMap.get_foldl_set {α : Type} (d : α) (p : Nat → Bool) (g : Nat → α) (l : List Nat) (m : List (Nat × α)) (j : Nat) :
    SMap.get d (l.foldl (fun m k => if p k then SMap.set m k (g k) else m) m) j =
      if j ∈ l ∧ p j = true then g j else SMap.get d m j := by
  induction l generalizing m with
  | nil => simp
  | cons k l ih =>
    rw [List.foldl_cons, ih]
    by_cases hl : j ∈ l ∧ p j = true
    · rw [if_pos hl, if_pos ⟨List.mem_cons_of_mem k hl.1, hl.2⟩]
    · rw [if_neg hl]
      by_cases hj : j = k
      · subst hj
        cases hp : p j <;> simp
      · have hmem : ¬ (j ∈ k :: l ∧ p j = true) := fun h => hl ⟨(List.mem_cons.mp h.1).resolve_left hj, h.2⟩
        rw [if_neg hmem]
        split
        · exact SMap.get_set_ne d m _ hj
        · rfl

theorem Fn.get_committed (x : Fn) (w : Nat) :
    SMap.get 0 x.committed w = if w < 16 ∧ x.cmask.testBit w = true then SMap.get 0 x.shd w else SMap.get 0 x.live w := by
  simpa only [Fn.committed, List.mem_range] using
    SMap.get_foldl_set 0 x.cmask.testBit (SMap.get 0 x.shd) (List.range 16) x.live w

end windows

section function
variable {s t : State} {r : Nat} (hup : s.up = true) (hr : r < 8)
include hup hr

theorem State.regionUp_guard : ¬ (!s.up || decide (8 ≤ r)) = true := by simp [hup, hr]

theorem exec_ibwCommit (hon : s.fnOn r = true) (hfrozen : (s.fn r).frozen = false) (mask : BitVec 16) :
    exec (.ibwCommit r mask) s = .next (s.modFn r (fun x => { x with cmask := mask.toNat, cbusy := true })) :=
  congrArg Host.Outcome.next (if_neg (by simp [hup, hr, hon, hfrozen]))

theorem exec_ibwCommitPoint (hbusy : (s.fn r).cbusy = true) :
    exec (.ibwCommitPoint r) s = .next (s.modFn r (fun x => { x with cbusy := false, live := x.committed })) :=
  congrArg Host.Outcome.next (if_neg (by simp [hup, hr, hbusy]))

/-! ### Containment (R346, R347) -/

theorem exec_functionContainment {cause unit pipe : Nat} (h1 : 1 ≤ cause) (h3 : cause ≤ 3)
    (hc : s.contain r cause unit pipe = t) (hw : t.waits = false) :
    exec (.functionContainment r cause unit pipe) s = .next t :=
  congrArg Host.Outcome.next
    ((congrArg s.orWait ((if_neg (by simp [hup, hr, h1, h3])).trans hc)).trans (State.orWait_of s hw))

theorem exec_containmentRelease :
    exec (.containmentRelease r) s = .next (s.modFn r (fun x => { x with crel := x.crel || x.frozen })) :=
  congrArg Host.Outcome.next (if_neg (State.regionUp_guard hup hr))

/-- A release takes effect once the function is quiet and its unit serves. -/
theorem exec_containmentReleaseEffect (hrel : (s.fn r).crel = true) (hquiet : (s.fn r).reads = 0)
    (hunit : (s.iotu r).fenced = false) :
    exec (.containmentReleaseEffect r) s =
      .next (((s.modFn r (fun x => { x with frozen := false, crel := false })).cobRecord r 0xFF 0 0x0707 none
        [(s.fn r).entries % 256, (s.fn r).entries / 256] 0).msixFlush r) :=
  congrArg Host.Outcome.next (if_neg (by simp [hup, hr, hrel, hquiet, hunit]))

/-! ### Registers of the configuration space (R341 to R345) -/

theorem exec_powerstateWrite (v : Nat) : exec (.powerstateWrite r v) s = .next (s.powerstate r v) :=
  congrArg Host.Outcome.next (if_neg (State.regionUp_guard hup hr))

theorem exec_pmeStatusClear :
    exec (.pmeStatusClear r) s = .next (s.modFn r (fun x => { x with pmeStatus := false })) :=
  congrArg Host.Outcome.next (if_neg (State.regionUp_guard hup hr))

theorem exec_commandRegisterWrite {v : Nat} (hc : s.commandWrite r (v.testBit 1) (v.testBit 2) (v.testBit 8) = t)
    (hw : t.waits = false) : exec (.commandRegisterWrite r v) s = .next t :=
  congrArg Host.Outcome.next
    ((congrArg s.orWait ((if_neg (State.regionUp_guard hup hr)).trans hc)).trans (State.orWait_of s hw))

theorem exec_msixEntryUnmask {e : Nat} (he : e < 2048) (hon : s.fnOn r = true) (hfrozen : (s.fn r).frozen = false) :
    exec (.msixEntryUnmask r e) s =
      .next ((s.modFn r (fun x => { x with msix := SMap.set x.msix e (setFld (x.entry e) 96 1 0) })).msixFlush r) :=
  congrArg Host.Outcome.next (if_neg (by simp [hup, hr, he, hon, hfrozen]))

end function

/-- A second cause, other than software's, only withdraws a release that is pending. -/
theorem State.contain_again {s : State} {r cause : Nat} (hfrozen : (s.fn r).frozen = true) (h3 : cause ≠ 3) (unit pipe : Nat) :
    s.contain r cause unit pipe = s.modFn r (fun x => { x with crel := false }) :=
  (if_pos hfrozen).trans (if_neg h3)

section powerstate
variable {s : State} {r : Nat}

theorem State.powerstate_same (hpm : (s.fn r).pm = 3) : s.powerstate r 3 = s := by
  simp only [State.powerstate, if_true, if_pos hpm]

/-- D3hot is refused while an engine runs. -/
theorem State.powerstate_running (hpm : (s.fn r).pm ≠ 3) (h : ∃ e ∈ (s.fn r).insts, 1 ≤ e.2.st ∧ e.2.st ≤ 4) :
    s.powerstate r 3 = s.cobRecord r 0xFF 0 0x0709 none [3] 0 := by
  simp only [State.powerstate, if_true, if_neg hpm]
  exact if_pos (by simpa using h)

/-- Otherwise the function enters D3hot and its complex, when ON, starts for RET. -/
theorem State.powerstate_d3 (hpm : (s.fn r).pm ≠ 3) (h : ∀ e ∈ (s.fn r).insts, e.2.st = 0 ∨ 4 < e.2.st)
    (hon : (s.dom (384 + r)).st = 0) :
    s.powerstate r 3 =
      (s.modFn r (fun x => { x with pm := 3 })).modDom (384 + r) (fun d => { d with st := 3, dest := 1, src := 0 }) := by
  have hidle : ¬ (s.fn r).insts.any (fun e => decide (1 ≤ e.2.st) && decide (e.2.st ≤ 4)) = true := by
    simp only [List.any_eq_true, Bool.and_eq_true, decide_eq_true_eq, not_exists, not_and]
    intro e he h1
    have := h e he
    omega
  simp only [State.powerstate, if_true, if_neg hpm, if_neg hidle, if_pos hon]

theorem State.powerstate_reserved {v : Nat} (h0 : v ≠ 0) (h3 : v ≠ 3) : s.powerstate r v = s :=
  (if_neg h3).trans (if_neg h0)

end powerstate

/-- Settles O49: each command of the function passes its guard; what a window, a containment and a power state do is said by
the laws above. -/
theorem functionResults : Obligations.FunctionResults := by
  intro s r hup hr x goes
  refine ⟨fun w td rid off rd bytes hdr hw => ⟨?disabled, ?enabled, ?refused⟩, exec_ibwCommit hup hr, ?commitPoint,
    fun cause unit pipe h1 h3 => ⟨?contained, ?again⟩, exec_containmentRelease hup hr, exec_containmentReleaseEffect hup hr,
    ?running, ?d3, ?already, exec_powerstateWrite hup hr 0, ?reserved, exec_pmeStatusClear hup hr,
    fun v => ?command, fun e => exec_msixEntryUnmask hup hr⟩
  case disabled => exact exec_apertureWrite_disabled hup hr hw
  case enabled => exact fun hmse refused u h => exec_apertureWrite_enabled hup hr hw hmse h
  case refused => exact fun h hon => State.aperture_refused hon h
  case commitPoint =>
    intro hbusy
    refine ⟨_, exec_ibwCommitPoint hup hr hbusy, ?_⟩
    rw [State.fn_modFn]
    exact ⟨rfl, rfl, Fn.get_committed x⟩
  case contained =>
    intro hfrozen a t hw
    exact exec_functionContainment hup hr h1 h3 (if_neg (Bool.eq_false_iff.mp hfrozen)) hw
  case again =>
    exact fun hfrozen hsw hw => exec_functionContainment hup hr h1 h3 (State.contain_again hfrozen hsw unit pipe) hw
  case running => exact fun hpm h => (exec_powerstateWrite hup hr 3).trans (congrArg _ (State.powerstate_running hpm h))
  case d3 => exact fun hpm h hon => (exec_powerstateWrite hup hr 3).trans (congrArg _ (State.powerstate_d3 hpm h hon))
  case already => exact fun hpm => (exec_powerstateWrite hup hr 3).trans (congrArg _ (State.powerstate_same hpm))
  case reserved =>
    exact fun v h0 h3 => (exec_powerstateWrite hup hr v).trans (congrArg _ (State.powerstate_reserved h0 h3))
  case command =>
    intro u t hw
    exact exec_commandRegisterWrite hup hr rfl hw

end Sys2Proof.Machine
end

section
/-! SUPPORT. A root port: its completions and timeouts, its link and messages, its errors, its containment, and the requests
of the devices below it (R319, R329, R331 to R340). -/

namespace Sys2Proof.Machine

section port
variable {s t u : State} {r f tag : Nat}

/-- A port as it is changed depends on the port that stands there alone. -/
theorem State.modPort_congr {g g' : Port → Port} (h : g (s.port r f) = g' (s.port r f)) :
    s.modPort r f g = s.modPort r f g' := by
  have h' : g (SMap.get Port.reset (s.region r).ports f) = g' (SMap.get Port.reset (s.region r).ports f) := h
  unfold State.modPort
  exact State.modRegion_congr (by simp only [h'])

/-- The port is one that its region has. -/
def State.portServes (s : State) (r f : Nat) : Prop := s.up = true ∧ r < 8 ∧ s.portPresent r f = true

theorem State.portServes.guard (h : s.portServes r f) : ¬ (!s.up || decide (8 ≤ r) || !s.portPresent r f) = true := by
  obtain ⟨hup, hr, hport⟩ := h
  simp [hup, hr, hport]

theorem State.linkOpen_guard (ho : s.linkOpen r f = true) : ¬ (!s.linkOpen r f) = true := by simp [ho]

/-! ### Completions (R319, R334, R336 to R338) -/

/-- The bytes that a completion brings for a request, as many as it asked for. -/
def PReq.answered (q : PReq) (data : List Byte) : List Byte := (data ++ List.replicate q.size 0).take q.size

/-- What a read of the Vendor ID shows while the function answers CRS: Vendor ID 0x0001, and all ones beyond (R334). -/
def PReq.crsBytes (q : PReq) : List Byte :=
  (List.range q.size).map (fun j => if (q.pa + j) % 4096 = 0 then 1 else if (q.pa + j) % 4096 = 1 then 0 else 0xFF)

theorem State.reqError_core {q : PReq} (h : q.who < 256) (hdr : List Nat) :
    s.reqError r f tag q hdr = s.coreFail r f 0x0607 q hdr := if_pos h

theorem State.reqError_peer {q : PReq} (h : 256 ≤ q.who) (hdr : List Nat) :
    s.reqError r f tag q hdr = s.peerDone r f tag q 2 [] := if_neg (Nat.not_lt.mpr h)

/-- The last access of a core's instruction writes its register and retires it. -/
theorem State.coreDone_last {q : PReq} (hrun : (s.core q.who).run = .dev) (hmore : q.more = false) (bs : List Byte) :
    s.coreDone q bs =
      (s.setCore q.who { (s.core q.who).putDest q.rd ((s.core q.who).half.getD [] ++ bs) with run := .run }).retire q.who
        q.met false ((s.core q.who).pc + 4) :=
  (if_neg (not_not.mpr hrun)).trans (if_neg (Bool.eq_false_iff.mp hmore))

section received
variable (ho : s.linkOpen r f = true)
include ho

theorem exec_completionReceived_late (hq : (s.port r f).reqOf tag = none) (k : CplKind) (data : List Byte) (hdr : List Nat) :
    exec (.completionReceived r f tag k data hdr) s = .next ((s.lateCpl r f tag hdr).aerError r f 16 0 hdr) := by
  refine congrArg Host.Outcome.next ((if_neg (State.linkOpen_guard ho)).trans ?_)
  simp only [hq]

variable {q : PReq} (hq : (s.port r f).reqOf tag = some q)
include hq

section kinds
variable (data : List Byte) (hdr : List Nat)

theorem exec_completionReceived_ok :
    exec (.completionReceived r f tag .ok data hdr) s = .next (
      if q.who < 256 then (s.dropReq r f tag).coreDone q (q.answered data)
      else (s.dropReq r f tag).peerDone r f tag q 1 (q.answered data)) := by
  refine congrArg Host.Outcome.next ((if_neg (State.linkOpen_guard ho)).trans ?_)
  simp only [hq]
  rfl

/-- Poison completes a write as it is; a read takes it to its core or its chunk. -/
theorem exec_completionReceived_poisoned :
    let v := (s.dropReq r f tag).aerError r f 12 1 hdr
    exec (.completionReceived r f tag .poisoned data hdr) s = .next (
      if q.write then v.coreDone q (q.answered data)
      else if q.who < 256 then v.corePoison q else v.peerDone r f tag q 4 []) := by
  refine congrArg Host.Outcome.next ((if_neg (State.linkOpen_guard ho)).trans ?_)
  simp only [hq]
  rfl

/-- CRS is an error outside configuration space; inside, it shows where software asked to see it, and else is held. -/
theorem exec_completionReceived_crs :
    exec (.completionReceived r f tag .crs data hdr) s = .next (
      if !inEcam q.pa then (s.dropReq r f tag).reqError r f tag q hdr
      else if q.vid && (s.port r f).crsVis then (s.dropReq r f tag).coreDone q q.crsBytes
      else s.modPort r f (fun p => { p with reqs := SMap.set p.reqs tag { q with crs := true } })) := by
  refine congrArg Host.Outcome.next ((if_neg (State.linkOpen_guard ho)).trans ?_)
  simp only [hq]
  rfl

theorem exec_completionReceived_error {k : CplKind} (hk : k = .ur ∨ k = .ca ∨ k = .crs ∧ inEcam q.pa = false) :
    exec (.completionReceived r f tag k data hdr) s = .next ((s.dropReq r f tag).reqError r f tag q hdr) := by
  rcases hk with rfl | rfl | ⟨rfl, hecam⟩
  case inr.inr => exact (exec_completionReceived_crs ho hq data hdr).trans (congrArg _ (if_pos (by simp [hecam])))
  all_goals
    refine congrArg Host.Outcome.next ((if_neg (State.linkOpen_guard ho)).trans ?_)
    simp only [hq]

end kinds

theorem exec_crsRetry :
    exec (.crsRetry r f tag) s = .next (
      if !q.crs then s
      else (s.modPort r f (fun p => { p with reqs := SMap.set p.reqs tag { q with crs := false } })).emit
        (.request r f tag (if q.write then 3 else 2) q.pa [])) := by
  refine congrArg Host.Outcome.next ((if_neg (State.linkOpen_guard ho)).trans ?_)
  simp only [hq]

end received

/-! ### Timeouts and quarantine (R335 to R337) -/

/-- The port once a request has timed out: the timeout is counted and logged, and the tag is in quarantine. -/
def State.timedOut (s : State) (r f tag : Nat) (q : PReq) : State :=
  ((s.dropReq r f tag).modPort r f (fun p => { p with
    cnt2 := satAdd 32 p.cnt2, quar := p.quar ++ [(tag, s.noon.wall + 2 * q.limit, q.who)] })).aerError r f 14 1 q.hdr

section served
variable (h : s.portServes r f)
include h

theorem exec_completionTimeout {q : PReq} (hq : (s.port r f).reqOf tag = some q) :
    exec (.completionTimeout r f tag) s = .next (
      if s.noon.wall < q.sent + q.limit then s
      else if q.who < 256 then (s.timedOut r f tag q).coreFail r f 0x0605 q q.hdr
      else (s.timedOut r f tag q).peerDone r f tag q 3 []) := by
  refine congrArg Host.Outcome.next ((if_neg h.guard).trans ?_)
  simp only [hq]
  rfl

theorem exec_tagQuarantineEnd (tag : Nat) :
    exec (.tagQuarantineEnd r f tag) s = .next (s.modPort r f (fun p => { p with
      quar := p.quar.filter (fun e => !(e.1 == tag && decide (e.2.1 ≤ s.noon.wall))) })) :=
  congrArg Host.Outcome.next (if_neg h.guard)

end served

/-! ### The link (R329, R340) -/

/-- The lanes that a port has under its region's bifurcation. -/
def State.laneCount (s : State) (r : Nat) : Nat :=
  if (s.region r).bifurc = 0 then 16 else if (s.region r).bifurc = 1 then 8 else 4

/-- The fastest rate that a port and its partner may use. -/
def State.bestRate (s : State) (r f cap : Nat) : Nat := max (s.settingN 0x6110 (4 * r + f + 1) 0) cap

/-- A link that trains is up; one that is narrower or slower than it may be is recorded. -/
theorem exec_linkTraining {width : Nat} (h : s.portServes r f) (hdpc : (s.port r f).dpc = false)
    (hperst : (s.port r f).perst = false) (hon : s.on (408 + r) = true) (h0 : 0 < width) (hl : width ≤ s.laneCount r)
    (rate cap failed : Nat) :
    let v := s.modPort r f (fun p => { p with up := true, width, rate := max (s.bestRate r f cap) rate, inL12 := false })
    exec (.linkTraining r f width rate cap failed) s = .next (
      if width < s.laneCount r ∨ s.bestRate r f cap < rate then
        v.portRecord r f 1 0x0608 none [width, rate, failed % 256, failed / 256 % 256]
      else v) := by
  obtain ⟨hup, hr, hport⟩ := h
  unfold State.laneCount at hl
  exact congrArg Host.Outcome.next (if_neg (by simp [hup, hr, hport, hdpc, hperst, hon, Nat.ne_of_gt h0, hl]))

theorem Bucket.add_below {b : Bucket} {depth : Nat} (h : b.count < depth) (tick window : Nat) :
    b.add tick depth window = ({ b with count := b.count + 1 }, false) := by
  simp [Bucket.add, Nat.not_lt.mpr h]

theorem Bucket.add_over {b : Bucket} {depth : Nat} (h : depth ≤ b.count) (tick window : Nat) :
    b.add tick depth window =
      ({ count := 0, stamps := (b.stamps ++ [tick]).filter (fun t => decide (tick ≤ t + window)) }, true) := by
  simp [Bucket.add, Nat.lt_succ_of_le h]

/-! ### Messages and errors (R333, R338, R340) -/

/-- A port as it is changed posts its source where the report of the severity is enabled. -/
theorem State.aerPost_modPort (g : Port → Port) (sev : Nat) :
    (s.modPort r f g).aerPost r f sev =
      if (g (s.port r f)).rootCmd.testBit sev then (s.modPort r f g).post (384 * r + 272 + f) else s.modPort r f g := by
  rw [State.aerPost, State.port_modPort]

section opened
variable (ho : s.linkOpen r f = true)
include ho

/-- A corrected error sets its bit and counts; an overflow of the bucket is recorded. -/
theorem exec_linkErrorCorrected {which : Nat} {b : Bucket} {ovf : Bool}
    (hb : (s.port r f).bkt.add s.noon.tick (s.settingN 0x6030 1 64) (s.settingN 0x6030 3 864000000000) = (b, ovf)) :
    let v := (s.modPort r f (fun p => { p with bkt := b, aerCor := p.aerCor ||| 2 ^ (which % 32) })).aerPost r f 0
    exec (.linkErrorCorrected r f which) s = .next (
      if ovf then v.portRecord r f 1 0x0601 none ((natLe 4 (v.port r f).aerCor).map (·.toNat)) else v) := by
  refine congrArg Host.Outcome.next ((if_neg (State.linkOpen_guard ho)).trans ?_)
  simp only [hb]

theorem exec_pcieMessageReceived_error {k : MsgKind} (hk : k = .errCor ∨ k = .errNonfatal ∨ k = .errFatal) (hdr : List Nat) :
    exec (.pcieMessageReceived r f k hdr) s = .next s := by
  rcases hk with rfl | rfl | rfl <;> exact congrArg Host.Outcome.next (if_neg (State.linkOpen_guard ho))

/-- Every message that is no error message is discarded, counted and recorded. -/
theorem exec_pcieMessageReceived_other {k : MsgKind} (hc : k ≠ .errCor) (hn : k ≠ .errNonfatal) (hf : k ≠ .errFatal)
    (hdr : List Nat) :
    exec (.pcieMessageReceived r f k hdr) s =
      .next ((s.modPort r f (fun p => { p with cnt3 := satAdd 32 p.cnt3 })).portRecord r f 0 0x0609 none hdr) := by
  cases k with
  | errCor => exact absurd rfl hc
  | errNonfatal => exact absurd rfl hn
  | errFatal => exact absurd rfl hf
  | _ => exact congrArg Host.Outcome.next (if_neg (State.linkOpen_guard ho))

theorem exec_errorMessageReceived_cor (hdr : List Nat) :
    exec (.errorMessageReceived r f .errCor hdr) s =
      .next ((s.modPort r f (fun p => { p with rootErr := rootStatus p.rootErr .errCor })).aerPost r f 0) :=
  congrArg Host.Outcome.next (if_neg (State.linkOpen_guard ho))

theorem exec_errorMessageReceived_nonfatal (hdr : List Nat) :
    exec (.errorMessageReceived r f .errNonfatal hdr) s = .next (
      if (s.port r f).dpcEn = 2 then s.dpcEnter r f 6 hdr
      else (s.modPort r f (fun p => { p with rootErr := rootStatus p.rootErr .errNonfatal })).aerPost r f 1) :=
  congrArg Host.Outcome.next (if_neg (State.linkOpen_guard ho))

theorem exec_errorMessageReceived_fatal (hdr : List Nat) :
    exec (.errorMessageReceived r f .errFatal hdr) s = .next (
      if (s.port r f).dpcEn ≠ 0 then s.dpcEnter r f 5 hdr
      else (s.modPort r f (fun p => { p with rootErr := rootStatus p.rootErr .errFatal })).aerPost r f 2) :=
  congrArg Host.Outcome.next (if_neg (State.linkOpen_guard ho))

theorem exec_pmeMessageReceived (rid : Nat) :
    let v := s.modPort r f (fun p => { p with pmeStat := some (p.pmeStat.getD rid) })
    exec (.pmeMessageReceived r f rid) s = .next (if (s.port r f).pmeInt then v.post (384 * r + 282 + f) else v) := by
  refine congrArg Host.Outcome.next ((if_neg (State.linkOpen_guard ho)).trans ?_)
  simp only [State.port_modPort]

end opened

/-! ### Requests of devices (R331, R332, R338) -/

/-- The requester lies on a bus below the port. -/
def Port.leadsTo (p : Port) (rid : Nat) : Prop := p.sec ≠ 0 ∧ p.sec ≤ rid / 256 ∧ rid / 256 ≤ p.sub

/-- The check that refuses a requester. -/
theorem Port.not_leadsTo_iff (p : Port) (rid : Nat) :
    (!(decide (p.sec ≠ 0) && decide (p.sec ≤ rid / 256) && decide (rid / 256 ≤ p.sub))) = true ↔ ¬ p.leadsTo rid := by
  rw [Bool.not_eq_true', ← Bool.not_eq_true, Port.leadsTo]
  simp only [Bool.and_eq_true, decide_eq_true_eq, and_assoc]

theorem Port.leadsTo_guard {p : Port} {rid : Nat} (h : p.leadsTo rid) :
    ¬ (!(decide (p.sec ≠ 0) && decide (p.sec ≤ rid / 256) && decide (rid / 256 ≤ p.sub))) = true :=
  fun hn => (p.not_leadsTo_iff rid).mp hn h

/-- The error and the record of a request that the port refuses. -/
def State.dsRecorded (s : State) (r f bit : Nat) (k : DsKind) (hdr : List Nat) : State :=
  (s.aerError r f bit (if dsPosted k then 1 else 0) hdr).portRecord r f 0 0x0603 none hdr

/-- A refused request that is not posted is answered Unsupported Request. -/
def State.dsRefused (s : State) (r rid : Nat) (k : DsKind) : State :=
  if dsPosted k then s else s.emit (.completion r rid .ur [])

theorem State.dsRefused_waits (s : State) (r rid : Nat) (k : DsKind) : (s.dsRefused r rid k).waits = s.waits := by
  unfold State.dsRefused
  split <;> rfl

section downstream
variable {rid addr len : Nat} {pasid : Option Nat} {k : DsKind} {bytes : List Byte} {hdr : List Nat}

/-- A request that reaches a port whose link carries it and whose unit serves. -/
def State.takesDownstream (s : State) (r f : Nat) : Prop := s.linkOpen r f = true ∧ (s.iotu r).fenced = false

theorem State.takesDownstream.guard (h : s.takesDownstream r f) : ¬ (!s.linkOpen r f || (s.iotu r).fenced) = true := by
  obtain ⟨ho, hunit⟩ := h
  simp [ho, hunit]

variable (h : s.takesDownstream r f)
include h

/-- A request is refused for a requester that is not below the port, while bus mastering is off, and for a 128-bit CAS. -/
theorem exec_downstreamRequest_refused {bit : Nat}
    (hbit : ¬ (s.port r f).leadsTo rid ∧ bit = 21
      ∨ (s.port r f).leadsTo rid ∧ ((s.port r f).bme = false ∨ dsOp k bytes len = none) ∧ bit = 20)
    (hw : (s.dsRecorded r f bit k hdr).waits = false) :
    exec (.downstreamRequest r f rid pasid k addr bytes len hdr) s =
      .next ((s.dsRecorded r f bit k hdr).dsRefused r rid k) := by
  refine congrArg Host.Outcome.next (.trans (congrArg s.orWait ((if_neg h.guard).trans ?_))
    (State.orWait_of s ((State.dsRefused_waits ..).trans hw)))
  rcases hbit with ⟨hbelow, rfl⟩ | ⟨hbelow, hrefused, rfl⟩
  · exact if_pos ((Port.not_leadsTo_iff ..).mpr hbelow)
  · refine (if_neg (Port.leadsTo_guard hbelow)).trans ?_
    cases hbme : (s.port r f).bme with
    | false => exact if_pos rfl
    | true =>
      have hop := hrefused.resolve_left (by simp [hbme])
      simp only [Bool.not_true, Bool.false_eq_true, if_false, hop]
      rfl

variable (hbelow : (s.port r f).leadsTo rid) (hbme : (s.port r f).bme = true) {op : DmaOp} {n : Nat}
  (hop : dsOp k bytes len = some (op, n)) {b : List Byte} {poison : Bool}
  (hdone : s.dmaUntranslated r rid pasid addr n op hdr = (.done b poison, u))
include hbelow hbme hop hdone

theorem exec_downstreamRequest_done (hk : k ≠ .poisonedWrite)
    (ht : (if op.posted then u else u.emit (.completion r rid (if poison then .poisoned else .ok) b)) = t)
    (hw : t.waits = false) : exec (.downstreamRequest r f rid pasid k addr bytes len hdr) s = .next t := by
  refine congrArg Host.Outcome.next (.trans (congrArg s.orWait
    ((if_neg h.guard).trans ((if_neg (Port.leadsTo_guard hbelow)).trans ?_))) (State.orWait_of s hw))
  simp only [hbme, Bool.not_true, Bool.false_eq_true, if_false, hop, hdone]
  cases k with
  | poisonedWrite => exact absurd rfl hk
  | _ => exact ht

/-- A write of poison is performed, and logged and recorded by the port. -/
theorem exec_downstreamRequest_poisoned (hk : k = .poisonedWrite)
    (ht : (if op.posted then u else u.emit (.completion r rid (if poison then .poisoned else .ok) b)) = t)
    (hw : ((t.aerError r f 12 1 hdr).portRecord r f 2 0x0606 none hdr).waits = false) :
    exec (.downstreamRequest r f rid pasid k addr bytes len hdr) s =
      .next ((t.aerError r f 12 1 hdr).portRecord r f 2 0x0606 none hdr) := by
  refine congrArg Host.Outcome.next (.trans (congrArg s.orWait
    ((if_neg h.guard).trans ((if_neg (Port.leadsTo_guard hbelow)).trans ?_))) (State.orWait_of s hw))
  subst hk ht
  simp only [hbme, Bool.not_true, Bool.false_eq_true, if_false, hop, hdone]
  rfl

end downstream

/-! ### Containment of a port (R338, R339) -/

/-- A contained port takes no second trigger, but for the fence. -/
theorem State.dpcEnter_again (hdpc : (s.port r f).dpc = true) {cause : Nat} (hc : cause ≠ 8) (hdr : List Nat) :
    s.dpcEnter r f cause hdr = s := (if_pos hdpc).trans (if_neg hc)

/-- With no request outstanding, containment completes none and the RP PIO log takes none. -/
theorem State.dpcEnter_idle (hdpc : (s.port r f).dpc = false) (hreqs : (s.port r f).reqs = []) (cause : Nat)
    (hdr : List Nat) :
    s.dpcEnter r f cause hdr =
      ((s.modPort r f (fun p => { p with
        dpc := true, up := false, dpcFence := decide (cause = 8), cnt4 := satAdd 32 p.cnt4, reqs := [] })).portRecord r f 3
        0x0602 none (cause :: (hdr ++ List.replicate 15 0).take 15)).post (384 * r + 276 + f) := by
  unfold State.dpcEnter
  rw [if_neg (Bool.eq_false_iff.mp hdpc), hreqs]
  dsimp only [List.foldl_nil, List.find?_nil, Option.map_none]
  rw [State.modPort_congr]
  cases (s.port r f).rppio <;> rfl

theorem State.dpcClear_ends (hdpc : (s.port r f).dpc = true)
    (hfree : (s.port r f).dpcFence = false ∨ (s.iotu r).fenced = false) :
    s.dpcClear r f = s.modPort r f (fun p => { p with dpc := false, dpcFence := false }) :=
  if_neg (by rcases hfree with h | h <;> simp [hdpc, h])

/-- A port that is not contained, or that a unit's fence contains, stays as it is. -/
theorem State.dpcClear_held
    (hkeep : (s.port r f).dpc = false ∨ (s.port r f).dpcFence = true ∧ (s.iotu r).fenced = true) : s.dpcClear r f = s :=
  if_pos (by rcases hkeep with h | ⟨hfence, hunit⟩ <;> simp [*])

section served
variable (h : s.portServes r f)
include h

theorem exec_dpcTriggerStatusClear : exec (.dpcTriggerStatusClear r f) s = .next (s.dpcClear r f) :=
  congrArg Host.Outcome.next (if_neg h.guard)

theorem exec_dpcTrigger_software (hen : (s.port r f).dpcEn ≠ 0) (hdr : List Nat) :
    exec (.dpcTrigger r f 7 hdr) s = .next (s.dpcEnter r f 7 hdr) := by
  obtain ⟨hup, hr, hport⟩ := h
  refine congrArg Host.Outcome.next ((if_neg (by simp [hup, hr, hport, hen])).trans ((if_pos (.inr rfl)).trans ?_))
  exact congrArg (State.dpcEnter · r f 7 hdr) (if_pos (.inr rfl))

/-- A fatal error of the port itself is logged before it contains the port. -/
theorem exec_dpcTrigger_error (hen : (s.port r f).dpcEn ≠ 0) (hdpc : (s.port r f).dpc = false) {cause : Nat}
    (h1 : 1 ≤ cause) (h4 : cause ≤ 4) (hdr : List Nat) :
    exec (.dpcTrigger r f cause hdr) s =
      .next ((s.aerError r f (if cause = 1 then 18 else if cause = 2 then 13 else if cause = 3 then 17 else 5) 2 hdr).dpcEnter
        r f cause hdr) := by
  obtain ⟨hup, hr, hport⟩ := h
  refine congrArg Host.Outcome.next ((if_neg (by simp [hup, hr, hport, hen])).trans ((if_pos (.inl ⟨h1, h4⟩)).trans ?_))
  exact congrArg (State.dpcEnter · r f cause hdr) (if_neg (by simp [hdpc]; omega))

end served

end port

/-- Settles O50: a completion by the request of its tag, and every other event at a port by the law of its command. -/
theorem rootPortResults : Obligations.RootPortResults := by
  refine ⟨fun s r f tag => ⟨fun ho => ⟨?late, fun q hq => ⟨fun data hdr => ?received, ?retry, ?noRetry⟩⟩, ?done,
    fun hup hr hport => ?timeouts⟩, fun s r f => ⟨?training, fun ho => ?opened, fun hup hr hport => ?contained⟩⟩
  case late => exact fun k data hdr hq => exec_completionReceived_late ho hq k data hdr
  case received =>
    have ok := exec_completionReceived_ok ho hq data hdr
    have poisoned := exec_completionReceived_poisoned ho hq data hdr
    have crs := exec_completionReceived_crs ho hq data hdr
    refine ⟨?okCore, ?okPeer, ?poisonWrite, ?poisonCore, ?poisonPeer, ?crsShown, ?crsHeld, fun k hk => ?errors⟩
    case okCore => exact fun hw => ok.trans (congrArg _ (if_pos hw))
    case okPeer => exact fun hw => ok.trans (congrArg _ (if_neg (Nat.not_lt.mpr hw)))
    case poisonWrite => exact fun hwr => poisoned.trans (congrArg _ (if_pos hwr))
    case poisonCore =>
      exact fun hrd hw => poisoned.trans (congrArg _ ((if_neg (Bool.eq_false_iff.mp hrd)).trans (if_pos hw)))
    case poisonPeer =>
      exact fun hrd hw => poisoned.trans
        (congrArg _ ((if_neg (Bool.eq_false_iff.mp hrd)).trans (if_neg (Nat.not_lt.mpr hw))))
    case crsShown =>
      exact fun hecam hvid hvis => crs.trans (congrArg _ ((if_neg (by simp [hecam])).trans (if_pos (by simp [hvid, hvis]))))
    case crsHeld =>
      intro hecam hhid
      have hheld : ¬ (q.vid && (s.port r f).crsVis) = true := by rcases hhid with h | h <;> simp [h]
      exact crs.trans (congrArg _ ((if_neg (by simp [hecam])).trans (if_neg hheld)))
    case errors =>
      have error := exec_completionReceived_error ho hq data hdr hk
      exact ⟨fun hw => error.trans (congrArg _ (State.reqError_core hw hdr)),
        fun hw => error.trans (congrArg _ (State.reqError_peer hw hdr))⟩
  case retry => exact fun hcrs => (exec_crsRetry ho hq).trans (congrArg _ (if_neg (by simp [hcrs])))
  case noRetry => exact fun hcrs => (exec_crsRetry ho hq).trans (congrArg _ (if_pos (by simp [hcrs])))
  case done => exact fun q bs t hrun hmore => State.coreDone_last hrun hmore bs
  case timeouts =>
    have h : s.portServes r f := ⟨hup, hr, hport⟩
    refine ⟨fun q hq => ?_, exec_tagQuarantineEnd h tag⟩
    have timeout := exec_completionTimeout h hq
    refine ⟨fun hearly => timeout.trans (congrArg _ (if_pos hearly)), fun hlate => ?_⟩
    have timedOut := timeout.trans (congrArg _ (if_neg (Nat.not_lt.mpr hlate)))
    exact ⟨fun hw => timedOut.trans (congrArg _ (if_pos hw)),
      fun hw => timedOut.trans (congrArg _ (if_neg (Nat.not_lt.mpr hw)))⟩
  case training =>
    intro width rate cap failed hup hr hport hdpc hperst hon lanes best u h0 hl
    have trained := exec_linkTraining ⟨hup, hr, hport⟩ hdpc hperst hon h0 hl rate cap failed
    refine ⟨fun hw hrate => trained.trans (congrArg _ (if_neg ?_)), fun hslow => trained.trans (congrArg _ (if_pos hslow))⟩
    exact not_or.mpr ⟨Nat.not_lt.mpr hw.ge, Nat.not_lt.mpr hrate⟩
  case opened =>
    refine ⟨fun k hdr => ⟨fun hk => exec_pcieMessageReceived_error ho hk hdr, fun hc hn hf =>
      exec_pcieMessageReceived_other ho hc hn hf hdr⟩, fun hdr => ?errors, exec_pmeMessageReceived ho, ?corrected, ?requests⟩
    case errors =>
      have nonfatal := exec_errorMessageReceived_nonfatal ho hdr
      have fatal := exec_errorMessageReceived_fatal ho hdr
      refine ⟨?cor, ?nonfatal, ?nonfatalContains, ?fatal, ?fatalContains⟩
      case cor => exact (exec_errorMessageReceived_cor ho hdr).trans (congrArg _ (State.aerPost_modPort ..))
      case nonfatal =>
        exact fun hen => nonfatal.trans (congrArg _ ((if_neg hen).trans (State.aerPost_modPort ..)))
      case nonfatalContains => exact fun hen => nonfatal.trans (congrArg _ (if_pos hen))
      case fatal =>
        exact fun hen => fatal.trans (congrArg _ ((if_neg (not_not.mpr hen)).trans (State.aerPost_modPort ..)))
      case fatalContains => exact fun hen => fatal.trans (congrArg _ (if_pos hen))
    case corrected =>
      intro which cor t
      exact ⟨fun hb => exec_linkErrorCorrected ho (Bucket.add_below hb ..),
        fun hb => ⟨_, exec_linkErrorCorrected ho (Bucket.add_over hb ..)⟩⟩
    case requests =>
      intro rid pasid k addr bytes len hdr hunit below refused
      have h : s.takesDownstream r f := ⟨ho, hunit⟩
      refine ⟨?foreign, ?noMaster, ?noOp, ?performed⟩
      case foreign => exact fun hb hw => exec_downstreamRequest_refused h (.inl ⟨hb, rfl⟩) hw
      case noMaster => exact fun hb hbme hw => exec_downstreamRequest_refused h (.inr ⟨hb, .inl hbme, rfl⟩) hw
      case noOp => exact fun hb _ hop hw => exec_downstreamRequest_refused h (.inr ⟨hb, .inr hop, rfl⟩) hw
      case performed =>
        intro hb hbme op n hop b poison u hdone t
        exact ⟨fun hk hw => exec_downstreamRequest_done h hb hbme hop hdone hk rfl hw,
          fun hk hw => exec_downstreamRequest_poisoned h hb hbme hop hdone hk rfl hw⟩
  case contained =>
    have h : s.portServes r f := ⟨hup, hr, hport⟩
    have clears := exec_dpcTriggerStatusClear h
    refine ⟨?cleared, ?kept, fun hdr hen => ⟨exec_dpcTrigger_software h hen hdr, fun hdpc cause h1 h4 =>
      exec_dpcTrigger_error h hen hdpc h1 h4 hdr⟩, fun cause hdr hdpc hc => State.dpcEnter_again hdpc hc hdr,
      fun cause hdr hdpc hreqs => State.dpcEnter_idle hdpc hreqs cause hdr⟩
    case cleared => exact fun hdpc hfree => clears.trans (congrArg _ (State.dpcClear_ends hdpc hfree))
    case kept => exact fun hkeep => clears.trans (congrArg _ (State.dpcClear_held hkeep))

end Sys2Proof.Machine
end

section
/-! SUPPORT. What no step undoes (R368, R370, R372, R381). -/

namespace Sys2Proof.Machine

/-- Settles O4: every command keeps what State.Keeps lists, and a step hands its command the rest of the queue; idling
changes nothing. -/
theorem nothingIsUndone : Obligations.NothingIsUndone := by
  intro s t ht
  obtain ⟨hnil, rfl⟩ | ⟨i, rest, hcons, hexec⟩ := step_next_cases ht
  · exact ⟨by rw [hnil]; rfl, rfl, le_refl _, le_refl _, fun _ => le_refl _, fun _ h => h, le_refl _⟩
  · have keeps := exec_next_keeps hexec
    exact ⟨by rw [keeps.pending, hcons]; rfl, keeps.fuses, keeps.free, keeps.counter, keeps.floors, keeps.revoked,
      keeps.vesper⟩

end Sys2Proof.Machine
end

section
/-! SUPPORT. The Slate message and its answer (R389 to R397, R402 to R404), and the rights of the debug port (R391). -/

namespace Sys2Proof.Machine

/-! ### The layout of a request (R393) -/

section layout
variable {port op seq idx sub : Nat} {data : List Byte}

@[simp] theorem slateMsg_length : (slateMsg op seq idx sub data).length = 8 + data.length := by
  simp only [slateMsg, List.length_append, List.length_cons, List.length_nil, natLe_length]

@[simp] theorem drop_slateMsg : (slateMsg op seq idx sub data).drop 8 = data := rfl

/-- The reserved byte is 0. -/
@[simp] theorem byteAt_slateMsg_reserved : byteAt (slateMsg op seq idx sub data) 5 = 0 := rfl

theorem natAt_slateMsg_len (h : data.length < 65536) : natAt (slateMsg op seq idx sub data) 6 2 = data.length :=
  (leNat_natLe 2 data.length).trans (Nat.mod_eq_of_lt h)

theorem natAt_slateMsg_idx (h : idx < 65536) : natAt (slateMsg op seq idx sub data) 2 2 = idx :=
  (leNat_natLe 2 idx).trans (Nat.mod_eq_of_lt h)

theorem byteAt_slateMsg_op (h : op < 256) : byteAt (slateMsg op seq idx sub data) 0 = op :=
  (BitVec.toNat_ofNat op 8).trans (Nat.mod_eq_of_lt h)

theorem byteAt_slateMsg_sub (h : sub < 256) : byteAt (slateMsg op seq idx sub data) 4 = sub :=
  (BitVec.toNat_ofNat sub 8).trans (Nat.mod_eq_of_lt h)

/-- The bytes of a request between OP and the reserved byte, as a response repeats them. -/
theorem echo_slateMsg (op seq idx sub : Nat) (data : List Byte) :
    [1, 2, 3, 4].map (fun i => BitVec.ofNat 8 (byteAt (slateMsg op seq idx sub data) i)) =
      [BitVec.ofNat 8 seq, BitVec.ofNat 8 idx, BitVec.ofNat 8 (idx / 256), BitVec.ofNat 8 sub] := by
  simp [slateMsg, byteAt, natLe]

theorem segMax_le (port : Nat) : segMax port ≤ 4096 := by
  unfold segMax
  split <;> omega

/-- A segment that the port takes makes a message of the layout of R393. -/
theorem slateMalformed_slateMsg (h : data.length ≤ segMax port) :
    slateMalformed port (slateMsg op seq idx sub data) = false := by
  have hlen : natAt (slateMsg op seq idx sub data) 6 2 = data.length :=
    natAt_slateMsg_len (by have := segMax_le port; omega)
  simp [slateMalformed, hlen, h]

theorem slateNoOp_slateMsg (h1 : 1 ≤ op) (h5 : op ≤ 5) (hi : idx < 65536) (hs : sub < 256)
    (h : 4 ≤ op → idx = 0 ∧ sub = 0) : slateNoOp (slateMsg op seq idx sub data) = false := by
  simp only [slateNoOp, byteAt_slateMsg_op (show op < 256 by omega), natAt_slateMsg_idx hi, byteAt_slateMsg_sub hs]
  simp only [Bool.or_eq_false_iff, Bool.and_eq_false_imp, decide_eq_true_eq, decide_eq_false_iff_not]
  refine ⟨⟨by omega, by omega⟩, fun h4 => ?_⟩
  obtain ⟨hidx, hsub⟩ := h h4
  simp [hidx, hsub]

end layout

/-! ### Messages and responses (R393, R394) -/

/-- The response to a message, with a result and data (R393). -/
def slateRsp (msg : List Byte) (r : Nat) (d : List Byte) : List Byte :=
  [BitVec.ofNat 8 (byteAt msg 0 ||| 0x80), BitVec.ofNat 8 (byteAt msg 1), BitVec.ofNat 8 (byteAt msg 2),
    BitVec.ofNat 8 (byteAt msg 3), BitVec.ofNat 8 (byteAt msg 4), BitVec.ofNat 8 r] ++ natLe 2 d.length ++ d

theorem slateRsp_slateMsg {op : Nat} (h : op < 256) (seq idx sub : Nat) (data : List Byte) (r : Nat) (d : List Byte) :
    slateRsp (slateMsg op seq idx sub data) r d =
      [BitVec.ofNat 8 (op ||| 0x80), BitVec.ofNat 8 seq, BitVec.ofNat 8 idx, BitVec.ofNat 8 (idx / 256),
        BitVec.ofNat 8 sub, BitVec.ofNat 8 r] ++ natLe 2 d.length ++ d := by
  have hecho := echo_slateMsg op seq idx sub data
  simp only [List.map_cons, List.map_nil, List.cons.injEq] at hecho
  obtain ⟨hseq, hlo, hhi, hsub, -⟩ := hecho
  rw [slateRsp, byteAt_slateMsg_op h, hseq, hlo, hhi, hsub]

/-- A message makes its port the one that the next message follows. -/
def State.turnTo (s : State) (port : Nat) : State := s.modSlate (fun x => { x with ptr := (port + 1) % 4 })

section handle
variable {s t : State} {port : Nat} {msg : List Byte}

/-- A well-formed message of a listed operation is answered by that operation. -/
theorem State.slateHandle_answered {r : Nat} {d : List Byte} (hm : slateMalformed port msg = false)
    (ho : slateNoOp msg = false) (ha : (s.turnTo port).slateAnswer port msg = ((r, d), t)) (hr : r ≠ 0x1C) :
    s.slateHandle port 0 msg = (slateRsp msg r d, t) := by
  unfold State.turnTo at ha
  unfold State.slateHandle
  dsimp only
  rw [if_neg (by simp), if_neg (by simp [hm, ho]), ha, if_neg hr]
  rfl

/-- A mailbox command of a domain other than TD0 is not handled (R392). -/
theorem State.slateHandle_foreign {td : Nat} (h : td ≠ 0) :
    s.slateHandle 2 td msg = (slateRsp msg 0x1D [], s.turnTo 2) := by
  unfold State.slateHandle
  dsimp only
  rw [if_pos ⟨rfl, h⟩]
  rfl

end handle

/-! ### The answer of an operation (R394 to R396, R402 to R404) -/

section answer
variable {s : State} {port op seq idx sub : Nat} {data : List Byte}

/-- READ, WRITE and STAGE name an object. -/
theorem State.slateAnswer_absent (hop : op < 256) (hidx : idx < 65536) (hsub : sub < 256) (h4 : op ≠ 4) (h5 : op ≠ 5)
    (ho : s.obj idx sub = none) : s.slateAnswer port (slateMsg op seq idx sub data) = ((0x10, []), s) := by
  unfold State.slateAnswer
  dsimp only
  rw [byteAt_slateMsg_op hop, natAt_slateMsg_idx hidx, byteAt_slateMsg_sub hsub, if_neg h4, if_neg h5, ho]

theorem State.slateAnswer_present (hop : op < 256) (hidx : idx < 65536) (hsub : sub < 256) (h4 : op ≠ 4) (h5 : op ≠ 5)
    {o : Obj} (ho : s.obj idx sub = some o) :
    s.slateAnswer port (slateMsg op seq idx sub data) =
      if !s.hasRight port op idx o then ((0x11, []), s)
      else if op = 1 then s.slateReadObj port idx sub o data else s.slateWriteObj port op idx sub o data := by
  unfold State.slateAnswer
  dsimp only
  rw [byteAt_slateMsg_op hop, natAt_slateMsg_idx hidx, byteAt_slateMsg_sub hsub, if_neg h4, if_neg h5, ho]
  rfl

/-- COMMIT on a port that changes nothing. -/
theorem State.slateAnswer_commit_denied (hm : s.mayChange port = false) :
    s.slateAnswer port (slateMsg 4 seq idx sub data) = ((0x11, []), s.commitResult port 0 0 0x11) := by
  unfold State.slateAnswer
  dsimp only
  rw [byteAt_slateMsg_op (by decide), if_pos rfl, if_pos (by simp [hm])]

/-- COMMIT with its tick. -/
theorem State.slateAnswer_commit_made {r tick key reason : Nat} {t : State} (hm : s.mayChange port = true)
    (hd : data.length = 8) (hc : s.commitNow port (leNat data) = (r, tick, key, reason, t)) :
    s.slateAnswer port (slateMsg 4 seq idx sub data) =
      ((r, if r = 0 then natLe 8 tick else []), t.commitResult port key reason r) := by
  unfold State.slateAnswer
  dsimp only
  rw [byteAt_slateMsg_op (by decide), if_pos rfl, if_neg (by simp [hm]), drop_slateMsg, if_neg (by simp [hd]), hc]

theorem State.slateAnswer_discard :
    s.slateAnswer port (slateMsg 5 seq idx sub data) =
      if !s.mayChange port then ((0x11, []), s)
      else if !data.isEmpty then ((0x1C, []), s)
      else ((0, []), s.modStage port (fun st => { st with ents := [], stale := false })) := by
  unfold State.slateAnswer
  dsimp only
  rw [byteAt_slateMsg_op (by decide), if_neg (by decide), if_pos rfl, drop_slateMsg]

/-- READ of a value of fixed size carries no data. -/
theorem State.slateReadObj_fixed {o : Obj} {n : Nat} (hn : o.ty.size = some n) :
    s.slateReadObj port idx sub o data =
      if data.isEmpty then ((0, (s.value idx sub o).bytes o.ty), s) else ((0x1C, []), s) := by
  rw [State.slateReadObj, hn]

/-- WRITE and STAGE of a value of fixed size carry the value. -/
theorem State.slateWriteObj_fixed {o : Obj} {n : Nat} (hn : o.ty.size = some n) :
    s.slateWriteObj port op idx sub o data =
      if data.length ≠ n then ((0x12, []), s) else s.takeValue port op idx sub o (o.ty.parse data) := by
  rw [State.slateWriteObj, hn]

end answer

/-- Settles O56: the response repeats the request; a request by its operation, its object and the right of its port. -/
theorem slateAnswerResults : Obligations.SlateAnswerResults := by
  intro s port op seq idx sub data hport hop hseq hidx hsub hlen msg answers
  refine ⟨fun h1 h5 h45 => ?response, fun h1 h3 => ?object, ?commit, ?discard⟩
  case response =>
    intro u r d t ha hr
    rw [State.slateHandle_answered (slateMalformed_slateMsg hlen) (slateNoOp_slateMsg h1 h5 hidx hsub h45) ha hr,
      slateRsp_slateMsg hop]
  case object =>
    refine ⟨State.slateAnswer_absent hop hidx hsub (by omega) (by omega), fun o ho => ?_⟩
    have present : s.slateAnswer port msg = _ := State.slateAnswer_present hop hidx hsub (by omega) (by omega) ho
    refine ⟨fun hr => present.trans (if_pos (by simp [hr])), fun hr n hn => ?_⟩
    have allowed := present.trans (if_neg (by simp [hr]))
    have read (h : op = 1) := (allowed.trans (if_pos h)).trans (State.slateReadObj_fixed hn)
    have write (h : op ≠ 1) := (allowed.trans (if_neg h)).trans (State.slateWriteObj_fixed hn)
    have taken (h : op ≠ 1) (hd : data.length = n) := (write h).trans (if_neg (not_not.mpr hd))
    have admitted (h : op ≠ 1) (hd : data.length = n) (ha : o.ty.admits (o.ty.parse data) = true) :=
      (taken h hd).trans (if_neg (by simp [ha]))
    refine ⟨fun h hd => ?_, fun h hd => ?_, fun h hd => ?_, fun h hd ha => ?_, fun h hd ha => ?_, fun h hd ha => ?_⟩
    · exact (read h).trans (if_pos (by simp [hd]))
    · exact (read h).trans (if_neg (by simp [hd]))
    · exact (write h).trans (if_pos hd)
    · exact (taken h hd).trans (if_pos (by simp [ha]))
    · exact (admitted (by omega) hd ha).trans (if_pos h)
    · have staged := (admitted (by omega) hd ha).trans (if_neg (by omega))
      exact ⟨fun hn hb => staged.trans (if_neg (not_or.mpr ⟨Nat.not_lt.mpr hn, Nat.not_lt.mpr hb⟩)),
        fun hfull => staged.trans (if_pos hfull)⟩
  case commit =>
    rintro rfl
    exact ⟨State.slateAnswer_commit_denied, fun hm hd r tick key reason t hc => State.slateAnswer_commit_made hm hd hc⟩
  case discard =>
    rintro rfl
    have discard : s.slateAnswer port msg = _ := State.slateAnswer_discard
    refine ⟨fun hm => ?_, fun hm hd => ?_, fun hm hd => ?_⟩
    · exact discard.trans (if_pos (by simp [hm]))
    · exact (discard.trans (if_neg (by simp [hm]))).trans (if_neg (by simp [hd]))
    · exact (discard.trans (if_neg (by simp [hm]))).trans (if_pos (by simp [hd]))

/-! ### What leaves Dawn as it is -/

section boot
variable (s : State)

@[simp] theorem State.setRoute_boot (msg : Bool) (i : Nat) (v : W64) : (s.setRoute msg i v).boot = s.boot := by
  unfold State.setRoute
  split <;> rfl

@[simp] theorem State.wakeCore_boot (c cause : Nat) : (s.wakeCore c cause).boot = s.boot := by
  unfold State.wakeCore
  dsimp only
  split_ifs <;> rfl

@[simp] theorem State.countDrop_boot (rt : Nat) : (s.countDrop rt).boot = s.boot := by
  unfold State.countDrop
  split <;> rfl

@[simp] theorem State.deliverPost_boot (msg : Bool) (i : Nat) : (s.deliverPost msg i).boot = s.boot := by
  unfold State.deliverPost
  dsimp only
  split_ifs <;> simp

@[simp] theorem State.post_boot (src : Nat) : (s.post src).boot = s.boot := by
  unfold State.post
  split <;> simp

@[simp] theorem State.postIf_boot (p : Prop) [Decidable p] (src : Nat) :
    (if p then s.post src else s).boot = s.boot := by
  split
  · exact s.post_boot src
  · rfl

@[simp] theorem State.modLog_boot (l : Nat) (f : Log → Log) : (s.modLog l f).boot = s.boot := by
  unfold State.modLog
  split <;> rfl

@[simp] theorem State.logRecord_boot (l : Nat) (r : Rec) : (s.logRecord l r).boot = s.boot := by
  unfold State.logRecord
  dsimp only
  split
  · cases r.td <;> simp only [State.postIf_boot, State.modLog_boot]
  · exact s.modLog_boot l _

/-- A record and its notifications leave Dawn. -/
@[simp] theorem State.record_boot (r : RecIn) : (s.record r).boot = s.boot := by
  unfold State.record
  dsimp only
  split_ifs <;> simp only [State.logRecord_boot]

end boot

/-- Settles O58: the rights of the debug port are its read rights and, once zeroization is done, those of the objects;
zeroization is done until the next reset. -/
theorem debugPortRights : Obligations.DebugPortRights := by
  intro s
  refine ⟨fun idx o => ?reads, fun hz op seq idx sub data hop hseq hidx hsub => ?denied, fun hz => ?granted,
    fun kind => ?zeroized, rfl⟩
  case reads => simp [State.hasRight, mayRead]
  case denied =>
    have hm : s.mayChange 3 = false := by simp [State.mayChange, hz]
    refine ⟨fun o ho hchange => ?_, ?_, ?_⟩
    · have hright : s.hasRight 3 op idx o = false := by simp [State.hasRight, hz, show op ≠ 1 by omega]
      exact (State.slateAnswer_present hop hidx hsub (by omega) (by omega) ho).trans (if_pos (by simp [hright]))
    · rintro rfl
      exact State.slateAnswer_commit_denied hm
    · rintro rfl
      exact State.slateAnswer_discard.trans (if_pos (by simp [hm]))
  case granted => exact ⟨by simp [State.mayChange, hz], fun idx o => by simp [State.hasRight, hz]⟩
  case zeroized =>
    obtain ⟨z, hrecord, -, -, -, hz, -⟩ := s.zeroize_result kind
    rw [hrecord, State.record_boot, hz]

/-! ### The host mailbox (R392, R401) -/

section mailbox
variable {s : State} {td : Nat}

theorem exec_hostMailboxGo (hup : s.portUp 2 = true) :
    exec (.hostMailboxGo td) s = .next (s.hostMessage td s.hostBuffer) :=
  congrArg Host.Outcome.next (if_neg (by simp [hup]))

/-- A write of SL_HCTL that leaves NEN and sets GO is the command of the mailbox. -/
theorem State.mailboxWrite_go {v : W64} {m : Nat} (hup : s.portUp 2 = true) (hm : m.testBit 0 = true)
    (hgo : v.getLsbD 0 = true) (hnen : v.getLsbD 1 = s.slate.nen) :
    s.mailboxWrite td 0 v m = s.hostMessage td s.hostBuffer := by
  have hsame : s.modSlate (fun x => { x with nen := v.getLsbD 1 }) = s := by rw [hnen]; rfl
  unfold State.mailboxWrite
  rw [if_pos rfl, if_pos hm, hsame, if_pos (by simp [hgo, hup])]

end mailbox

/-- Settles O59: the response of a command that is not handled, and the write of GO that issues a command. -/
theorem mailboxDomain : Obligations.MailboxDomain := by
  intro s td hup
  refine ⟨fun htd => ?foreign, fun v m hm hgo hnen => ?write⟩
  case foreign =>
    intro m t
    rw [exec_hostMailboxGo hup, State.hostMessage, State.slateHandle_foreign htd]
    rfl
  case write => rw [exec_hostMailboxGo hup, State.mailboxWrite_go hup hm hgo hnen]

end Sys2Proof.Machine
end

section
/-! SUPPORT. The transports of Slate (R364, R392 to R401, R409, R414). -/

namespace Sys2Proof.Machine

/-! ### The service port (R400) -/

section service
variable {s : State} {msg : List Byte}

/-- A message is refused while a response waits, or where it breaks the layout of R393. -/
theorem State.svcMessage_refused (h : s.slate.svcRdy = true ∨ slateMalformed 0 msg = true) :
    s.svcMessage msg = (s.slateBad 0 msg).modSlate (fun x => { x with svcNak := true }) :=
  if_pos (Bool.or_eq_true_iff.mpr h)

theorem State.svcMessage_taken (hr : s.slate.svcRdy = false) (hm : slateMalformed 0 msg = false) :
    s.svcMessage msg = (s.slateHandle 0 0 msg).2.modSlate (fun x =>
      { x with svcRdy := true, svcRsp := (s.slateHandle 0 0 msg).1 }) :=
  if_neg (by simp [hr, hm])

/-- The bytes of a response read, zero past its end. -/
def State.svcShifted (s : State) (n : Nat) : State :=
  s.emit (.spi (s.slate.svcRsp.take n ++ List.replicate (n - s.slate.svcRsp.length) 0))

theorem State.svcRead_whole {n : Nat} (hr : s.slate.svcRdy = true) (hn : s.slate.svcRsp.length ≤ n) :
    s.svcRead n = (s.svcShifted n).modSlate (fun x => { x with svcRdy := false, svcRsp := [] }) :=
  if_pos ⟨hr, hn⟩

theorem State.svcRead_part {n : Nat} (h : s.slate.svcRdy = false ∨ n < s.slate.svcRsp.length) :
    s.svcRead n = s.svcShifted n := by
  refine if_neg fun hwhole => ?_
  obtain ⟨hr, hn⟩ : s.slate.svcRdy = true ∧ s.slate.svcRsp.length ≤ n := hwhole
  rcases h with h | h
  · simp [h] at hr
  · omega

end service

/-! ### The field port (R399) -/

section field
variable {s : State} {f : CanFrame}

/-- An FD frame has room for as many bytes as it can carry. -/
theorem le_dlcLen {n : Nat} (h : n ≤ 64) : n ≤ dlcLen n := by
  unfold dlcLen
  cases hf : ([0, 1, 2, 3, 4, 5, 6, 7, 8, 12, 16, 20, 24, 32, 48, 64] : List Nat).find? (fun l => n ≤ l) with
  | none => exact h
  | some l => simpa using List.find?_some hf

/-- Bytes filled up with zeros to the length of an FD frame. -/
def dlcPad (bs : List Byte) : List Byte := bs ++ List.replicate (dlcLen bs.length - bs.length) 0

/-- The request frame that carries a message. -/
def reqFrame (node : Nat) (msg : List Byte) : CanFrame :=
  { ident := 0x6A0 + node, extended := false, remote := false, fd := true, brs := true, data := dlcPad msg }

/-- The response frame. -/
def rspFrame (node : Nat) (brs : Bool) (rsp : List Byte) : CanFrame :=
  { ident := 0x6B0 + node, extended := false, remote := false, fd := true, brs, data := dlcPad rsp }

/-- A response is sent in its frame, without error. -/
def State.fieldAnswer (s : State) (brs : Bool) (rsp : List Byte) : State :=
  (s.emit (.can (rspFrame s.slate.node brs rsp))).modSlate (fun x => { x with tec := x.tec - 1 })

/-- A frame received without error, the receive error counter being at most 127. -/
def State.fieldReceived (s : State) : State := s.modSlate (fun x => { x with recv := s.slate.recv - 1 })

theorem State.canReceived_low (h : s.slate.recv ≤ 127) : s.canReceived = s.fieldReceived := if_pos h

theorem State.fieldRequest_ignored (h : f.ident ≠ 0x6A0 + s.slate.node ∨ f.extended = true ∨ f.remote = true) :
    s.fieldRequest f = s :=
  if_pos (by rcases h with h | h | h <;> simp [State.fieldAddressed, h])

section addressed
variable (hi : f.ident = 0x6A0 + s.slate.node) (he : f.extended = false) (hr : f.remote = false)
  (hc : s.slate.recv ≤ 127)
include hi he hr hc

theorem State.fieldRequest_framed (hf : fieldFramed f = true) :
    let h := s.fieldReceived.slateHandle 1 0 (f.data.take (8 + natAt f.data 6 2))
    s.fieldRequest f = h.2.fieldAnswer f.brs h.1 := by
  unfold State.fieldRequest
  dsimp only
  rw [if_neg (by simp [State.fieldAddressed, hi, he, hr]), State.canReceived_low hc, if_pos hf, if_pos hf]
  rfl

/-- A frame whose framing fails is answered MALFORMED. -/
theorem State.fieldRequest_unframed (hf : fieldFramed f = false) :
    s.fieldRequest f = ((s.fieldReceived.turnTo 1).slateBad 1 f.data).fieldAnswer f.brs (slateRsp f.data 0x1C []) := by
  have hn : ¬ fieldFramed f = true := by simp [hf]
  unfold State.fieldRequest
  dsimp only
  rw [if_neg (by simp [State.fieldAddressed, hi, he, hr]), State.canReceived_low hc, if_neg hn, if_neg hn]
  rfl

end addressed

/-- A message of at most 64 bytes fits its frame, from which it is read back whole. -/
theorem reqFrame_framed {op seq idx sub : Nat} {data : List Byte} (h : data.length ≤ 56) (node : Nat) :
    let msg := slateMsg op seq idx sub data
    fieldFramed (reqFrame node msg) = true
    ∧ (reqFrame node msg).data.take (8 + natAt (reqFrame node msg).data 6 2) = msg := by
  intro msg
  have hlen : msg.length = 8 + data.length := slateMsg_length
  have hnat : natAt (reqFrame node msg).data 6 2 = data.length :=
    natAt_slateMsg_len (op := op) (seq := seq) (idx := idx) (sub := sub) (by omega)
  have hroom : msg.length ≤ dlcLen msg.length := le_dlcLen (by omega)
  have hdata : (reqFrame node msg).data.length = dlcLen msg.length := by
    simp only [reqFrame, dlcPad, List.length_append, List.length_replicate]
    omega
  refine ⟨?_, ?_⟩
  · simp only [fieldFramed, hnat, hdata, ← hlen, Bool.and_eq_true, decide_eq_true_eq]
    exact ⟨⟨⟨rfl, by omega⟩, hroom⟩, trivial⟩
  · rw [hnat, ← hlen]
    exact List.take_left

end field

/-! ### The host mailbox (R401) and the debug scan (R414) -/

section host
variable {s : State} {td : Nat} {msg : List Byte}

/-- The mailbox with the response of a message. -/
def State.hostAnswered (s : State) (td : Nat) (msg : List Byte) : State :=
  (s.slateHandle 2 td msg).2.modSlate (fun x => { x with hrsp := (s.slateHandle 2 td msg).1, hdone := true })

theorem State.hostMessage_eq : s.hostMessage td msg =
    if (s.hostAnswered td msg).slate.nen then (s.hostAnswered td msg).post 3205 else s.hostAnswered td msg := rfl

theorem State.dbgMessage_refused (h : s.slate.dbgRdy = true) :
    s.dbgMessage msg = (s.slateBad 3 msg).modSlate (fun x => { x with dbgNak := true }) := if_pos h

theorem State.dbgMessage_taken (h : s.slate.dbgRdy = false) :
    s.dbgMessage msg = (s.slateHandle 3 0 msg).2.modSlate (fun x =>
      { x with dbgRdy := true, dbgRsp := (s.slateHandle 3 0 msg).1 }) := if_neg (by simp [h])

end host

section scan
variable {s : State} {bytes : List Byte} {n : Nat}

/-- Status and response, as a scan shifts them out. -/
def State.dbgWhole (s : State) : List Byte := s.dbgStatus :: (if s.slate.dbgRdy then s.slate.dbgRsp else [])

/-- A scan of `n` bytes has shifted out status and response, which clears NAK. -/
def State.dbgShifted (s : State) (n : Nat) : State :=
  ((s.emit (.tdo (s.dbgWhole.take n ++ List.replicate (n - s.dbgWhole.length) 0))).modSlate
    (fun x => { x with ir := 2 })).modSlate (fun x => { x with dbgNak := false })

/-- A response shifted out whole is done with. -/
def State.dbgDrained (s : State) (n : Nat) : State :=
  if s.slate.dbgRdy = true ∧ s.dbgWhole.length ≤ n then
    (s.dbgShifted n).modSlate (fun x => { x with dbgRdy := false, dbgRsp := [] })
  else s.dbgShifted n

theorem State.dbgDrained_idle (h : s.slate.dbgRdy = false) : s.dbgDrained n = s.dbgShifted n := if_neg (by simp [h])

/-- Update-DR: a scan that shifted in zeros carries no message. -/
theorem exec_slateTap (hup : s.portUp 3 = true) (h0 : 0 < n) :
    exec (.slateTap bytes (8 * n)) s = .next (
      if (bytes.take n).isEmpty ∨ byteAt (bytes.take n) 0 = 0 then s.dbgDrained n
      else (s.dbgDrained n).dbgMessage (bytes.take n)) := by
  change execSlateTap bytes (8 * n) s = _
  unfold execSlateTap
  dsimp only
  have hbits : 8 ≤ 8 * n := by omega
  rw [if_neg (by simp [hup]), if_pos hbits, Nat.mul_div_cancel_left n (by decide)]
  rfl

end scan

/-! ### A message on a port -/

section send
variable {s : State} {port op seq idx sub : Nat} {data msg : List Byte}

/-- The five operations send their requests. -/
theorem exec_slate {t : State} (h : s.slateSend port (slateMsg op seq idx sub data) = t) :
    (op = 1 → exec (.slateRead port seq idx sub data) s = .next t)
    ∧ (op = 2 → exec (.slateWrite port seq idx sub data) s = .next t)
    ∧ (op = 3 → exec (.slateStage port seq idx sub data) s = .next t)
    ∧ (op = 4 → idx = 0 → sub = 0 → exec (.slateCommit port seq data) s = .next t)
    ∧ (op = 5 → idx = 0 → sub = 0 → exec (.slateDiscard port seq data) s = .next t) := by
  subst h
  refine ⟨?_, ?_, ?_, ?_, ?_⟩
  · rintro rfl; rfl
  · rintro rfl; rfl
  · rintro rfl; rfl
  · rintro rfl rfl rfl; rfl
  · rintro rfl rfl rfl; rfl

theorem State.slateSend_down (h : s.portUp port = false) : s.slateSend port msg = s := if_neg (by simp [h])

theorem State.slateSend_up (h : s.portUp port = true) : s.slateSend port msg = s.slatePort port msg := if_pos h

theorem State.slatePort_host : s.slatePort 2 msg =
    if (s.hostAnswered 0 msg).slate.nen then (s.hostAnswered 0 msg).post 3205 else s.hostAnswered 0 msg := rfl

/-- A message that fits a frame, on the field port. -/
theorem State.slatePort_field (h : data.length ≤ 56) (hc : s.slate.recv ≤ 127) :
    let a := s.fieldReceived.slateHandle 1 0 (slateMsg op seq idx sub data)
    s.slatePort 1 (slateMsg op seq idx sub data) = a.2.fieldAnswer true a.1 := by
  obtain ⟨hframed, hback⟩ := reqFrame_framed (op := op) (seq := seq) (idx := idx) (sub := sub) h s.slate.node
  have hsend :=
    State.fieldRequest_framed (f := reqFrame s.slate.node (slateMsg op seq idx sub data)) rfl rfl rfl hc hframed
  rw [hback] at hsend
  exact hsend

end send

/-- A counter of errors on the bus. -/
theorem exec_busError {s : State} {inc : Nat} (hup : s.portUp 1 = true) (hinc : inc = 1 ∨ inc = 8) (tx : Bool) :
    exec (.busError tx inc) s = .next (
      if tx then s.modSlate (fun x => { x with tec := x.tec + inc, busOff := decide (256 ≤ x.tec + inc) })
      else s.modSlate (fun x => { x with recv := x.recv + inc })) :=
  congrArg Host.Outcome.next (if_neg (by rcases hinc with rfl | rfl <;> simp [hup]))

/-- Settles O55: a message by the transport of its port, and each event of a transport by its law. -/
theorem slateTransportResults : Obligations.SlateTransportResults := by
  refine ⟨?messages, fun s => ⟨fun hup => ?spi, fun hup => ?can, fun hoff => ?busOff,
    fun haon hreset hscan hon hoff => ?recovery, fun hup => congrArg Host.Outcome.next (if_neg (by simp [hup])),
    fun hup td => ?mailbox, fun hup bytes n => ?tap⟩⟩
  case messages =>
    intro s seq idx sub data hlen sends
    refine ⟨fun op => ⟨fun port hdown => exec_slate (State.slateSend_down hdown), fun hup => ?service,
      fun hup => ?debug, fun hup => ?host, fun hup hfit hc => ?field⟩, fun port hport => ?timeouts⟩
    case service =>
      have hm : slateMalformed 0 (slateMsg op seq idx sub data) = false := slateMalformed_slateMsg hlen
      exact ⟨fun hr => exec_slate ((State.slateSend_up hup).trans (State.svcMessage_taken hr hm)),
        fun hr => exec_slate ((State.slateSend_up hup).trans (State.svcMessage_refused (.inl hr)))⟩
    case debug =>
      exact ⟨fun hr => exec_slate ((State.slateSend_up hup).trans (State.dbgMessage_taken hr)),
        fun hr => exec_slate ((State.slateSend_up hup).trans (State.dbgMessage_refused hr))⟩
    case host =>
      have sent := (State.slateSend_up hup).trans (State.slatePort_host (s := s) (msg := slateMsg op seq idx sub data))
      exact ⟨fun hn => exec_slate (sent.trans (if_pos hn)),
        fun hn => exec_slate (sent.trans (if_neg (Bool.eq_false_iff.mp hn)))⟩
    case field => exact exec_slate (by rw [State.slateSend_up hup, State.slatePort_field hfit hc]; rfl)
    case timeouts =>
      have hnot : ¬ decide (4 ≤ port) = true := by simp [hport]
      exact ⟨congrArg Host.Outcome.next (if_neg hnot), congrArg Host.Outcome.next (if_neg hnot)⟩
  case spi =>
    have hnot : ¬ (!s.portUp 0) = true := by simp [hup]
    refine ⟨congrArg Host.Outcome.next (if_neg hnot), fun msg t ht => ?_, fun n t ht => ?_, fun opcode bytes =>
      congrArg Host.Outcome.next (if_neg hnot)⟩
    · have hwrite : t = .next (s.svcMessage msg) := by
        rcases ht with rfl | rfl <;> exact congrArg Host.Outcome.next (if_neg hnot)
      exact ⟨fun h => hwrite.trans (congrArg _ (State.svcMessage_refused h)),
        fun hr hm => hwrite.trans (congrArg _ (State.svcMessage_taken hr hm))⟩
    · have hread : t = .next (s.svcRead n) := by
        rcases ht with rfl | rfl <;> exact congrArg Host.Outcome.next (if_neg hnot)
      exact ⟨fun hr hn => hread.trans (congrArg _ (State.svcRead_whole hr hn)),
        fun h => hread.trans (congrArg _ (State.svcRead_part h))⟩
  case can =>
    have frame (f : CanFrame) : exec (.fieldFrame f) s = .next (s.fieldRequest f) :=
      congrArg Host.Outcome.next (if_neg (by simp [hup]))
    refine ⟨fun f hother => (frame f).trans (congrArg _ (State.fieldRequest_ignored hother)),
      fun f hi he hr hc => ⟨fun hf => ?_, fun hf => ?_⟩, fun inc hinc => ⟨exec_busError hup hinc true,
        exec_busError hup hinc false⟩⟩
    · exact (frame f).trans (congrArg _ (State.fieldRequest_framed hi he hr hc hf))
    · exact (frame f).trans (congrArg _ (State.fieldRequest_unframed hi he hr hc hf))
  case busOff => simp [State.portUp, hoff]
  case recovery => exact congrArg Host.Outcome.next (if_neg (by simp [haon, hreset, hscan, hon, hoff]))
  case mailbox =>
    have command := exec_hostMailboxGo (td := td) hup
    exact ⟨fun hn => command.trans (congrArg _ (State.hostMessage_eq.trans (if_pos hn))),
      fun hn => command.trans (congrArg _ (State.hostMessage_eq.trans (if_neg (Bool.eq_false_iff.mp hn))))⟩
  case tap =>
    intro rdy whole u msg h0
    have scan := exec_slateTap (bytes := bytes) hup h0
    have hmsg : (msg = [] ∨ byteAt msg 0 = 0) ↔ ((bytes.take n).isEmpty = true ∨ byteAt (bytes.take n) 0 = 0) := by
      rw [List.isEmpty_iff]
    refine ⟨fun hr hnone => ?_, fun hr hn hnone => ?_, fun hr hne hop => ?_⟩
    · exact scan.trans (congrArg _ ((if_pos (hmsg.mp hnone)).trans (State.dbgDrained_idle hr)))
    · exact scan.trans (congrArg _ ((if_pos (hmsg.mp hnone)).trans (if_pos ⟨hr, hn⟩)))
    · rw [scan, if_neg (mt hmsg.mpr (not_or.mpr ⟨hne, hop⟩)), State.dbgDrained_idle hr]
      exact congrArg _ (State.dbgMessage_taken hr)

end Sys2Proof.Machine
end

section
/-! SUPPORT. Power domains, wakes, pads, stacks and telemetry (R350 to R365). -/

namespace Sys2Proof.Machine

/-! ### Cores (R350, R354 to R356) -/

section core
variable {s : State} {c : Nat}

/-- The walk of a core that still had one to make is made. -/
def State.walked (s : State) (c : Nat) : State := if (s.core c).walk.isSome then s.walkAllArrays c else s

/-- The build of the patches that a core takes when it comes ON (R366). -/
def State.patchOf (s : State) (c : Nat) : Nat := (SMap.get Img.reset (s.region (coreRegion c)).fw 4).build

/-- A domain is ON, and its cause register says why. -/
def State.domOn (s : State) (i : Nat) : State := s.modDom i (fun d => { d with st := 0, wake := (s.dom i).cause })

/-- A core returns from RET with all that it held. -/
theorem State.arriveCore_onFromRet (hd : (s.dom c).dest = 0) (hs : (s.dom c).src = 1) :
    s.arriveCore c = ((s.domOn c).modCore c (fun k =>
      let k := k.brk 6 k.pc; { k with woke := true, patch := s.patchOf c })).deliverAllHeld c :=
  (if_pos hd).trans (congrArg (State.deliverAllHeld · c) (if_pos hs))

/-- A core comes ON at its reset values. -/
theorem State.arriveCore_onFromOff (hd : (s.dom c).dest = 0) (hs : (s.dom c).src ≠ 1) :
    s.arriveCore c = ((s.domOn c).setCore c { Core.reset with patch := s.patchOf c }).deliverAllHeld c :=
  (if_pos hd).trans (congrArg (State.deliverAllHeld · c) (if_neg hs))

theorem State.arriveCore_ret (hd : (s.dom c).dest = 1) :
    s.arriveCore c = ((s.walked c).modCore c (fun k => { k with walk := none, retcnt := satAdd 32 k.retcnt })).modDom c
      (fun d => { d with st := 1 }) :=
  (if_neg (by omega)).trans (if_pos hd)

theorem State.arriveCore_off (hd : (s.dom c).dest = 2) :
    s.arriveCore c = ((s.walked c).setCore c Core.reset).modDom c (fun d => { d with st := 2 }) :=
  (if_neg (by omega)).trans (if_neg (by omega))

theorem exec_retEntryComplete (hup : s.up = true) (hc : c < 256) (hst : (s.dom c).st = 3) (hd : (s.dom c).dest = 1) :
    exec (.retEntryComplete c) s = .next (
      if (s.dom c).wakeReq then
        (((s.walkAllArrays c).modCore c (fun k => { k with walk := none })).modDom c
          (fun d => { d with st := 0, wakeReq := false, viaWfe := false })).deliverAllHeld c
      else (s.arriveCore c).nextDom c) :=
  congrArg Host.Outcome.next (if_neg (by simp [hup, hc, hst, hd]))

/-- A route entry holds a post for a core. -/
def State.postHeld (s : State) (c : Nat) : Bool :=
  s.route.any (fun e => routePend e.2 && decide (routeCore e.2 = c))
    || s.mroute.any (fun e => routePend e.2 && decide (routeCore e.2 = c))

/-- A core that a WFE put in RET starts its return. -/
theorem State.wakeCore_ret (hst : (s.dom c).st = 1) (hw : (s.dom c).viaWfe = true) (cause : Nat) :
    s.wakeCore c cause = s.modDom c (fun d => { d with st := 3, dest := 0, src := 1, cause := cause }) :=
  if_pos ⟨hst, hw⟩

theorem exec_coreWake (hup : s.up = true) (hc : c < 256) (hst : (s.dom c).st = 1) (hw : (s.dom c).viaWfe = true) :
    exec (.coreWake c) s = .next (
      if s.postHeld c then s.wakeCore c 2 else if !(s.mailbox c).isEmpty then s.wakeCore c 3 else s) :=
  congrArg Host.Outcome.next (if_neg (by simp [hup, hc, hst, hw]))

theorem exec_powerTransition_core (hup : s.up = true) (hp : s.corePresent c = true) (hc : c < 256)
    (hst : (s.dom c).st = 3) (h : ¬ ((s.dom c).dest = 1 ∧ (s.core c).walk.isSome = true)) :
    exec (.powerTransitionComplete c) s = .next ((s.arriveCore c).nextDom c) := by
  have hpresent : s.domPresent c = true := (if_pos hc).trans hp
  exact congrArg Host.Outcome.next ((if_neg (by simp [hup, hpresent, hst])).trans ((if_pos hc).trans (if_neg h)))

end core

/-! ### The other units (R350, R358, R360, R361) -/

section unit
variable {s : State} {i : Nat}

/-- A unit is ON; one whose pads are of its domain holds them where it comes from OFF (R361). -/
def State.unitOn (s : State) (i : Nat) : State :=
  s.modDom i (fun e => { e with
    st := 0, wake := e.cause, held := e.held || (decide (392 ≤ i) && decide ((s.dom i).src = 2)) })

/-- The domain of a unit has arrived. -/
def State.unitArrived (s : State) (i : Nat) : State :=
  if (s.dom i).dest = 0 then s.unitOn i else s.modDom i (fun e => { e with st := (s.dom i).dest })

theorem State.unitArrived_on (h : (s.dom i).dest = 0) : s.unitArrived i = s.unitOn i := if_pos h

theorem State.unitArrived_other (h : (s.dom i).dest ≠ 0) :
    s.unitArrived i = s.modDom i (fun e => { e with st := (s.dom i).dest }) := if_neg h

/-- What a Cobalt complex keeps. -/
theorem State.arriveUnit_fn (h1 : 384 ≤ i) (h2 : i < 392) :
    s.arriveUnit i =
      if (s.dom i).dest = 0 then
        if (s.dom i).src = 2 then (s.unitArrived i).modFn (i - 384) (fun x => { Fn.reset with ucode := x.ucode })
        else (s.unitArrived i).modFn (i - 384) (fun x => { x with pm := 0 })
      else if (s.dom i).dest = 1 then (s.unitArrived i).modFn (i - 384) (fun x => { x with pm := 3 })
      else (s.unitArrived i).modFn (i - 384) (fun x => { Fn.reset with pm := 3, ucode := x.ucode }) :=
  if_pos ⟨h1, h2⟩

/-- What a channel keeps. -/
theorem State.arriveUnit_chan (h1 : 392 ≤ i) (h2 : i < 408) :
    s.arriveUnit i =
      if (s.dom i).dest = 0 then
        (s.unitArrived i).modChan (i - 392) (fun c => { c with st := if c.st = 7 then 4 else c.st })
      else if (s.dom i).dest = 1 then
        (s.unitArrived i).modChan (i - 392) (fun c => { c with st := if c.st = 4 then 7 else c.st, rows := [] })
      else s.unitArrived i :=
  (if_neg (by omega)).trans (if_pos ⟨h1, h2⟩)

/-- A stack that goes OFF loses its ports. -/
theorem State.arriveUnit_stackOff (h1 : 408 ≤ i) (h2 : i < 416) (hd : (s.dom i).dest = 2) :
    s.arriveUnit i = (s.unitArrived i).stackOff (i - 408) :=
  (if_neg (by omega)).trans ((if_neg (by omega)).trans ((if_pos ⟨h1, h2⟩).trans (if_pos hd)))

/-- A stack or the field responder in ON or RET keeps everything. -/
theorem State.arriveUnit_kept (h1 : 408 ≤ i) (hd : (s.dom i).dest ≠ 2) : s.arriveUnit i = s.unitArrived i := by
  refine (if_neg (by omega)).trans ((if_neg (by omega)).trans ?_)
  by_cases h2 : i < 416
  · exact (if_pos ⟨h1, h2⟩).trans (if_neg hd)
  · exact if_neg (fun h => h2 h.2)

theorem exec_powerTransition_unit (hup : s.up = true) (hp : s.domPresent i = true) (hi : 384 ≤ i)
    (hst : (s.dom i).st = 3) : exec (.powerTransitionComplete i) s = .next ((s.arriveUnit i).nextDom i) :=
  congrArg Host.Outcome.next
    ((if_neg (by simp [hup, hp, hst])).trans ((if_neg (by omega)).trans (if_neg (by omega))))

/-- The pads of a domain are released. -/
def State.padsFree (s : State) (i : Nat) : State := s.modDom i (fun d => { d with held := false })

theorem exec_padholdRel (hup : s.up = true) (hp : s.domPresent i = true) :
    exec (.padholdRel i) s = .next (s.releasePads i) :=
  congrArg Host.Outcome.next (if_neg (by simp [hup, hp]))

/-- Only a domain that is ON and holds its pads releases them. -/
theorem State.releasePads_none (h : (s.dom i).st ≠ 0 ∨ (s.dom i).held = false) : s.releasePads i = s := if_pos h

theorem State.releasePads_held (hst : (s.dom i).st = 0) (hh : (s.dom i).held = true) :
    s.releasePads i =
      if 408 ≤ i ∧ i < 416 then
        (List.range 4).foldl (fun s f =>
          if s.portPresent (i - 408) f then s.modPort (i - 408) f (fun p => { p with perst := false }) else s)
          (s.padsFree i)
      else s.padsFree i :=
  if_neg (by simp [hst, hh])

/-! ### Wakes -/

theorem State.beginDom_unit (hi : 256 ≤ i) {dest : Nat} (hd : (s.dom i).st ≠ dest) (cause : Nat) :
    s.beginDom i dest cause = s.modDom i (fun d =>
      { d with st := 3, dest, src := d.st, cause, viaWfe := false, wakeReq := false }) :=
  (if_neg hd).trans (if_neg (by omega))

theorem State.wakeDom_ret (h : (s.dom i).st = 1) (cause : Nat) :
    s.wakeDom i cause = s.modDom i (fun d => { d with st := 3, dest := 0, src := 1, cause := cause }) := if_pos h

/-- A domain that is ON or OFF takes no wake. -/
theorem State.wakeDom_none (h : (s.dom i).st = 0 ∨ (s.dom i).st = 2) (cause : Nat) : s.wakeDom i cause = s :=
  (if_neg (by omega)).trans (if_neg (by omega))

/-- A domain that has arrived, with no wake and no request waiting, stays as it is. -/
theorem State.nextDom_idle (hw : (s.dom i).wakeReq = false) (hq : (s.dom i).queue = []) : s.nextDom i = s := by
  unfold State.nextDom
  dsimp only
  rw [if_neg (by simp [hw]), hq]

end unit

/-! ### Stacks, daybreak and telemetry (R358, R359, R365) -/

section wakes
variable {s : State} {n : Nat}

theorem exec_stackIdleRet (hup : s.up = true) (hn : n < 8) (hst : (s.dom (408 + n)).st = 0)
    (hl : s.settingN 0x2210 (n + 1) 0 ≠ 0) (hi : s.settingN 0x2210 (n + 1) 0 ≤ (s.region n).stackIdle)
    (hq : s.stackQuiet n = true) : exec (.stackIdleRet n) s = .next (s.beginDom (408 + n) 1 0) :=
  congrArg Host.Outcome.next (if_neg (by simp [hup, hn, hst, hl, hi, hq]))

/-- Without a time, before its time, or with a link that is not quiet, a stack stays. -/
theorem exec_stackIdleRet_none (h : s.settingN 0x2210 (n + 1) 0 = 0
    ∨ (s.region n).stackIdle < s.settingN 0x2210 (n + 1) 0 ∨ s.stackQuiet n = false) :
    exec (.stackIdleRet n) s = .next s :=
  congrArg Host.Outcome.next (if_pos (by rcases h with h | h | h <;> simp [h]))

theorem exec_stackWake {cause : Nat} (hup : s.up = true) (hn : n < 8) (hc : cause = 5 ∨ cause = 6) :
    exec (.stackWake n cause) s = .next (s.wakeDom (408 + n) cause) :=
  congrArg Host.Outcome.next (if_neg (by rcases hc with rfl | rfl <;> simp [hup, hn]))

theorem exec_daybreak {frame : Bool} (haon : s.pins.aon = true) (hs : s.scan = false)
    (hf : frame = true ∨ s.settingN 0x2220 1 0 ≠ 0) :
    exec (.daybreak frame) s = .next (
      if (s.dom 416).st = 2 then s.beginDom 416 0 (if frame then 7 else 8)
      else s.wakeDom 416 (if frame then 7 else 8)) :=
  congrArg Host.Outcome.next (if_neg (by rcases hf with hf | hf <;> simp [haon, hs, hf]))

/-- The state with a telemetry sample. -/
def State.sampled (s : State) (power : Nat) (temp : Int) (regs : List (Nat × Int × Nat)) : State :=
  { s with pins := { s.pins with
      power, temp, above := decide (s.setting 0x2300 3 100000 ≤ temp)
      regPower := (List.range regs.length).map (fun r => (r, (regs.getD r (0, 0, 0)).1))
      regTemp := (List.range regs.length).map (fun r => (r, (regs.getD r (0, 0, 0)).2.1))
      regMv := (List.range regs.length).map (fun r => (r, (regs.getD r (0, 0, 0)).2.2)) } }

theorem exec_telemetrySample (hup : s.up = true) (power : Nat) (temp : Int) (regs : List (Nat × Int × Nat)) :
    exec (.telemetrySample power temp regs) s = .next (
      if decide (s.setting 0x2300 3 100000 ≤ temp) && !s.pins.above then (s.sampled power temp regs).post 3202
      else s.sampled power temp regs) :=
  congrArg Host.Outcome.next (if_neg (by simp [hup]))

end wakes

/-- Settles O51: a core and a unit by where they arrive from and go to; each wake, release and sample by its
condition. -/
theorem powerResults : Obligations.PowerResults := by
  intro s
  refine ⟨fun hup => ⟨fun c hc => ?core, fun i hi hp => ?unit, fun n hn => ?stack, fun power temp regs => ?telemetry⟩,
    fun frame haon hs hf => ?daybreak, fun t i => State.nextDom_idle⟩
  case core =>
    intro d patch w ret
    refine ⟨fun hst hd hw => ?entered, fun hst hd hw => ?recalled, ?wake, fun hp hst => ?arrives⟩
    case entered =>
      rw [exec_retEntryComplete hup hc hst hd, if_neg (Bool.eq_false_iff.mp hw), State.arriveCore_ret hd]
      rfl
    case recalled => rw [exec_retEntryComplete hup hc hst hd, if_pos hw]
    case wake =>
      intro held woken hst hvia
      have wake := exec_coreWake hup hc hst hvia
      refine ⟨fun hh => ?_, fun hh hm => ?_, fun hh hm => ?_⟩
      · exact wake.trans (congrArg _ ((if_pos hh).trans (State.wakeCore_ret hst hvia 2)))
      · exact wake.trans (congrArg _ ((if_neg (Bool.eq_false_iff.mp hh)).trans
          ((if_pos (by simp [hm])).trans (State.wakeCore_ret hst hvia 3))))
      · exact wake.trans (congrArg _ ((if_neg (Bool.eq_false_iff.mp hh)).trans (if_neg (by simp [hm]))))
    case arrives =>
      intro arrives
      have arrived {t : State} (hwalk : ¬ ((s.dom c).dest = 1 ∧ (s.core c).walk.isSome = true))
          (h : s.arriveCore c = t) : arrives t :=
        (exec_powerTransition_core hup hp hc hst hwalk).trans
          (congrArg (fun u : State => Host.Outcome.next (u.nextDom c)) h)
      have entering {n : Nat} (hd : (s.dom c).dest = n) (hn : n ≠ 1) :
          ¬ ((s.dom c).dest = 1 ∧ (s.core c).walk.isSome = true) := fun h => hn (hd.symm.trans h.1)
      refine ⟨fun hd hsrc => ?_, fun hd hsrc => ?_, fun hd hwalk => ?_, fun hd => ?_⟩
      · exact arrived (entering hd (by decide)) (State.arriveCore_onFromRet hd hsrc)
      · exact arrived (entering hd (by decide)) (State.arriveCore_onFromOff hd hsrc)
      · exact arrived (by simp [hwalk]) (State.arriveCore_ret hd)
      · exact arrived (entering hd (by decide)) (State.arriveCore_off hd)
  case unit =>
    intro d on dst
    refine ⟨fun hst => ?arrives, fun hst hh hlt => ?padsUnit, fun hst hh h1 h2 => ?padsStack, fun h => ?padsNone⟩
    case arrives =>
      intro arrives
      have arrived {t : State} (h : s.arriveUnit i = t) : arrives t :=
        (exec_powerTransition_unit hup hp hi hst).trans (congrArg (fun u : State => Host.Outcome.next (u.nextDom i)) h)
      have hon (hd : d.dest = 0) : s.unitArrived i = on := State.unitArrived_on hd
      have hdst (hd : (s.dom i).dest ≠ 0) : s.unitArrived i = dst := State.unitArrived_other hd
      refine ⟨fun h2 => ?fn, fun h1 h2 => ?chan, fun h1 (hd : (s.dom i).dest = 0) => ?_,
        fun h1 h2 (hd : (s.dom i).dest = 2) => ?_, fun h1 (hd : (s.dom i).dest = 1) => ?_⟩
      case fn =>
        have fn := State.arriveUnit_fn (s := s) hi h2
        refine ⟨fun hd hsrc => ?_, fun hd hsrc => ?_, fun (hd : (s.dom i).dest = 1) => ?_,
          fun (hd : (s.dom i).dest = 2) => ?_⟩
        · exact arrived (fn.trans ((if_pos hd).trans ((if_pos hsrc).trans (by rw [hon hd]))))
        · exact arrived (fn.trans ((if_pos hd).trans ((if_neg hsrc).trans (by rw [hon hd]))))
        · exact arrived (fn.trans ((if_neg (by omega)).trans ((if_pos hd).trans (by rw [hdst (by omega)]))))
        · exact arrived (fn.trans ((if_neg (by omega)).trans ((if_neg (by omega)).trans (by rw [hdst (by omega)]))))
      case chan =>
        have chan := State.arriveUnit_chan (s := s) h1 h2
        refine ⟨fun hd => ?_, fun (hd : (s.dom i).dest = 1) => ?_⟩
        · exact arrived (chan.trans ((if_pos hd).trans (by rw [hon hd])))
        · exact arrived (chan.trans ((if_neg (by omega)).trans ((if_pos hd).trans (by rw [hdst (by omega)]))))
      · exact arrived ((State.arriveUnit_kept h1 (by omega)).trans (hon hd))
      · exact arrived ((State.arriveUnit_stackOff h1 h2 hd).trans (by rw [hdst (by omega)]))
      · exact arrived ((State.arriveUnit_kept h1 (by omega)).trans (hdst (by omega)))
    case padsUnit =>
      exact (exec_padholdRel hup hp).trans (congrArg _ ((State.releasePads_held hst hh).trans (if_neg (by omega))))
    case padsStack =>
      exact (exec_padholdRel hup hp).trans (congrArg _ ((State.releasePads_held hst hh).trans (if_pos ⟨h1, h2⟩)))
    case padsNone => exact (exec_padholdRel hup hp).trans (congrArg _ (State.releasePads_none h))
  case stack =>
    intro d lim
    refine ⟨fun (hst : (s.dom (408 + n)).st = 0) hl hi hq => ?_, exec_stackIdleRet_none,
      fun cause hc => ⟨fun hst => ?_, fun hst => ?_⟩⟩
    · exact (exec_stackIdleRet hup hn hst hl hi hq).trans (congrArg _ (State.beginDom_unit (by omega) (by omega) 0))
    · exact (exec_stackWake hup hn hc).trans (congrArg _ (State.wakeDom_ret hst cause))
    · exact (exec_stackWake hup hn hc).trans (congrArg _ (State.wakeDom_none hst cause))
  case telemetry =>
    intro t
    have sample := exec_telemetrySample hup power temp regs
    refine ⟨fun hwarm hwas => sample.trans (congrArg _ (if_pos (by simp [hwarm, hwas]))),
      fun h => sample.trans (congrArg _ (if_neg ?_))⟩
    rcases h with hcool | hwas
    · simp [hcool]
    · simp [hwas]
  case daybreak =>
    intro cause
    have daybreak := exec_daybreak haon hs hf
    exact ⟨fun hst => daybreak.trans (congrArg _ ((if_neg (by omega)).trans (State.wakeDom_ret hst cause))),
      fun hst => daybreak.trans (congrArg _ ((if_pos hst).trans (State.beginDom_unit (by omega) (by omega) cause)))⟩

end Sys2Proof.Machine
end

section
/-! SUPPORT. Image sessions, live restarts, monitor placement and the signature over a nonce (R366 to R369, R375 to
R382). -/

namespace Sys2Proof.Machine

/-! ### The checks of a header (R368, R369) -/

/-- A check passes, and so do those after it. -/
theorem ite_code_eq_zero {c : Prop} [Decidable c] {n x : Nat} [NeZero n] :
    (if c then n else x) = 0 ↔ ¬ c ∧ x = 0 := by
  by_cases h : c
  · simp [h, NeZero.ne n]
  · simp [h]

/-- A header that passes every check is of this part, under a key pair that is not revoked, no older than the floor of
its component, of a length that its component allows, and signed twice. -/
theorem State.checkHdr_passed {s : State} {hdr : List Byte} {want : Option Nat} (h : s.checkHdr hdr want = 0) :
    SMap.get 0 s.boot.floors (natAt hdr 6 2) ≤ natAt hdr 0x0C 4
    ∧ s.boot.revoked.testBit (byteAt hdr 9) = false ∧ (byteAt hdr 8).testBit (partBit s.part) = true
    ∧ Config.signatureValid hdr 0 = true ∧ Config.signatureValid hdr 1 = true
    ∧ natAt hdr 0x18 8 ≠ 0 ∧ natAt hdr 0x18 8 ≤ maxBody (natAt hdr 6 2) := by
  unfold State.checkHdr at h
  simp only [ite_code_eq_zero] at h
  obtain ⟨-, -, -, -, hpart, hkey, hlen, hfloor, hecdsa, hmldsa, -⟩ := h
  obtain ⟨-, hrevoked⟩ := not_or.mp hkey
  obtain ⟨hempty, hlong⟩ := not_or.mp hlen
  exact ⟨Nat.not_lt.mp hfloor, Bool.eq_false_iff.mpr hrevoked, by simpa using hpart, by simpa using hecdsa,
    by simpa using hmldsa, hempty, Nat.not_lt.mp hlong⟩

/-! ### Opening a session (R375) -/

section session
variable {s : State} {dest : Nat} {hdr body : List Byte}

theorem exec_imageSessionOpen (ho : s.svcOpen = true) (hd : dest ≤ 1) :
    exec (.imageSessionOpen dest) s = .next (s.sessionOpen dest).2 :=
  congrArg Host.Outcome.next (if_neg (by simp [ho, hd]))

theorem exec_imageHeader (ho : s.svcOpen = true) : exec (.imageHeader hdr) s = .next (s.sessionHeader hdr).2 :=
  congrArg Host.Outcome.next (if_neg (by simp [ho]))

theorem exec_imageBody (ho : s.svcOpen = true) : exec (.imageBody body) s = .next (s.sessionBody body).2 :=
  congrArg Host.Outcome.next (if_neg (by simp [ho]))

theorem exec_finalizeImg (ho : s.svcOpen = true) : exec .finalizeImg s = .next s.finalizeSession.2 :=
  congrArg Host.Outcome.next (if_neg (by simp [ho]))

/-- DEST 1 needs recovery or an image that the store lacks. -/
theorem State.sessionOpen_refused (h1 : dest = 1) (hp : s.boot.phase ≠ 7) (hl : s.boot.lacks = false) :
    (s.sessionOpen dest).2 = s.sessResult 14 := congrArg Prod.snd (if_pos ⟨h1, hp, hl⟩)

theorem State.sessionOpen_opened (h : dest = 0 ∨ s.boot.phase = 7 ∨ s.boot.lacks = true) :
    (s.sessionOpen dest).2 = s.modBoot (fun b => { b with
      sess := some dest, sessImgs := [], sessHdr := none, sessRes := 0, flashOff := 4096, dirList := [] }) := by
  refine congrArg Prod.snd (if_neg fun hrefused => ?_)
  obtain ⟨h1, hp, hl⟩ := hrefused
  rcases h with h | h | h
  · omega
  · exact hp h
  · simp [h] at hl

/-! ### Headers and bodies (R369, R375 to R377) -/

/-- Without a session, each part of one is answered with code 14. -/
theorem State.session_closed (h : s.boot.sess = none) :
    (s.sessionHeader hdr).2 = s.sessResult 14 ∧ (s.sessionBody body).2 = s.sessResult 14
    ∧ s.finalizeSession.2 = s.sessResult 14 := by
  refine ⟨?_, ?_, ?_⟩
  · rw [State.sessionHeader, h]
  · rw [State.sessionBody, h]
  · rw [State.finalizeSession, h]

section header
variable (hs : s.boot.sess = some dest)
include hs

theorem State.sessionHeader_length (hl : hdr.length ≠ 4096) :
    (s.sessionHeader hdr).2 = (s.sessResult 12).rejectImage 12 (natAt hdr 6 2) 2 := by
  rw [State.sessionHeader, hs]
  exact congrArg Prod.snd (if_pos hl)

variable (hl : hdr.length = 4096) (hd : dest = 0 ∨ s.boot.phase = 7)
include hl hd

theorem State.sessionHeader_rejected (hc : s.checkHdr hdr none ≠ 0) :
    (s.sessionHeader hdr).2 =
      (s.sessResult (s.checkHdr hdr none)).rejectImage (s.checkHdr hdr none) (natAt hdr 6 2) 2 := by
  unfold State.sessionHeader
  rw [hs]
  dsimp only
  rw [if_neg (not_not.mpr hl), if_neg (by omega)]
  split
  · exact absurd ‹_› hc
  · rfl

/-- With DEST 0 the directory of the inactive slot becomes invalid. -/
theorem State.sessionHeader_accepted (hc : s.checkHdr hdr none = 0) :
    (s.sessionHeader hdr).2 =
      (if dest = 0 then s.flashWrite (slotBase s.inactiveSlot) [0, 0, 0, 0] else s).modBoot
        (fun b => { b with sessHdr := some (imgOf hdr 2), sessRes := 0 }) := by
  unfold State.sessionHeader
  rw [hs]
  dsimp only
  rw [if_neg (not_not.mpr hl), if_neg (by omega), hc]
  rfl

end header

/-- A body is refused, and with it the header that it is of. -/
def State.bodyRejected (s : State) (im : Img) (n : Nat) : State :=
  ((s.modBoot (fun b => { b with sessHdr := none })).sessResult n).rejectImage n im.comp 2

section body
variable {im : Img} (hs : s.boot.sess = some dest) (hi : s.boot.sessHdr = some im)
include hs hi

theorem State.sessionBody_length (hl : body.length ≠ im.len) : (s.sessionBody body).2 = s.bodyRejected im 12 := by
  rw [State.sessionBody, hs, hi]
  exact congrArg Prod.snd (if_pos hl)

variable (hl : body.length = im.len)
include hl

theorem State.sessionBody_hash (hh : sha384 body ≠ im.hash) : (s.sessionBody body).2 = s.bodyRejected im 11 := by
  rw [State.sessionBody, hs, hi]
  exact congrArg Prod.snd ((if_neg (not_not.mpr hl)).trans (if_pos hh))

variable (hh : sha384 body = im.hash)
include hh

theorem State.sessionBody_full (hd : dest = 0) (hf : 0x2000000 < s.boot.flashOff + 4096 + im.len) :
    (s.sessionBody body).2 = s.bodyRejected im 12 := by
  rw [State.sessionBody, hs, hi]
  exact congrArg Prod.snd ((if_neg (not_not.mpr hl)).trans ((if_neg (not_not.mpr hh)).trans
    ((if_pos hd).trans (if_pos hf))))

/-- A body for the flash is written to the inactive slot. -/
theorem State.sessionBody_written (hd : dest = 0) (hf : s.boot.flashOff + 4096 + im.len ≤ 0x2000000) :
    (s.sessionBody body).2 =
      (s.flashWrite (slotBase s.inactiveSlot + s.boot.flashOff) (im.hdr ++ body)).modBoot (fun b => { b with
        sessHdr := none, sessRes := 0, sessImgs := imgPut b.sessImgs im
        dirList := b.dirList.filter (fun e => e.1 != im.comp) ++ [(im.comp, s.boot.flashOff)]
        flashOff := s.boot.flashOff + 4096 + (im.len + 4095) / 4096 * 4096 }) := by
  rw [State.sessionBody, hs, hi]
  exact congrArg Prod.snd ((if_neg (not_not.mpr hl)).trans ((if_neg (not_not.mpr hh)).trans
    ((if_pos hd).trans (if_neg (Nat.not_lt.mpr hf)))))

/-- In recovery a body is taken, and the monitor is placed. -/
theorem State.sessionBody_taken (hd : dest ≠ 0) (hp : s.boot.phase = 7) :
    let t := s.modBoot (fun b => { b with sessHdr := none, sessRes := 0, sessImgs := imgPut b.sessImgs im })
    (s.sessionBody body).2 = if im.comp = 5 then t.placeMonitor im body else t := by
  rw [State.sessionBody, hs, hi]
  exact congrArg Prod.snd ((if_neg (not_not.mpr hl)).trans ((if_neg (not_not.mpr hh)).trans
    ((if_neg hd).trans (if_pos hp))))

end body

/-! ### Finalizing (R375 to R377) -/

section finalize

/-- No directory is written while a live restart runs. -/
theorem State.finalizeSession_busy (hs : s.boot.sess = some 0) (hr : s.boot.liveRun = true) :
    s.finalizeSession.2 = s.sessResult 14 := by
  rw [State.finalizeSession, hs]
  exact congrArg Prod.snd (if_pos (by simp [hr]))

theorem State.finalizeSession_incomplete (hs : s.boot.sess = some 0) (hr : s.boot.liveRun = false)
    (hi : s.boot.liveImgs = []) (hc : complete s.boot.sessImgs = false) : s.finalizeSession.2 = s.sessResult 15 := by
  rw [State.finalizeSession, hs]
  exact congrArg Prod.snd ((if_neg (by simp [hr, hi])).trans (if_pos (by simp [hc])))

/-- The sequence number that the directory of a slot takes: above that of the other slot. -/
def State.nextSeq (s : State) (slot : Nat) : Nat := match s.directory (1 - slot) with | some (q, _) => q + 1 | none => 1

theorem State.finalizeSession_written (hs : s.boot.sess = some 0) (hr : s.boot.liveRun = false)
    (hi : s.boot.liveImgs = []) (hc : complete s.boot.sessImgs = true) :
    let d := dirBytes (s.nextSeq s.inactiveSlot) s.boot.dirList
    s.finalizeSession.2 = (s.flashWrite (slotBase s.inactiveSlot) (d ++ List.replicate (4096 - d.length) 0)).modBoot
      (fun b => { b with sess := none, sessImgs := [], sessHdr := none, sessRes := 0 }) := by
  rw [State.finalizeSession, hs]
  exact congrArg Prod.snd ((if_neg (by simp [hr, hi])).trans (if_neg (by simp [hc])))

section recovery
variable (hs : s.boot.sess = some 1) (hp : s.boot.phase = 7)
include hs hp

theorem State.finalizeSession_recovery_incomplete (hc : complete s.boot.sessImgs = false) :
    s.finalizeSession.2 = s.sessResult 15 := by
  rw [State.finalizeSession, hs]
  exact congrArg Prod.snd ((if_neg (not_not.mpr hp)).trans (if_pos (by simp [hc])))

/-- The start goes on at phase 3 with the images of the session. -/
theorem State.finalizeSession_recovery (hc : complete s.boot.sessImgs = true) :
    s.finalizeSession.2 =
      (s.modBoot (fun b => { b with
        sess := none, sessImgs := [], sessHdr := none, sessRes := 0, recov := true })).bringUp s.boot.sessImgs := by
  rw [State.finalizeSession, hs]
  exact congrArg Prod.snd ((if_neg (not_not.mpr hp)).trans (if_neg (by simp [hc])))

end recovery
end finalize
end session

/-! ### Live restart, monitor placement and nonces (R378 to R380, R382) -/

section live
variable {s : State}

/-- A restart that replaces the microcode waits for the pipes to empty. -/
theorem exec_liveRestart_waits (hm : s.boot.liveMask.testBit 2 = true)
    (hp : (s.fn s.boot.liveReg).insts.any (fun e => e.2.pipe) = true) : exec .liveRestartComplete s = .next s :=
  congrArg Host.Outcome.next (if_pos (by simp only [hm, hp, Bool.and_self, Bool.or_true]))

theorem exec_monitorPlacement {n : Nat} {t : State} (hup : s.up = true) (hm : s.boot.monPend = true)
    (h : s.placeNow = (n, t)) (hw : t.waits = false) :
    exec .monitorPlacement s = .next (t.modBoot (fun b => { b with monPend := false, placeRes := n })) := by
  refine congrArg Host.Outcome.next (.trans (congrArg s.orWait ((if_neg (by simp [hup, hm])).trans ?_))
    (State.orWait_of s hw))
  rw [h]

/-- A destination that is no page, above the capacity, or a live restart under way: nothing is placed. -/
theorem State.placeNow_refused
    (h : s.boot.placeDst % 4096 ≠ 0 ∨ s.boot.liveRun = true ∨ s.capacity ≤ s.boot.placeDst) : s.placeNow = (14, s) :=
  if_pos (by rcases h with h | h | h <;> simp [h])

theorem exec_nonceSign {port : Nat} {nonce : List Byte} (hr : s.pins.resetN = true) (hs : s.scan = false)
    (hk : s.boot.keyDerived = true) (hp : port = 1 ∨ port = 2) (hl : nonce.length = 32) :
    exec (.nonceSign port nonce) s = .next (s.signNonce nonce) :=
  congrArg Host.Outcome.next (if_neg (by rcases hp with rfl | rfl <;> simp [hr, hs, hk, hl]))

end live

/-- Settles O54: each command of a session by what the session holds, and each of the others by its condition. -/
theorem imageResults : Obligations.ImageResults := by
  intro s code
  refine ⟨fun ho => ⟨fun dest hd => ⟨fun h1 hp hl => ?refused, fun h => ?opened⟩, fun hs => ?closed,
    fun dest hs => ⟨?length, fun hdr hl hd => ⟨fun hc => ?rejected, fun hc => ?accepted⟩, fun im body hi => ?body,
    fun hd => ?flash, fun hd hp => ?recovery⟩⟩, fun hdr want => State.checkHdr_passed, fun hup hrun hlacks => ?live,
    fun hup hm => ?place, fun hr hs hk port nonce hp hl => ?nonce⟩
  case refused => exact (exec_imageSessionOpen ho hd).trans (congrArg _ (State.sessionOpen_refused h1 hp hl))
  case opened => exact (exec_imageSessionOpen ho hd).trans (congrArg _ (State.sessionOpen_opened h))
  case closed =>
    refine ⟨fun bs => ?_, ?_⟩
    · obtain ⟨hheader, hbody, -⟩ := State.session_closed (hdr := bs) (body := bs) hs
      exact ⟨(exec_imageHeader ho).trans (congrArg _ hheader), (exec_imageBody ho).trans (congrArg _ hbody)⟩
    · obtain ⟨-, -, hfinalize⟩ := State.session_closed (hdr := []) (body := []) hs
      exact (exec_finalizeImg ho).trans (congrArg _ hfinalize)
  case length => exact fun hdr hl => (exec_imageHeader ho).trans (congrArg _ (State.sessionHeader_length hs hl))
  case rejected => exact (exec_imageHeader ho).trans (congrArg _ (State.sessionHeader_rejected hs hl hd hc))
  case accepted => exact (exec_imageHeader ho).trans (congrArg _ (State.sessionHeader_accepted hs hl hd hc))
  case body =>
    intro fail
    have body {t : State} (h : (s.sessionBody body).2 = t) : exec (.imageBody body) s = .next t :=
      (exec_imageBody ho).trans (congrArg _ h)
    refine ⟨fun hl => body (State.sessionBody_length hs hi hl), fun hl hh => body (State.sessionBody_hash hs hi hl hh),
      fun hl hh hd => ?_, fun hl hh hd hp => body (State.sessionBody_taken hs hi hl hh hd hp)⟩
    exact ⟨fun hf => body (State.sessionBody_full hs hi hl hh hd hf),
      fun hf => body (State.sessionBody_written hs hi hl hh hd hf)⟩
  case flash =>
    subst hd
    have final := exec_finalizeImg ho
    refine ⟨fun hr => final.trans (congrArg _ (State.finalizeSession_busy hs hr)),
      fun hr hi hc => final.trans (congrArg _ (State.finalizeSession_incomplete hs hr hi hc)), fun hr hi hc => ?_⟩
    rintro slot seq rfl d
    exact final.trans (congrArg _ (State.finalizeSession_written hs hr hi hc))
  case recovery =>
    subst hd
    have final := exec_finalizeImg ho
    exact ⟨fun hc => final.trans (congrArg _ (State.finalizeSession_recovery_incomplete hs hp hc)),
      fun hc => final.trans (congrArg _ (State.finalizeSession_recovery hs hp hc))⟩
  case live =>
    intro b r
    refine ⟨exec_liveRestart_waits, fun h => congrArg Host.Outcome.next (if_neg ?_)⟩
    have hempty : (b.liveMask.testBit 2 && (s.fn r).insts.any (fun e => e.2.pipe)) = false := by
      rcases h with h | h <;> simp only [h, Bool.false_and, Bool.and_false]
    simp only [hup, hrun, hlacks]
    exact Bool.eq_false_iff.mp hempty
  case place => exact ⟨fun n t h hw => exec_monitorPlacement hup hm h hw, State.placeNow_refused⟩
  case nonce =>
    rintro head m rfl
    exact exec_nonceSign hr hs hk hp hl

end Sys2Proof.Machine
end
